-- ==== Sys2Proof/Word.lean ====
section
/-! DEFINITION. The plain types every other file uses: bytes, sites, tokens (R31) and host-memory views. -/

namespace Sys2Proof

/-- A byte (R5: little-endian everywhere). -/
abbrev Byte := BitVec 8
/-- A 32-bit lane (R31). -/
abbrev Lane := BitVec 32
/-- Bytes at addresses in canonical form (Host.Cell). -/
abbrev Mem := List (Nat × Byte)

/-- A site qQ.yYY.xXX (R13, R27). -/
structure Site where
  q : Nat
  row : Nat
  col : Nat
  deriving DecidableEq, Repr, Inhabited

/-- A token: 1,024 data bits and the control bits of R31. -/
structure Tok where
  data : BitVec 1024
  pred : BitVec 32
  tag : Nat
  poison : Bool
  last : Bool
  deriving DecidableEq, Repr, Inhabited

/-- What the host has put into its own memory, as the device's DMA reads find it (R277), with the bytes
the CXL link delivers with poison (R151); and the errors that have come into the cells of the device's memories since the last view,
by address, true where their code does not correct them (R149). The surroundings' input to a command that reads. -/
structure HostView where
  cells : List (Nat × Byte)
  poison : List Nat
  flaws : List (Nat × Bool)
  deriving DecidableEq, Repr, Inhabited

/-- A Buduty message header with its payload (R252). -/
structure Msg where
  type : Nat
  bcast : Bool
  troupe : Bool
  reqann : Bool
  dst : Nat
  src : Nat
  depoch : Nat
  sepoch : Nat
  dq : Nat
  ctr : Nat
  len : Nat
  opid : Nat
  rtag : Nat
  a0 : BitVec 64
  a1 : BitVec 64
  a2 : BitVec 64
  a3 : BitVec 64
  payload : List Byte
  poison : List Nat     -- its flits with POISON = 1, counted from the first (R249)
  deriving DecidableEq, Repr, Inhabited

end Sys2Proof
end

