-- ==== Sys2Proof/Syntax.lean ====
section
/-! DEFINITION. The commands of the block: one constructor per row of spec/opcode_table.json, in its order.
Function numbers `f` are 0 in the native personality and 0 to 3 under Azgen (R316). A callboard command
names the slot whose cued packet the stage manager takes (R288); its parameters are the packet's own bytes.
A command that reads host memory carries the host's view of it. Rows that stand for an event inside the
device name the unit, queue or job the event happens to, and what its surroundings or a production decide. -/

namespace Sys2Proof

/-- Registers and fields that REGISTER_WRITE reaches (R7): those with no row of their own. -/
inductive Reg where
  | bar0 (f off : Nat)          -- an 8-byte (or MSI-X 4-byte) register of BAR0 at its offset (R280)
  | config (f off : Nat)        -- a 4-byte word of a function's configuration space (R279, R423)
  | bme (f : Nat)               -- Bus Master Enable of the function (R284)
  | functionMask (f : Nat)      -- the MSI-X function mask (R372)
  | target (t off : Nat)        -- a control-core call-light instance 0 to 7 (R374)
  | shared (src : Nat)          -- a shared source's configuration word (R375)
  | dimCfg                      -- DIM_CFG (R350)
  | dimQstat (q : Nat)          -- DIM_QSTAT of a quadrant (R350)
  | recovery (off : Nat)        -- the recovery window (R399): RC_OFF, RC_LEN, the buffer bytes
  deriving DecidableEq, Repr, Inhabited

/-- What causes a function reset (R381). -/
inductive ResetCause where
  | kind4 | flr | perst | hotReset
  deriving DecidableEq, Repr, Inhabited

/-- What causes a power-off (R357, R378, R411). -/
inductive OffCause where
  | thermal | inputTrip | dropout | enableLost
  deriving DecidableEq, Repr, Inhabited

/-- A token source (R66): an output queue of a unit, a trap read, or a gateway link. -/
inductive Src where
  | out (s : Site) (k : Nat)
  | trap (s : Site) (t : Nat)
  | gw (q link : Nat)
  deriving DecidableEq, Repr, Inhabited

/-- The three kinds of queue ECC error (R33). -/
inductive EccKind where
  | single | doubleData | doubleCtl
  deriving DecidableEq, Repr, Inhabited

/-- What the code of a scrubbed codeword shows (R154), or that of an MU line that is read (R46). -/
inductive ScrubKind where
  | clean | correctable | uncorrectable
  deriving DecidableEq, Repr, Inhabited

/-- How training ended (R245, R246). -/
inductive TrainResult where
  | full | halfLow | halfHigh | failed
  deriving DecidableEq, Repr, Inhabited

/-- The identity a peer sends at training (R246). -/
structure PeerId where
  isSwitch : Bool
  strap : Nat
  serial : Nat
  addr : Option (Nat × Nat)
  deriving DecidableEq, Repr, Inhabited

/-- A flit as the port sees it (R249). `good`: its CRC matches. -/
structure Flit where
  good : Bool
  ftype : Nat
  vc : Nat
  som : Bool
  eom : Bool
  poison : Bool
  seq : Nat
  ack : Nat
  nak : Bool
  crvc : Nat
  crcnt : Nat
  paylen : Nat
  deriving DecidableEq, Repr, Inhabited

/-- What one request's rows gave in a step: the target of each row's node (T(i) of R203, node 0 first),
its log-probability and whether it derives from poison. The production's arithmetic decides it (R191). -/
structure RowResult where
  req : Nat
  targets : List Nat
  logprobs : List (BitVec 32)
  poison : List Bool
  deriving DecidableEq, Repr, Inhabited

/-- Engine times of a job since the last accrual, in local µs (R337). -/
structure EngineTimes where
  ae : Nat
  te : Nat
  xe : Nat
  se : Nat
  deriving DecidableEq, Repr, Inhabited

/-- An array-engine read or write of an MU line (R424): `none` reads, `some` writes a line and its poison. -/
abbrev LineAccess := Option (BitVec 1024 × Bool)

/-- Slot entries that the array engine's rerouting gives the switches of a scene (R58): row, column, the entries. -/
abbrev Tables := List (Nat × Nat × List (BitVec 32))

/-- The commands, one constructor per row of the table, in the table's order. -/
inductive Instr where
  -- the callboard's hardware and the registers
  | callboardWrite (f off : Nat) (data : List Byte)
  | goWrite (f slot : Nat) (w : BitVec 32)
  | registerWrite (r : Reg) (v : BitVec 64)
  -- callboard commands
  | hello (f slot : Nat)
  | leaseSet (f slot : Nat)
  | readiness (f slot : Nat)
  | resetFunction (f slot : Nat)
  | release (f slot : Nat)
  | place (f slot : Nat)
  | evict (f slot : Nat)
  | pin (f slot : Nat)
  | poolQuery (f slot : Nat)
  | lend (f slot : Nat)
  | borrow (f slot : Nat)
  | productionLoad (f slot : Nat) (h : HostView)
  | onStage (f slot : Nat)
  | offStage (f slot : Nat)
  | changeover (f slot : Nat)
  | productionDrop (f slot : Nat)
  | requestOpen (f slot : Nat)
  | requestAppend (f slot : Nat) (h : HostView)
  | requestCancel (f slot : Nat)
  | requestPark (f slot : Nat)
  | requestResume (f slot : Nat)
  | jobSubmit (f slot : Nat) (lacking : List Nat)
  | jobEnd (f slot : Nat)
  | jobPreempt (f slot : Nat)
  | jobQuery (f slot : Nat)
  | boxOfficeRead (f slot : Nat)
  | classSet (f slot : Nat)
  | linkPlan (f slot : Nat)
  | troupeForm (f slot : Nat)
  | discover (f slot : Nat)
  | sliceSet (f slot : Nat)
  | routeSet (f slot : Nat) (h : HostView)
  | epochQuery (f slot : Nat)
  | powerCapSet (f slot : Nat)
  | dimmerSet (f slot : Nat)
  | calibrationRead (f slot : Nat)
  | calibrationWrite (f slot : Nat) (h : HostView)
  | calibrationProgram
  | flashOperationComplete
  | thermalQuery (f slot : Nat)
  | imageBegin (f slot : Nat) (h : HostView)
  | imageData (f slot : Nat) (h : HostView)
  | imageArm (f slot : Nat)
  | activate (f slot : Nat)
  | identity (f slot : Nat)
  | attest (f slot : Nat)
  | countersRead (f slot : Nat)
  | strikeRead (f slot : Nat)
  | unitTest (f slot : Nat)
  | understudyMap (f slot : Nat)
  -- lease and call lights
  | leaseExpiry (f : Nat)
  | claim (t : Nat)
  | eoi (t src : Nat)
  | swset (t : Nat) (mask : BitVec 32)
  | sourceEdge (src : Nat) (high : Bool)
  | msixUnmask (f vec : Nat)
  -- ROM recovery
  | rcBegin
  | rcChunk
  | rcFinish
  | rcReboot (failed : List Site)
  -- power-up, resets and power events
  | powerUp (strap : Nat) (failed : List Site)
  | functionReset (f : Nat) (cause : ResetCause)
  | dimmerUpdate (withheld : List Nat)
  | capLoopTick (power : Nat)
  | throttleStep (temps : List (Nat × BitVec 16))
  | thermalTrip (sensor : Nat) (temp : BitVec 16)
  | thermalTripClear (temps : List (Nat × BitVec 16))
  | inputTrip (mv : Nat)
  | inputTripClear (mv : Nat)
  | inputPowerExcursion (power : Nat)
  | pwrAlertAssert
  | pwrAlertDeassert
  | coolantOkLoss
  | coolantOkRestore
  | powerOff (cause : OffCause)
  | quadrantDark (q : Nat)
  | wakeComplete (q : Nat)
  -- array engine and grid
  | load (q aq slot addr len : Nat)
  | loadComplete (q slot : Nat) (reroute : Option Tables)
  | run (q aq slot : Nat) (first : Bool)
  | runRetire (q : Nat)
  | change (q aq slot : Nat) (cut : Bool)
  | cut (q : Nat)
  | siteSwitch (s : Site)
  | pathEnable (src : Src)
  | vectorFiring (s : Site)
  | operandFill (s : Site)
  | sideToken (s : Site) (sideB : Bool)
  | matrixStep (s : Site)
  | tileDrain (s : Site)
  | agIssue (s : Site) (ag : Nat)
  | gatherIndex (s : Site) (ag : Nat)
  | setDown (s : Site) (ag : Nat)
  | pickUp (s : Site) (ag : Nat)
  | bankAccess (s : Site) (port : Nat)
  | engineMuAccess (s : Site) (line : Nat) (acc : LineAccess)
  | tokenInject (src : Src)
  | tokenHop (q n : Nat)
  | creditReturn (q n : Nat)
  | queueEccError (s : Site) (queue pos : Nat) (kind : EccKind)
  | statusPoll (q : Nat) (missed : List (Nat × Nat))
  | stallWatchdogTrip (q : Nat)
  | stallStrikeCommit (q : Nat)
  -- tier engine
  | move (q tq : Nat) (h : HostView)
  | stream (q tq : Nat) (h : HostView)
  | collect (q tq : Nat)
  | placeEntry (q tq : Nat)
  | post (q tq : Nat)
  | wait (q tq : Nat)
  | dset (q tq : Nat)
  | creset (q tq : Nat)
  | loop (q tq : Nat)
  | loopIteration (q tq : Nat)
  | trackerRetry (q tq : Nat)
  | entryComplete (q tq n : Nat)
  | teWaitTrip (q tq : Nat)
  | dispenserClaim (q link : Nat)
  -- routing block
  | scoreToken (q : Nat)
  | routedClaim (q link : Nat)
  | fetchRound (q : Nat)
  | shardComplete (q : Nat)
  | doneToken (q : Nat)
  | generationBump
  -- serving engine and memory
  | composition (job : Nat) (h : HostView) (drafts : List (Nat × List (Nat × Nat)))
  | stepEnd (job : Nat) (results : List RowResult) (times : EngineTimes)
  | pageSealCommit (req layer page : Nat)
  | parkCommit (req : Nat)
  | resumeCommit (req : Nat)
  | wingsSweep
  | placementCommit (pid : Nat) (h : HostView)
  | patrolScrub (addr : Nat) (kind : ScrubKind)
  | cxlMemRead (off len : Nat)
  | cxlMemWrite (off : Nat) (data : List Byte)
  | hostSnoop (addr : Nat)
  | loanTermExpiry (loan : Nat) (lender : Bool)
  | loanRecallFree (loan : Nat)
  -- jobs
  | jobStart (job : Nat) (h : HostView)
  | preemptHoldExpiry (job : Nat)
  | jobRecordCommit (job : Nat)
  | set (job : Nat)
  | setComplete (job : Nat)
  -- links
  | trainingEnd (p : Nat) (r : TrainResult) (peer : PeerId)
  | trainingRetry (p : Nat)
  | retrain (p : Nat)
  | retrainTimeout (p : Nat)
  | flitReceive (p : Nat) (fl : Flit)
  | linkTimeout (op : Nat)
  | creditTimeout (op : Nat)
  -- messages
  | put (p : Nat) (m : Msg)
  | get (p : Nat) (m : Msg)
  | reduce (p : Nat) (m : Msg)
  | reduceResend (op : Nat)
  | loanPut (p : Nat) (m : Msg)
  | dispatchRec (p : Nat) (m : Msg)
  | dispatchEnd (p : Nat) (m : Msg)
  | dispatchAns (p : Nat) (m : Msg)
  | borrowRequest (p : Nat) (m : Msg)
  | renew (p : Nat) (m : Msg)
  | ack (p : Nat) (m : Msg)
  | getData (p : Nat) (m : Msg)
  | lendGrant (p : Nat) (m : Msg)
  | error (p : Nat) (m : Msg)
  | announce (p : Nat) (m : Msg)
  | withdraw (p : Nat) (m : Msg)
  | fence (p : Nat) (m : Msg)
  | recall (p : Nat) (m : Msg)
  | form (p : Nat) (m : Msg)
  | accept (p : Nat) (m : Msg)
  | refuse (p : Nat) (m : Msg)
  | commit (p : Nat) (m : Msg)
  | troupeFormTimeout
  | dissolve (p : Nat) (m : Msg)
  | jobstart (p : Nat) (m : Msg)
  | step (p : Nat) (m : Msg)
  | stepend (p : Nat) (m : Msg)
  | bias (p : Nat) (m : Msg)
  | jobend (p : Nat) (m : Msg)
  | preempt (p : Nat) (m : Msg)
  -- exchange-sheet entries
  | putEntry (xq : Nat)
  | getEntry (xq : Nat)
  | reduceEntry (xq : Nat)
  | waitEntry (xq : Nat)
  -- activation
  | activationStart
  | activationRestart (readback : Bool)
  -- management
  | mctpControl (code : Nat) (body : List Byte)
  | entdaa (addr : Nat)
  | setdasa (static addr : Nat)
  | getVersion
  | getCapabilities
  | negotiateAlgorithms (asym hash : Bool)
  | getDigests
  | getCertificate (slot off len : Nat)
  | challenge (slot : Nat) (nonce : List Byte)
  | getMeasurements (index : Nat) (nonce : List Byte)
  | chunkGet (handle seq : Nat)
  | respondIfReady (token : Nat)
  | getTid
  | setTid (tid : Nat)
  | getPldmVersion (type : Nat)
  | getPldmTypes
  | getPldmCommands (type : Nat)
  | getPdrRepositoryInfo
  | getPdr (handle : Nat)
  | getSensorReading (sensor : Nat)
  | getStateSensorReadings (sensor : Nat)
  | setEventReceiver (enable : Nat) (addr : Nat)
  | eventMessageSupported
  | eventMessageBufferSize (size : Nat)
  | platformEventRetry (n : Nat)
  | queryDeviceIdentifiers
  | getFirmwareParameters
  | requestUpdate (maxTransfer : Nat)
  | passComponentTable (comp : Nat)
  | updateComponent (header : List Byte)
  | requestFirmwareData (off : Nat) (data : List Byte)
  | transferComplete (result : Nat)
  | verifyComplete (failed : List Site)
  | applyComplete
  | activateFirmware (selfContained : Bool)
  | getStatus
  | cancelUpdateComponent
  | cancelUpdate
  | settingsRead
  | settingsWrite (page : List Byte)
  | capSet (cap : Nat) (persist : Bool)
  | calibrationTransfer (part : Nat) (data : List Byte)
  | eventAck (n : Nat)
  -- readiness and the remaining power events
  | rdyMapBitSet (bit : Nat)
  | unitTestDone (q : Nat) (pass : Bool)
  | inputPowerExcursionEnd (power : Nat)
  | inputPowerApplied (mv : Nat)
  | railSequenceStop (enableLost : Bool)
  deriving DecidableEq, Repr, Inhabited

end Sys2Proof
end

