-- ==== Sys2Proof/WellFormed.lean ====
section
/-! DEFINITION. Well-formed commands: every unit, slot, port and table index lies in the range the spec gives it. -/

namespace Sys2Proof

/-- A CXL.io function: one in the native personality, four under Azgen (R280, R316). -/
def fnOk (f : Nat) : Bool := decide (f < 4)

/-- A quadrant (R1). -/
def quadOk (q : Nat) : Bool := decide (q < 4)

/-- A stage port (R244). -/
def portOk (p : Nat) : Bool := decide (p < 18)

/-- A site of the 22 by 16 grid (R27). -/
def siteOk (s : Site) : Bool := quadOk s.q && decide (s.row < 16) && decide (s.col < 22)

/-- A token source (R66): output queue 0 to 3, trap 0 or 1, gateway link 0 to 37. -/
def srcOk : Src → Bool
  | .out s k => siteOk s && decide (k < 4)
  | .trap s t => siteOk s && decide (t < 2)
  | .gw q link => quadOk q && decide (link < 38)

/-- A message's header fields fit their widths (R252). -/
def msgOk (m : Msg) : Bool :=
  decide (m.type < 256) && decide (m.dst < 16384) && decide (m.src < 16384) &&
  decide (m.depoch < 65536) && decide (m.sepoch < 65536) && decide (m.ctr < 256) && decide (m.payload.length ≤ 65536)

/-- A flit's fields fit their widths (R249). -/
def flitOk (fl : Flit) : Bool := decide (fl.seq < 4096) && decide (fl.ack < 4096) && decide (fl.vc < 4)

/-- A register that REGISTER_WRITE reaches exists (R279, R280, R350, R374, R375, R399, R423). -/
def regOk : Reg → Bool
  | .bar0 f off => fnOk f && decide (off < 0x100000)
  | .bme f => fnOk f
  | .functionMask f => fnOk f
  | .target t off => decide (t < 8) && decide (off < 4096)
  | .config f off => fnOk f && decide (off < 4096)
  | .shared src => decide (32 ≤ src) && decide (src < 1024)
  | .dimCfg => true
  | .dimQstat q => quadOk q
  | .recovery off => decide (off < 0x20000)

/-- A command's operands name parts the device has. -/
def wellFormed : Instr → Bool
  | .callboardWrite f _ _ => fnOk f
  | .goWrite f slot _ => fnOk f && decide (slot < 256)
  | .registerWrite r _ => regOk r
  | .hello f slot => fnOk f && decide (slot < 256)
  | .leaseSet f slot => fnOk f && decide (slot < 256)
  | .readiness f slot => fnOk f && decide (slot < 256)
  | .resetFunction f slot => fnOk f && decide (slot < 256)
  | .release f slot => fnOk f && decide (slot < 256)
  | .place f slot => fnOk f && decide (slot < 256)
  | .evict f slot => fnOk f && decide (slot < 256)
  | .pin f slot => fnOk f && decide (slot < 256)
  | .poolQuery f slot => fnOk f && decide (slot < 256)
  | .lend f slot => fnOk f && decide (slot < 256)
  | .borrow f slot => fnOk f && decide (slot < 256)
  | .productionLoad f slot _ => fnOk f && decide (slot < 256)
  | .onStage f slot => fnOk f && decide (slot < 256)
  | .offStage f slot => fnOk f && decide (slot < 256)
  | .changeover f slot => fnOk f && decide (slot < 256)
  | .productionDrop f slot => fnOk f && decide (slot < 256)
  | .requestOpen f slot => fnOk f && decide (slot < 256)
  | .requestAppend f slot _ => fnOk f && decide (slot < 256)
  | .requestCancel f slot => fnOk f && decide (slot < 256)
  | .requestPark f slot => fnOk f && decide (slot < 256)
  | .requestResume f slot => fnOk f && decide (slot < 256)
  | .jobSubmit f slot _ => fnOk f && decide (slot < 256)
  | .jobEnd f slot => fnOk f && decide (slot < 256)
  | .jobPreempt f slot => fnOk f && decide (slot < 256)
  | .jobQuery f slot => fnOk f && decide (slot < 256)
  | .boxOfficeRead f slot => fnOk f && decide (slot < 256)
  | .classSet f slot => fnOk f && decide (slot < 256)
  | .linkPlan f slot => fnOk f && decide (slot < 256)
  | .troupeForm f slot => fnOk f && decide (slot < 256)
  | .discover f slot => fnOk f && decide (slot < 256)
  | .sliceSet f slot => fnOk f && decide (slot < 256)
  | .routeSet f slot _ => fnOk f && decide (slot < 256)
  | .epochQuery f slot => fnOk f && decide (slot < 256)
  | .powerCapSet f slot => fnOk f && decide (slot < 256)
  | .dimmerSet f slot => fnOk f && decide (slot < 256)
  | .calibrationRead f slot => fnOk f && decide (slot < 256)
  | .calibrationWrite f slot _ => fnOk f && decide (slot < 256)
  | .calibrationProgram => true
  | .flashOperationComplete => true
  | .thermalQuery f slot => fnOk f && decide (slot < 256)
  | .imageBegin f slot _ => fnOk f && decide (slot < 256)
  | .imageData f slot _ => fnOk f && decide (slot < 256)
  | .imageArm f slot => fnOk f && decide (slot < 256)
  | .activate f slot => fnOk f && decide (slot < 256)
  | .identity f slot => fnOk f && decide (slot < 256)
  | .attest f slot => fnOk f && decide (slot < 256)
  | .countersRead f slot => fnOk f && decide (slot < 256)
  | .strikeRead f slot => fnOk f && decide (slot < 256)
  | .unitTest f slot => fnOk f && decide (slot < 256)
  | .understudyMap f slot => fnOk f && decide (slot < 256)
  | .leaseExpiry f => fnOk f
  | .claim t => decide (t < 12)
  | .eoi t _ => decide (t < 12)
  | .swset t _ => decide (t < 12)
  | .sourceEdge _ _ => true
  | .msixUnmask f vec => fnOk f && decide (vec < 64)
  | .rcBegin => true
  | .rcChunk => true
  | .rcFinish => true
  | .rcReboot failed => failed.all siteOk
  | .powerUp strap failed => decide (strap < 8) && failed.all siteOk
  | .functionReset f _ => fnOk f
  | .dimmerUpdate _ => true
  | .capLoopTick _ => true
  | .throttleStep _ => true
  | .thermalTrip _ _ => true
  | .thermalTripClear _ => true
  | .inputTrip _ => true
  | .inputTripClear _ => true
  | .inputPowerExcursion _ => true
  | .pwrAlertAssert => true
  | .pwrAlertDeassert => true
  | .coolantOkLoss => true
  | .coolantOkRestore => true
  | .powerOff _ => true
  | .quadrantDark q => quadOk q
  | .wakeComplete q => quadOk q
  | .load q aq slot _ _ => quadOk q && decide (aq < 8) && decide (slot < 4)
  | .loadComplete q slot _ => quadOk q && decide (slot < 4)
  | .run q aq slot _ => quadOk q && decide (aq < 8) && decide (slot < 4)
  | .runRetire q => quadOk q
  | .change q aq slot _ => quadOk q && decide (aq < 8) && decide (slot < 4)
  | .cut q => quadOk q
  | .siteSwitch s => siteOk s
  | .pathEnable src => srcOk src
  | .vectorFiring s => siteOk s
  | .operandFill s => siteOk s
  | .sideToken s _ => siteOk s
  | .matrixStep s => siteOk s
  | .tileDrain s => siteOk s
  | .agIssue s ag => siteOk s && decide (ag < 4)
  | .gatherIndex s ag => siteOk s && decide (ag < 4)
  | .setDown s ag => siteOk s && decide (ag < 4)
  | .pickUp s ag => siteOk s && decide (ag < 4)
  | .bankAccess s port => siteOk s && decide (port < 3)
  | .engineMuAccess s line _ => siteOk s && decide (line < 98304)
  | .tokenInject src => srcOk src
  | .tokenHop q _ => quadOk q
  | .creditReturn q _ => quadOk q
  | .queueEccError s _ _ _ => siteOk s
  | .statusPoll q _ => quadOk q
  | .stallWatchdogTrip q => quadOk q
  | .stallStrikeCommit q => quadOk q
  | .move q tq _ => quadOk q && decide (tq < 8)
  | .stream q tq _ => quadOk q && decide (tq < 8)
  | .collect q tq => quadOk q && decide (tq < 8)
  | .placeEntry q tq => quadOk q && decide (tq < 8)
  | .post q tq => quadOk q && decide (tq < 8)
  | .wait q tq => quadOk q && decide (tq < 8)
  | .dset q tq => quadOk q && decide (tq < 8)
  | .creset q tq => quadOk q && decide (tq < 8)
  | .loop q tq => quadOk q && decide (tq < 8)
  | .loopIteration q tq => quadOk q && decide (tq < 8)
  | .trackerRetry q tq => quadOk q && decide (tq < 8)
  | .entryComplete q tq _ => quadOk q && decide (tq < 8)
  | .teWaitTrip q tq => quadOk q && decide (tq < 8)
  | .dispenserClaim q link => quadOk q && decide (link < 38)
  | .scoreToken q => quadOk q
  | .routedClaim q link => quadOk q && decide (link < 38)
  | .fetchRound q => quadOk q
  | .shardComplete q => quadOk q
  | .doneToken q => quadOk q
  | .generationBump => true
  | .composition _ _ _ => true
  | .stepEnd _ _ _ => true
  | .pageSealCommit _ _ _ => true
  | .parkCommit _ => true
  | .resumeCommit _ => true
  | .wingsSweep => true
  | .placementCommit _ _ => true
  | .patrolScrub _ _ => true
  | .cxlMemRead _ _ => true
  | .cxlMemWrite _ _ => true
  | .hostSnoop _ => true
  | .loanTermExpiry _ _ => true
  | .loanRecallFree _ => true
  | .jobStart _ _ => true
  | .preemptHoldExpiry _ => true
  | .jobRecordCommit _ => true
  | .set _ => true
  | .setComplete _ => true
  | .trainingEnd p _ _ => portOk p
  | .trainingRetry p => portOk p
  | .retrain p => portOk p
  | .retrainTimeout p => portOk p
  | .flitReceive p fl => portOk p && flitOk fl
  | .linkTimeout _ => true
  | .creditTimeout _ => true
  | .put p m => portOk p && msgOk m
  | .get p m => portOk p && msgOk m
  | .reduce p m => portOk p && msgOk m
  | .reduceResend _ => true
  | .loanPut p m => portOk p && msgOk m
  | .dispatchRec p m => portOk p && msgOk m
  | .dispatchEnd p m => portOk p && msgOk m
  | .dispatchAns p m => portOk p && msgOk m
  | .borrowRequest p m => portOk p && msgOk m
  | .renew p m => portOk p && msgOk m
  | .ack p m => portOk p && msgOk m
  | .getData p m => portOk p && msgOk m
  | .lendGrant p m => portOk p && msgOk m
  | .error p m => portOk p && msgOk m
  | .announce p m => portOk p && msgOk m
  | .withdraw p m => portOk p && msgOk m
  | .fence p m => portOk p && msgOk m
  | .recall p m => portOk p && msgOk m
  | .form p m => portOk p && msgOk m
  | .accept p m => portOk p && msgOk m
  | .refuse p m => portOk p && msgOk m
  | .commit p m => portOk p && msgOk m
  | .troupeFormTimeout => true
  | .dissolve p m => portOk p && msgOk m
  | .jobstart p m => portOk p && msgOk m
  | .step p m => portOk p && msgOk m
  | .stepend p m => portOk p && msgOk m
  | .bias p m => portOk p && msgOk m
  | .jobend p m => portOk p && msgOk m
  | .preempt p m => portOk p && msgOk m
  | .putEntry xq => decide (xq < 16)
  | .getEntry xq => decide (xq < 16)
  | .reduceEntry xq => decide (xq < 16)
  | .waitEntry xq => decide (xq < 16)
  | .activationStart => true
  | .activationRestart _ => true
  | .mctpControl _ _ => true
  | .entdaa _ => true
  | .setdasa _ _ => true
  | .getVersion => true
  | .getCapabilities => true
  | .negotiateAlgorithms _ _ => true
  | .getDigests => true
  | .getCertificate slot _ _ => decide (slot < 4)
  | .challenge slot _ => decide (slot < 4)
  | .getMeasurements _ _ => true
  | .chunkGet _ _ => true
  | .respondIfReady _ => true
  | .getTid => true
  | .setTid _ => true
  | .getPldmVersion _ => true
  | .getPldmTypes => true
  | .getPldmCommands _ => true
  | .getPdrRepositoryInfo => true
  | .getPdr _ => true
  | .getSensorReading _ => true
  | .getStateSensorReadings _ => true
  | .setEventReceiver _ _ => true
  | .eventMessageSupported => true
  | .eventMessageBufferSize _ => true
  | .platformEventRetry _ => true
  | .queryDeviceIdentifiers => true
  | .getFirmwareParameters => true
  | .requestUpdate _ => true
  | .passComponentTable _ => true
  | .updateComponent _ => true
  | .requestFirmwareData _ _ => true
  | .transferComplete _ => true
  | .verifyComplete failed => failed.all siteOk
  | .applyComplete => true
  | .activateFirmware _ => true
  | .getStatus => true
  | .cancelUpdateComponent => true
  | .cancelUpdate => true
  | .settingsRead => true
  | .settingsWrite _ => true
  | .capSet _ _ => true
  | .calibrationTransfer _ _ => true
  | .eventAck _ => true
  | .rdyMapBitSet bit => decide (bit < 47)
  | .unitTestDone q _ => quadOk q
  | .inputPowerExcursionEnd _ => true
  | .inputPowerApplied _ => true
  | .railSequenceStop _ => true

end Sys2Proof
end

