-- ==== Sys2Proof/Config.lean ====
section
/-! DEFINITION. What the spec leaves open (free values: opaque constants without a body) and the figures it fixes. -/

namespace Sys2Proof.Config

/-- Which of the two neighbours a faithfully rounded operation returns for an input (R38): `true` the upper one.
Fixed for each operation and input, and otherwise free (log 10). -/
opaque roundUp : (op : Nat) → BitVec 32 → Bool

/-- The result of EXP2, LOG2, RCP or RSQ for an input whose exact result R38 does not define as a number: a zero, a
negative number under LOG2 or RSQ, an infinity (log 10). Fixed for each operation and input. -/
opaque special : (op : Nat) → BitVec 32 → BitVec 32

/-- The tier-engine queue, modulo 8, that takes a cue-sheet object's entries: production, quadrant, object index
(R161 gives queues, the spec does not say which; log 7). -/
opaque cueQueue : Nat → Nat → Nat → Nat

/-- A value that the spec leaves open each time it arises, by the free counter of the state (log 9). -/
opaque freeBits : Nat → Nat

/-- ML-DSA-65 verification of a signature over a message under a public key (R388, FIPS 204; log 11). -/
opaque mlDsaVerify : (pubkey msg sig : List Byte) → Bool

/-- ML-DSA-65 signing with the device's identity key, which never leaves the device (R401; log 11). -/
opaque identitySign : List Byte → List Byte

/-- The identity public key (R401; log 11). -/
opaque identityPub : List Byte

/-- The ROM's measurement and the running body's hash input are the ROM's own bytes (R403; log 11). -/
opaque romBytes : List Byte

/-- Where the serving engine puts the frame of a request's page of a layer: request, layer, page (R196 gives frames,
the spec does not say where in tier 0 they lie; log 13). -/
opaque frameAt : (req layer page : Nat) → Nat

/-- Where the serving engine puts a request's ancestor masks in the home quadrant's tier 0 (R203 gives a table, the spec
does not say where it lies; log 19). -/
opaque treeAt : (req : Nat) → Nat

/-- Bytes of a strike image or job record whose inner layout R86 does not give: object, offset (log 14). -/
opaque imageByte : (oid off : Nat) → BitVec 8

/-- The bytes that measurement 2 of R403 hashes: key-hash slots, revocation bits and SVN floor (R403 gives their contents, not
their order; log 22). -/
opaque fuseImage : (keyHash : List (List Byte)) → (revoked svnFloor : Nat) → List Byte

/-! Master figures (R4) and limits used by several rules. -/

def blockBytes : Nat := 262144                 -- R127: 256 KiB
def tier1Blocks : Nat := 982528                -- R119: 245,632 MiB of pool per quadrant
def tier2Blocks : Nat := 3603968               -- R120: 900,992 MiB
def wingsBlocks : Nat := 524288                -- R120: 128 GiB
def dirRecords : Nat := 1048576                -- R128
def strikeBytes : Nat := 2227175424            -- R86
def sceneBytes : Nat := 180480                 -- R69
def linkTimeout : Nat := 2000                  -- R250
def slotWrap : Nat := 144403552893600          -- R63
def ctrMax : Nat := 281474976710655            -- R62: 48 bits

/-- Status codes (R295). -/
def DONE : Nat := 0x00
def ACCEPTED : Nat := 0x01
def ALREADY : Nat := 0x02
def BADOP : Nat := 0x10
def BAD : Nat := 0x11
def NOTREADY : Nat := 0x12
def BUSY : Nat := 0x13
def NOTLEAD : Nat := 0x14
def NOSPACE : Nat := 0x20
def EVICTED : Nat := 0x21
def CANCELLED : Nat := 0x30
def PREEMPTED : Nat := 0x31
def STALLED : Nat := 0x32
def POISONED : Nat := 0x40
def LOST : Nat := 0x50
def FENCED : Nat := 0x51
def LIMIT : Nat := 0x60
def DEFERRED : Nat := 0x61
def AUTHFAIL : Nat := 0x70
def REJECTED : Nat := 0x71
def INTERNAL : Nat := 0x7F

end Sys2Proof.Config
end

