-- ==== Sys2Proof/Machine/State.lean ====
section
/-! DEFINITION. The machine's state, as plain data: every register, queue, buffer, counter, mode and pin the
spec gives the block, the queue of waiting commands, the outcomes' reasons, and the state after reset.
Rules are cited on each field; INVENTORY.md lists every field with its reset value and the log entry of
each value the model names. -/

namespace Sys2Proof.Machine

/-- Why the block would stop with a fault. No meaning of this model raises one: the spec reports every failure
as a status, an event, a counter or poison (R295, R311). -/
inductive Fault where
  /-- Raised by nothing. Kept so that the type is inhabited; safe. -/
  | none
  deriving DecidableEq, Repr

/-- Why a command has no meaning. -/
inductive Refusal where
  /-- The command's arm of exec is not modelled yet; raised by exec alone, and safe. -/
  | notModelled (mnemonic : String)
  deriving DecidableEq, Repr

/-! ### Time and power (12, 15) -/

/-- Where the module stands between no input and running (R378, R412, R415, R416). -/
inductive Phase where
  | unpowered   -- no input power
  | standby     -- VSTBY only
  | on          -- out of standby
  | off         -- powered off; ENABLE must be deasserted before a new start (R357)
  deriving DecidableEq, Repr, Inhabited

/-- The dimmer's and the rails' state of one quadrant: DIM_QSTAT (R350), R342, R358. -/
structure QDim where
  level : Nat
  demand : Nat
  filler : Nat
  lit : Bool
  waking : Bool
  idleSince : Nat
  vArray : Nat   -- VDD_ARRAY in mV (R340)
  vSram : Nat    -- VDD_SRAM in mV (R340)
  deriving DecidableEq, Repr, Inhabited

/-- A CXL.mem access that waits (R122): a read of `len` bytes at HDM offset `off`, or a write of data there. -/
structure CxlAcc where
  off : Nat
  len : Nat
  data : Option (List Byte)
  deriving DecidableEq, Repr, Inhabited

structure Power where
  phase : Phase
  localUs : Nat                  -- R10
  sub : Nat                      -- half root-clock cycles of the local µs already passed, 0 to 26,399 (R341)
  cycle : Nat                    -- array cycles since power-up (R63)
  adiv2 : Nat                    -- 2 × ADIV (R341)
  adivMin2 : Nat                 -- 2 × ADIV_MIN (R342)
  enable : Bool                  -- pins of R409
  coolantOk : Bool
  pwrAlert : Bool
  vinMv : Nat                    -- input voltage in mV (R339)
  powerW : Nat                   -- mean input power of the last 100 local µs (R352)
  emPwr : Bool                   -- the three causes of EMERGENCY (R350)
  emExc : Bool
  emCool : Bool
  tripT : Bool                   -- thermal trip in force (R356)
  tripI : Bool                   -- input trip in force (R356)
  tripTAt : Nat
  tripIAt : Nat
  tripFrom : Nat                 -- local µs at which the clocks stopped (R356)
  coolSince : Option Nat         -- every sensor below 90.0 °C since (R356)
  vinOkSince : Option Nat        -- input from 41.0 V to 54.0 V since (R356)
  lowSince : Option Nat          -- every sensor below 92.0 °C since (R355)
  lastStep : Option Nat          -- last throttle step while hot (R355)
  normalSince : Option Nat       -- power state normal since (R354)
  thermTripPin : Bool            -- THERM_TRIP# driven low (R413)
  sensors : List (BitVec 16)     -- R361: 80 junctions, 20 stacks, 32 packages, inlet, outlet
  dimUp : Nat                    -- DIM_CFG (R350)
  dimDown : Nat
  dimEmerg : Nat
  dimFloor : Nat
  dimCeil : Nat
  darkWait : Nat                 -- R351, R358
  litMask : Nat                  -- R351
  hostCap : Nat                  -- R352
  mgmtCap : Nat
  qd : List QDim
  cxlWait : List CxlAcc          -- accesses to dark quadrants' quarters of the staging window, held until they wake (R122)
  deriving DecidableEq, Repr, Inhabited

/-! ### Boot, flash and firmware (14) -/

/-- The settings page's fields (R385). -/
structure Settings where
  format : Nat
  pers : Nat
  plan : Nat
  lease : Nat
  up : Nat
  down : Nat
  emerg : Nat
  floor : Nat
  darkWait : Nat
  closed : Nat
  mgmtCap : Nat
  deriving DecidableEq, Repr, Inhabited

/-- A programming of a flash page that has been asked for (R346, R386). -/
structure FlashOp where
  calib : Bool              -- the calibration page, else the settings page
  page : List Byte
  slot : Option (Nat × Nat) -- the callboard slot that waits for it
  began : Bool
  val : Nat                 -- VAL of the waiting command's reply
  deriving DecidableEq, Repr, Inhabited

/-- A firmware staging object (R389 to R392). -/
structure Staging where
  oid : Nat
  hdr : List Byte
  len : Nat
  pages : List Nat          -- 4 KiB pages received
  pldm : Bool               -- owned by a PLDM update
  deriving DecidableEq, Repr, Inhabited

/-- Where an activation stands (R393 to R395). -/
inductive Activation where
  | idle | waiting | loading
  deriving DecidableEq, Repr, Inhabited

/-- The recovery window's registers (R399). -/
structure Recovery where
  off : Nat
  len : Nat
  state : Nat
  status : Nat
  done : Nat
  buf : Mem
  hdr : Option (List Byte)
  deriving DecidableEq, Repr, Inhabited

/-- What the fuses hold (R54, R388). -/
structure Fuses where
  fusedOut : List Site
  keyHash : List (List Byte)
  revoked : Nat
  svnFloor : Nat
  deriving DecidableEq, Repr, Inhabited

structure Boot where
  boot : Nat                     -- BOOT (R281)
  rdy : BitVec 47                -- RDY_MAP (R314, R380)
  pers : Nat                     -- personality held since power-up (R3)
  stepping : Nat                 -- STEP (R281)
  serial : Nat                   -- module serial (R246)
  strap : Nat                    -- troupe strap held since power-up (R414)
  fuses : Fuses
  fwHdr : List Byte              -- flash: firmware header, body, calibration, settings, chain (R384); [] = erased
  fwBody : List Byte
  calPage : List Byte
  setPage : List Byte
  chain : List Byte
  runHdr : List Byte             -- header of the running image (R403)
  calAtBoot : List Byte          -- calibration page as read at power-up (R403)
  calValid : Bool                -- R344
  sets : Settings                -- the settings in force
  flashOps : List FlashOp
  staging : Option Staging
  armed : Option Staging
  act : Activation
  rc : Recovery
  deriving DecidableEq, Repr, Inhabited

/-! ### A function's host interface (10, 13) -/

/-- STATE of a CUE word (R286). -/
inductive SlotSt where
  | free | cued | working | opened | done
  deriving DecidableEq, Repr, Inhabited

structure Slot where
  cmd : Mem                      -- header and parameters, bytes 0x00 to 0xBB (R285)
  st : SlotSt
  seq : Nat
  goUs : Nat
  rep0 : List Byte               -- first reply; [] reads as zero
  rep1 : List Byte               -- final reply
  deriving DecidableEq, Repr, Inhabited

/-- A host-window map entry (R283). -/
structure MapEnt where
  hbase : Nat
  wpage : Nat
  pages : Nat
  rd : Bool
  wr : Bool
  deriving DecidableEq, Repr, Inhabited

/-- An event record (R312). -/
structure EvRec where
  seq : Nat
  code : Nat
  quad : Nat
  us : Nat
  detail : List Byte
  deriving DecidableEq, Repr, Inhabited

/-- A private source of a call-light target (R366, R372, R374). -/
structure Priv where
  pend : Bool
  insvc : Bool
  signalled : Bool
  en : Bool
  vec : Nat
  pri : Nat
  deriving DecidableEq, Repr, Inhabited

/-- One call-light target (R374). The running-priority stack lists its top first. -/
structure Target where
  priv : List Priv
  stack : List (Nat × Nat)
  threshold : Nat
  eoiErr : Nat
  fullCnt : Nat
  lastClaim : BitVec 32
  deriving DecidableEq, Repr, Inhabited

/-- A shared source's configuration word and line (R367, R375). -/
structure Shared where
  src : Nat
  target : Nat
  pri : Nat
  en : Bool
  sense : Nat
  pend : Bool
  insvc : Bool
  latched : Bool
  line : Bool
  next : Option Nat              -- TARGET written while in service (R371)
  deriving DecidableEq, Repr, Inhabited

/-- An MSI-X table entry (R280). -/
structure Vec where
  addr : Nat
  data : Nat
  masked : Bool
  deriving DecidableEq, Repr, Inhabited

/-- A kept end record or slot reply (R212, R306). -/
structure Kept where
  addr : Nat                     -- host-window address
  bytes : List Byte
  slot : Option Nat
  notify : Option (Nat × Nat)    -- REQ_END to raise once written: request and status
  deriving DecidableEq, Repr, Inhabited

structure Fn where
  slots : List Slot
  arrivals : List Nat            -- slots in GO arrival order (R282, R288)
  epoch : Nat                    -- R298
  opened : Bool
  leaseStart : Nat               -- R299
  leasePeriod : Nat
  map : List MapEnt
  bme : Bool
  evSeq : Nat
  evLog : List EvRec             -- newest first, at most 512 (128 under Azgen)
  tgt : Target
  vecs : List Vec
  pba : BitVec 64
  fmask : Bool
  posted : List Nat              -- vectors whose messages have been posted, newest first
  kept : List Kept
  dcache : List Nat              -- host lines held Shared (R277)
  ready : List (Nat × Nat)       -- READINESS commands waiting: slot and deadline (R302)
  closing : List Nat             -- slots of a RELEASE or takeover HELLO whose actions are not complete (R300, R304)
  resetAt : Option Nat           -- local µs at which a KIND 4 reset begins (R303)
  cxl : List (Nat × BitVec 32)   -- words of the CXL structures that the host has written, by address (R279)
  deriving DecidableEq, Repr, Inhabited

/-! ### Pool and placements (05) -/

/-- A commit record (R128). -/
structure Rec where
  oid : Nat
  len : Nat
  tier : Nat
  qmask : Nat
  copy : Nat
  committed : Bool               -- STATE 2, else 1; a free record is not listed
  expiry : Nat
  owner : Nat
  source : Nat
  ext : List (Nat × Nat)         -- first block and block count
  deriving DecidableEq, Repr, Inhabited

/-- Who takes a hold (R134). -/
inductive Holder where
  | prod (p : Nat) | req (r : Nat) | place (pid : Nat) | setting (job : Nat) | loan (l : Nat) | change (new : Nat)
  deriving DecidableEq, Repr, Inhabited

structure Hold where
  tier : Nat
  oid : Nat
  who : Holder
  deriving DecidableEq, Repr, Inhabited

/-- Where a placement's data comes from (R131, R163). -/
inductive PSrc where
  | addr (a : Nat)               -- tier 0, the staging window or the host window
  | obj (oid off : Nat)          -- an object of the other tier
  | bytes (b : Mem) (pois : List (Nat × Nat))   -- bytes the device itself formed (a parked record, a job record,
                                 -- a loan's segments), and the poisoned ranges among them
  deriving DecidableEq, Repr, Inhabited

/-- What a placement's completion completes. -/
inductive PFor where
  | slot (f n : Nat)                       -- a PLACE command
  | load (prod : Nat)                      -- PRODUCTION_LOAD
  | stage (prod : Nat)                     -- ON_STAGE
  | entry (q tq n : Nat)                   -- a cue-sheet PLACE entry
  | seal (req layer page : Nat)            -- R196
  | park (req : Nat)                       -- R207
  | resume (req : Nat)                     -- R209
  | stall (q : Nat)                        -- R84
  | lendSide (loan peer opid port : Nat)   -- R145
  | borrow (f n : Nat)                     -- a PLACE with TIER 3 at the borrower
  deriving DecidableEq, Repr, Inhabited

structure Placing where
  pid : Nat
  oid : Nat
  tier : Nat
  qmask : Nat
  len : Nat
  src : PSrc
  pinAt : Bool
  for_ : PFor
  f : Nat                        -- function whose host window the source names
  deriving DecidableEq, Repr, Inhabited

structure LoanGiven where
  id : Nat
  peer : Nat
  tier : Nat
  size : Nat                     -- GiB
  term : Nat
  start : Nat                    -- local µs of the grant or last renewal grant
  used : Nat                     -- bytes placed
  recalled : Option Nat          -- local µs the recall was sent
  resv : Nat                     -- class 5 ID of the reserved space (R143)
  staged : Mem                   -- LOAN_PUT segments not yet placed: byte off of object o at o × 2^40 + off
  bad : List (Nat × Nat)         -- and the poisoned ranges among them
  deriving DecidableEq, Repr, Inhabited

structure Offer where
  peer : Nat
  tier : Nat
  size : Nat
  term : Nat
  resv : Nat
  deriving DecidableEq, Repr, Inhabited

structure LoanTaken where
  id : Nat
  peer : Nat
  tier : Nat
  size : Nat
  term : Nat
  sent : Nat                     -- local µs the BORROW or RENEW was sent
  objs : List (Nat × Nat × Nat)  -- object ID, length, stamp
  pins : List Nat                -- objects placed with PIN (R131)
  deriving DecidableEq, Repr, Inhabited

structure Pool where
  recs : List Rec
  stamps : List (Nat × Nat × Nat)   -- tier, object, stamp (R135)
  holds : List Hold
  pins : List (Nat × Nat)           -- tier, object (R134)
  seqs : List Nat                   -- next sequence number of classes 0 to 5 (R125)
  nextPid : Nat
  placing : List Placing
  given : List LoanGiven
  offers : List Offer
  taken : List LoanTaken
  ended : List (Nat × Nat)          -- lender and object: what loans held when they ended, not placed again since (R146)
  nextLoan : Nat
  deriving DecidableEq, Repr, Inhabited

/-! ### The array (02, 03, 04) -/

/-- State and reason of a site that is not in its default state (R54, R61). -/
structure SiteSt where
  row : Nat
  col : Nat
  st : Nat                       -- 0 ACTIVE, 1 STANDBY, 2 STANDING_IN, 3 FENCED, 4 FUSED_OUT
  reason : Nat
  partner : Option (Nat × Nat)
  detour : Nat                   -- DETOUR of R61
  at_ : Nat                      -- local µs of the declaration (R59)
  seen : Nat                     -- quadrant resets there had been at the declaration (R59)
  due : Bool                     -- its remap waits for the quadrant's RDY_MAP bit (R56)
  deriving DecidableEq, Repr, Inhabited

/-- One site's part of a scene (R69), in the image's own words. -/
structure SiteCfg where
  row : Nat
  col : Nat
  firing : BitVec 64
  matrix : BitVec 64
  consts : BitVec 256
  stages : List (BitVec 32)
  ags : List (BitVec 256)
  traps : List (BitVec 128)
  sw : BitVec 64
  slots : List (BitVec 32)
  deriving DecidableEq, Repr, Inhabited

/-- A stored scene (R69). Sites whose record is all zero are not listed. -/
structure Scene where
  id : Nat
  period : Nat
  wdog : Nat
  retire : List (Nat × Nat × Nat)   -- row, column, AG
  sites : List SiteCfg
  placed : List ((Nat × Nat) × (Nat × Nat))   -- fenced sites and the understudies that hold their configuration (R58)
  was : Tables                   -- slot entries of the image that rerouting replaced (R58)
  deriving DecidableEq, Repr, Inhabited

/-- A vector result on its way to the output queues (R35). -/
structure VFlight where
  due : Nat
  mask : Nat
  tok : Tok
  deriving DecidableEq, Repr, Inhabited

/-- A stage register (R37). -/
structure VReg where
  data : BitVec 1024
  poison : Bool
  deriving DecidableEq, Repr, Inhabited

/-- An accumulator bank (R43): 1,024 cells (unlisted cells are zero) and which of them operated. -/
structure Bank where
  cells : List (BitVec 32)
  oper : List (BitVec 32)        -- row r: PRED of the drained row token
  poison : Bool
  deriving DecidableEq, Repr, Inhabited

/-- An operand slot of one side (R40, R95): element tokens, and the scale, occupancy and metadata side tokens. -/
structure OpSlot where
  toks : List Tok
  scales : List Tok
  occ : Option Tok
  meta_ : List Tok
  deriving DecidableEq, Repr, Inhabited

structure Cu where
  inq : List (List Tok)
  outq : List (List Tok)
  resv : List Nat                -- entries of each OUT queue reserved by firings in flight (R35)
  vf : List VFlight
  vregs : List (List VReg)       -- stages 0 to 7, V0 to V3
  aCur : OpSlot
  aNext : OpSlot
  bCur : OpSlot
  bNext : OpSlot
  stepIx : Nat                   -- step within the K-chunk
  chunkIx : Nat                  -- K-chunk within the tile
  reuseIx : Nat                  -- output tile within the held side's reuse
  bank : Bank                    -- the bank being computed
  full : List Bank               -- finished tiles still to drain, oldest first (R43)
  fullAt : List Nat              -- array cycle of each finished tile's last step
  drainRow : Nat
  drainq : List Tok              -- row tokens offered to the vector pipeline (IN0 = 6)
  readyAt : Option Nat           -- array cycle since which the next step's operands are in the buffers (R97)
  blockAt : Nat                  -- array cycle of the first step of the scale block last begun (R97)
  stepAt : Option Nat            -- array cycle of the last step (R97)
  deriving DecidableEq, Repr, Inhabited

/-- Where an address generator stands (R51, R53). -/
structure AgSt where
  running : Bool
  fin : Bool
  n : Nat                        -- addresses issued in the current nest
  idx : List (Nat × Nat × Bool)  -- index lanes still to run: lane, index, poison of the index token
  line : Nat                     -- set-down and pick-up: next line
  left : Nat                     -- and lines left
  faulted : Bool                 -- AG_RANGE already raised in this run (R52)
  hold : Option (Tok × Int)      -- write AGs: the data token popped for the next address, and that line
  deriving DecidableEq, Repr, Inhabited

/-- An access waiting on a port of an MU (R47). -/
structure Access where
  line : Nat
  write : Bool
  tok : Tok                      -- data written, or the control bits a read's token takes
  dq : Nat
  trap : Option (Nat × Nat × Nat × Nat)  -- a trap's access (R80): protected row, column, trap number, ring place
  ag : Nat                       -- the AG that issued it; 4: a trap
  deriving DecidableEq, Repr, Inhabited

structure Ret where
  due : Nat
  dq : Nat
  tok : Tok
  deriving DecidableEq, Repr, Inhabited

structure Mu where
  inq : List (List Tok)
  outq : List (List Tok)
  ags : List AgSt
  ports : List (List Access)     -- read port 0, read port 1, write port
  lastAg : List Nat              -- AG last granted each port (R51)
  grantAt : List Nat             -- 1 + array cycle in which each port was last granted
  bankAt : List (Nat × Nat)      -- bank, array cycle of its last access (R47)
  rets : List Ret
  deriving DecidableEq, Repr, Inhabited

/-- A trap region's contents (R80, R81), keyed by the protected site. -/
structure TrapSt where
  row : Nat
  col : Nat
  t : Nat
  toks : List Tok                -- tokens in the region, oldest first
  head : Nat                     -- ring place of the oldest token
  coming : Nat                   -- spilled tokens still on their way
  landing : List Tok             -- arrived at the holding MU, not yet written
  wroteAt : Option Nat           -- array cycle of the last write
  reading : Nat                  -- tokens whose read waits for its bank
  out : List (Nat × Tok)         -- read tokens and the cycle from which the return path has them
  lastDue : Nat                  -- arrival cycle at the protected queue of the newest token sent to it (R81)
  peak : Nat
  deriving DecidableEq, Repr, Inhabited

/-- A token on a link (R65): the switch and the input port it will reach, and when. -/
structure Flight where
  row : Nat
  col : Nat
  port : Nat                     -- 1 north, 2 east, 3 south, 4 west input; 0: the gateway's inbound side
  link : Nat                     -- gateway link for port 0
  due : Nat                      -- array cycle of arrival
  bridge : Bool                  -- arrived over a bridge (R65)
  off : Nat                      -- cycles that the bridges it has crossed take off the slot index (R65)
  tok : Tok
  src : Src                      -- the path's source
  deriving DecidableEq, Repr, Inhabited

/-- A destination queue of a path (R66). -/
structure Dest where
  q : Nat
  row : Nat
  col : Nat
  dq : Nat                       -- input queue; 6 trap write; 64 + link: the gateway's inbound side
  hops : Nat
  bridges : Nat
  deriving DecidableEq, Repr, Inhabited

structure CredRet where
  slot : Nat                     -- scene slot of the path it belongs to
  due : Nat
  src : Src
  dest : Dest
  deriving DecidableEq, Repr, Inhabited

/-- A token the gateway is to inject on a link, and the tier-engine entry it belongs to (R166). -/
structure GwTok where
  tok : Tok
  owner : Option (Nat × Nat)     -- queue and entry number
  lastOf : Bool                  -- last token of one of its operations
  path : Option Nat              -- slot whose path it must take (R175); none: lowest (R66)
  notBefore : Nat
  deriving DecidableEq, Repr, Inhabited

/-- What an array-engine entry does (R68). -/
inductive AeOp where
  | load (slot addr len : Nat)
  | run (slot : Nat) (first : Bool)
  | change (slot : Nat) (cut : Bool)
  deriving DecidableEq, Repr, Inhabited

/-- An entry of an array-engine queue (R15, R68), kept until it completes. -/
structure AeEnt where
  op : AeOp
  started : Bool
  deriving DecidableEq, Repr, Inhabited

structure LoadSt where
  slot : Nat
  scene : Scene
  deriving DecidableEq, Repr, Inhabited

structure ChangeSt where
  target : Nat
  old : Nat
  cut : Bool
  began : Nat                    -- array cycle
  gw : Bool                      -- the gateway has switched
  done : List ((Nat × Nat) × Nat)  -- sites that have switched, and in which array cycle
  deriving DecidableEq, Repr, Inhabited

structure RunSt where
  slot : Nat
  began : Nat
  curtain : Option Nat           -- array cycle of the curtain point (R71)
  rstart : List Nat              -- RETIRED_start of each cue counter; [] until the run being left retires (R158)
  met : List (Nat × Nat)         -- cue counter, largest absolute target met in this run (R160)
  deriving DecidableEq, Repr, Inhabited

/-- The stall record (R86). -/
structure StallRec where
  cause : Nat
  full : Nat
  empty : Nat
  fullCount : Nat
  tripUs : Nat
  progressUs : Nat
  cueAg : Nat
  cueIdx : Nat
  cueValue : Nat
  cueTarget : Nat
  deriving DecidableEq, Repr, Inhabited

/-! ### Tier engine (06) -/

structure Cue where
  posted : Nat
  retired : Nat
  deriving DecidableEq, Repr, Inhabited

structure Disp where
  next : Nat
  limit : Nat
  quota : Nat
  scene : Nat
  static : Bool
  links : List Nat
  deriving DecidableEq, Repr, Inhabited

/-- A cue-sheet entry in a queue (R161). -/
structure TeEnt where
  raw : BitVec 512
  ext : Option (BitVec 256)      -- the near-stack descriptor of an NSE pair (R165)
  n : Nat                        -- number of the entry in its queue since the last reset
  iter : Nat                     -- loop iteration of the copy
  started : Bool
  done : Bool
  posts : Bool                   -- false: completes without posting (R180)
  waitFrom : Nat                 -- local µs since which it has waited (R180)
  dst : Nat                      -- COLLECT: next staging address; otherwise unused
  left : Nat                     -- COLLECT: bytes still to come
  job : Nat
  step : Nat                     -- the step of its job that it belongs to (R18, R255)
  gone : Nat                     -- operations that have completed (R169)
  held : Nat                     -- operations in flight: the tracker slots it holds
  owed : List (Nat × List (Dest × Nat))   -- operations whose last token is in the grid: its scene slot, and the credits still out up
                                 -- to that token's, by destination (R168)
  deriving DecidableEq, Repr, Inhabited

structure TeQueue where
  ents : List TeEnt
  nextN : Nat
  loopIx : Nat                   -- iterations of the LOOP at the head that have been started
  back : List TeEnt              -- entries the stage manager writes once the queue has room (R15, R18)
  deriving DecidableEq, Repr, Inhabited

/-! ### Routing block (08) -/

/-- A row's routing result: the choice line of R224. -/
structure Choice where
  experts : List (Option Nat)
  weights : List (BitVec 32)
  kept : List Bool
  slots : List (Option Nat)      -- lanes 17 to 24
  skipNow : Bool
  skipNext : Bool
  poison : Bool
  deriving DecidableEq, Repr, Inhabited

/-- A work entry (R225). -/
structure Work where
  expert : Nat
  slot : Nat
  kind : Nat
  half : Nat
  pass : Nat
  rows : List (Nat × Nat)        -- row number or inbox index, and rank
  round : Nat
  posted : Bool
  done : Bool
  deriving DecidableEq, Repr, Inhabited

structure CacheSlot where
  oid : Nat
  off : Nat
  valid : Bool
  used : Nat                     -- pass count of the last use
  deriving DecidableEq, Repr, Inhabited

/-- A fetch of one expert in progress (R230). -/
structure Fetch where
  expert : Nat
  round : Nat
  toCache : Option Nat
  slot : Nat
  half : Nat
  shards : Nat                   -- shards whose move or gets have been issued
  started : Bool                 -- every shard has been issued
  done : Bool                    -- every shard set down
  deriving DecidableEq, Repr, Inhabited

structure Routing where
  active : Bool                  -- a step of a routed production is in flight
  job : Nat
  pass : Nat                     -- the pass being routed or computed
  batch : Nat
  gen : Nat
  rows : Nat                     -- R_q
  cap : Nat                      -- CAP of the pass (R221)
  part : List Tok                -- score tokens of the row being received
  choices : List Choice          -- rows routed so far, oldest first
  skips : List Nat               -- passes each row has skipped in this step (R240)
  skipThis : List Bool           -- rows that skip the present pass
  counts : List Nat              -- kept choices per expert
  ansSlots : Nat                 -- answer slots taken
  published : Bool               -- the pass's lists are published (R226)
  works : List Work              -- the work list last published
  built : Bool                   -- the dispatch section of the pass is in it, or none is due
  dspOpen : Bool
  held : List (Nat × Nat)        -- claims that have been counted as held: link, arrival cycle
  fetches : List Fetch
  expect : Option (Nat × Nat)    -- expected (BATCH, GEN) while a pass is active (R237)
  recsIn : List (Nat × Nat)      -- inbox records arrived: source and answer slot
  endsIn : List (Nat × Nat)      -- end records: source and count
  ansPart : List Tok             -- tokens of the answer arriving on ALINK
  ansOut : Nat                   -- answers sent back
  answers : List Nat             -- answer slots that have arrived
  dcueDone : Bool                -- DCUE posted for the pass
  cache : List CacheSlot
  cacheProd : Nat                -- the production whose experts the cache holds
  age : Nat                      -- passes routed, behind the cache's ages
  loads : List Nat               -- L_pe of this quadrant in the present step, index p × E + e (R239)
  deriving DecidableEq, Repr, Inhabited

structure Quad where
  sites : List SiteSt
  slotCtr : Nat                  -- R63
  gwSlot : Nat                   -- slot current at the gateway (R67)
  scenes : List (Option Scene)
  detours : List Nat             -- per slot (R58)
  loads : List LoadSt
  chg : Option ChangeSt
  cutFrom : Option (Nat × Nat)   -- cycle a cut takes effect and the slot it leaves (R78)
  run : Option RunSt
  leaving : Option RunSt         -- the run that a curtain change leaves behind while its successor runs (R68, R71)
  aeq : List (List AeEnt)        -- the array engine's four queues, oldest entry first (R15, R17)
  ran : Bool                     -- a first run of the present step has started (R24)
  retiredAt : Option Nat         -- array cycle in which a run last retired (R71)
  lastReset : Nat                -- local µs of the last quadrant reset (R59)
  resets : Nat                   -- quadrant resets so far
  hops : List (Nat × (Nat × Nat) × Nat)   -- hops that the remap of a fenced site adds in the scene of a slot (R58, R61)
  lanes : Nat                    -- live lanes of firings in the present local µs (R347)
  cells : Nat                    -- operating cells of matrix steps in the present local µs
  cycs : Nat                     -- array cycles of the present local µs so far
  lastAct : Nat                  -- activity of the local µs just ended, in units of 1/1,000 (R347)
  acts : List (Nat × Nat × Nat)  -- what each site did or took in the present array cycle: row, column, code (R29, R35, R43, R65)
  recent : List ((Nat × Nat) × Nat)  -- sites that switched at the end of the last change, and when (R74, R76)
  cutAt : Option Nat             -- array cycle in which the last cut switched the sites, until R78 has run its course
  cus : List ((Nat × Nat) × Cu)
  mus : List ((Nat × Nat) × Mu)
  traps : List TrapSt
  flights : List Flight
  credits : List ((Src × Nat × Nat × Nat × Nat) × Nat)  -- source, destination (q, row, col, queue), credits
  oldGw : List (Src × (Nat × Nat × Nat × Nat) × Nat)   -- gateway paths of the slot the last curtain change left, by destination (R77, R168)
  credRet : List CredRet
  paths : List Src               -- sources with a path enabled for injection (R76)
  gwSlots : List (Nat × Nat)     -- link and lowest slot of each gateway path enabled (R66, R76)
  gwOut : List (Nat × List GwTok)
  gwIn : List (Nat × List (Tok × Nat × Src))   -- link: inbound tokens with their arrival cycle and source
  progress : Nat                 -- local µs of the last progress (R83)
  halted : Bool                  -- held by a stall (R84)
  stall : Option StallRec
  stallImg : Nat                 -- object ID of the stall image, or 0
  polls : List (Nat × Nat × Nat) -- missed consecutive polls: row, column, count (R54)
  errs : List (Nat × Nat × Nat)  -- uncorrectable errors: row, column, local µs (R54)
  test : List (Nat × Nat)        -- sites still to test, the first under test (R60)
  testSlot : Option (Nat × Nat)  -- the UNIT_TEST slot
  testRes : Nat × Nat            -- tested, failed
  testOne : Bool
  cues : List Cue
  disps : List Disp
  queues : List TeQueue          -- 0 to 7; 8 holds the fetch sequencer's set-downs (R230)
  rt : Routing
  deriving DecidableEq, Repr, Inhabited

/-! ### Productions, requests, jobs (07, 11) -/

/-- Production states (R185). -/
inductive ProdSt where
  | loading | stored | staging | staged | onStage
  deriving DecidableEq, Repr, Inhabited

/-- A manifest's object entry (R183). -/
structure ObjEnt where
  oid : Nat
  len : Nat
  src : Nat
  role : Nat
  q2 : Nat
  q1 : Nat
  tag : Nat                      -- ALIAS, or 0xFFFF
  deriving DecidableEq, Repr, Inhabited

/-- Routing parameters (R214). -/
structure RoutePar where
  experts : Nat
  choices : Nat
  epasses : Nat
  renorm : Bool
  topknorm : Bool
  skip : Bool
  skipmax : Nat
  capfact : Nat
  capmin : Nat
  updint : Nat
  brate : BitVec 32
  bmax : BitVec 32
  skipth : BitVec 32
  rscale : BitVec 32
  exptab : Nat
  biasseed : Nat
  scorelink : Nat
  donelink : Nat
  alink : Nat
  dspn : Nat
  fcue : Nat
  dcue : Nat
  slots : Nat
  cslots : Nat
  nshard : Nat
  rcue : Nat
  shard : Nat
  rarea : Nat
  fmap : Nat
  actoff : Nat
  ansoff : Nat
  inbox : Nat
  dmax : Nat
  rowbytes : Nat
  deriving DecidableEq, Repr, Inhabited

/-- A manifest (R182). -/
structure Manifest where
  manId : Nat
  quads : Nat
  layers : Nat
  steprows : Nat
  chunkmax : Nat
  pfmin : Nat
  pagetok : Nat
  kvb : Nat
  frames : Nat
  treemax : Nat
  draft : Nat
  maxctx : Nat
  vocab : Nat
  eos : Nat
  pin2 : Bool
  rp : RoutePar
  objs : List ObjEnt
  deriving DecidableEq, Repr, Inhabited

structure Prod where
  num : Nat
  st : ProdSt
  man : Manifest
  bindings : List (Nat × Nat)    -- alias table (R177): alias, object
  slot : Option (Nat × Nat)      -- the command that is loading or staging it
  todo : List ObjEnt             -- entries still to place
  manBytes : Mem
  stale : Bool                   -- resident weights must be loaded before the next job's first step (R179, R188)
  resLoad : Bool                 -- its resident load runs (R187, R188)
  deriving DecidableEq, Repr, Inhabited

/-- A pending changeover (R178, R179). -/
structure Changing where
  old : Nat
  new : Nat
  evictOld : Bool
  prod : Nat
  job : Nat
  step : Nat
  slot : Nat × Nat
  deriving DecidableEq, Repr, Inhabited

/-- Request states (R192). -/
inductive ReqSt where
  | queued | prefill | decode | idle | parking | parked | resuming
  deriving DecidableEq, Repr, Inhabited

/-- A KV page (R196): `oid` 0 while OPEN or SEALING. -/
structure Page where
  layer : Nat
  page : Nat
  sealing : Bool
  oid : Nat
  deriving DecidableEq, Repr, Inhabited

structure Req where
  id : Nat
  job : Nat
  prod : Nat
  f : Nat
  st : ReqSt
  pstate : Nat                   -- state code before parking (R208)
  since : Nat                    -- order of entering the present state (R199)
  prompt : Nat                   -- PROMPT or SRC of the turn's input
  plen : Nat
  consumed : Nat                 -- turn input consumed
  maxnew : Nat
  outbuf : Nat
  outcap : Nat
  temp : BitVec 32
  topk : Nat
  topp : Nat
  seed : BitVec 64
  stop : List Nat
  keep : Bool
  slotRep : Bool                 -- its RFLAGS asks for slot replies (R191, R208)
  slotReply : Option Nat         -- the slot that still waits for the end record
  notify : Bool
  nospec : Bool
  home : Nat                     -- 0 to 3, or 0xFF until admission
  len : Nat                      -- committed entries
  pending : Option Nat           -- the token without an entry (R206)
  delivered : Nat                -- tokens delivered in the turn
  recIx : Nat                    -- next record index
  poisoned : Nat
  accepted : Nat
  tree : Option (Nat × List (Nat × Nat))   -- POS, and (token, parent) of nodes 1 to N
  stepTree : List (Nat × Nat)    -- the tree nodes of the step in flight
  keys : List (BitVec 64)        -- draw keys given to the sampler for the rows of the step in flight (R191)
  rows : Nat                     -- rows of the step in flight: prompt rows, or 1 plus tree nodes
  promptRows : Nat
  badPrompt : Bool               -- a prompt token out of range or a hole (R195, R201)
  pages : List Page
  parkObj : Nat                  -- class 4 object, or 0
  cancelSlots : List (Nat × Nat)
  parkSlot : Option (Nat × Nat)
  parkTtl : Nat
  resumeSlot : Option (Nat × Nat)
  resumeTo : Option (Nat × Nat)  -- job and HOME asked for
  isAppend : Bool                -- QUEUED again for a next turn (R206)
  deriving DecidableEq, Repr, Inhabited

/-- Job states (R321). -/
inductive JobSt where
  | queued | running | held | preempting | struck | setting
  deriving DecidableEq, Repr, Inhabited

/-- An exchange-sheet entry in a queue (R257). -/
structure XEnt where
  n : Nat
  raw : BitVec 512
  started : Bool
  done : Bool
  job : Nat
  step : Nat                     -- the step of its job that it belongs to (R18, R255)
  issued : Nat                   -- bytes whose messages have been issued (R254)
  parent : Nat                   -- the operation its messages belong to
  deriving DecidableEq, Repr, Inhabited

structure Job where
  id : Nat
  f : Nat
  slot : Nat
  prod : Nat
  client : Nat
  latency : Bool                 -- class
  shape : Nat
  members : Nat
  st : JobSt
  started : Bool
  kept : Bool
  reason : Nat                   -- hold reason of R300
  steps : Nat
  inStep : Bool                  -- a step is composed and not yet ended
  poisonRecs : Nat
  reqsEnded : Nat
  discards : Nat
  since : Nat                    -- local µs of entering the present state
  ranFrom : Nat                  -- local µs of the start or last set (R330)
  endSlots : List (Nat × Nat)   -- a pending JOB_END
  preSlot : Option (Nat × Nat)   -- a pending JOB_PREEMPT
  preKeep : Bool
  preHold : Nat
  preAsked : Bool                -- a pre-emption is pending
  preAt : Nat                    -- B of R332
  abandoned : Nat
  resumeSlot : Option (Nat × Nat)
  images : List Nat              -- strike image object IDs of q0 to q3
  record : Nat                   -- job record object ID
  unstarted : List (Nat × Nat × TeEnt)   -- struck tier-engine entries
  xpend : List XEnt              -- remote-pending and unstarted exchange-sheet entries (R333)
  quadImg : List (Nat × Quad)    -- what the strike images hold (R86)
  xctrs : List Nat
  biases : List (BitVec 32)
  eloads : List Nat
  passes : Nat                   -- routed passes (BATCH of R235)
  gen : Nat                      -- its generation (R235)
  ends : List Nat                -- members whose STEPEND has arrived
  sheets : Nat                   -- the last step whose cue-sheet entries have been written (R18, R179)
  mark : Option Nat              -- at a boundary, from its action 1 to composition: the order number it began with (R26)
  fin : List Nat                 -- requests whose turn ended in the step, which complete at its boundary (R25)
  toldEnd : Option Nat           -- the status JOBEND has told the members of already, before the lead's own end (R84)
  deriving DecidableEq, Repr, Inhabited

/-- A client's box-office record (R336); a client not listed has the defaults of R327. -/
structure Client where
  id : Nat
  latency : Bool
  share : Nat
  waitUs : Nat
  preempted : Nat
  ended : Nat
  ae : Nat
  te : Nat
  xe : Nat
  se : Nat
  charge : Nat                   -- numerator over `chargeDen`
  chargeDen : Nat                -- exact charge (R328) as a fraction of share-µs
  deriving DecidableEq, Repr, Inhabited

/-- An entry of a serving-engine queue (R15). -/
inductive SeEnt where
  | compose (job : Nat)
  | sealPage (req layer page : Nat)
  | deliver (job : Nat)
  deriving DecidableEq, Repr, Inhabited

structure Serving where
  prods : List Prod
  changes : List Changing
  reqs : List Req
  nextReq : Nat
  endedReqs : List (Nat × Nat)   -- request and job of the last 4,096 ended
  order : Nat                    -- counter behind `since`
  jobs : List Job
  nextJob : Nat
  endedJobs : List (Job × Nat)   -- the last 4,096 ended jobs as they ended, and their status
  clients : List Client
  slice : Nat
  gen : Nat                      -- expert generation (R236)
  bumps : Nat                    -- generation bumps waiting for operations tagged with their new value
  seq : List (List SeEnt)        -- the serving engine's four queues, oldest entry first (R15)
  seBack : List SeEnt            -- entries the stage manager writes once a queue has room
  lost : List Nat                -- parked requests whose object expired or was removed, the last 65,536 (R141, R142, R209)
  deriving DecidableEq, Repr, Inhabited

/-! ### Fabric (09) -/

/-- Port states (R246). -/
inductive PortSt where
  | closed | training | up | retrain | down
  deriving DecidableEq, Repr, Inhabited

structure Port where
  st : PortSt
  half : Bool
  peer : Option PeerId
  sent : Option PeerId           -- the identity this device sent at the last training (R246)
  since : Nat                    -- local µs of entering the state
  lastFlit : Nat                 -- local µs of the last valid flit
  rxSeq : Nat                    -- last data SEQ received in order
  txSeq : Nat
  acked : Nat
  replays : Nat
  nak : Bool
  replay : List (Nat × Msg)      -- messages sent and not acknowledged, with the SEQ of their last flit
  credits : List Nat             -- REQ, RSP, CTL
  openMsg : Bool                 -- SOM received, EOM awaited
  deriving DecidableEq, Repr, Inhabited

/-- An exchange operation in flight (R254). -/
structure XOp where
  id : Nat
  parent : Nat                   -- the operation its message belongs to (R254)
  kind : Nat                     -- TYPE of its request
  peer : Nat                     -- fabric address, or 0x8000 + troupe position
  sent : Nat                     -- local µs its last flit was sent
  ectr : Nat                     -- counter posted, or 255
  job : Nat
  dst : Nat                      -- GET: destination of the data
  msg : Msg
  raw : BitVec 512               -- the exchange-sheet entry, or 0
  off : Nat                      -- the message's first byte within the operation
  xq : Option (Nat × Nat)        -- queue and entry number of its exchange-sheet entry
  te : Option (Nat × Nat × Nat)  -- quadrant, expert and shard of a routed fetch (R230)
  slot : Option (Nat × Nat)      -- BORROW, RENEW, PLACE TIER 3
  waiting : Option Nat           -- waiting for credits since (R250)
  resendAt : Option Nat          -- R256
  deriving DecidableEq, Repr, Inhabited

/-- A reduction at its receiver (R256). -/
structure Redn where
  src : Nat                      -- destination tier-0 address
  id : Nat
  step : Nat
  count : Nat
  applied : Nat                  -- last contribution applied
  early : List (Nat × Nat × Msg) -- index, port, message held early
  deriving DecidableEq, Repr, Inhabited


/-- Troupe role (R267). -/
inductive Role where
  | none | lead | member
  deriving DecidableEq, Repr, Inhabited

/-- A formation in progress at the proposer (R260). -/
structure Forming where
  mask : Nat
  epoch : Nat
  since : Nat
  answered : Nat                 -- positions that have accepted
  proposer : Option Nat          -- another device's proposal that this one has accepted
  slot : Option (Nat × Nat)
  dissolve : Bool
  deriving DecidableEq, Repr, Inhabited

structure Fabric where
  plan : Nat                     -- in force
  ports : List Port
  closed : Nat                   -- closed-port mask (R272)
  addr : Option Nat
  epoch : Nat
  fenced : Bool
  dir : List (Nat × Nat)         -- address, epoch, ascending
  routes : List (BitVec 64)      -- 256 entries
  troupeEpoch : Nat
  seenEpoch : Nat                -- highest troupe epoch seen since power-up (R260)
  role : Role
  mask : Nat
  lead : Nat
  forming : Option Forming
  queues : List (List XEnt)
  xback : List XEnt              -- entries the stage manager writes once their queue has room (R15, R18)
  ops : List XOp
  nextOp : Nat
  ctrs : List Nat                -- 64 exchange completion counters
  redns : List Redn
  sent : List (Nat × Msg)        -- messages sent, newest first: port and message
  annAt : List (Nat × Nat)       -- last ANNOUNCE answer per sender (R264)
  fenceAt : List (Nat × Nat × Nat) -- last FENCE per address and epoch (R270)
  held : List (Nat × Msg)        -- requests held in the receive buffers by a trip or an activation (R356, R396)
  deriving DecidableEq, Repr, Inhabited

/-! ### Management (14, 15) -/

/-- PLDM firmware-update states. -/
inductive Pldm where
  | idle | learn | ready | download | verify | apply
  deriving DecidableEq, Repr, Inhabited

/-- An answer of the management endpoint: its message's name and its bytes. -/
structure MgOut where
  name : String
  code : Nat                     -- completion code, 0 success
  body : List Byte
  deriving DecidableEq, Repr, Inhabited

/-- A forwarded event not yet acknowledged (R405). -/
structure MgEv where
  n : Nat
  code : Nat
  detail : List Byte
  tries : Nat
  lastUs : Nat
  deriving DecidableEq, Repr, Inhabited

structure Mgmt where
  dyn : Option Nat               -- I3C dynamic address
  eid : Nat                      -- MCTP endpoint ID
  tid : Nat
  rcvEnable : Nat                -- SetEventReceiver: 0 disabled
  rcvAddr : Nat
  bufSize : Nat
  negotiated : Bool
  versioned : Bool
  large : List Byte              -- response being read by chunks
  deferred : Option (List Byte)  -- response waiting for RESPOND_IF_READY
  pldm : Pldm
  pldmOff : Nat
  calParts : List (Nat × List Byte)
  evs : List MgEv
  nextEv : Nat
  out : List MgOut               -- newest first
  deriving DecidableEq, Repr, Inhabited

/-- The key of a counter: its COUNTERS_READ group, its scope (quadrant, function or job) and its entry number. -/
structure CKey where
  grp : Nat
  scope : Nat
  ix : Nat
  deriving DecidableEq, Repr, Inhabited

/-- The machine. -/
structure State where
  pw : Power
  bt : Boot
  fns : List Fn
  cores : List Target
  shared : List Shared
  mem : Mem                      -- tiers 0 to 2 and the staging window by device-local address (R116)
  marks : List Nat               -- poisoned lines (tier 0) and codewords (tiers 1, 2), by first address (R149, R150)
  flaws : List (Nat × Bool)      -- errors in the memories' cells, by line or codeword as marks are: true where the code cannot correct (R149)
  hostMem : Mem                  -- the host's memory by host bus address (R2)
  hostMarks : List Nat           -- host bytes delivered with poison
  pool : Pool
  quads : List Quad
  sv : Serving
  fab : Fabric
  mg : Mgmt
  ctr : List (CKey × Nat)        -- every 48-bit saturating counter (R62); a counter not listed is 0
  free : Nat                     -- the model's own: which free value comes next
  readData : List Byte × Bool    -- data and poison of the last read that CXL.mem or an engine made of a line (R122, R424)
  pending : List Instr           -- commands waiting, first in first out
  deriving DecidableEq, Repr, Inhabited

/-! ### Reset -/

def QDim.reset : QDim :=
  { level := 100, demand := 0, filler := 0, lit := true, waking := false, idleSince := 0, vArray := 0, vSram := 0 }

def Power.reset : Power :=
  { phase := .standby, localUs := 0, sub := 0, cycle := 0, adiv2 := 8, adivMin2 := 8
    enable := false, coolantOk := false, pwrAlert := false, vinMv := 44000, powerW := 0
    emPwr := false, emExc := false, emCool := false
    tripT := false, tripI := false, tripTAt := 0, tripIAt := 0, tripFrom := 0, coolSince := none, vinOkSince := none
    lowSince := none, lastStep := none, normalSince := some 0, thermTripPin := false
    sensors := List.replicate 134 0x8000#16
    dimUp := 50, dimDown := 50, dimEmerg := 250, dimFloor := 100, dimCeil := 1000
    darkWait := 50000, litMask := 0, hostCap := 0, mgmtCap := 0, qd := List.replicate 4 QDim.reset, cxlWait := [] }

/-- The default column of R385. -/
def Settings.defaults : Settings :=
  { format := 1, pers := 0, plan := 3, lease := 500000, up := 50, down := 50, emerg := 250, floor := 100
    darkWait := 50000, closed := 0, mgmtCap := 0 }

def Recovery.reset : Recovery :=
  { off := 0, len := 0, state := 0, status := 0, done := 0, buf := [], hdr := none }

def Boot.reset : Boot :=
  { boot := 0, rdy := 0, pers := 0, stepping := 0, serial := 0, strap := 7
    fuses := { fusedOut := [], keyHash := [[], [], [], []], revoked := 0, svnFloor := 0 }
    fwHdr := [], fwBody := [], calPage := [], setPage := [], chain := [], runHdr := [], calAtBoot := []
    calValid := false, sets := Settings.defaults, flashOps := [], staging := none, armed := none, act := .idle
    rc := Recovery.reset }

def Slot.reset : Slot := { cmd := [], st := .free, seq := 0, goUs := 0, rep0 := [], rep1 := [] }

/-- The host's private bank after a reset (R366, R374): vector, priority and enable of each source. -/
def hostPriv (s : Nat) : Priv :=
  let e (v p : Nat) : Priv := { pend := false, insvc := false, signalled := false, en := true, vec := v, pri := p }
  match s with
  | 1 => e 0 8 | 2 => e 1 8 | 3 => e 2 16 | 4 => e 2 16
  | 8 => e 3 24 | 9 => e 3 24 | 10 => e 3 20 | 11 => e 3 20 | 12 => e 4 24
  | 16 => e 5 20 | 17 => e 5 28 | 18 => e 5 28
  | 24 => e 6 30 | 25 => e 6 30 | 28 => e 7 12
  | _ => { e 0 0 with en := false }

def Target.hostReset : Target :=
  { priv := (List.range 32).map hostPriv, stack := [], threshold := 0, eoiErr := 0, fullCnt := 0, lastClaim := 0 }

def Target.coreReset : Target :=
  { priv := List.replicate 32 { pend := false, insvc := false, signalled := false, en := false, vec := 0, pri := 0 }
    stack := [], threshold := 0, eoiErr := 0, fullCnt := 0, lastClaim := 0 }

def Fn.reset : Fn :=
  { slots := List.replicate 256 Slot.reset, arrivals := [], epoch := 0, opened := false
    leaseStart := 0, leasePeriod := 500000, map := [], bme := false, evSeq := 0, evLog := []
    tgt := Target.hostReset, vecs := List.replicate 64 { addr := 0, data := 0, masked := true }
    pba := 0, fmask := false, posted := [], kept := [], dcache := [], ready := [], closing := [], resetAt := none, cxl := [] }

def Pool.reset : Pool :=
  { recs := [], stamps := [], holds := [], pins := [], seqs := List.replicate 6 1, nextPid := 1
    placing := [], given := [], offers := [], taken := [], ended := [], nextLoan := 1 }

def Routing.reset : Routing :=
  { active := false, job := 0, pass := 0, batch := 0, gen := 0, rows := 0, cap := 0, part := []
    choices := [], skips := [], skipThis := [], counts := [], ansSlots := 0, published := false, works := [], built := false
    dspOpen := false, held := [], fetches := [], expect := none, recsIn := [], endsIn := [], ansPart := [], ansOut := 0
    answers := [], dcueDone := false, cache := [], cacheProd := 0, age := 0, loads := [] }

def Disp.reset : Disp := { next := 0, limit := 0, quota := 0, scene := 0, static := false, links := [] }

def Quad.reset : Quad :=
  { sites := [], slotCtr := 0, gwSlot := 0, scenes := [none, none, none, none], detours := [0, 0, 0, 0]
    loads := [], chg := none, cutFrom := none, run := none, leaving := none, aeq := [[], [], [], []], ran := false, retiredAt := none
    lastReset := 0, resets := 0, hops := [], lanes := 0, cells := 0, cycs := 0, lastAct := 0
    acts := [], recent := [], cutAt := none, cus := [], mus := [], traps := []
    flights := [], credits := [], oldGw := [], credRet := [], paths := [], gwSlots := [], gwOut := [], gwIn := [], progress := 0
    halted := false, stall := none, stallImg := 0, polls := [], errs := [], test := [], testSlot := none
    testRes := (0, 0), testOne := false
    cues := List.replicate 63 { posted := 0, retired := 0 }
    disps := List.replicate 64 Disp.reset
    queues := List.replicate 9 { ents := [], nextN := 0, loopIx := 0, back := [] }
    rt := Routing.reset }

def Serving.reset : Serving :=
  { prods := [], changes := [], reqs := [], nextReq := 1, endedReqs := [], order := 0, jobs := [], nextJob := 1
    endedJobs := [], clients := [], slice := 2000000, gen := 0, bumps := 0, seq := [[], [], [], []], seBack := [], lost := [] }

def Port.reset : Port :=
  { st := .closed, half := false, peer := none, sent := none, since := 0, lastFlit := 0, rxSeq := 4095, txSeq := 0, acked := 4095
    replays := 0, nak := false, replay := [], credits := [256, 256, 256], openMsg := false }

def Fabric.reset : Fabric :=
  { plan := 3, ports := List.replicate 18 Port.reset, closed := 0, addr := none, epoch := 0, fenced := false
    dir := [], routes := List.replicate 256 0, troupeEpoch := 0, seenEpoch := 0, role := .none, mask := 0
    lead := 0, forming := none, queues := List.replicate 16 [], xback := [], ops := [], nextOp := 1
    ctrs := List.replicate 64 0, redns := [], sent := [], annAt := [], fenceAt := [], held := [] }

def Mgmt.reset : Mgmt :=
  { dyn := none, eid := 0, tid := 0, rcvEnable := 0, rcvAddr := 0, bufSize := 256, negotiated := false, versioned := false
    large := [], deferred := none, pldm := .idle, pldmOff := 0, calParts := [], evs := [], nextEv := 1, out := [] }

/-- The machine right after reset: in standby with every register at its reset value (log 3, log 12). -/
def State.reset : State :=
  { pw := Power.reset, bt := Boot.reset, fns := List.replicate 4 Fn.reset
    cores := List.replicate 8 Target.coreReset, shared := [], mem := [], marks := [], flaws := [], hostMem := [], hostMarks := []
    pool := Pool.reset, quads := List.replicate 4 Quad.reset, sv := Serving.reset, fab := Fabric.reset
    mg := Mgmt.reset, ctr := [], free := 0, readData := ([], false), pending := [] }

end Sys2Proof.Machine
end

