-- ==== Sys2Proof/Machine/Bits.lean ====
section
/-! DEFINITION. Bit fields, sign extension, byte order and list helpers (R5). -/

namespace Sys2Proof.Machine

/-- Bits [lo + n − 1 : lo] of a number. -/
def bits (x lo n : Nat) : Nat := (x >>> lo) % 2 ^ n

/-- Two's complement reading of an n-bit number. -/
def sext (x n : Nat) : Int := if x % 2 ^ n < 2 ^ (n - 1) then (x % 2 ^ n : Nat) else (x % 2 ^ n : Nat) - (2 ^ n : Nat)

/-- n little-endian bytes of a number (R5). -/
def leBytes : Nat → Nat → List Byte
  | 0, _ => []
  | n + 1, v => BitVec.ofNat 8 v :: leBytes n (v / 256)

/-- The number that little-endian bytes spell (R5). -/
def ofLe : List Byte → Nat
  | [] => 0
  | b :: bs => b.toNat + 256 * ofLe bs

/-- Bytes [off, off + n) of a byte list as a number; bytes past its end read 0. -/
def leAt (bs : List Byte) (off n : Nat) : Nat := ofLe ((bs.drop off).take n)

/-- Replace position i of a list, leaving others; past the end nothing changes. -/
def setAt {α : Type} (l : List α) (i : Nat) (a : α) : List α := l.set i a

/-- Apply g at position i, extending a short list with d first. -/
def modAt {α : Type} (d : α) (l : List α) (i : Nat) (g : α → α) : List α :=
  let l := l ++ List.replicate (i + 1 - l.length) d
  l.modify i g

/-- How many bits of a lane or predicate word are set. -/
def popcount (w : BitVec 32) : Nat := ((List.range 32).filter (fun n => w.getLsbD n)).length

/-- Look a key up in an association list. -/
def look {κ α : Type} [DecidableEq κ] (l : List (κ × α)) (k : κ) : Option α := (l.find? (·.1 == k)).map (·.2)

/-- Set a key of an association list, keeping its place. -/
def put {κ α : Type} [DecidableEq κ] (l : List (κ × α)) (k : κ) (a : α) : List (κ × α) :=
  if l.any (·.1 == k) then l.map (fun e => if e.1 == k then (k, a) else e) else l ++ [(k, a)]

/-- Insert into a list sorted by `le`. -/
def insertBy {α : Type} (le : α → α → Bool) (a : α) : List α → List α
  | [] => [a]
  | b :: l => if le a b then a :: b :: l else b :: insertBy le a l

/-- Insertion sort, stable. -/
def sortBy {α : Type} (le : α → α → Bool) (l : List α) : List α := l.foldr (insertBy le) []

/-- The set bits of a mask below n, in ascending order. -/
def maskList (m n : Nat) : List Nat := (List.range n).filter (fun i => m.testBit i)

/-- A mask's number of set bits below n. -/
def popCount (m n : Nat) : Nat := (maskList m n).length

/-- Ceiling division. -/
def ceilDiv (a b : Nat) : Nat := (a + b - 1) / b

/-- Lane l of a token (R31). -/
def laneOf (d : BitVec 1024) (l : Nat) : BitVec 32 := (d >>> (32 * l)).truncate 32

/-- The 1,024 bits that a list of lanes spells, lane 0 lowest; missing lanes are 0. -/
def ofLanes (ls : List (BitVec 32)) : BitVec 1024 :=
  BitVec.ofNat 1024 (ls.take 32 |>.foldr (fun l acc => l.toNat + 2 ^ 32 * acc) 0)

/-- The 32 lanes of a token. -/
def lanesOf (d : BitVec 1024) : List (BitVec 32) := (List.range 32).map (laneOf d)

/-- A token with PRED all ones and the given tag. -/
def mkTok (data : BitVec 1024) (tag : Nat) (poison last : Bool) : Tok :=
  { data := data, pred := BitVec.allOnes 32, tag := tag, poison := poison, last := last }

/-! ### Memory as bytes at rising addresses; an unlisted address reads 0 (R130, R382: memories are zeroed) -/

/-- The byte at an address. -/
def memGet : Mem → Nat → Byte
  | [], _ => 0
  | (k, v) :: m, a => if a < k then 0 else if a = k then v else memGet m a

/-- Write one byte, keeping the canonical form: a zero byte is not listed. -/
def memPut : Mem → Nat → Byte → Mem
  | [], a, b => if b = 0 then [] else [(a, b)]
  | (k, v) :: m, a, b =>
    if a < k then (if b = 0 then (k, v) :: m else (a, b) :: (k, v) :: m)
    else if a = k then (if b = 0 then m else (a, b) :: m)
    else (k, v) :: memPut m a b

/-- n bytes from an address. -/
def memRead (m : Mem) (a n : Nat) : List Byte := (List.range n).map (fun i => memGet m (a + i))

/-- A little-endian number of n bytes at an address. -/
def memNat (m : Mem) (a n : Nat) : Nat := ofLe (memRead m a n)

/-- Write consecutive bytes. -/
def memWrite : Mem → Nat → List Byte → Mem
  | m, _, [] => m
  | m, a, b :: bs => memWrite (memPut m a b) (a + 1) bs

/-- Zero n bytes from an address. -/
def memZero (m : Mem) (a n : Nat) : Mem := m.filter (fun c => ¬ (a ≤ c.1 ∧ c.1 < a + n))

/-- The listed cells of [a, a + n), moved to start at b. -/
def memSlice (m : Mem) (a n b : Nat) : Mem :=
  (m.filter (fun c => a ≤ c.1 ∧ c.1 < a + n)).map (fun c => (c.1 - a + b, c.2))

/-- Write every cell of a list of cells. -/
def memPuts (m : Mem) (cs : Mem) : Mem := cs.foldl (fun m c => memPut m c.1 c.2) m

/-- Replace [b, b + n) of `dst` by [a, a + n) of `src`. -/
def memCopy (dst src : Mem) (a n b : Nat) : Mem := memPuts (memZero dst b n) (memSlice src a n b)

/-- The canonical form: addresses strictly rising, no listed byte zero. -/
def memWf : Mem → Bool
  | [] => true
  | [(_, v)] => v != 0
  | (k, v) :: (k', v') :: m => v != 0 && decide (k < k') && memWf ((k', v') :: m)

/-- Insert an address into a rising list without repeats. -/
def markPut : List Nat → Nat → List Nat
  | [], a => [a]
  | k :: m, a => if a < k then a :: k :: m else if a = k then k :: m else k :: markPut m a

/-- Remove an address from a list of marks. -/
def markDel (m : List Nat) (a : Nat) : List Nat := m.filter (· ≠ a)

end Sys2Proof.Machine
end

