-- ==== Sys2Proof/Machine/Flags.lean ====
section
/-! DEFINITION. Flags, counters, events and interrupts: the saturating counters (R62), the call lights' delivery
rule (R367 to R372), event records (R311 to R313), RDY_MAP (R314, R380) and the power state (R354). -/

namespace Sys2Proof.Machine

open Config

/-! ### Counters -/

/-- Add n to a 48-bit saturating counter (R62). -/
def State.bump (s : State) (grp scope ix n : Nat) : State :=
  let k : CKey := { grp := grp, scope := scope, ix := ix }
  { s with ctr := put s.ctr k (min ctrMax ((look s.ctr k).getD 0 + n)) }

/-- A counter's value. -/
def State.counter (s : State) (grp scope ix : Nat) : Nat :=
  (look s.ctr { grp := grp, scope := scope, ix := ix }).getD 0

/-- Set a counter to a value (peaks and last values). -/
def State.setCtr (s : State) (grp scope ix v : Nat) : State :=
  { s with ctr := put s.ctr { grp := grp, scope := scope, ix := ix } (min ctrMax v) }

/-- Clear the counters of the listed groups in one scope. -/
def State.clearCtr (s : State) (grps : List Nat) (scope : Nat) : State :=
  { s with ctr := s.ctr.filter (fun e => ¬ (grps.contains e.1.grp && e.1.scope == scope)) }

/-! ### Functions and quadrants -/

/-- The function's host interface; out of range reads as reset. -/
def State.fn (s : State) (f : Nat) : Fn := s.fns.getD f Fn.reset

def State.updFn (s : State) (f : Nat) (g : Fn → Fn) : State := { s with fns := s.fns.modify f g }

def State.quad (s : State) (q : Nat) : Quad := s.quads.getD q Quad.reset

def State.updQuad (s : State) (q : Nat) (g : Quad → Quad) : State := { s with quads := s.quads.modify q g }

def State.qdim (s : State) (q : Nat) : QDim := s.pw.qd.getD q QDim.reset

def State.updQd (s : State) (q : Nat) (g : QDim → QDim) : State :=
  { s with pw := { s.pw with qd := s.pw.qd.modify q g } }

/-- Present local µs (R10). -/
def State.now (s : State) : Nat := s.pw.localUs

/-- The Azgen personality is in force (R3). -/
def State.azgen (s : State) : Bool := s.bt.pers == 1

/-- The functions the device exposes (R280, R316). -/
def State.functions (s : State) : List Nat := if s.azgen then [0, 1, 2, 3] else [0]

/-- The device is out of standby. -/
def State.isOn (s : State) : Bool := s.pw.phase == .on

/-! ### Call lights -/

/-- The part of the delivery rule that the target decides (R369): threshold, running priority and stack depth. -/
def Target.admits (t : Target) (pri : Nat) : Bool :=
  decide (t.threshold ≤ pri) &&
  (match t.stack with | [] => true | (_, p) :: _ => decide (p < pri)) &&
  decide (t.stack.length < 16)

/-- A private source is enabled, pending and not in service (R369). -/
def Priv.waiting (p : Priv) : Bool := p.en && p.pend && !p.insvc

/-- A shared source is pending: its flag, or its line for a level source (R367). -/
def Shared.pending (c : Shared) : Bool := if c.sense = 0 then c.line else c.pend

def Shared.waiting (c : Shared) : Bool := c.en && c.pending && !c.insvc

/-- The sources (number, priority) waiting at a target: its private bank, and for a control core the shared ones. -/
def waitingSources (t : Target) (sh : List Shared) (core : Option Nat) : List (Nat × Nat) :=
  ((List.range 32).filterMap (fun i =>
    match t.priv[i]? with
    | some p => if p.waiting then some (i, p.pri) else none
    | none => none)) ++
  (match core with
   | none => []
   | some k => sh.filterMap (fun c => if c.target = k ∧ c.waiting then some (c.src, c.pri) else none))

/-- The highest priority first, the lowest source number among equals (R369). -/
def bestSource : List (Nat × Nat) → Option (Nat × Nat)
  | [] => none
  | (n, p) :: rest =>
    match bestSource rest with
    | none => some (n, p)
    | some (n', p') => if p' > p ∨ (p' = p ∧ n' < n) then some (n', p') else some (n, p)

/-- Signal one host source when it is deliverable and not signalled (R372). -/
def Fn.signal1 (x : Fn) (i : Nat) : Fn :=
  match x.tgt.priv[i]? with
  | none => x
  | some p =>
    if p.waiting && x.tgt.admits p.pri && !p.signalled then
      let x := { x with tgt := { x.tgt with priv := x.tgt.priv.set i { p with signalled := true } } }
      if x.fmask || (x.vecs[p.vec]?.map (·.masked)).getD true then
        { x with pba := x.pba ||| (1#64 <<< p.vec) }
      else { x with posted := p.vec :: x.posted }
    else x

/-- Signal every deliverable host source of a function (R372). -/
def Fn.signal (x : Fn) : Fn := (List.range 32).foldl Fn.signal1 x

/-- Signal function f, counting the messages posted in group 0x91 (R377). -/
def State.signal (s : State) (f : Nat) : State :=
  let x := (s.fn f).signal
  let n := x.posted.length - (s.fn f).posted.length
  let s := s.updFn f (fun _ => x)
  if n = 0 then s else s.bump 0x91 f 52 n

/-- The host source that carries an event code (R366). -/
def eventSource (code : Nat) : Option Nat :=
  match code with
  | 0x01 => some 1 | 0x02 => some 2 | 0x03 => some 3 | 0x04 => some 4
  | 0x10 => some 8 | 0x11 => some 9 | 0x12 => some 10 | 0x13 => some 11 | 0x14 => some 12
  | 0x20 => some 16 | 0x21 => some 17 | 0x22 => some 18
  | 0x30 => some 24 | 0x31 => some 25 | 0x40 => some 28
  | _ => none

/-- Raise a private source of a target's bank as an edge; a source in service keeps it pending (R367). -/
def Target.raise (t : Target) (i : Nat) : Target :=
  { t with priv := t.priv.modify i (fun p => { p with pend := true }) }

/-- Event codes the management endpoint forwards as PlatformEventMessage (R405). -/
def forwarded (code : Nat) : Bool := [0x30, 0x31, 0x40, 0x20, 0x21].contains code

/-- Log an event at function f, raise its host source, and forward it to the event receiver when it is one of
the forwarded ones (R311, R312, R405). -/
def State.raiseAt (s : State) (f code quad : Nat) (detail : List Byte) : State :=
  let depth := if s.azgen then 128 else 512
  let s := s.updFn f (fun x =>
    { x with
      evSeq := (x.evSeq + 1) % 2 ^ 32
      evLog := ({ seq := (x.evSeq + 1) % 2 ^ 32, code := code, quad := quad, us := s.now
                  detail := (detail ++ List.replicate 16 0).take 16 } :: x.evLog).take depth
      tgt := match eventSource code with | some i => x.tgt.raise i | none => x.tgt })
  let s := s.signal f
  if forwarded code && s.mg.rcvEnable != 0 then
    { s with mg := { s.mg with
        evs := s.mg.evs ++ [{ n := s.mg.nextEv, code := code, detail := detail, tries := 0, lastUs := s.now }]
        nextEv := s.mg.nextEv + 1
        out := { name := "PlatformEventMessage", code := 0, body := leBytes 2 code ++ detail } :: s.mg.out } }
  else s

/-- Raise an event at the function that R313 names: under Azgen the quadrant's function, else function 0. -/
def State.raise (s : State) (code quad : Nat) (detail : List Byte) : State :=
  s.raiseAt (if s.azgen && decide (quad < 4) && decide (code < 0x20) then quad else 0) code quad detail

/-! ### RDY_MAP -/

/-- A bit of RDY_MAP. -/
def State.rdy (s : State) (i : Nat) : Bool := s.bt.rdy.getLsbD i

/-- Give RDY_MAP a new value; a change raises RDY_CHANGE at every function (R314, R380). -/
def State.setRdyMap (s : State) (m : BitVec 47) : State :=
  if m = s.bt.rdy then s
  else
    let s := { s with bt := { s.bt with rdy := m } }
    s.functions.foldl (fun s f => s.raiseAt f 0x03 0xFF (leBytes 8 m.toNat)) s

/-- Set or clear one bit of RDY_MAP. -/
def State.setRdy (s : State) (i : Nat) (b : Bool) : State :=
  s.setRdyMap (if b then s.bt.rdy ||| (1#47 <<< i) else s.bt.rdy &&& ~~~(1#47 <<< i))

/-- The RDY_MAP bits of quadrant q and its five stacks (R380). -/
def quadBits (q : Nat) : BitVec 47 := (1#47 <<< (1 + q)) ||| (0x1F#47 <<< (5 + 5 * q))

/-! ### Power state -/

/-- EMERGENCY of DIM_CFG (R350). -/
def Power.emergency (p : Power) : Bool := p.emPwr || p.emExc || p.emCool

/-- The power state of R354. -/
def Power.code (p : Power) : Nat :=
  if p.tripT || p.tripI then 4
  else if p.emergency then 3
  else if p.adiv2 > p.adivMin2 then 2
  else if p.dimCeil < 1000 then 1
  else 0

/-- Record since when the power state has been normal without a break (R354). -/
def State.trackNormal (s : State) : State :=
  { s with pw := { s.pw with
      normalSince := if s.pw.code ≤ 1 then some (s.pw.normalSince.getD s.pw.localUs) else none } }

/-- The power state has been normal for 1,000 local µs (R346, R394). -/
def State.normal1000 (s : State) : Bool :=
  match s.pw.normalSince with
  | some t => decide (t + 1000 ≤ s.now)
  | none => false

/-- A reading as a signed number of 1/16 °C; 0x8000 is no reading (R361). -/
def reading (t : BitVec 16) : Option Int := if t = 0x8000#16 then none else some t.toInt

/-- The hottest junction: its sensor and reading (R361). -/
def Power.hottest (p : Power) : Nat × BitVec 16 :=
  (List.range 80).foldl (fun acc i =>
    let t := p.sensors.getD i 0x8000#16
    match reading t, reading acc.2 with
    | some a, some b => if a > b then (i, t) else acc
    | some _, none => (i, t)
    | none, _ => acc) (0, 0x8000#16)

/-- The effective cap (R352). -/
def Power.cap (p : Power) : Nat :=
  let m (c : Nat) := if c = 0 then 3600 else c
  min 3600 (min (m p.hostCap) (m p.mgmtCap))

/-- DETAIL of a THERMAL event (R362). -/
def State.thermalDetail (s : State) (kind : Nat) : List Byte :=
  let h := s.pw.hottest
  [BitVec.ofNat 8 kind, BitVec.ofNat 8 h.1] ++ leBytes 2 h.2.toNat ++ [BitVec.ofNat 8 s.pw.adiv2]

/-- DETAIL of a POWER event (R362). -/
def State.powerDetail (s : State) (kind : Nat) : List Byte :=
  [BitVec.ofNat 8 kind, 0] ++ leBytes 2 (s.pw.vinMv / 10) ++ leBytes 2 s.pw.powerW ++ leBytes 2 s.pw.cap

def State.thermal (s : State) (kind : Nat) : State := s.raise 0x30 0xFF (s.thermalDetail kind)
def State.power (s : State) (kind : Nat) : State := s.raise 0x31 0xFF (s.powerDetail kind)

/-- FIRMWARE event (R400): kind, status and version. -/
def State.firmware (s : State) (kind status version : Nat) : State :=
  s.raise 0x40 0xFF ([BitVec.ofNat 8 kind, BitVec.ofNat 8 status, 0, 0] ++ leBytes 4 version)

/-! ### Free values -/

/-- The next free value: whatever the spec leaves open, different each time (log 9). -/
def State.freeVal (s : State) : Nat × State := (freeBits s.free, { s with free := s.free + 1 })

/-- A meaning's answer: the next state. -/
abbrev Ans := Host.Outcome State Fault Refusal

end Sys2Proof.Machine
end

