-- ==== Sys2Proof/Machine/Ops.lean ====
section
/-! DEFINITION. The named operations over addresses, memory, host window, pool and placements (05, 10). -/

namespace Sys2Proof.Machine

open Config

/-! ### Sites and tier-0 addresses (R27, R28, R117, R118) -/

/-- A CU site: row plus column even (R27). -/
def isCu (row col : Nat) : Bool := (row + col) % 2 == 0

/-- A site of the understudy spine (R28). -/
def isSpine (col : Nat) : Bool := col == 10 || col == 11

/-- The column of the j-th active MU of a row (R117). -/
def muCol (row j : Nat) : Nat := (if row % 2 = 0 then 1 + 2 * j else 2 * j) + (if j ≥ 5 then 2 else 0)

/-- The site of active MU m (R117). -/
def muSite (m : Nat) : Nat × Nat := (m / 10, muCol (m / 10) (m % 10))

/-- The active-MU number of a site, when it holds an active MU. -/
def muIndex (row col : Nat) : Option Nat :=
  if isCu row col || isSpine col then none
  else some (10 * row + (if col < 10 then col / 2 else (col - 2) / 2))

/-- First address of line `line` of active MU m of quadrant q (R117). -/
def lineAddr (q m line : Nat) : Nat := q * 0x80000000 + m * 0xC00000 + line * 128

/-- A site's number in row, then column, order. -/
def siteOrd (row col : Nat) : Nat := 22 * row + col

/-- A CU's or MU's number among its kind: eleven to a row. -/
def unitOrd (row col : Nat) : Nat := 11 * row + col / 2

/-- First address of quadrant q's staging buffer. -/
def stagingBase (q : Nat) : Nat := q * 0x80000000 + 0x78000000

/-- The state of a site (R54): the spine's understudies stand by, other sites are active. -/
def Quad.site (x : Quad) (row col : Nat) : SiteSt :=
  (x.sites.find? (fun e => e.row == row && e.col == col)).getD
    { row := row, col := col, st := if isSpine col then 1 else 0, reason := 0, partner := none, detour := 0, at_ := 0, seen := 0, due := false }

def Quad.setSite (x : Quad) (e : SiteSt) : Quad :=
  { x with sites := (x.sites.filter (fun y => ¬ (y.row == e.row && y.col == e.col))) ++ [e] }

/-- A fenced site that no understudy stands in for. -/
def SiteSt.isDead (e : SiteSt) : Bool := decide (e.st ≥ 3) && e.partner.isNone

/-- The site whose unit does the work of a logical site: its understudy's when one stands in (R57). -/
def Quad.phys (x : Quad) (row col : Nat) : Nat × Nat :=
  let e := x.site row col
  match e.partner with
  | some p => if e.st ≥ 3 then p else (row, col)
  | none => (row, col)

/-- The logical site that the unit at a site works for: the one it replaces while it stands in (R57). -/
def Quad.logic (x : Quad) (row col : Nat) : Nat × Nat :=
  let e := x.site row col
  match e.partner with
  | some p => if e.st = 2 then p else (row, col)
  | none => (row, col)

/-- A site that the fence of R54 isolates: dead, or under test (R60). -/
def Quad.fencedSite (x : Quad) (row col : Nat) : Bool := decide ((x.site row col).st ≥ 3) || x.test.head? == some (row, col)

/-- A byte range touches the addresses of an active MU site without a stand-in (R118). -/
def State.deadMu (s : State) (a n : Nat) : Bool :=
  (List.range 4).any (fun q => (s.quad q).sites.any (fun e =>
    match muIndex e.row e.col with
    | some m => e.isDead && decide (a < lineAddr q m 0 + 0xC00000) && decide (lineAddr q m 0 < a + n)
    | none => false))

/-- A device-local range that holds no hole, the host window apart (R116 to R120). -/
def State.inDevice (s : State) (a n : Nat) : Bool :=
  if a < 0x200000000 then decide (a + n ≤ 0x200000000) && !s.deadMu a n
  else if 0x010000000000 ≤ a ∧ a < 0x020000000000 then
    decide ((a - 0x010000000000) % 0x4000000000 + n ≤ 0x3C00000000)
  else decide (0x040000000000 ≤ a) && decide (a + n ≤ 0x080000000000)

/-- A range of the staging windows (R120, R121). -/
def inWindow (a n : Nat) : Bool :=
  decide (0x040000000000 ≤ a) && decide (a + n ≤ 0x080000000000) &&
  decide (0xFC00000000 ≤ (a - 0x040000000000) % 0x10000000000) &&
  decide ((a - 0x040000000000) % 0x10000000000 + n ≤ 0x10000000000)

/-- A host-window address (R116). -/
def isHost (a : Nat) : Bool := decide (0x800000000000 ≤ a) && decide (a < 0x1000000000000)

/-- The device address of HDM offset h of the staging window (R121). -/
def windowAddr (h : Nat) : Nat := 0x040000000000 + (h / 0x400000000) * 0x10000000000 + 0xFC00000000 + h % 0x400000000

/-! ### The host window (R283, R284) -/

/-- The map entry that covers window offset o with the needed permission. -/
def Fn.entry (x : Fn) (o : Nat) (wr : Bool) : Option MapEnt :=
  if x.opened && x.bme then
    x.map.find? (fun e => decide (e.wpage * 4096 ≤ o) && decide (o < (e.wpage + e.pages) * 4096) && (if wr then e.wr else e.rd))
  else none

/-- The host bus address of a host-window address (R284); none for a hole. -/
def Fn.hostAddr (x : Fn) (a : Nat) (wr : Bool) : Option Nat :=
  match x.entry (a - 0x800000000000) wr with
  | some e => some (e.hbase + (a - 0x800000000000) - e.wpage * 4096)
  | none => none

/-- A host-window range is covered throughout (R284); an entry ends at most six times. -/
def Fn.covers (x : Fn) (wr : Bool) : Nat → Nat → Nat → Bool
  | _, _, 0 => true
  | 0, _, _ => false
  | k + 1, a, n =>
    match x.entry (a - 0x800000000000) wr with
    | none => false
    | some e =>
      let stop := 0x800000000000 + (e.wpage + e.pages) * 4096
      x.covers wr k stop (n - (stop - a))

/-- No byte of the range is a hole for function f (R118, R284). -/
def State.reachable (s : State) (f a n : Nat) (wr : Bool) : Bool :=
  if isHost a then decide (a + n ≤ 0x1000000000000) && (s.fn f).covers wr 7 a n else s.inDevice a n

/-- Write host memory by DMA through the map; a byte that is a hole is discarded and the access counted
(R118, R277, R284, R307). -/
def State.dmaWrite (s : State) (f a : Nat) (bs : List Byte) : State :=
  let x := s.fn f
  let m := (List.range bs.length).foldl (fun m i =>
    match x.hostAddr (a + i) true with
    | some h => memPut m h (bs.getD i 0)
    | none => m) s.hostMem
  let s := { s with hostMem := m }
  if x.covers true 7 a bs.length then s else s.bump 0x01 f 9 1

/-- Read host memory by DMA: holes read as zero with poison (R118, R277). `keep`: the lines stay Shared in the
device cache (RdShared, at most 1 MiB of lines). -/
def State.dmaRead (s : State) (f a n : Nat) (keep : Bool) : (List Byte × Bool) × State :=
  let x := s.fn f
  let hs := (List.range n).map (fun i => x.hostAddr (a + i) false)
  let bs := hs.map (fun h => match h with | some h => memGet s.hostMem h | none => 0)
  let poison := hs.any (fun h => match h with | some h => s.hostMarks.contains h | none => true)
  let lines := (hs.filterMap (fun h => h.map (· / 64))).eraseDups
  let s := if keep then s.updFn f (fun x =>
      { x with dcache := ((x.dcache.filter (fun l => ¬ lines.contains l)) ++ lines).reverse.take 16384 |>.reverse }) else s
  let s := if hs.any Option.isNone then s.bump 0x01 f 9 1 else s
  ((bs, poison), s)

/-! ### Poison marks and errors (R149 to R152) -/

/-- The unit that carries a poison mark: a 128-byte line of tier 0, a 64-byte codeword of tiers 1 and 2. -/
def markOf (a : Nat) : Nat := if a < 0x200000000 then a / 128 * 128 else a / 64 * 64

/-- Take in what the host has written to its own memory, and the errors that have come into the device's memories. -/
def State.withHost (s : State) (h : HostView) : State :=
  { s with hostMem := memPuts s.hostMem h.cells
           hostMarks := h.poison.foldl markPut (s.hostMarks.filter (fun a => ¬ h.cells.any (·.1 == a)))
           flaws := h.flaws.foldl (fun fs e => put fs (markOf e.1) e.2) s.flaws }

/-- A unit with its first address at k touches a range. -/
def unitMeets (k a n : Nat) : Bool := decide (k < a + n) && decide (a < k + (if k < 0x200000000 then 128 else 64))

/-- The units that read as poisoned: marked ones, and ones whose error their code does not correct (R48, R152). -/
def State.badUnits (s : State) : List Nat := s.marks ++ (s.flaws.filter (·.2)).map (·.1)

/-- Some byte of the range is in such a unit (R152). -/
def State.marked (s : State) (a n : Nat) : Bool := s.badUnits.any (fun k => unitMeets k a n)

/-- Mark every unit that holds a byte of the range (R151). -/
def markRange (marks : List Nat) (a n : Nat) : List Nat :=
  (List.range (n / 64 + 2)).foldl (fun m i => if 64 * i < n + a % 64 then markPut m (markOf (a / 64 * 64 + 64 * i)) else m) marks

/-- Clear the marks of the units wholly or partly in a range that is written afresh. -/
def unmarkRange (marks : List Nat) (a n : Nat) : List Nat :=
  marks.filter (fun k => ¬ (decide (a ≤ k) && decide (k < a + n)))

/-- What is written afresh has no error left in its cells. -/
def State.mend (s : State) (a n : Nat) : State :=
  { s with flaws := s.flaws.filter (fun e => ¬ (decide (a ≤ e.1) && decide (e.1 < a + n))) }

/-- Read device memory; a hole gives zeros with poison (R118) and is counted by the caller. -/
def State.devRead (s : State) (a n : Nat) : List Byte × Bool :=
  if s.inDevice a n then (memRead s.mem a n, s.marked a n) else (List.replicate n 0, true)

/-- Write device memory with or without poison; a write to a hole is discarded (R118). -/
def State.devWrite (s : State) (a : Nat) (bs : List Byte) (poison : Bool) : State :=
  if s.inDevice a bs.length then
    { s.mend a bs.length with
      mem := memWrite s.mem a bs
      marks := if poison then markRange (unmarkRange s.marks a bs.length) a bs.length
               else unmarkRange s.marks a bs.length }
  else s

/-- The poisoned ranges among n bytes of device memory, counted from the first (R152). -/
def State.badRanges (s : State) (a n : Nat) : List (Nat × Nat) :=
  s.badUnits.filterMap (fun k =>
    let w := if k < 0x200000000 then 128 else 64
    if k < a + n ∧ a < k + w then some (max a k - a, min (a + n) (k + w) - max a k) else none)

/-- Mark the units that poisoned ranges of n bytes written at a reach (R151). -/
def markRanges (marks : List Nat) (a n : Nat) (pois : List (Nat × Nat)) : List Nat :=
  pois.foldl (fun m e => if e.1 < n then markRange m (a + e.1) (min e.2 (n - e.1)) else m) marks

/-- Write device memory with the given ranges of the data poisoned (R118, R151). -/
def State.devPut (s : State) (a : Nat) (bs : List Byte) (pois : List (Nat × Nat)) : State :=
  let t := s.devWrite a bs false
  if s.inDevice a bs.length then { t with marks := markRanges t.marks a bs.length pois } else t

/-- Count a hole access of a quadrant (R118, R155). -/
def State.holeAccess (s : State) (q : Nat) : State := s.bump 0x33 q 7 1

/-! ### Directories and extents (R127 to R130) -/

def Pool.copies (p : Pool) (tier oid : Nat) : List Rec := p.recs.filter (fun r => r.tier == tier && r.oid == oid)

/-- The object is reserved or committed in the tier. -/
def Pool.present (p : Pool) (tier oid : Nat) : Bool := p.recs.any (fun r => r.tier == tier && r.oid == oid)

/-- A copy of the object is still reserved in the tier. -/
def Pool.reserved (p : Pool) (tier oid : Nat) : Bool :=
  p.recs.any (fun r => r.tier == tier && r.oid == oid && !r.committed)

/-- The object is readable in the tier: every copy named in its QMASK has committed (R129). -/
def Pool.readable (p : Pool) (tier oid : Nat) : Option Rec :=
  match (p.copies tier oid) with
  | [] => none
  | r :: rs =>
    if (maskList r.qmask 4).all (fun q => (r :: rs).any (fun c => c.copy == q && c.committed)) then some r else none

/-- The copy a reader in quadrant q takes: its own, otherwise the lowest (R132). -/
def Pool.copyFor (p : Pool) (tier oid q : Nat) : Option Rec :=
  match p.readable tier oid with
  | none => none
  | some r =>
    match (p.copies tier oid).find? (·.copy == q) with
    | some c => some c
    | none => (maskList r.qmask 4).findSome? (fun k => (p.copies tier oid).find? (·.copy == k))

/-- First address of a quadrant's region of a tier (R119, R120). -/
def tierBase (tier q : Nat) : Nat :=
  if tier = 1 then 0x010000000000 + q * 0x4000000000 else 0x040000000000 + q * 0x10000000000

/-- The device address ranges of an object's bytes [off, off + n), in order (R124). -/
def extentRanges (base : Nat) : List (Nat × Nat) → Nat → Nat → List (Nat × Nat)
  | [], _, _ => []
  | (b, c) :: es, off, n =>
    let size := c * blockBytes
    if n = 0 then []
    else if off ≥ size then extentRanges base es (off - size) n
    else
      let k := min n (size - off)
      (base + b * blockBytes + off, k) :: extentRanges base es 0 (n - k)

def Rec.ranges (r : Rec) (off n : Nat) : List (Nat × Nat) := extentRanges (tierBase r.tier r.copy) r.ext off n

/-- Read [off, off + n) of a copy: past LENGTH reads as a hole (R124). -/
def State.readCopy (s : State) (r : Rec) (off n : Nat) : List Byte × Bool :=
  let k := min n (r.len - off)
  let rs := r.ranges off k
  ((rs.flatMap (fun (a, m) => memRead s.mem a m)) ++ List.replicate (n - k) 0,
   rs.any (fun (a, m) => s.marked a m) || decide (k < n))

/-- Blocks in use in a quadrant of a tier. -/
def Pool.used (p : Pool) (tier q : Nat) : List (Nat × Nat) :=
  (p.recs.filter (fun r => r.tier == tier && r.copy == q)).flatMap (·.ext)

/-- The block range objects of a class may take (R119, R120, R140). -/
def poolSpan (tier cls : Nat) : Nat × Nat :=
  if cls = 4 then (3604480, 4128768) else if tier = 1 then (512, 983040) else (512, 3604480)

/-- The free runs of [lo, hi) around the used extents, in ascending order. -/
def freeRuns (usedS : List (Nat × Nat)) (hi : Nat) : Nat → List (Nat × Nat)
  | lo => (usedS.foldl (fun (acc : Nat × List (Nat × Nat)) e =>
      if acc.1 < e.1 then (max acc.1 (e.1 + e.2), acc.2 ++ [(acc.1, min e.1 hi - acc.1)])
      else (max acc.1 (e.1 + e.2), acc.2)) (lo, [])) |> fun acc =>
        if acc.1 < hi then acc.2 ++ [(acc.1, hi - acc.1)] else acc.2

/-- Free runs of a class's region in a quadrant. -/
def Pool.runs (p : Pool) (tier q cls : Nat) : List (Nat × Nat) :=
  let (lo, hi) := poolSpan tier cls
  let u := ((p.used tier q).filter (fun e => decide (lo ≤ e.1) && decide (e.1 < hi))) |> sortBy (fun a b => decide (a.1 ≤ b.1))
  freeRuns u hi lo

/-- Take free runs, largest first, the lower start first among equals, until the blocks are covered (R127). -/
def takeRuns : List (Nat × Nat) → Nat → Option (List (Nat × Nat))
  | _, 0 => some []
  | [], _ + 1 => none
  | (b, c) :: rs, n + 1 =>
    if c ≥ n + 1 then some [(b, n + 1)]
    else (takeRuns rs (n + 1 - c)).map (fun t => (b, c) :: t)

/-- Allocate the blocks of a length; more than 8 runs counts as lacking space (R127). -/
def Pool.alloc (p : Pool) (tier q cls len : Nat) : Option (List (Nat × Nat)) :=
  let runs := sortBy (fun a b => decide (a.2 > b.2 ∨ (a.2 = b.2 ∧ a.1 ≤ b.1))) (p.runs tier q cls)
  match takeRuns runs (ceilDiv len blockBytes) with
  | some ext => if ext.length ≤ 8 then some ext else none
  | none => none

def Pool.isPinned (p : Pool) (tier oid : Nat) : Bool := p.pins.contains (tier, oid)
def Pool.isHeld (p : Pool) (tier oid : Nat) : Bool := p.holds.any (fun h => h.tier == tier && h.oid == oid)
def Pool.stampOf (p : Pool) (tier oid : Nat) : Nat :=
  ((p.stamps.find? (fun e => e.1 == tier && e.2.1 == oid)).map (·.2.2)).getD 0

/-- Set an object's use stamp (R135). -/
def Pool.stamp (p : Pool) (tier oid v : Nat) : Pool :=
  { p with stamps := (p.stamps.filter (fun e => ¬ (e.1 == tier && e.2.1 == oid))) ++ [(tier, oid, v)] }

/-- Clear every record of an object in a tier, with its stamp, pin and holds (R129). -/
def Pool.clear (p : Pool) (tier oid : Nat) : Pool :=
  { p with recs := p.recs.filter (fun r => ¬ (r.tier == tier && r.oid == oid))
           stamps := p.stamps.filter (fun e => ¬ (e.1 == tier && e.2.1 == oid))
           pins := p.pins.filter (fun e => e ≠ (tier, oid))
           holds := p.holds.filter (fun h => ¬ (h.tier == tier && h.oid == oid)) }

/-- Objects that eviction by age may take in a quadrant (R136). -/
def Pool.evictable (p : Pool) (tier q : Nat) : List Nat :=
  ((p.recs.filter (fun r => r.tier == tier && r.copy == q && r.committed && r.oid >>> 60 != 4
      && !p.isHeld tier r.oid && !p.isPinned tier r.oid && !p.reserved tier r.oid)).map (·.oid)).eraseDups

/-- The next object to evict: lowest stamp, then lowest ID (R136). -/
def Pool.victim (p : Pool) (tier q : Nat) : Option Nat :=
  (p.evictable tier q).foldl (fun acc o =>
    match acc with
    | none => some o
    | some b =>
      if p.stampOf tier o < p.stampOf tier b ∨ (p.stampOf tier o = p.stampOf tier b ∧ o < b) then some o else some b) none

/-- The present use stamp (R135). -/
def State.stampNow (s : State) : Nat := s.now / 65536

/-- Commit records in use in the directory of a quadrant and tier (R128); a loan's reserved space has none. -/
def Pool.recsIn (p : Pool) (tier q : Nat) : Nat := (p.recs.filter (fun r => r.tier == tier && r.copy == q && r.oid >>> 60 != 6)).length

/-- Blocks for one more copy, with a record for it, if the directory and the region have them (R127, R128). -/
def Pool.place (p : Pool) (tier q cls len : Nat) : Option (List (Nat × Nat)) :=
  if p.recsIn tier q < dirRecords then p.alloc tier q cls len else none

/-- Evict by age in a quadrant until the allocation succeeds (R136). -/
def State.allocEvict (tier q cls len : Nat) (noEvict : Bool) : Nat → State → Option (List (Nat × Nat)) × State
  | fuel, s =>
    match s.pool.place tier q cls len with
    | some ext => (some ext, s)
    | none =>
      match fuel with
      | 0 => (none, s)
      | fuel + 1 =>
        if noEvict then (none, s)
        else match s.pool.victim tier q with
          | none => (none, s)
          | some o => State.allocEvict tier q cls len noEvict fuel
              ({ s with pool := s.pool.clear tier o }.bump 0x33 q (if tier = 1 then 2 else 3) 1)

/-- Parked caches that a park may remove for room: expired ones first, then the earliest EXPIRY, the lowest ID
among equals (R142). -/
def State.wingsVictim (s : State) (q : Nat) : Option Rec :=
  (s.pool.recs.filter (fun r => r.tier == 2 && r.copy == q && r.oid >>> 60 == 4 && r.committed && !s.pool.isHeld 2 r.oid)).foldl
    (fun acc r => match acc with
      | none => some r
      | some b => if r.expiry < b.expiry ∨ (r.expiry = b.expiry ∧ r.oid < b.oid) then some r else some b) none

/-- Make room in the wings (R142). -/
def State.allocWings (q len : Nat) : Nat → State → Option (List (Nat × Nat)) × State
  | fuel, s =>
    match s.pool.place 2 q 4 len with
    | some ext => (some ext, s)
    | none =>
      match fuel with
      | 0 => (none, s)
      | fuel + 1 =>
        match s.wingsVictim q with
        | none => (none, s)
        | some r => State.allocWings q len fuel
            ({ s with pool := s.pool.clear 2 r.oid }.bump 0x33 q (if r.expiry ≤ s.now then 4 else 5) 1)

/-- Reserve the copies of an object in each quadrant of its QMASK, in ascending order (R132 step 3). On failure the
records already written are cleared and evictions stand (R133). -/
def State.reserveIn (s : State) (r : Rec) (noEvict : Bool) : List Nat → Option State × State
  | [] => (some s, s)
  | q :: qs =>
    let (ext, s1) :=
      if r.oid >>> 60 = 4 then State.allocWings q r.len (s.pool.recs.length) s
      else State.allocEvict r.tier q 0 r.len noEvict (s.pool.recs.length) s
    match ext with
    | none => (none, { s1 with pool := { s1.pool with
        recs := s1.pool.recs.filter (fun c => ¬ (c.tier == r.tier && c.oid == r.oid)) } }.bump 0x33 q 6 1)
    | some e =>
      let s2 := { s1 with pool := { s1.pool with recs := s1.pool.recs ++ [{ r with copy := q, ext := e, committed := false }] } }
      s2.reserveIn r noEvict qs

def State.reserve (s : State) (r : Rec) (noEvict : Bool) : Option State × State :=
  s.reserveIn r noEvict (maskList r.qmask 4)

/-- Reserve the copies of a new object whose record bears the next ID of a class; an ID is used up only by an object that comes to be
(R125). -/
def State.reserveNew (s : State) (cls : Nat) (r : Rec) (noEvict : Bool) : Option State × State :=
  match s.reserve r noEvict with
  | (some t, u) => (some { t with pool := { t.pool with seqs := t.pool.seqs.set cls (t.pool.seqs.getD cls 1 + 1) } }, u)
  | (none, u) => (none, u)

/-- Take a hold on an object, which stamps it (R134, R135). -/
def State.hold (s : State) (tier oid : Nat) (who : Holder) : State :=
  { s with pool := { (s.pool.stamp tier oid s.stampNow) with
      holds := s.pool.holds ++ [{ tier := tier, oid := oid, who := who }] } }

/-- Release the holds of a holder on one object, which stamps it. -/
def State.unhold (s : State) (tier oid : Nat) (who : Holder) : State :=
  { s with pool := { (if s.pool.holds.any (fun h => h.tier == tier && h.oid == oid && h.who == who)
                      then s.pool.stamp tier oid s.stampNow else s.pool) with
      holds := s.pool.holds.filter (fun h => ¬ (h.tier == tier && h.oid == oid && h.who == who)) } }

/-- Release every hold of a holder. -/
def State.unholdAll (s : State) (who : Holder) : State :=
  (s.pool.holds.filter (·.who == who)).foldl (fun s h => s.unhold h.tier h.oid who) s

/-- The next device-chosen ID of a class (R125). -/
def State.newOid (s : State) (cls : Nat) : Nat × State :=
  let n := s.pool.seqs.getD cls 1
  (cls * 2 ^ 60 + n, { s with pool := { s.pool with seqs := s.pool.seqs.set cls (n + 1) } })

/-- The ID that the next object of a class will have (R125). -/
def State.nextOid (s : State) (cls : Nat) : Nat := cls * 2 ^ 60 + s.pool.seqs.getD cls 1

/-- A commit record in the making. -/
def newRec (oid tier qmask len owner source expiry : Nat) : Rec :=
  { oid := oid, len := len, tier := tier, qmask := qmask, copy := 0, committed := false
    expiry := expiry, owner := owner, source := source, ext := [] }

/-- The source ranges of a placement for the copy in quadrant q (R132 step 4), as (device address, length) pieces;
the host window's pieces are host bus addresses. -/
inductive Piece where
  | dev (a n : Nat)
  | host (h n : Nat)
  | hole (n : Nat)

/-- The pieces of a host-window range (R284). -/
def Fn.pieces (x : Fn) : Nat → Nat → Nat → List Piece
  | _, _, 0 => []
  | 0, _, n => [.hole n]
  | k + 1, a, n =>
    match x.entry (a - 0x800000000000) false with
    | none => [.hole n]
    | some e =>
      let stop := 0x800000000000 + (e.wpage + e.pages) * 4096
      let m := min n (stop - a)
      .host (e.hbase + (a - 0x800000000000) - e.wpage * 4096) m :: x.pieces k (a + m) (n - m)

/-- The cells and the poisoned byte ranges of a piece list, laid out from base b. -/
def State.gather (s : State) : List Piece → Nat → Mem × List (Nat × Nat)
  | [], _ => ([], [])
  | .dev a n :: ps, b =>
    let (m, p) := s.gather ps (b + n)
    (memSlice s.mem a n b ++ m, (s.badRanges a n).map (fun e => (e.1 + b, e.2)) ++ p)
  | .host h n :: ps, b =>
    let (m, p) := s.gather ps (b + n)
    (memSlice s.hostMem h n b ++ m,
     ((s.hostMarks.filter (fun k => decide (h ≤ k) && decide (k < h + n))).map (fun k => (k - h + b, 1))) ++ p)
  | .hole n :: ps, b =>
    let (m, p) := s.gather ps (b + n)
    (m, (b, n) :: p)

/-- The pieces that reading [off, off + n) of a copy takes: past LENGTH a hole (R124). -/
def Rec.pieces (r : Rec) (off n : Nat) : List Piece :=
  let k := min n (r.len - off)
  (r.ranges off k).map (fun (a, m) => Piece.dev a m) ++ (if k < n then [.hole (n - k)] else [])

/-- The piece of a device-local range. -/
def State.devPiece (s : State) (a n : Nat) : Piece := if s.inDevice a n then .dev a n else .hole n

/-- The pieces a placement reads for its copy in quadrant q. -/
def State.srcPieces (s : State) (f : Nat) (src : PSrc) (otherTier len q : Nat) : List Piece :=
  match src with
  | .addr a => if isHost a then (s.fn f).pieces 7 a len else [s.devPiece a len]
  | .obj oid off =>
    match s.pool.copyFor otherTier oid q with
    | some r => r.pieces off len
    | none => [.hole len]
  | .bytes _ _ => []

/-- The quadrants whose memories a source names: those of a tier-0 range, the window's own, and those of the copies that the readers
take (R23, R132). -/
def State.srcQuads (s : State) (src : PSrc) (otherTier len : Nat) (readers : List Nat) : List Nat :=
  match src with
  | .addr a =>
    if a < 0x200000000 then (List.range 4).filter (fun q => decide (q * 0x80000000 < a + len) && decide (a < (q + 1) * 0x80000000))
    else if inWindow a 1 then [(a - 0x040000000000) / 0x10000000000] else []
  | .obj oid _ => (readers.filterMap (fun q => (s.pool.copyFor otherTier oid q).map (·.copy))).eraseDups
  | .bytes _ _ => []

/-- Write laid-out cells and poison into the address ranges of a copy. -/
def State.fill (s : State) : List (Nat × Nat) → Nat → Mem → List (Nat × Nat) → State
  | [], _, _, _ => s
  | (a, n) :: rs, b, cells, pois =>
    let here := pois.filter (fun (p, k) => decide (p < b + n) && decide (b < p + k))
    let marks := markRanges (unmarkRange s.marks a n) a n (here.map (fun (p, k) => (max p b - b, min (p + k) (b + n) - max p b)))
    { s.mend a n with mem := memPuts (memZero s.mem a n) (memSlice cells b n a), marks := marks }.fill rs (b + n) cells pois

/-- Move a placement's data into its reserved copy of quadrant q (R132 step 4). -/
def State.fillCopy (s : State) (p : Placing) (r : Rec) : State :=
  match p.src with
  | .bytes cells pois => s.fill (r.ranges 0 p.len) 0 cells pois
  | src =>
    let (cells, pois) := s.gather (s.srcPieces p.f src (3 - p.tier) p.len r.copy) 0
    s.fill (r.ranges 0 p.len) 0 cells pois

/-- Marked lines of an object: 128-byte lines that hold a marked codeword (R153). -/
def State.markedLines (s : State) (r : Rec) : Nat :=
  ((s.marks.filterMap (fun k => (r.ranges 0 r.len).findSome? (fun (a, n) =>
    if a ≤ k ∧ k < a + n then some (k / 128) else none))).eraseDups).length

/-- The counter group, quadrant, stack or package, and offset within it, of a tier-1 or tier-2 address (R119, R120). -/
def stackOf (a : Nat) : Option (Nat × Nat × Nat × Nat) :=
  if 0x010000000000 ≤ a ∧ a < 0x020000000000 then
    let o := (a - 0x010000000000) % 0x4000000000
    some (0x31, (a - 0x010000000000) / 0x4000000000, o / 4096 % 5, o / 4096 / 5 * 4096 + o % 4096)
  else if 0x040000000000 ≤ a ∧ a < 0x080000000000 then
    let o := (a - 0x040000000000) % 0x10000000000
    some (0x32, (a - 0x040000000000) / 0x10000000000, o / 4096 % 8, o / 4096 / 8 * 4096 + o % 4096)
  else none

/-- Count k of R155 at the stack or package of each listed codeword. -/
def State.noteMarks (s : State) (k : Nat) (as : List Nat) : State :=
  as.foldl (fun s a => match stackOf a with | some (g, q, n, _) => s.bump g q (5 * n + k) 1 | none => s) s

/-- Of some units of tiers 1 and 2, those that a piece list reads. -/
def unitsIn (us : List Nat) (ps : List Piece) : List Nat :=
  ps.flatMap (fun p => match p with
    | .dev a n => us.filter (fun k => decide (0x200000000 ≤ k) && unitMeets k a n)
    | .host _ _ => []
    | .hole _ => [])

/-- An error met in a line of tier 0 (R46, R54, R62): counted at the MU that holds it and, where the code does not correct it, noted
among the unit's errors. The staging buffers have no counter. -/
def State.lineError (s : State) (k : Nat) (bad : Bool) : State :=
  let q := k / 0x80000000
  if k % 0x80000000 < 0x78000000 then
    let p := muSite (k % 0x80000000 / 0xC00000)
    let s := s.bump 0x12 q (5 * unitOrd p.1 p.2 + if bad then 1 else 0) 1
    if bad then
      let u := (s.quad q).phys p.1 p.2
      s.updQuad q (fun x => { x with errs := (x.errs.filter (fun e => decide (s.now < e.2.2 + 1000000))) ++ [(u.1, u.2, s.now)] })
    else s
  else s

/-- What reading some pieces counts: holes in quadrant q, a line at a time (R118, R124); marker reads, uncorrectable and corrected
codewords at their stacks and packages (R155); and errors in lines of tier 0 (R62). -/
def State.noteReads (s : State) (q : Nat) (ps : List Piece) : State :=
  let holes := ps.foldl (fun n p => match p with | .hole k => n + ceilDiv k 128 | _ => n) 0
  let s := if holes = 0 then s else s.bump 0x33 q 7 holes
  let s := s.noteMarks 2 (unitsIn s.marks ps)
  let s := s.noteMarks 1 (unitsIn ((s.flaws.filter (·.2)).map (·.1)) ps)
  let s := s.noteMarks 0 (unitsIn ((s.flaws.filter (!·.2)).map (·.1)) ps)
  (s.flaws.filter (fun e => decide (e.1 < 0x200000000) && ps.any (fun p => match p with | .dev a n => unitMeets e.1 a n | _ => false))).foldl
    (fun s e => s.lineError e.1 e.2) s

/-- Start a placement whose copies are reserved; its source object takes a hold (R132 step 2). -/
def State.startPlacing (s : State) (p : Placing) : State :=
  let p := { p with pid := s.pool.nextPid }
  let s := { s with pool := { s.pool with placing := s.pool.placing ++ [p], nextPid := s.pool.nextPid + 1 } }
  match p.src with
  | .obj oid _ => s.hold (3 - p.tier) oid (.place p.pid)
  | _ => s

/-- Abandon a placement: its reserved records are cleared and its source hold released (R133). -/
def State.dropPlacing (s : State) (p : Placing) : State :=
  let s := { s with pool := { s.pool with
    placing := s.pool.placing.filter (·.pid != p.pid)
    recs := s.pool.recs.filter (fun r => ¬ (r.tier == p.tier && r.oid == p.oid && !r.committed)) } }
  s.unholdAll (.place p.pid)

/-- Commit a placement's copies in ascending quadrant order, stamp the object, release the source hold and apply
the pin (R129, R132 step 5). Answers the marked lines. -/
def State.commitPlacing (s : State) (p : Placing) : Nat × State :=
  let copies := s.pool.copies p.tier p.oid
  let pieces (r : Rec) : List Piece := s.srcPieces p.f p.src (3 - p.tier) p.len r.copy
  -- an address source is read once for all copies, an object source once for each (R132)
  let readers := match p.src with | .obj _ _ => copies | _ => copies.take 1
  let s := readers.foldl (fun (s : State) r => s.noteReads r.copy (pieces r)) s
  let s := copies.foldl (fun s r =>
    let s := s.fillCopy p r
    s.noteMarks 3 (unitsIn s.marks (r.pieces 0 p.len))) s
  let s := { s with pool := { s.pool with
    recs := s.pool.recs.map (fun (r : Rec) => if r.tier == p.tier && r.oid == p.oid then { r with committed := true } else r)
    placing := s.pool.placing.filter (·.pid != p.pid) } }
  let s := { s with pool := (s.pool.stamp p.tier p.oid s.stampNow) }
  let s := if p.pinAt && !s.pool.isPinned p.tier p.oid then
      { s with pool := { s.pool with pins := s.pool.pins ++ [(p.tier, p.oid)] } } else s
  let s := s.unholdAll (.place p.pid)
  let s := copies.foldl (fun s r => s.bump 0x33 r.copy (if p.tier = 1 then 0 else 1) (ceilDiv p.len blockBytes)) s
  (match copies with | r :: _ => s.markedLines r | [] => 0, s)

/-- Pinned blocks of a quadrant of a tier (R138). -/
def Pool.pinnedBlocks (p : Pool) (tier q : Nat) : Nat :=
  ((p.recs.filter (fun r => r.tier == tier && r.copy == q && p.isPinned tier r.oid)).flatMap (·.ext)).foldl (fun n e => n + e.2) 0

/-- Capacity in blocks of a tier's pool in a quadrant. -/
def poolBlocks (tier : Nat) : Nat := if tier = 1 then tier1Blocks else tier2Blocks

/-- A quadrant is dark or waking (R358). -/
def State.dark (s : State) (q : Nat) : Bool := !(s.qdim q).lit

/-- Start the wake of a dark quadrant (R359). -/
def State.wake (s : State) (q : Nat) : State :=
  if s.dark q && !(s.qdim q).waking then s.updQd q (fun d => { d with waking := true }) else s

/-- Quadrant ready, with its stacks when tier 1 is needed (R315). -/
def State.quadReady (s : State) (q : Nat) (tier1 : Bool) : Bool :=
  s.rdy (1 + q) && (!tier1 || (List.range 5).all (fun n => s.rdy (5 + 5 * q + n)))

end Sys2Proof.Machine
end

