-- ==== Sys2Proof/Machine/Operands.lean ====
section
/-! DEFINITION. The operand forms: a callboard packet's header and parameters (R285, R291), the checks at
acceptance (R290), replies (R292, R293), and the fields of cue-sheet and exchange-sheet entries (R162, R257). -/

namespace Sys2Proof.Machine

open Config

/-! ### Slots and packets -/

def Fn.slot (x : Fn) (n : Nat) : Slot := x.slots.getD n Slot.reset

def State.updSlot (s : State) (f n : Nat) (g : Slot → Slot) : State :=
  s.updFn f (fun x => { x with slots := x.slots.modify n g })

/-- A packet as the stage manager reads it. -/
structure Pkt where
  f : Nat
  n : Nat
  raw : Mem
  seq : Nat
  goUs : Nat
  azgen : Bool
  deriving DecidableEq, Repr, Inhabited

/-- LINES of a native packet (R291). -/
def Pkt.lines (p : Pkt) : Nat := (memGet p.raw 3).toNat

/-- k bytes at packet offset off as a number. Native packets read as zero at or beyond 64 × LINES, the first line
always as written (R291). Under Azgen the header lies at 0x20 and LINES is ignored (R317). -/
def Pkt.at (p : Pkt) (off k : Nat) : Nat :=
  if p.azgen then (if off < 0x20 then memNat p.raw (0x20 + off) k else if off < 0x40 then 0 else memNat p.raw off k)
  else ofLe ((List.range k).map (fun i =>
    if off + i < 64 ∨ off + i < 64 * p.lines then memGet p.raw (off + i) else 0))

/-- k bytes at packet offset off. -/
def Pkt.bytesAt (p : Pkt) (off k : Nat) : List Byte := leBytes k (p.at off k)

def Pkt.op (p : Pkt) : Nat := p.at 0x00 2
def Pkt.flags (p : Pkt) : Nat := p.at 0x02 1
def Pkt.tag (p : Pkt) : Nat := p.at 0x04 4
def Pkt.client (p : Pkt) : Nat := p.at 0x08 2
def Pkt.job (p : Pkt) : Nat := p.at 0x0C 4
def Pkt.session (p : Pkt) : Nat := p.at 0x10 2

/-- The packet held in a slot. -/
def State.pkt (s : State) (f n : Nat) : Pkt :=
  let c := (s.fn f).slot n
  { f := f, n := n, raw := c.cmd, seq := c.seq, goUs := c.goUs, azgen := s.azgen }

/-- The opcodes of R296. -/
def opcodes : List Nat :=
  [0x0101, 0x0102, 0x0103, 0x0104, 0x0105, 0x0201, 0x0202, 0x0203, 0x0204, 0x0205, 0x0206,
   0x0301, 0x0302, 0x0303, 0x0304, 0x0305, 0x0401, 0x0402, 0x0403, 0x0404, 0x0405,
   0x0501, 0x0502, 0x0503, 0x0504, 0x0505, 0x0506, 0x0601, 0x0602, 0x0603, 0x0604, 0x0605, 0x0606,
   0x0701, 0x0702, 0x0703, 0x0704, 0x0705, 0x0801, 0x0802, 0x0803, 0x0804, 0x0805, 0x0806,
   0x0F01, 0x0F02, 0x0F03, 0x0F04]

/-- Commands marked No under Azgen (R296, R318); IDENTITY and ATTEST act at function 0 only. -/
def azgenNo (op f : Nat) : Bool :=
  [0x0205, 0x0206, 0x0601, 0x0602, 0x0603, 0x0604, 0x0605, 0x0606, 0x0701, 0x0702, 0x0704,
   0x0801, 0x0802, 0x0803, 0x0804].contains op || ((op == 0x0805 || op == 0x0806) && f != 0)

/-- Commands refused at a troupe member (R261). -/
def memberNo (op : Nat) : Bool := op / 256 == 4 || op / 256 == 5

/-- Commands whose JOB field must name an existing job (R297). -/
def jobOp (op : Nat) : Bool := op / 256 == 4 || op == 0x0502 || op == 0x0503 || op == 0x0504

/-! ### Replies -/

/-- The epoch of function f's open session, or 0 (R292). -/
def State.openEpoch (s : State) (f : Nat) : Nat := if (s.fn f).opened then (s.fn f).epoch else 0

/-- The bytes of a reply (R292). -/
def State.replyBytes (s : State) (p : Pkt) (status val : Nat) (final : Bool) : List Byte :=
  [BitVec.ofNat 8 status, BitVec.ofNat 8 p.seq] ++ leBytes 2 p.op ++ leBytes 4 p.tag ++ leBytes 20 val ++
  leBytes 2 (s.openEpoch p.f) ++ [BitVec.ofNat 8 p.n, if final then 1 else 0]

/-- Write a final reply's 32 bytes and make the slot DONE; NOTIFY raises SLOT_DONE (R287, R291, R292, R317). -/
def State.finishSlot (s : State) (f n : Nat) (bytes : List Byte) : State :=
  let p := s.pkt f n
  let s := s.updSlot f n (fun c =>
    if s.azgen then { c with rep0 := bytes, st := .done } else { c with rep1 := bytes, st := .done })
  if p.flags.testBit 0 then s.raiseAt f 0x01 (if s.azgen then f else 0xFF) [BitVec.ofNat 8 n, bytes.getD 0 0] else s

/-- Complete the command of a slot with a status and VAL. -/
def State.complete (s : State) (f n status val : Nat) : State :=
  s.finishSlot f n (s.replyBytes (s.pkt f n) status val true)

/-- Write a first reply, which leaves the slot OPEN (R287, R292). -/
def State.firstReply (s : State) (f n status val : Nat) : State :=
  let b := s.replyBytes (s.pkt f n) status val false
  s.updSlot f n (fun c => { c with rep0 := b, st := .opened })

/-- Complete an optional waiting slot. -/
def State.completeOpt (s : State) (w : Option (Nat × Nat)) (status val : Nat) : State :=
  match w with | some (f, n) => s.complete f n status val | none => s

/-- Complete every waiting slot of a list. -/
def State.completeAll (s : State) (ws : List (Nat × Nat)) (status val : Nat) : State :=
  ws.foldl (fun s w => s.complete w.1 w.2 status val) s

/-- VAL of a BAD_PARAM reply (R293). -/
def State.badVal (s : State) (f off : Nat) : Nat := off + s.openEpoch f * 2 ^ 32

/-- Complete an optional waiting slot with a status whose VAL R293 fixes: BAD_PARAM names the field at `off`, NOT_READY
carries RDY_MAP, others are zero. -/
def State.completeAs (s : State) (w : Option (Nat × Nat)) (status off : Nat) : State :=
  match w with
  | some (f, n) => s.complete f n status (if status = BAD then s.badVal f off else if status = NOTREADY then s.bt.rdy.toNat else 0)
  | none => s

/-- What a command's rule answers at acceptance. -/
inductive Rep where
  | fin (status val : Nat)       -- the final reply
  | bad (off : Nat)              -- BAD_PARAM, the field at fault
  | first (status val : Nat)     -- a first reply; the slot stays OPEN
  | later                        -- no reply yet; the slot stays WORKING
  deriving DecidableEq, Repr, Inhabited

/-- Write what the rule answered. -/
def State.answer (s : State) (p : Pkt) : Rep → State
  | .fin st v => s.complete p.f p.n st (if st = NOTREADY then s.bt.rdy.toNat else v)
  | .bad off => s.complete p.f p.n BAD (s.badVal p.f off)
  | .first st v => s.firstReply p.f p.n st v
  | .later => s

/-! ### Checks at acceptance (R290) -/

def State.job? (s : State) (id : Nat) : Option Job := s.sv.jobs.find? (·.id == id)
def State.prod? (s : State) (n : Nat) : Option Prod := s.sv.prods.find? (·.num == n)
def State.req? (s : State) (id : Nat) : Option Req := s.sv.reqs.find? (·.id == id)

/-- QUADS of a production, or 0. -/
def State.prodQuads (s : State) (n : Nat) : Nat := ((s.prod? n).map (·.man.quads)).getD 0

/-- The job exists: it is not ENDED, or is among the recognised ended jobs (R297, R320). -/
def State.jobKnown (s : State) (id : Nat) : Bool :=
  s.sv.jobs.any (·.id == id) || s.sv.endedJobs.any (·.1.id == id)

/-- RDY_MAP bits of a quadrant mask, with the stacks when tier 1 is involved. -/
def quadMask (m : Nat) (t1 : Bool) : BitVec 47 :=
  (maskList m 4).foldl (fun b q => b ||| (if t1 then quadBits q else 1#47 <<< (1 + q))) 0

/-- Counter groups that name a quadrant (R307). -/
def quadGroups : List Nat :=
  [0x11, 0x12, 0x13, 0x21, 0x22, 0x23, 0x24, 0x25, 0x31, 0x32, 0x33, 0x34, 0x41, 0x42, 0x43, 0x44, 0x61, 0x62, 0x82]

/-- The quadrants that a command's own fields or its job name (R315). -/
def State.namedQuads (s : State) (p : Pkt) : Nat :=
  let op := p.op
  let ofJob := match s.job? p.job with | some j => if jobOp op || op == 0x0501 then s.prodQuads j.prod else 0 | none => 0
  let own :=
    if op = 0x0201 then (if p.at 0x68 1 = 1 ∨ p.at 0x68 1 = 2 then bits (p.at 0x69 1) 0 4 else 0)
    else if op = 0x0401 then (if p.at 0x81 1 ≤ 3 then 2 ^ p.at 0x81 1 else 0)
    else if op = 0x0405 then (if p.at 0x48 1 ≤ 3 then 2 ^ p.at 0x48 1 else 0)
    else if op = 0x0F01 then (if quadGroups.contains (p.at 0x41 1) ∧ p.at 0x40 1 ≤ 3 then 2 ^ p.at 0x40 1 else 0)
    else if op = 0x0F02 ∨ op = 0x0F03 then (if p.at 0x40 1 ≤ 3 then 2 ^ p.at 0x40 1 else 0)
    else if op = 0x0302 ∨ op = 0x0501 then s.prodQuads (p.at 0x40 2)
    else 0
  own ||| ofJob

/-- The RDY_MAP bits a command needs (R315, R132 step 1). -/
def State.needs (s : State) (p : Pkt) : BitVec 47 :=
  let op := p.op
  let b25 : BitVec 47 := 1#47 <<< 25
  let b44 : BitVec 47 := 1#47 <<< 44
  let own : BitVec 47 :=
    if [0x0301, 0x0302, 0x0404, 0x0405, 0x0802].contains op then b25
    else if [0x0205, 0x0206, 0x0602].contains op then (if s.fab.fenced then 0 else b44)
    else if op = 0x0603 then (if s.fab.fenced then 0 else b44)
    else if op = 0x0201 then
      let tier := p.at 0x68 1
      let oid := p.at 0x58 8
      (if tier = 2 ∨ (tier = 1 ∧ (oid ≠ 0 ∨ inWindow (bits (p.at 0x48 8) 0 48) 1)) then b25 else 0) |||
      (if tier = 3 then (if s.fab.fenced then 0 else b44) else 0) |||
      (if tier = 2 ∧ oid ≠ 0 then
        quadMask ((s.srcQuads (.obj oid 0) 1 0 (maskList (p.at 0x69 1) 4)).foldl (fun m q => m + 2 ^ q) 0) true else 0)
    else 0
  own ||| quadMask (s.namedQuads p) (p.op == 0x0201 && p.at 0x68 1 == 1)

/-- A refusal at acceptance: its status and VAL, and the state with what the refusal itself does. -/
def State.refuse (s : State) (p : Pkt) : Option (Rep × State) :=
  let op := p.op
  let free := op == 0x0103 || (op == 0x0101 && p.at 0x40 2 == 0)
  if !opcodes.contains op then some (.fin BADOP 0, s)
  else if !p.azgen && (p.lines < 1 || p.lines > 3) then some (.bad 0x0003, s)
  else if op != 0x0101 && op != 0x0103 && (p.client < 1 || p.client > 1023) then some (.bad 0x0008, s)
  else if !free && (!(s.fn p.f).opened || p.session != (s.fn p.f).epoch) then some (.bad 0x0010, s.bump 0x01 p.f 3 1)
  else if s.fab.role == .member && memberNo op then some (.fin NOTLEAD 0, s)
  else if s.azgen && azgenNo op p.f then some (.fin BADOP 0, s)
  else if s.needs p &&& ~~~s.bt.rdy ≠ 0 then
    -- the refusal starts the wake of the dark quadrants it needs (R359)
    some (.fin NOTREADY 0, (maskList (s.namedQuads p) 4).foldl State.wake s)
  else if jobOp op && !s.jobKnown p.job then some (.bad 0x000C, s)
  else if !jobOp op && op != 0x0501 && p.job != 0 then some (.bad 0x000C, s)
  else none

/-- Under Azgen a command that names another quadrant than the function's completes with BAD_PARAM (R318). -/
def State.ownQuad (s : State) (p : Pkt) (mask : Nat) : Bool :=
  !s.azgen || decide (mask % 16 &&& (15 - 2 ^ p.f) = 0)

/-- The slot holds the next packet the stage manager takes, and its opcode is one this command's row covers: the
row's own, or one that R296 does not offer (R288, R290 step 1). -/
def State.takes (s : State) (f n op : Nat) : Bool :=
  s.isOn && s.rdy 0 && s.functions.contains f &&
  (match (s.fn f).arrivals with | k :: _ => k == n | [] => false) &&
  ((s.fn f).slot n).st == .cued &&
  ((s.pkt f n).op == op || !opcodes.contains (s.pkt f n).op)

/-- Take the packet: CUED becomes WORKING (R287, R288). -/
def State.take (s : State) (f n : Nat) : State :=
  s.updFn f (fun x => { x with arrivals := x.arrivals.drop 1, slots := x.slots.modify n (fun c => { c with st := .working }) })

/-- Run a callboard command: take its packet, check it in the order of R290, then apply its own rule. A slot whose
packet is not the next to be taken, or is another command's, leaves everything unchanged (log 1). -/
def State.command (s : State) (f n op : Nat) (rule : Pkt → State → State × Rep) : State :=
  if s.takes f n op then
    let p := s.pkt f n
    let s1 := s.take f n
    match s1.refuse p with
    | some (r, s2) => s2.answer p r
    | none => let (s2, r) := rule p s1; s2.answer p r
  else s

/-! ### Report buffers -/

/-- Write a report by DMA to a host buffer: BAD_PARAM at `off` when a byte of it is a hole (R118), else the given
bytes, VAL holding bytes written and available (R293). -/
def State.report (s : State) (p : Pkt) (off buf len : Nat) (bs : List Byte) (extra : Nat) : State × Rep :=
  let out := bs.take len
  if isHost buf && s.reachable p.f buf out.length true then
    (s.dmaWrite p.f buf out, .fin DONE (out.length + bs.length * 2 ^ 32 + extra))
  else (s.bump 0x01 p.f 9 1, .bad off)

/-! ### Cue-sheet entries (R162) -/

def TeEnt.field (e : TeEnt) (byte n : Nat) : Nat := bits e.raw.toNat (8 * byte) (8 * n)
def rawField (r : BitVec 512) (byte n : Nat) : Nat := bits r.toNat (8 * byte) (8 * n)

def TeEnt.op (e : TeEnt) : Nat := e.field 0x00 1
def TeEnt.flags (e : TeEnt) : Nat := e.field 0x01 1
def TeEnt.cue (e : TeEnt) : Nat := e.field 0x02 1
def TeEnt.glink (e : TeEnt) : Nat := e.field 0x03 1
def TeEnt.postn (e : TeEnt) : Nat := e.field 0x04 2
def TeEnt.wkind (e : TeEnt) : Nat := e.field 0x06 1
def TeEnt.widx (e : TeEnt) : Nat := e.field 0x07 1
def TeEnt.qmask (e : TeEnt) : Nat := bits (e.field 0x0E 1) 0 4
def TeEnt.tier (e : TeEnt) : Nat := e.field 0x0F 1
def TeEnt.srcId (e : TeEnt) : Nat := e.field 0x10 8
def TeEnt.len (e : TeEnt) : Nat := e.field 0x28 4

/-- WVAL of the entry's iteration (R164). -/
def TeEnt.wval (e : TeEnt) : Int := sext (e.field 0x08 6) 48 + e.iter * sext (e.field 0x2C 4) 32

/-- SRC_OFF of the entry's iteration (R164). -/
def TeEnt.srcOff (e : TeEnt) : Int := (bits (e.field 0x18 8) 0 48 : Nat) + e.iter * sext (bits (e.field 0x30 8) 0 41) 41

/-- DST of the entry's iteration (R164). -/
def TeEnt.dstAt (e : TeEnt) : Int := (e.field 0x20 8 : Nat) + e.iter * sext (bits (e.field 0x38 8) 0 41) 41

/-- The DSET entry's fields (R172); in a loop body SRC_OFF and DST step with the iteration (R164). -/
def TeEnt.dsetLinks (e : TeEnt) : List Nat := maskList (e.field 0x10 8) 38
def TeEnt.dsetStart (e : TeEnt) : Nat := bits e.srcOff.toNat 0 24
def TeEnt.dsetDisp (e : TeEnt) : Nat := bits e.dstAt.toNat 0 6
def TeEnt.dsetStatic (e : TeEnt) : Bool := e.dstAt.toNat.testBit 15
def TeEnt.dsetScene (e : TeEnt) : Nat := bits e.dstAt.toNat 16 16
def TeEnt.dsetQuota (e : TeEnt) : Nat := bits e.len 0 16

/-! ### Exchange-sheet entries (R257) -/

def XEnt.field (e : XEnt) (byte n : Nat) : Nat := rawField e.raw byte n

end Sys2Proof.Machine
end

