-- ==== Sys2Proof/Machine/CallLights.lean ====
section
/-! DEFINITION. The call lights (13): claim, EOI, SWSET, shared lines, MSI-X masking and the register writes. -/

namespace Sys2Proof.Machine

/-! ### Targets and shared sources -/

/-- The assigned shared sources (R365); the others are reserved. -/
def sharedAssigned (src : Nat) : Bool :=
  (decide (32 ≤ src) && decide (src ≤ 40)) ||
  (decide (64 ≤ src) && decide (src < 512) && decide ((src - 64) % 112 < 67)) ||
  (decide (512 ≤ src) && decide (src ≤ 615))

/-- The assigned sources of the host's private bank (R366). -/
def hostAssigned (i : Nat) : Bool := [1, 2, 3, 4, 8, 9, 10, 11, 12, 16, 17, 18, 24, 25, 28].contains i

/-- The assigned sources of a control core's private bank (R366). -/
def coreAssigned (i : Nat) : Bool := decide (i ≤ 16)

def sharedReset (src : Nat) : Shared :=
  { src := src, target := 0, pri := 0, en := false, sense := 0, pend := false, insvc := false, latched := false
    line := false, next := none }

/-- A shared source's word; one never written reads as at reset (R375). -/
def State.sharedAt (s : State) (src : Nat) : Shared := (s.shared.find? (·.src == src)).getD (sharedReset src)

def State.setShared (s : State) (c : Shared) : State :=
  { s with shared := if s.shared.any (·.src == c.src) then s.shared.map (fun e => if e.src == c.src then c else e)
                     else s.shared ++ [c] }

/-- Target t: 0 to 7 a control core, 8 + f the host target of function f (R364, R373). -/
def State.target (s : State) (t : Nat) : Target :=
  if t < 8 then s.cores.getD t Target.coreReset else (s.fn (t - 8)).tgt

def State.setTarget (s : State) (t : Nat) (x : Target) : State :=
  if t < 8 then { s with cores := s.cores.set t x } else s.updFn (t - 8) (fun f => { f with tgt := x })

/-- Count one of a target's call-light counters (R377). -/
def State.lightCount (s : State) (t k : Nat) : State :=
  if t < 8 then s.bump 0x91 0 (6 * t + k) 1 else s.bump 0x91 (t - 8) (48 + k) 1

/-- The target exists and the control domain is powered. -/
def State.hasTarget (s : State) (t : Nat) : Bool :=
  s.isOn && (decide (t < 8) || (s.functions.contains (t - 8)))

/-! ### Claim and EOI (R370, R371) -/

/-- The claim word (R374). -/
def claimWord (src pri vec : Nat) : BitVec 32 := BitVec.ofNat 32 (src + pri * 2 ^ 10 + vec * 2 ^ 16)

/-- The sources deliverable at a target (R369). -/
def State.deliverable (s : State) (t : Nat) : List (Nat × Nat) :=
  (waitingSources (s.target t) s.shared (if t < 8 then some t else none)).filter (fun e => (s.target t).admits e.2)

/-- Deliverable but for a full stack (R370). -/
def State.stackBlocked (s : State) (t : Nat) : Bool :=
  decide ((s.target t).stack.length = 16) &&
  (waitingSources (s.target t) s.shared (if t < 8 then some t else none)).any
    (fun e => ({ s.target t with stack := (s.target t).stack.take 1 } : Target).admits e.2)

/-- Mark a claimed source in service; a level source keeps following its line (R370). -/
def State.serve (s : State) (t src : Nat) : State :=
  if src < 32 then
    let g (p : Priv) : Priv := { p with pend := false, insvc := true, signalled := false }
    s.setTarget t { s.target t with priv := (s.target t).priv.modify src g }
  else s.setShared { s.sharedAt src with pend := false, insvc := true }

/-- CLAIM (R370). -/
def execClaim (t : Nat) (s : State) : Ans :=
  .next <|
    if s.hasTarget t then
      match bestSource (s.deliverable t) with
      | some (src, pri) =>
        let vec := if t < 8 then 0 else ((s.target t).priv.getD src default).vec
        let s := s.serve t src
        let x := s.target t
        (s.setTarget t { x with stack := (src, pri) :: x.stack, lastClaim := claimWord src pri vec }).lightCount t 0
      | none =>
        let x := s.target t
        if s.stackBlocked t then
          (s.setTarget t { x with lastClaim := 0xC0000000#32, fullCnt := min 0xFFFF (x.fullCnt + 1) }).lightCount t 2
        else (s.setTarget t { x with lastClaim := 0x80000000#32 }).lightCount t 1
    else s

/-- A source leaves service; a TARGET written meanwhile takes effect (R371). -/
def State.unserve (s : State) (t src : Nat) : State :=
  if src < 32 then
    s.setTarget t { s.target t with priv := (s.target t).priv.modify src (fun p => { p with insvc := false }) }
  else
    let c := s.sharedAt src
    s.setShared { c with insvc := false, target := c.next.getD c.target, next := none }

/-- The EOI operation, shared by the EOI command and a register write. -/
def State.eoi (s : State) (t src : Nat) : State :=
  match (s.target t).stack with
  | (top, _) :: rest =>
    if top = src then
      let s := (s.setTarget t { s.target t with stack := rest }).unserve t src
      if t < 8 then s else s.signal (t - 8)
    else (s.setTarget t { s.target t with eoiErr := min 0xFFFF ((s.target t).eoiErr + 1) }).lightCount t 3
  | [] => (s.setTarget t { s.target t with eoiErr := min 0xFFFF ((s.target t).eoiErr + 1) }).lightCount t 3

/-- EOI (R371). -/
def execEoi (t src : Nat) (s : State) : Ans := .next (if s.hasTarget t then s.eoi t (src % 1024) else s)

/-- Each 1 raises the matching private source as an edge (R374). -/
def State.swset (s : State) (t : Nat) (mask : BitVec 32) : State :=
  let x := (maskList mask.toNat 32).foldl (fun (x : Target) i =>
    if (if t < 8 then coreAssigned i else hostAssigned i) then x.raise i else x) (s.target t)
  let s := s.setTarget t x
  if t < 8 then s else s.signal (t - 8)

/-- SWSET (R374): writes no event record. -/
def execSwset (t : Nat) (mask : BitVec 32) (s : State) : Ans := .next (if s.hasTarget t then s.swset t mask else s)

/-! ### Shared lines (R367, R368) -/

/-- The source side of a shared source is unclocked: its quadrant is dark, or the array clocks are stopped. -/
def State.unclocked (s : State) (src : Nat) : Bool :=
  decide (64 ≤ src) && decide (src < 512) && (s.dark ((src - 64) / 112) || s.pw.tripT || s.pw.tripI)

/-- A shared source's line goes high or low: the latch catches a qualifying edge whatever the source's clock does (R368). -/
def State.edge (s : State) (src : Nat) (high : Bool) : State :=
  let c := s.sharedAt src
  if s.isOn && sharedAssigned src && c.line != high then
    if c.sense = 0 then
      -- a level line holds its value while its clock is stopped (R368)
      if s.unclocked src then s else s.setShared { c with line := high }
    else
      let hit := (high && (c.sense == 1 || c.sense == 3)) || (!high && (c.sense == 2 || c.sense == 3))
      let late := hit && s.unclocked src
      let s := s.setShared { c with line := high, pend := c.pend || hit, latched := c.latched || late }
      if late then s.lightCount c.target 5 else s
  else s

/-- A pulse on a shared source's line. -/
def State.pulse (s : State) (src : Nat) : State := (s.edge src true).edge src false

/-- SOURCE_EDGE (R368). -/
def execSourceEdge (src : Nat) (high : Bool) (s : State) : Ans := .next (s.edge src high)

/-! ### MSI-X masking (R372) -/

/-- Unmask one vector: a pending message is posted if a source signalled on it is still unclaimed, and the PBA
bit clears either way. -/
def Fn.unmask (x : Fn) (vec : Nat) : Fn :=
  let x := { x with vecs := x.vecs.modify vec (fun v => { v with masked := false }) }
  if x.fmask || !x.pba.getLsbD vec then x
  else
    let x := { x with pba := x.pba &&& ~~~(1#64 <<< vec) }
    if x.tgt.priv.any (fun p => p.signalled && p.vec == vec) then { x with posted := vec :: x.posted } else x

/-- Unmask a vector of function f, counting a posted message (R377). -/
def State.unmask (s : State) (f vec : Nat) : State :=
  let x := (s.fn f).unmask vec
  let n := x.posted.length - (s.fn f).posted.length
  let s := s.updFn f (fun _ => x)
  if n = 0 then s else s.bump 0x91 f 52 n

/-- Vectors of a function (R276). -/
def State.vectors (s : State) : Nat := if s.azgen then 16 else 64

/-- MSIX_UNMASK (R372). -/
def execMsixUnmask (f vec : Nat) (s : State) : Ans :=
  .next (if s.isOn && s.functions.contains f && decide (vec < s.vectors) then s.unmask f vec else s)

/-! ### Register writes of the call lights -/

/-- A write to the target register block of R374 at an offset within it; other offsets are RO or reserved. -/
def State.writeTarget (s : State) (t off : Nat) (v : Nat) : State :=
  if off = 0x008 then s.eoi t (bits v 0 10)
  else if off = 0x018 then
    let s := s.setTarget t { s.target t with threshold := bits v 0 5 }
    if t < 8 then s else s.signal (t - 8)
  else if off = 0x030 then s.swset t (BitVec.ofNat 32 v)
  else if 0x100 ≤ off ∧ off < 0x200 ∧ off % 8 = 0 then
    let i := (off - 0x100) / 8
    if (if t < 8 then coreAssigned i else hostAssigned i) then
      let g (p : Priv) : Priv :=
        { p with vec := if t < 8 then 0 else if bits v 0 6 < s.vectors then bits v 0 6 else p.vec
                 pri := bits v 6 5, en := v.testBit 11 }
      let s := s.setTarget t { s.target t with priv := (s.target t).priv.modify i g }
      if t < 8 then s else s.signal (t - 8)
    else s
  else s

/-- A write of a shared source's configuration word (R375): TARGET waits for the EOI of a source in service (R371),
LATCHED is W1C, and a reserved TARGET leaves the field as it is. -/
def State.writeShared (s : State) (src v : Nat) : State :=
  if sharedAssigned src then
    let c := s.sharedAt src
    let tg := bits v 0 4
    let c := { c with pri := bits v 4 5, en := v.testBit 9, sense := bits v 10 2, latched := c.latched && !v.testBit 14 }
    s.setShared (if tg < 8 then (if c.insvc then { c with next := some tg } else { c with target := tg }) else c)
  else s

end Sys2Proof.Machine
end

