-- ==== Sys2Proof/Machine/Cxl.lean ====
section
/-! DEFINITION. Configuration space and the CXL structures of function 0 (R276, R279, R280, R316, R423). The manual names the
structures and what they declare; their layout is CXL 2.0's and the PCIe header's (R12; PRESUMED, log 56). -/

namespace Sys2Proof.Machine

/-- One 32-bit register of the CXL structures: its address (a configuration offset below 4,096, or an offset of BAR0), its value at
reset, the bits that a write sets, the bits that a 1 clears, and what stops a write. -/
inductive CxlLock where
  | free | config | decoder
  deriving DecidableEq, Repr, Inhabited

structure CxlReg where
  at_ : Nat
  reset : BitVec 32
  rw : BitVec 32
  w1c : BitVec 32
  lock : CxlLock
  deriving DecidableEq, Repr, Inhabited

/-- A register that a write does not change. -/
def roReg (a : Nat) (v : BitVec 32) : CxlReg := { at_ := a, reset := v, rw := 0, w1c := 0, lock := .free }

/-- A writable register. -/
def rwReg (a : Nat) (v rw : BitVec 32) (k : CxlLock) : CxlReg := { at_ := a, reset := v, rw := rw, w1c := 0, lock := k }

/-- The PCIe DVSEC for CXL Devices at 0x100: Cache, IO and Mem Capable, one HDM range of 64 GiB, a cache of 1 MiB. -/
def deviceDvsec : List CxlReg :=
  [roReg 0x100 0x14010023#32, roReg 0x104 0x03C11E98#32,
   roReg 0x108 0x00170000#32,                          -- DVSEC 0; capability: cache, IO, mem, HDM count 1
   rwReg 0x10C 0x00000002#32 0x00004FFD#32 .config,    -- control: cache and mem enable; status
   rwReg 0x110 0x00000000#32 0x00000001#32 .free,      -- control 2: disable caching; status 2
   rwReg 0x114 0x01020000#32 0x00000001#32 .config,    -- lock; capability 2: 1 unit of 1 MiB
   roReg 0x118 0x00000010#32, roReg 0x11C 0x00000001#32,
   rwReg 0x120 0 0xFFFFFFFF#32 .config, rwReg 0x124 0 0xF0000000#32 .config,
   roReg 0x128 0, roReg 0x12C 0, roReg 0x130 0, roReg 0x134 0, roReg 0x138 0]

/-- The Register Locator DVSEC at 0x140: the component registers lie at BAR0 offset 0x8_0000. -/
def locatorDvsec (azgen : Bool) : List CxlReg :=
  [roReg 0x140 (if azgen then 0x16010023#32 else 0x00010023#32), roReg 0x144 0x01401E98#32, roReg 0x148 0x00000008#32,
   roReg 0x14C 0x00080100#32, roReg 0x150 0]

/-- The Non-CXL Function Map DVSEC at 0x160 of Azgen: functions 1 to 3 take no part in CXL.cache or CXL.mem. -/
def mapDvsec : List CxlReg :=
  [roReg 0x160 0x00010023#32, roReg 0x164 0x02C01E98#32, roReg 0x168 0x00000002#32, roReg 0x16C 0,
   roReg 0x170 1, roReg 0x174 1, roReg 0x178 1, roReg 0x17C 0, roReg 0x180 0, roReg 0x184 0, roReg 0x188 0]

/-- The component registers: the capability array at BAR0 0x8_1000, the RAS Capability at 0x8_1100 and the HDM Decoder Capability at
0x8_1200 with its one decoder. -/
def componentRegs : List CxlReg :=
  [roReg 0x81000 0x02110001#32, roReg 0x81004 0x10020002#32, roReg 0x81008 0x20010005#32,
   { at_ := 0x81100, reset := 0, rw := 0, w1c := 0x0001CFFF#32, lock := .free },
   rwReg 0x81104 0x0001CFFF#32 0x0001CFFF#32 .free, rwReg 0x81108 0x0001CFFF#32 0x0001CFFF#32 .free,
   { at_ := 0x8110C, reset := 0, rw := 0, w1c := 0x0000007F#32, lock := .free },
   rwReg 0x81110 0x0000007F#32 0x0000007F#32 .free, roReg 0x81114 0,
   roReg 0x81200 0x00000010#32, rwReg 0x81204 0 0x00000003#32 .free,
   rwReg 0x81210 0 0xF0000000#32 .decoder, rwReg 0x81214 0 0xFFFFFFFF#32 .decoder,
   rwReg 0x81218 0 0xF0000000#32 .decoder, rwReg 0x8121C 0 0xFFFFFFFF#32 .decoder,
   rwReg 0x81220 0 0x000003FF#32 .decoder]

/-- The CXL registers of the device: function 0's (R279, R316). -/
def State.cxlRegs (s : State) : List CxlReg :=
  deviceDvsec ++ locatorDvsec s.azgen ++ (if s.azgen then mapDvsec else []) ++ componentRegs

/-- The word of a CXL register as it stands: as last written, or as at reset. -/
def State.cxlWord (s : State) (r : CxlReg) : BitVec 32 := (((s.fn 0).cxl.find? (·.1 == r.at_)).map (·.2)).getD r.reset

/-- The word at an address of the CXL structures, 0 where no register lies (R8, R280). A committed decoder says so, and the range is
active while the repertory is ready. -/
def State.cxlAt (s : State) (a : Nat) : BitVec 32 :=
  match s.cxlRegs.find? (·.at_ == a) with
  | none => 0
  | some r =>
    let w := s.cxlWord r
    if a = 0x81220 ∧ w.getLsbD 9 then w ||| 0x400#32
    else if a = 0x11C ∧ s.rdy 25 then w ||| 2#32
    else w

/-- What stops a write: the DVSEC's lock bit, or a decoder committed with Lock On Commit (RW-L of R7). -/
def State.cxlLocked (s : State) (k : CxlLock) : Bool :=
  match k with
  | .free => false
  | .config => (s.cxlAt 0x114).getLsbD 0
  | .decoder => (s.cxlAt 0x81220).getLsbD 9 && (s.cxlAt 0x81220).getLsbD 8

/-- A host write to a word of the CXL structures. -/
def State.cxlPut (s : State) (a : Nat) (v : BitVec 32) : State :=
  match s.cxlRegs.find? (·.at_ == a) with
  | none => s
  | some r =>
    if s.cxlLocked r.lock then s
    else
      let w := s.cxlWord r
      let n := ((w &&& ~~~r.rw) ||| (v &&& r.rw)) &&& ~~~(v &&& r.w1c)
      s.updFn 0 (fun (x : Fn) => { x with cxl := x.cxl.filter (fun e => e.1 != a) ++ (if n = r.reset then [] else [(a, n)]) })

/-- A 4-byte word of a function's configuration space: the identifiers of R423, the class code of R279, Bus Master Enable, and at
function 0 the CXL structures. -/
def State.configAt (s : State) (f off : Nat) : BitVec 32 :=
  match off with
  | 0x000 => 0x06401E7A#32
  | 0x004 => if (s.fn f).bme then 0x00100004#32 else 0x00100000#32
  | 0x008 => 0x12000000#32 ||| BitVec.ofNat 32 (s.bt.stepping % 256)
  | 0x02C => 0x00011E7A#32
  | _ => if f = 0 ∧ 0x100 ≤ off ∧ off < 0x1000 then s.cxlAt off else 0

/-- A write to a word of configuration space: bit 2 of the command register is Bus Master Enable. -/
def State.configPut (s : State) (f off : Nat) (v : BitVec 32) : State :=
  if off = 4 then s.updFn f (fun (x : Fn) => { x with bme := v.getLsbD 2 })
  else if f = 0 ∧ 0x100 ≤ off ∧ off < 0x1000 then s.cxlPut off v
  else s

end Sys2Proof.Machine
end

