-- ==== Sys2Proof/Machine/Callboard.lean ====
section
/-! DEFINITION. The callboard's hardware and the registers that have no row of their own (R7, R280 to R287). -/

namespace Sys2Proof.Machine

/-- First byte of a slot's CUE word (R285, R317). -/
def State.cueOff (s : State) : Nat := if s.azgen then 0xFC else 0xBC

/-- Slots of a function's callboard (R280, R316). -/
def State.slotCount (s : State) : Nat := if s.azgen then 64 else 256

/-- A byte of BAR2 lies in a slot's command area (R285, R317). -/
def State.inCommand (s : State) (o : Nat) : Bool :=
  decide (o < 256 * s.slotCount) &&
  (if s.azgen then decide (0x20 ≤ o % 256) && decide (o % 256 < 0xFC) else decide (o % 256 < 0xBC))

/-- A byte of BAR2 lies in a CUE word. -/
def State.inCue (s : State) (o : Nat) : Bool :=
  decide (o < 256 * s.slotCount) && decide (s.cueOff ≤ o % 256) && decide (o % 256 < s.cueOff + 4)

/-- A slot whose packet the device holds: CUED, WORKING or OPEN (R287). -/
def SlotSt.busy : SlotSt → Bool
  | .free => false
  | .done => false
  | .cued => true
  | .working => true
  | .opened => true

/-- An aligned 4-byte write to a CUE word (R282, R286, R287). -/
def State.cueWrite (s : State) (f n : Nat) (w : BitVec 32) : State :=
  if bits w.toNat 24 8 = 0xA5 then
    if s.rdy 0 then
      if ((s.fn f).slot n).st.busy then s.bump 0x01 f 1 1
      else s.updFn f (fun x =>
        { x with arrivals := x.arrivals ++ [n]
                 slots := x.slots.modify n (fun c =>
                   { c with st := .cued, seq := bits w.toNat 8 8, goUs := s.now, rep0 := [], rep1 := [] }) })
    else s
  else s.bump 0x01 f 0 1

/-- Store the bytes of a write that fall into slot n's command area, or discard and count them (R282, R287). -/
def State.storeSlot (s : State) (f off : Nat) (data : List Byte) (n : Nat) : State :=
  let mine := (List.range data.length).filter (fun i => s.inCommand (off + i) && decide ((off + i) / 256 = n))
  if mine.isEmpty then s
  else if ((s.fn f).slot n).st.busy then s.bump 0x01 f 2 1
  else s.updSlot f n (fun c => { c with cmd := mine.foldl (fun m i => memPut m ((off + i) % 256) (data.getD i 0)) c.cmd })

/-- A host write into BAR2 (R282). -/
def State.callboardWrite (s : State) (f off : Nat) (data : List Byte) : State :=
  if (List.range data.length).any (fun i => s.inCue (off + i)) then
    if data.length = 4 ∧ off % 256 = s.cueOff then s.cueWrite f (off / 256) (BitVec.ofNat 32 (ofLe data))
    else s.bump 0x01 f 0 1
  else
    (List.range (data.length / 256 + 2)).foldl (fun s k => s.storeSlot f off data (off / 256 + k)) s

/-- The callboard's hardware answers at function f: powered, and not replaced by the recovery window (R398). -/
def State.hasCallboard (s : State) (f : Nat) : Bool := s.isOn && s.bt.boot != 3 && s.functions.contains f

/-- CALLBOARD_WRITE (R282). -/
def execCallboardWrite (f off : Nat) (data : List Byte) (s : State) : Ans :=
  .next (if s.hasCallboard f then s.callboardWrite f off data else s)

/-- GO_WRITE (R287). -/
def execGoWrite (f slot : Nat) (w : BitVec 32) (s : State) : Ans :=
  .next (if s.hasCallboard f && decide (slot < s.slotCount) then s.cueWrite f slot w else s)

/-! ### REGISTER_WRITE -/

/-- A write to an MSI-X table entry's 4-byte field (R280). Clearing the mask bit unmasks the vector (R372). -/
def State.writeVec (s : State) (f off v : Nat) : State :=
  let i := off / 16
  if i < s.vectors then
    match off % 16 with
    | 0 => s.updFn f (fun x => { x with vecs := x.vecs.modify i (fun e => { e with addr := e.addr / 2 ^ 32 * 2 ^ 32 + v % 2 ^ 32 }) })
    | 4 => s.updFn f (fun x => { x with vecs := x.vecs.modify i (fun e => { e with addr := e.addr % 2 ^ 32 + v % 2 ^ 32 * 2 ^ 32 }) })
    | 8 => s.updFn f (fun x => { x with vecs := x.vecs.modify i (fun e => { e with data := v % 2 ^ 32 }) })
    | 12 => if v.testBit 0 then s.updFn f (fun x => { x with vecs := x.vecs.modify i (fun e => { e with masked := true }) })
            else s.unmask f i
    | _ => s
  else s

/-- A slope field written above its limit takes the limit; below its minimum it is a reserved encoding, which a register ignores
(R8, R9, R350). -/
def dimField (old v lo hi : Nat) : Nat := if v < lo then old else min v hi

/-- A write of DIM_CFG (R350). Only the slope limits take their limit: a FLOOR above 500, and a CEIL below FLOOR or above 1,000, are
reserved encodings (R9) and leave their field as it is. -/
def Power.writeDim (p : Power) (v : Nat) : Power :=
  let floor := if bits v 30 10 ≤ 500 then bits v 30 10 else p.dimFloor
  { p with dimUp := dimField p.dimUp (bits v 0 10) 10 100, dimDown := dimField p.dimDown (bits v 10 10) 10 100
           dimEmerg := dimField p.dimEmerg (bits v 20 10) 50 250, dimFloor := floor
           dimCeil := if floor ≤ bits v 40 10 ∧ bits v 40 10 ≤ 1000 then bits v 40 10 else p.dimCeil }

/-- A write of the recovery window's RC_OFF, RC_LEN or buffer bytes (R399). -/
def Recovery.write (r : Recovery) (off v : Nat) : Recovery :=
  if off = 0x008 then { r with off := bits v 0 25 }
  else if off = 0x010 then { r with len := bits v 0 17 }
  else if 0x10000 ≤ off ∧ off < 0x20000 then
    { r with buf := memWrite r.buf (off - 0x10000) ((leBytes 8 v).take (0x20000 - off)) }
  else r

/-- REGISTER_WRITE (R7). A register that is RO, reserved or of an unpowered block ignores the write. -/
def execRegisterWrite (r : Reg) (v : BitVec 64) (s : State) : Ans :=
  .next <|
    if !s.isOn then s else
    match r with
    | .bar0 f off =>
      if !s.functions.contains f then s
      else if 0x10000 ≤ off ∧ off < 0x11000 then s.writeTarget (8 + f) (off - 0x10000) v.toNat
      else if 0x20000 ≤ off ∧ off < 0x20400 then s.writeVec f (off - 0x20000) v.toNat
      else if f = 0 ∧ 0x80000 ≤ off ∧ off < 0x90000 then s.cxlPut off (v.truncate 32)
      else s
    | .config f off => if s.functions.contains f then s.configPut f off (v.truncate 32) else s
    | .bme f => if s.functions.contains f then s.updFn f (fun x => { x with bme := v.getLsbD 0 }) else s
    | .functionMask f =>
      if !s.functions.contains f then s
      else if v.getLsbD 0 then s.updFn f (fun x => { x with fmask := true })
      else
        let s := s.updFn f (fun x => { x with fmask := false })
        (List.range s.vectors).foldl (fun s i =>
          if (((s.fn f).vecs[i]?).map (·.masked)).getD true then s else s.unmask f i) s
    | .target t off => if t < 8 then s.writeTarget t off v.toNat else s
    | .shared src => s.writeShared src v.toNat
    | .dimCfg => { s with pw := s.pw.writeDim v.toNat }.trackNormal
    | .dimQstat _ => s
    | .recovery off => if s.bt.boot = 3 then { s with bt := { s.bt with rc := s.bt.rc.write off v.toNat } } else s

end Sys2Proof.Machine
end

