-- ==== Sys2Proof/Machine/Net.lean ====
section
/-! DEFINITION. Buduty messages as the device sends them (R247, R251, R252, R259, R265): peers, routing, posting. -/

namespace Sys2Proof.Machine

open Config

/-- An empty message of a type. -/
def msg0 (type : Nat) : Msg :=
  { type := type, bcast := false, troupe := false, reqann := false, dst := 0, src := 0, depoch := 0, sepoch := 0
    dq := 0, ctr := 255, len := 0, opid := 0, rtag := 0, a0 := 0, a1 := 0, a2 := 0, a3 := 0, payload := []
    poison := [] }

/-- The flits of a message with n payload bytes that carry a byte of the given ranges of its payload (R249): 240 B of header and
payload to a flit. -/
def flitsBad (n : Nat) (pois : List (Nat × Nat)) : List Nat :=
  (List.range (ceilDiv (64 + n) 240)).filter (fun k => pois.any (fun e =>
    decide (e.1 + 64 < 240 * k + 240) && decide (240 * k < e.1 + e.2 + 64)))

/-- The ranges of a message's payload that its flits with POISON carry. -/
def msgBad (m : Msg) : List (Nat × Nat) :=
  m.poison.map (fun k => (240 * k - 64, min m.payload.length (240 * k + 176) - (240 * k - 64)))

/-- A 64-bit argument. -/
def arg (n : Nat) : BitVec 64 := BitVec.ofNat 64 n

/-! ### Ports and peers -/

/-- Sibling ports of a link plan: always the lowest-numbered ones (R247). -/
def siblings (plan : Nat) : Nat :=
  match plan with
  | 0 => 18 | 1 => 14 | 2 => 12 | 3 => 9 | 4 => 6 | _ => 0

/-- A port is a sibling port under the plan in force. -/
def State.isSibling (s : State) (p : Nat) : Bool := decide (p < siblings s.fab.plan)

def State.port (s : State) (p : Nat) : Port := s.fab.ports.getD p Port.reset

def State.updPort (s : State) (p : Nat) (g : Port → Port) : State :=
  { s with fab := { s.fab with ports := s.fab.ports.modify p g } }

/-- UP ports in ascending order. -/
def State.upPorts (s : State) : List Nat := (List.range 18).filter (fun p => (s.port p).st == .up)

/-- UP sibling ports whose peer reports a troupe position. -/
def State.portsTo (s : State) (pos : Nat) : List Nat :=
  s.upPorts.filter (fun p => s.isSibling p &&
    (match (s.port p).peer with | some i => !i.isSwitch && i.strap == pos | none => false))

/-- UP uplinks. -/
def State.upLinks (s : State) : List Nat := s.upPorts.filter (fun p => !s.isSibling p)

/-- A troupe position as a peer number (R143 writes it with bit 15 set). -/
def peerOf (pos : Nat) : Nat := 0x8000 + pos

/-- A peer is a troupe position. -/
def isPos (peer : Nat) : Bool := decide (0x8000 ≤ peer)

/-- The routing-table entry for an address: the longest prefix, the lowest index among equals (R265). -/
def State.routeFor (s : State) (a : Nat) : Option (BitVec 64) :=
  s.fab.routes.foldl (fun acc e =>
    let plen := bits e.toNat 14 4
    let hit := e.getLsbD 36 && decide (plen ≤ 14) && decide ((a % 16384) >>> (14 - plen) = (bits e.toNat 0 14) >>> (14 - plen))
    match acc with
    | none => if hit then some e else none
    | some b => if hit && decide (plen > bits b.toNat 14 4) then some e else acc) none

/-- The port a message to a peer leaves on: the lowest UP sibling port that reaches a position, else R265. -/
def State.routePort (s : State) (peer opid : Nat) : Option Nat :=
  if isPos peer then (s.portsTo (peer % 8)).head?
  else
    match s.routeFor peer with
    | none => none
    | some e =>
      let ps := s.upPorts.filter (fun p => !s.isSibling p && e.getLsbD (18 + p))
      if ps.isEmpty then none else ps[(peer + opid) % ps.length]?

/-! ### Sending -/

/-- The virtual channel of a message type (R253). -/
def vcOf (type : Nat) : Nat := if type < 0x10 then 0 else if type ≥ 0x80 then 1 else 2

/-- Flits of a message: its header and payload at 240 B a flit (R249). -/
def flitsOf (m : Msg) : Nat := ceilDiv (64 + m.payload.length) 240

/-- Put a message on a port: counted, in the replay buffer until acknowledged, and charged to its channel's
credits as far as they reach (R250, R251, R275). -/
def State.emit (s : State) (p : Nat) (m : Msg) : State :=
  let n := flitsOf m
  let s := s.updPort p (fun x =>
    { x with txSeq := (x.txSeq + n) % 4096
             replay := x.replay ++ [((x.txSeq + n + 4095) % 4096, m)]
             credits := x.credits.modify (vcOf m.type) (fun c => c - n) })
  let s := { s with fab := { s.fab with sent := (p, m) :: s.fab.sent } }
  (s.bump 0x71 0 (10 * p) n).bump 0x72 0 0 1

/-- Address a message to a peer: DST, SRC and the epochs (R252). -/
def State.address (s : State) (peer : Nat) (m : Msg) : Msg :=
  if isPos peer then
    { m with troupe := true, dst := peer % 8, src := s.bt.strap, depoch := s.fab.troupeEpoch, sepoch := s.fab.troupeEpoch
             len := m.payload.length }
  else
    { m with troupe := false, dst := peer, src := s.fab.addr.getD 0, depoch := (look s.fab.dir peer).getD 0
             sepoch := s.fab.epoch, len := m.payload.length }

/-- Send a message to a peer by its route; one that no route carries is counted unroutable (R265). -/
def State.sendTo (s : State) (peer : Nat) (m : Msg) : Bool × State :=
  let m := s.address peer m
  match s.routePort peer m.opid with
  | some p => (true, s.emit p m)
  | none => (false, s.bump 0x72 0 7 1)

/-- Send and forget. -/
def State.tell (s : State) (peer : Nat) (m : Msg) : State := (s.sendTo peer m).2

/-- Broadcast on the lowest-numbered UP uplink (R265). -/
def State.broadcast (s : State) (m : Msg) : State :=
  match s.upLinks with
  | p :: _ => s.emit p { m with bcast := true, src := s.fab.addr.getD 0, sepoch := s.fab.epoch, len := m.payload.length }
  | [] => s.bump 0x72 0 7 1

/-- The sender of a message as a peer number. -/
def peerFrom (m : Msg) : Nat := if m.troupe then peerOf (m.src % 8) else m.src

/-- Answer a request: the reply echoes OPID and the routing tag (R252). -/
def State.reply (s : State) (req m : Msg) : State := s.tell (peerFrom req) { m with opid := req.opid, rtag := req.rtag }

/-- An ACK with a status (R253). -/
def State.ackMsg (s : State) (req : Msg) (status : Nat) : State := s.reply req { msg0 0x81 with a0 := arg status }

/-- An ERROR with a status (R253). -/
def State.errMsg (s : State) (req : Msg) (status : Nat) : State := s.reply req { msg0 0x8F with a0 := arg status }

/-- ANNOUNCE's argument A0 (R253). -/
def annArg (a e : Nat) : BitVec 64 := arg (a % 16384 + e % 65536 * 65536)

/-- The device's own ANNOUNCE. -/
def State.announceMsg (s : State) (reqann : Bool) : Msg :=
  { msg0 0x10 with reqann := reqann, a0 := annArg (s.fab.addr.getD 0) s.fab.epoch, a1 := arg s.bt.serial }

/-! ### Exchange operations -/

/-- Tracker slots that a tier engine holds: one for each of its operations in flight (R169). -/
def Quad.teSlots (x : Quad) : Nat := (x.queues.flatMap (·.ents)).foldl (fun n e => n + e.held) 0

/-- Tracker slots in use: one for each exchange message, and the tier engines' operations (R169). -/
def State.trackers (s : State) : Nat := s.fab.ops.length + s.quads.foldl (fun n x => n + x.teSlots) 0

/-- A new operation in the making. -/
def xop0 (kind peer : Nat) (m : Msg) : XOp :=
  { id := 0, parent := 0, kind := kind, peer := peer, sent := 0, ectr := 255, job := 0, dst := 0, msg := m, raw := 0
    off := 0, xq := none, te := none, slot := none, waiting := none, resendAt := none }

/-- Issue one message of an operation: it takes an operation number and is sent if its port has a credit, and
otherwise waits for one (R250, R254). A message without a route answers `false` and is not outstanding. -/
def State.issue (s : State) (o : XOp) : Bool × State :=
  let id := s.fab.nextOp
  let s := { s with fab := { s.fab with nextOp := id + 1 } }
  let m := s.address o.peer { o.msg with opid := id % 2 ^ 32 }
  let o := { o with id := id, msg := m, sent := s.now }
  match s.routePort o.peer m.opid with
  | none => (false, s.bump 0x72 0 7 1)
  | some p =>
    if (s.port p).credits.getD (vcOf m.type) 0 = 0 then
      (true, { s with fab := { s.fab with ops := s.fab.ops ++ [{ o with waiting := some s.now }] } })
    else (true, ({ s with fab := { s.fab with ops := s.fab.ops ++ [o] } }).emit p m)

/-- Take a new parent number. -/
def State.newParent (s : State) : Nat × State :=
  (s.fab.nextOp, { s with fab := { s.fab with nextOp := s.fab.nextOp + 1 } })

/-! ### Expert generation (R236) -/

/-- Generation of an operation's tag (R235). -/
def tagGen (rtag : Nat) : Nat := bits rtag 16 16

/-- Some outstanding operation carries the generation v. -/
def State.genBusy (s : State) (v : Nat) : Bool := s.fab.ops.any (fun o => o.te.isSome && tagGen o.msg.rtag == v)

/-- Every waiting bump is taken while the new value is free (R236). -/
def State.takeBumps : Nat → State → State
  | 0, s => s
  | k + 1, s =>
    if s.sv.bumps = 0 ∨ s.genBusy ((s.sv.gen + 1) % 65536) then s
    else
      let s := { s with sv := { s.sv with gen := (s.sv.gen + 1) % 65536, bumps := s.sv.bumps - 1 } }
      State.takeBumps k ((List.range 4).foldl (fun s q => s.bump 0x62 q 9 1) s)

/-- The generation once every waiting bump is taken, as the lead's messages carry it (R236). -/
def State.genNext (s : State) : Nat := (s.sv.gen + s.sv.bumps) % 65536

/-- Bump the expert generation, now or when its new value is free (R236). -/
def State.bumpGen (s : State) : State :=
  State.takeBumps (s.sv.bumps + 1) { s with sv := { s.sv with bumps := s.sv.bumps + 1 } }

end Sys2Proof.Machine
end

