-- ==== Sys2Proof/Machine/Array.lean ====
section
/-! DEFINITION. A quadrant's array as other chapters meet it: unit states, current slots, counters' places. -/

namespace Sys2Proof.Machine

open Config

/-! ### Places of counters (R62, R88, R115) -/

/-- Count in group 0x11: counter k of a CU (0 firings, 1 matrix steps, 2 masked-row steps, 3 zero blocks, 4 and 5 ECC,
6 control discards, 7 discarded results, 8 saturations, 9 metadata faults). -/
def State.cuCount (s : State) (q row col k n : Nat) : State := s.bump 0x11 q (10 * unitOrd row col + k) n

/-- Count in group 0x12: counter k of an MU (0 and 1 ECC, 2 control discards, 3 bank conflicts, 4 range faults). -/
def State.muCount (s : State) (q row col k n : Nat) : State := s.bump 0x12 q (5 * unitOrd row col + k) n

/-- Count in group 0x21: counter k of a queue (0 full, 1 empty-wait, 2 tag-wait, 3 credit-wait, 4 curtain, 5 cut). -/
def State.queueCount (s : State) (q row col queue k n : Nat) : State := s.bump 0x21 q (60 * siteOrd row col + 6 * queue + k) n

/-- The counter groups a quadrant reset clears (R62, R88, R115, R181, R243). -/
def unitGroups : List Nat := [0x11, 0x12, 0x13, 0x21, 0x22, 0x23, 0x24, 0x25, 0x41, 0x43, 0x44, 0x61, 0x62]

/-! ### Unit states -/

def OpSlot.empty : OpSlot := { toks := [], scales := [], occ := none, meta_ := [] }

def Bank.empty : Bank := { cells := [], oper := [], poison := false }

def VReg.zero : VReg := { data := 0, poison := false }

/-- A CU with nothing in it. -/
def Cu.fresh : Cu :=
  { inq := List.replicate 6 [], outq := List.replicate 4 [], resv := List.replicate 4 0, vf := []
    vregs := List.replicate 8 (List.replicate 4 VReg.zero), aCur := OpSlot.empty, aNext := OpSlot.empty
    bCur := OpSlot.empty, bNext := OpSlot.empty, stepIx := 0, chunkIx := 0, reuseIx := 0
    bank := Bank.empty, full := [], fullAt := [], drainRow := 0, drainq := [], readyAt := none, blockAt := 0, stepAt := none }

def AgSt.idle : AgSt :=
  { running := false, fin := false, n := 0, idx := [], line := 0, left := 0, faulted := false, hold := none }

/-- An MU with nothing in it. -/
def Mu.fresh : Mu :=
  { inq := List.replicate 4 [], outq := List.replicate 4 [], ags := List.replicate 4 AgSt.idle
    ports := List.replicate 3 [], lastAg := List.replicate 3 3, grantAt := List.replicate 3 0, bankAt := [], rets := [] }

def Quad.cu (x : Quad) (row col : Nat) : Cu := (look x.cus (row, col)).getD Cu.fresh
def Quad.mu (x : Quad) (row col : Nat) : Mu := (look x.mus (row, col)).getD Mu.fresh
def Quad.setCu (x : Quad) (row col : Nat) (c : Cu) : Quad := { x with cus := put x.cus (row, col) c }
def Quad.setMu (x : Quad) (row col : Nat) (m : Mu) : Quad := { x with mus := put x.mus (row, col) m }

/-- The slot current at a site, or at the understudy that does its work (R57, R67, R74). -/
def Quad.slotAt (x : Quad) (row col : Nat) : Nat :=
  match x.chg with
  | some c => if c.done.any (fun e => e.1 == x.phys row col) then c.target else c.old
  | none => x.gwSlot

/-! What a site did or took in the present array cycle, by code: 0 to 5 a token entered that input queue, 10 to 13 a token
entered that output queue, 21 a matrix step, 22 the operand feed, 23 and 24 the side path of A and B, 25 a drained row, 26 a
token in its switch, 30 to 33 an injection from that output queue, 40 and 41 one from that trap, 50 on one from gateway link 0
on, 90 to 95 a pop of that input queue, 97 to 99 a wait for a bank at that port, 100 to 103 a data token taken by that write AG, 104 to 107 an address issued by that AG,
110 on a cut discard at queue 0 on (numbered as in group 0x21). -/

def Quad.act (x : Quad) (row col code : Nat) : Quad := { x with acts := x.acts ++ [(row, col, code)] }
def Quad.did (x : Quad) (row col code : Nat) : Bool := x.acts.contains (row, col, code)

/-- Tokens that entered a queue in the present array cycle; nothing takes them before the next one (R65). -/
def Quad.fresh (x : Quad) (row col code : Nat) : Nat := x.acts.count (row, col, code)

/-- The array cycle in which a site switched, if a change in progress or just over switched it. -/
def Quad.switchedAt (x : Quad) (row col : Nat) : Option Nat :=
  (((match x.chg with | some c => c.done | none => []) ++ x.recent).find? (fun e => e.1 == x.phys row col)).map (·.2)

/-- The scene stored in a slot. -/
def Quad.scene (x : Quad) (slot : Nat) : Option Scene := (x.scenes[slot]?).join

/-- The record of a site in a scene: its switch's table, and its unit's configuration. -/
def Quad.recIn (x : Quad) (slot row col : Nat) : Option SiteCfg :=
  (x.scene slot).bind (fun c => c.sites.find? (fun e => e.row == row && e.col == col))

/-- The configuration of a logical site's unit in a scene. The unit that now does the site's work holds it only when the scene was
loaded with that unit in its place (R58). -/
def Quad.cfgIn (x : Quad) (slot row col : Nat) : Option SiteCfg :=
  match x.scene slot with
  | some c => if (look c.placed (row, col)).getD (row, col) = x.phys row col then x.recIn slot row col else none
  | none => none

/-- The current configuration of a site. -/
def Quad.cfg (x : Quad) (row col : Nat) : Option SiteCfg := x.cfgIn (x.slotAt row col) row col

/-- The lowest queue of an output mask, as its queue entry of group 0x21 (six input queues stand before a CU's outputs). -/
def lowOut (mask : Nat) : Option Nat := ((List.range 4).find? (fun k => mask.testBit k)).map (· + 6)

/-- A run or a change is active in the quadrant, a cut's two cycles among them (R78, R83). -/
def Quad.active (x : Quad) : Bool := x.run.isSome || x.chg.isSome || x.cutFrom.isSome

/-! ### Jobs in a quadrant -/

/-- The job's state owns its scope (R321). -/
def Job.owns (j : Job) : Bool :=
  match j.st with
  | .running => true
  | .preempting => true
  | .setting => true
  | .held => j.started
  | .queued => false
  | .struck => false

/-- The quadrants a job uses. -/
def State.jobQuads (s : State) (j : Job) : Nat := s.prodQuads j.prod

/-- The job that owns a scope and uses quadrant q. -/
def State.jobAt (s : State) (q : Nat) : Option Job :=
  s.sv.jobs.find? (fun j => j.owns && (s.jobQuads j).testBit q && (!s.azgen || j.f == q))

def State.updJob (s : State) (id : Nat) (g : Job → Job) : State :=
  { s with sv := { s.sv with jobs := s.sv.jobs.map (fun j => if j.id == id then g j else j) } }

/-- Add curtain or cut discards to the job of a quadrant (R78). -/
def State.addDiscards (s : State) (q n : Nat) : State :=
  match s.jobAt q with
  | some j => s.updJob j.id (fun j => { j with discards := j.discards + n })
  | none => s

end Sys2Proof.Machine
end

