-- ==== Sys2Proof/Machine/AddrGen.lean ====
section
/-! DEFINITION. Address generators: their descriptors, nests and cue waits (R49 to R53, R158 to R160). -/

namespace Sys2Proof.Machine

/-! ### Descriptors (R49) -/

/-- An address generator's descriptor. -/
structure AgDesc where
  mode : Nat
  port : Nat
  dq : Nat
  iq : Nat
  levels : Nat
  lastlvl : Nat
  cue : Nat
  cuestep : Nat
  base : Nat
  window : Nat
  idxstride : Nat
  idxbound : Nat
  counts : List Nat
  strides : List Int
  deriving DecidableEq, Repr, Inhabited

def agDescOf (w : BitVec 256) : AgDesc :=
  let f (lo n : Nat) : Nat := bits w.toNat lo n
  { mode := f 0 3, port := f 3 2, dq := f 5 2, iq := f 7 2, levels := f 9 2, lastlvl := f 11 2, cue := f 13 6
    cuestep := f 19 15, base := f 34 17, window := f 51 17, idxstride := f 68 17, idxbound := f 85 17
    counts := (List.range (f 9 2 + 1)).map (fun l => f (102 + 34 * l) 16)
    strides := (List.range (f 9 2 + 1)).map (fun l => sext (f (118 + 34 * l) 18) 18) }

/-- A descriptor keeps its limits in the fields its mode uses (R49, R50). -/
def AgDesc.ok (d : AgDesc) : Bool :=
  let read := d.mode == 1 || d.mode == 3 || d.mode == 6
  let nest := decide (1 ≤ d.mode ∧ d.mode ≤ 4)
  d.mode == 0 ||
  (decide (d.mode ≤ 6) && (if read then decide (d.port ≤ 1) else d.port == 2) &&
   (!nest || (decide (d.lastlvl ≤ d.levels) && (d.cue == 63 || decide (1 ≤ d.cuestep)) && decide (d.base ≤ 98303) &&
     decide (d.window ≤ 98304) && d.counts.all (fun c => decide (1 ≤ c)))) &&
   (!(d.mode == 3 || d.mode == 4) || (decide (d.idxstride ≤ 98303) && decide (1 ≤ d.idxbound) && decide (d.idxbound ≤ 98304))) &&
   (d.mode != 4 || d.iq != d.dq))

/-- Input queues a descriptor uses (R50). -/
def AgDesc.ins (d : AgDesc) : List Nat :=
  (if d.mode = 2 ∨ d.mode = 4 ∨ d.mode = 5 then [d.dq] else []) ++ (if 3 ≤ d.mode ∧ d.mode ≤ 6 then [d.iq] else [])

/-- Output queues a descriptor uses. -/
def AgDesc.outs (d : AgDesc) : List Nat := if d.mode = 1 ∨ d.mode = 3 ∨ d.mode = 6 then [d.dq] else []

def AgDesc.isRead (d : AgDesc) : Bool := d.mode == 1 || d.mode == 3 || d.mode == 6

/-! ### The nest (R51) -/

/-- Iterations of the levels below l. -/
def inner (counts : List Nat) (l : Nat) : Nat := (counts.take l).foldl (· * ·) 1

/-- Addresses of a full nest. -/
def AgDesc.total (d : AgDesc) : Nat := inner d.counts (d.levels + 1)

/-- Index of level l at address n. -/
def AgDesc.index (d : AgDesc) (n l : Nat) : Nat := n / inner d.counts l % d.counts.getD l 1

/-- Line offset at address n. -/
def AgDesc.offset (d : AgDesc) (n : Nat) : Int :=
  (List.range (d.levels + 1)).foldl (fun (o : Int) l => o + (d.index n l : Int) * d.strides.getD l 0) 0

/-- Every level up to LASTLVL is at its final iteration. -/
def AgDesc.lastAt (d : AgDesc) (n : Nat) : Bool :=
  (List.range (d.lastlvl + 1)).all (fun l => decide (d.index n l + 1 = d.counts.getD l 1))

/-- The line at address n with a lead before the nest's offset, wrapped into the window (R51, R159). -/
def AgDesc.line (d : AgDesc) (lead : Nat) (n : Nat) : Int :=
  let off := (lead : Int) + d.offset n
  if d.window = 0 then d.base + off else d.base + off % (d.window : Int)

/-! ### What an AG does next -/

/-- The next access of an AG: the line (none: zero data for an index out of bounds), LAST, the poison its token takes,
and the cue wait that stands before it, as counter and absolute target. -/
structure AgNext where
  line : Option Int
  last : Bool
  poison : Bool
  wait : Option (Nat × Nat)
  deriving DecidableEq, Repr, Inhabited

/-- The AG's next access, if its work is not finished and its wait could be met (R51, R53, R158, R159). -/
def AgSt.next (a : AgSt) (d : AgDesc) (rstart : List Nat) : Option AgNext :=
  if d.mode = 1 ∨ d.mode = 2 then
    if !a.running || a.fin then none
    else
      let per := inner d.counts d.levels
      let first := decide (a.n % per = 0)
      if d.cue ≠ 63 ∧ first ∧ rstart.isEmpty then none
      else some { line := some (d.line 0 a.n), last := d.lastAt a.n, poison := false
                  wait := if d.cue ≠ 63 ∧ first then some (d.cue, rstart.getD d.cue 0 + (a.n / per + 1) * d.cuestep) else none }
  else if d.mode = 3 ∨ d.mode = 4 then
    match a.idx with
    | [] => none
    | (_, x, p) :: _ =>
      if x < d.idxbound then
        some { line := some (d.line (x * d.idxstride) a.n), last := d.lastAt a.n, poison := p
               wait := if d.cue ≠ 63 ∧ a.n = 0 then some (d.cue, (x + 1) * d.cuestep) else none }
      else some { line := none, last := d.lastAt a.n, poison := true, wait := none }
  else if d.mode = 5 ∨ d.mode = 6 then
    if a.left = 0 then none else some { line := some a.line, last := decide (a.left = 1), poison := false, wait := none }
  else none

/-- A cue wait is met (R157 to R159); a target above 0xFFFF_FFFF never is. -/
def Quad.cueMet (x : Quad) (w : Option (Nat × Nat)) : Bool :=
  match w with
  | none => true
  | some (c, t) => decide (t ≤ 0xFFFFFFFF) && decide (t ≤ (x.cues.getD c { posted := 0, retired := 0 }).posted)

/-- The run whose slot is current at a site. -/
def Quad.runAt (x : Quad) (row col : Nat) : Option RunSt :=
  let t := x.slotAt row col
  match x.run with
  | some r => if r.slot = t then some r else x.leaving.filter (fun l => decide (l.slot = t))
  | none => none

def Quad.rstartAt (x : Quad) (row col : Nat) : List Nat := match x.runAt row col with | some r => r.rstart | none => []

/-- Note the largest target a run has met on a counter (R160). -/
def RunSt.meet (r : RunSt) (w : Option (Nat × Nat)) : RunSt :=
  match w with
  | none => r
  | some (c, t) => { r with met := put r.met c (max t ((look r.met c).getD 0)) }

/-- Note a met cue wait in the run whose slot is `tag` (R160). -/
def Quad.meetAt (x : Quad) (tag : Nat) (w : Option (Nat × Nat)) : Quad :=
  { x with run := x.run.map (fun (r : RunSt) => if r.slot = tag then r.meet w else r)
           leaving := x.leaving.map (fun (r : RunSt) => if r.slot = tag then r.meet w else r) }

/-- The next access of an AG at a site, with its descriptor. -/
def Quad.agNext (x : Quad) (row col i : Nat) : Option (AgDesc × AgNext) :=
  match x.cfg row col with
  | none => none
  | some g =>
    let d := agDescOf (g.ags.getD i 0)
    (((x.mu row col).ags.getD i AgSt.idle).next d (x.rstartAt row col)).map (fun n => (d, n))

/-- Every cue wait that stands before an AG's next address and whose target the counter has reached is met in the run, whether or not
the AG has had data or room to go on (R160). -/
def Quad.noteMet (x : Quad) : Quad :=
  x.mus.foldl (fun x (k, _) => (List.range 4).foldl (fun (x : Quad) i =>
    match x.agNext k.1 k.2 i with
    | some (_, n) => if x.cueMet n.wait then x.meetAt (x.slotAt k.1 k.2) n.wait else x
    | none => x) x) x

end Sys2Proof.Machine
end

