-- ==== Sys2Proof/Machine/Cut.lean ====
section
/-! DEFINITION. Cuts (R78) and the quadrant reset (R382). -/

namespace Sys2Proof.Machine

open Config

/-! ### Cuts (R78) -/

/-- R74 at a CU: registers, banks, operand slots and metadata are cleared; queues stay. -/
def Cu.switched (c : Cu) : Cu := { Cu.fresh with inq := c.inq, outq := c.outq }

/-- R74 at an MU: every AG goes back to the start of its new descriptor; queues and waiting set-down data stay. DESIGN CHOICE
(log 46): which AG a port granted last is forgotten too, so that AG0 comes first again. -/
def Mu.switched (m : Mu) (running : Bool) : Mu :=
  { Mu.fresh with inq := m.inq, outq := m.outq, ags := List.replicate 4 { AgSt.idle with running := running }
                  bankAt := m.bankAt }

/-- Row tokens of a CU that finished tiles have still to drain or the vector pipeline has still to take (R43). -/
def Cu.rowsLeft (c : Cu) : Nat := c.drainq.length + (32 * c.full.length - c.drainRow)

/-- Cut one CU: firings and drains (R78). Answers the counts at its queues and the discarded results. -/
def Cu.cut (c : Cu) (outmask : Nat) : Cu × List (Nat × Nat) × Nat :=
  let results := (c.vf.map (·.mask)) ++ List.replicate c.rowsLeft outmask
  (c.switched, results.filterMap (fun m => (lowOut m).map (fun k => (k, 1))), (results.filter (fun m => (lowOut m).isNone)).length)

/-- Cut one MU: reads in flight; a write whose token was popped completes. -/
def Mu.cut (m : Mu) : Mu × List (Nat × Nat) :=
  (m.switched false, m.rets.map (fun r => (r.dq + 4, 1)) ++
    ((m.ports.take 2).flatMap (fun as => (as.filter (·.trap.isNone)).map (fun a => (a.dq + 4, 1)))))

/-- A token's lanes that are live in its PRED over the bytes of a line (R48). -/
def mergeLanes (old : List Byte) (t : Tok) : List Byte :=
  (List.zipIdx old).map (fun (b, i) => if t.pred.getLsbD (i / 4) then (t.data >>> (8 * i)).truncate 8 else b)

/-- Write a token into a line of an MU (R48). -/
def State.lineWrite (s : State) (q i line : Nat) (t : Tok) : State :=
  s.devWrite (lineAddr q i line) (mergeLanes (memRead s.mem (lineAddr q i line) 128) t) t.poison

/-- Writes of an MU whose tokens were popped complete at a cut (R78): those on its write port, and those an AG holds for its next
address. A spilled token on its way into a trap is the trap's. -/
def State.finishWrites (s : State) (q row col : Nat) : State :=
  let x := s.quad q
  let m := x.mu row col
  match muIndex row col with
  | none => s
  | some i =>
    let s := ((m.ports.getD 2 []).filter (·.trap.isNone)).foldl (fun s a => s.lineWrite q i a.line a.tok) s
    m.ags.foldl (fun s a => match a.hold with
      | some (t, l) => if 0 ≤ l ∧ l ≤ 98303 then s.lineWrite q i l.toNat t else s.muCount q row col 4 1
      | none => s) s

/-- A run retires: RETIRED of every cue counter rises to the largest target the run met (R160), and a run that started
behind it learns its RETIRED_start (R158). -/
def Quad.retireRun (x : Quad) (r : RunSt) : Quad :=
  let x : Quad := { x with cues := (List.zipIdx x.cues).map (fun (c, i) =>
    { c with retired := max c.retired ((look r.met i).getD 0) }) }
  { x with run := x.run.map (fun n => if n.rstart.isEmpty then { n with rstart := x.cues.map (·.retired) } else n) }

/-- A queue of a site loses its head when a cut has made it an old-scene token (R78): counted at the queue. -/
def State.cutHead (s : State) (q row col n ix : Nat) (isIn : Bool) : State :=
  let x := s.quad q
  let qs := if isCu row col then (if isIn then (x.cu row col).inq else (x.cu row col).outq)
            else (if isIn then (x.mu row col).inq else (x.mu row col).outq)
  match qs.getD n [] with
  | t :: rest =>
    if t.tag = x.slotAt row col then s
    else
      let s := s.updQuad q (fun x =>
        let x := if isCu row col then x.setCu row col (if isIn then { x.cu row col with inq := (x.cu row col).inq.set n rest }
                                                       else { x.cu row col with outq := (x.cu row col).outq.set n rest })
                 else x.setMu row col (if isIn then { x.mu row col with inq := (x.mu row col).inq.set n rest }
                                       else { x.mu row col with outq := (x.mu row col).outq.set n rest })
        x.act row col (110 + ix))
      (s.queueCount q row col ix 5 1).addDiscards q 1
  | [] => s

/-- Every queue of a quadrant is emptied and counted: a cut that names the slot already current, as one that ends a job, leaves
no tag by which to tell old tokens (log 26). -/
def State.cutAll (s : State) (q : Nat) : State :=
  let x := s.quad q
  let count (s : State) (k : Nat × Nat) (base : Nat) (qs : List (List Tok)) : State :=
    (List.zipIdx qs).foldl (fun s (ts, i) =>
      if ts.isEmpty then s else (s.queueCount q k.1 k.2 (i + base) 5 ts.length).addDiscards q ts.length) s
  let s := x.cus.foldl (fun s (k, c) => count (count s k 0 c.inq) k 6 c.outq) s
  let s := x.mus.foldl (fun s (k, m) => count (count s k 0 m.inq) k 4 m.outq) s
  s.updQuad q (fun x =>
    { x with cus := x.cus.map (fun (k, c) => (k, { c with inq := c.inq.map (fun _ => []), outq := c.outq.map (fun _ => []) }))
             mus := x.mus.map (fun (k, m) => (k, { m with inq := m.inq.map (fun _ => []), outq := m.outq.map (fun _ => []) })) })

/-- Every queue of a quadrant loses an old-scene head, once in each array cycle
from a cut on (R78). -/
def State.cutHeads (s : State) (q : Nat) : State :=
  let x := s.quad q
  let s := x.cus.foldl (fun s (k, _) =>
    let s := (List.range 6).foldl (fun s n => s.cutHead q k.1 k.2 n n true) s
    (List.range 4).foldl (fun s n => s.cutHead q k.1 k.2 n (n + 6) false) s) s
  x.mus.foldl (fun s (k, _) =>
    let s := (List.range 4).foldl (fun s n => s.cutHead q k.1 k.2 n n true) s
    (List.range 4).foldl (fun s n => s.cutHead q k.1 k.2 n (n + 4) false) s) s

/-- Tokens of a trap: in its region, arrived at it, or read from it. -/
def TrapSt.held (t : TrapSt) : List Tok := t.toks ++ t.landing ++ t.out.map (·.2)

/-- The slot that a cut which ends work switches to: the target of the change in progress, a cut's two cycles and a change that
waits for its curtain point among them, else the slot already current (R79). -/
def Quad.cutTarget (x : Quad) : Nat :=
  match x.chg, x.cutFrom with
  | _, some c => c.2
  | some c, none => c.target
  | none, none => x.gwSlot

/-- The cut of a quadrant to a slot (R74, R78): every site that a change had not already switched switches, results in flight are
discarded, traps are emptied of old-scene tokens, old tokens on links are dropped, and each queue loses its first old head.
Everything discarded is counted once. DESIGN CHOICE (log 46): an old token on its way from an edge switch to the gateway is counted
at that switch, and one that waits on the gateway's inbound side is dropped uncounted. -/
def State.cutNow (s : State) (q target : Nat) : State :=
  let s := s.updQuad q Quad.noteMet
  let x := s.quad q
  let same := x.chg.isNone && x.gwSlot == target
  let old (t : Tok) : Bool := same || t.tag != target
  let isDone (k : Nat × Nat) : Bool := match x.chg with | some c => c.done.any (fun e => e.1 == k) | none => false
  -- sources that a change had already switched keep their new-scene paths
  let kept (src : Src) : Bool := match src with
    | .out k _ => isDone (x.phys k.row k.col)
    | .trap k _ => isDone (x.phys k.row k.col)
    | .gw _ _ => match x.chg with | some c => c.gw | none => false
  let s := x.cus.foldl (fun s (k, c) =>
    if isDone (x.phys k.1 k.2) then s
    else
      let mask := match x.cfg k.1 k.2 with | some g => bits g.firing.toNat 6 4 | none => 0
      let (c', at_, gone) := c.cut mask
      let s := at_.foldl (fun s (i, n) => if n = 0 then s else s.queueCount q k.1 k.2 i 5 n) s
      let s := if gone = 0 then s else s.cuCount q k.1 k.2 7 gone
      (s.updQuad q (fun y => y.setCu k.1 k.2 c')).addDiscards q (at_.foldl (fun n e => n + e.2) 0)) s
  let s := x.mus.foldl (fun s (k, m) =>
    if isDone (x.phys k.1 k.2) then s
    else
      let (m', at_) := m.cut
      let s := s.finishWrites q k.1 k.2
      let s := at_.foldl (fun s (i, n) => if n = 0 then s else s.queueCount q k.1 k.2 i 5 n) s
      (s.updQuad q (fun y => y.setMu k.1 k.2 m')).addDiscards q (at_.foldl (fun n e => n + e.2) 0)) s
  let s := x.traps.foldl (fun s t =>
    let n := (t.held.filter old).length
    let dq := match x.cfg t.row t.col with
      | some g => bits ((g.traps.getD t.t 0).toNat) 1 3
      | none => 0
    if n = 0 then s else (s.queueCount q t.row t.col dq 5 n).addDiscards q n) s
  let s := (x.flights.filter (fun f => old f.tok)).foldl (fun s f =>
    ((s.bump 0x24 q (3 * siteOrd f.row f.col) 1).bump 0x24 q (3 * siteOrd f.row f.col + 2) 1).addDiscards q 1) s
  -- a run ended by a cut counts as retired (R160)
  let s := (x.leaving.toList ++ x.run.toList).foldl (fun s r => s.bump 0x25 q (5 + 2 * r.slot) 1) s
  let s := s.updQuad q (fun y =>
    let y := match y.leaving with | some r => y.retireRun r | none => y
    let y := match y.run with | some r => y.retireRun r | none => y
    { y with run := none, leaving := none, retiredAt := some s.pw.cycle
             aeq := y.aeq.map (fun es => es.filter (fun (e : AeEnt) => !e.started || (match e.op with | .load _ _ _ => true | _ => false)))
             gwSlots := if y.chg.any (·.gw) then y.gwSlots else []
             gwSlot := target, chg := none, cutFrom := none, recent := [], cutAt := some s.pw.cycle
             traps := y.traps.map (fun (t : TrapSt) => { t with toks := t.toks.filter (fun k => !old k), coming := 0, reading := 0
                                                                landing := t.landing.filter (fun k => !old k)
                                                                out := t.out.filter (fun e => !old e.2) })
             flights := y.flights.filter (fun f => !old f.tok)
             credits := y.credits.filter (fun e => kept e.1.1)
             credRet := y.credRet.filter (fun c => kept c.src), oldGw := []
             paths := y.paths.filter kept
             gwIn := y.gwIn.map (fun e => (e.1, e.2.filter (fun t => !old t.1)))
             gwOut := []
             progress := s.now })
  (if same then s.cutAll q else s.cutHeads q).bump 0x25 q 2 1

/-- The tier-engine entries that a cut breaks: started MOVEs into an MU, STREAMs and COLLECTs (R180). -/
def TeEnt.broken (e : TeEnt) : Bool :=
  e.started && !e.done && (e.op = 2 || e.op = 3 || (e.op = 1 && e.dstAt.toNat % 0x80000000 < 0x78000000))

/-- After a cut those entries complete without posting and are counted (R180). Answers whether there was one. -/
def State.breakEntries (s : State) (q : Nat) : Bool × State :=
  let n := (((s.quad q).queues.flatMap (·.ents)).filter TeEnt.broken).length
  if n = 0 then (false, s)
  else
    let s := s.updQuad q (fun x => { x with queues := x.queues.map (fun k =>
      { k with ents := k.ents.map (fun e => if e.broken then { e with done := true, posts := false, gone := e.gone + e.held, held := 0, owed := [] } else e) }) })
    (true, s.bump 0x44 q 1 n)

/-! ### Quadrant reset (R382) -/

/-- Zero a quadrant's tier 0 with its poison flags. -/
def State.zeroTier0 (s : State) (q : Nat) : State :=
  { s.mend (q * 0x80000000) 0x80000000 with
    mem := memZero s.mem (q * 0x80000000) 0x80000000
    marks := s.marks.filter (fun k => ¬ (q * 0x80000000 ≤ k ∧ k < (q + 1) * 0x80000000)) }

/-- Everything a quadrant reset clears in the quadrant itself; fences, the slot counter and the stall image stay. -/
def Quad.cleared (x : Quad) (now : Nat) : Quad :=
  { Quad.reset with sites := x.sites, slotCtr := x.slotCtr, gwSlot := x.gwSlot, lastReset := now, stall := x.stall
                    stallImg := x.stallImg, polls := x.polls, errs := x.errs, resets := x.resets + 1
                    lanes := x.lanes, cells := x.cells, cycs := x.cycs, lastAct := x.lastAct
                    test := x.test, testSlot := x.testSlot, testRes := x.testRes, testOne := x.testOne }

/-- The quadrant reset: tier 0 zeroed, scenes, cues, dispensers and queues emptied, ON_STAGE productions STAGED,
uncommitted PLACE entries cleared (R133, R180), unit counters cleared unless the reset follows a stall (R84). Its
RDY_MAP bit clears; RDY_MAP_BIT_SET sets it again. -/
def State.quadReset (s : State) (q : Nat) (keepCtr : Bool) : State :=
  let s := s.zeroTier0 q
  let s := s.updQuad q (fun x => x.cleared s.now)
  let s := if keepCtr then s else s.clearCtr unitGroups q
  let s : State := { s with sv := { s.sv with prods := s.sv.prods.map (fun (p : Sys2Proof.Machine.Prod) =>
    if p.st == .onStage && p.man.quads.testBit q then { p with st := .staged } else p) } }
  let s : State := (s.pool.placing.filter (fun (p : Placing) => match p.for_ with | .entry q' _ _ => q' == q | _ => false)).foldl
    (fun s p => s.dropPlacing p) s
  s.setRdy (1 + q) false

end Sys2Proof.Machine
end

