-- ==== Sys2Proof/Machine/Requests.lean ====
section
/-! DEFINITION. Requests and their caches as operations (R191 to R212): end records, pages and frames, parking and
resuming, cancellation. -/

namespace Sys2Proof.Machine

open Config

/-! ### States and positions -/

/-- State codes (R192); 7 is ENDED. -/
def ReqSt.code : ReqSt → Nat
  | .queued => 0
  | .prefill => 1
  | .decode => 2
  | .idle => 3
  | .parking => 4
  | .parked => 5
  | .resuming => 6

def reqStOf (code : Nat) : ReqSt := if code = 1 then .prefill else if code = 2 then .decode else .idle

/-- The next position of the sequence: committed entries, and the token that has none (R194, R206). -/
def Req.nextPos (r : Req) : Nat := r.len + (if r.pending.isSome then 1 else 0)

def State.updReq (s : State) (id : Nat) (g : Req → Req) : State :=
  { s with sv := { s.sv with reqs := s.sv.reqs.map (fun r => if r.id == id then g r else r) } }

/-- Enter a state: the order of entering decides the order of composing (R199). -/
def State.enter (s : State) (id : Nat) (st : ReqSt) : State :=
  { (s.updReq id (fun r => { r with st := st, since := s.sv.order })) with
    sv := { (s.updReq id (fun r => { r with st := st, since := s.sv.order })).sv with order := s.sv.order + 1 } }

/-- The manifest a job's production has. -/
def State.manOf (s : State) (jid : Nat) : Option Manifest :=
  match s.job? jid with
  | some j => (s.prod? j.prod).map (·.man)
  | none => none

/-- Serving counter k of a job (R213). -/
def State.serve51 (s : State) (jid k n : Nat) : State := if n = 0 then s else s.bump 0x51 jid k n

/-- The place of an end status among the serving counters (R213); EVICTED has none. -/
def endIx (status : Nat) : Option Nat :=
  ([DONE, LIMIT, POISONED, CANCELLED, STALLED, INTERNAL, LOST, BAD, NOTREADY].findIdx? (· == status)).map (· + 15)

/-- The draw key of the row that chooses the token at a position (R191). -/
def Req.drawKey (r : Req) (p : Nat) : BitVec 64 := r.seed + BitVec.ofNat 64 p

/-! ### Delivery (R193, R194, R212) -/

/-- The job's host DMA runs: its session is open, or it is running towards the boundary at which it holds (R305). -/
def State.dmaOn (s : State) (f jid : Nat) : Bool :=
  (s.fn f).opened || ((s.job? jid).map (·.st == JobSt.running)).getD false

/-- Post bytes through the map of function f, whose session may have closed under a running job (R305). -/
def State.dmaPost (s : State) (f a : Nat) (bs : List Byte) : State :=
  let o := (s.fn f).opened
  ((s.updFn f (fun x => { x with opened := true })).dmaWrite f a bs).updFn f (fun x => { x with opened := o })

/-- The 32 bytes of an end record (R194). -/
def Req.endRecord (r : Req) (status after : Nat) : List Byte :=
  leBytes 4 0xFFFFFFFF ++ leBytes 4 r.nextPos ++ leBytes 2 0xC000 ++ leBytes 1 status ++ leBytes 1 after ++
  leBytes 4 r.delivered ++ leBytes 8 r.id ++ leBytes 4 r.poisoned ++ leBytes 4 r.accepted

/-- DONE and LIMIT become POISONED_OUTPUT when the turn has poisoned records (R195). -/
def Req.endStatus (r : Req) (status : Nat) : Nat :=
  if (status = DONE ∨ status = LIMIT) ∧ r.poisoned > 0 then POISONED else status

/-- Write one kept or due record: by DMA, into the waiting slot, and as REQ_END (R194, R306). -/
def State.putRecord (s : State) (f : Nat) (k : Kept) : State :=
  let s := if ({ s.fn f with opened := true } : Fn).covers true 7 k.addr k.bytes.length then s.dmaPost f k.addr k.bytes
           else s.bump 0x01 f 8 1
  let s := match k.slot with | some n => s.finishSlot f n k.bytes | none => s
  match k.notify with
  | some (id, st) => s.raiseAt f 0x02 (if s.azgen then f else 0xFF) (leBytes 8 id ++ [BitVec.ofNat 8 st])
  | none => s

/-- Write a request's end record, or keep it while host DMA is stopped (R194, R212). -/
def State.writeEnd (s : State) (r : Req) (status after : Nat) : State :=
  let st := r.endStatus status
  let k : Kept :=
    { addr := r.outbuf + 16 * r.recIx, bytes := r.endRecord st after, slot := r.slotReply
      notify := if r.notify then some (r.id, st) else none }
  let s := s.updReq r.id (fun r => { r with slotReply := none, recIx := r.recIx + 2 })
  if s.dmaOn r.f r.job then s.putRecord r.f k
  else s.updFn r.f (fun x => { x with kept := x.kept ++ [k] })

/-- Write the kept records of a function in the order in which they fell due (R306). -/
def State.flushKept (s : State) (f : Nat) : State :=
  let ks := (s.fn f).kept
  ks.foldl (fun s k => s.putRecord f k) (s.updFn f (fun x => { x with kept := [] }))

/-! ### Pages and frames (R196 to R198) -/

/-- Tier-0 address of a request's frame for a page of a layer: in the home quadrant's MUs, its place free (log 13). -/
def Req.frame (r : Req) (m : Manifest) (layer page : Nat) : Nat :=
  r.home % 4 * 0x80000000 + frameAt r.id layer page % (0x78000000 - m.pagetok * m.kvb + 1) / 128 * 128

/-- Pages of a request that are still SEALING, by page number. -/
def Req.sealingSets (r : Req) : Nat := (((r.pages.filter (·.sealing)).map (·.page)).eraseDups).length

/-- The request holds a frame set (R198). -/
def Req.resident (r : Req) : Bool :=
  r.st == .prefill || r.st == .decode || r.st == .idle || r.st == .parking || r.st == .resuming

/-- Frame sets a request needs for a step of `rows` rows (R198). -/
def Req.needs (r : Req) (pt rows : Nat) : Nat := max 1 (ceilDiv (r.len % pt + rows) pt)

/-- Frame sets a request holds. -/
def Req.frames (r : Req) (pt : Nat) : Nat := if r.resident then r.needs pt r.rows + r.sealingSets else 0

/-- Free frame sets of quadrant q for a job. -/
def State.freeFrames (s : State) (jid q : Nat) (m : Manifest) : Nat :=
  m.frames - ((s.sv.reqs.filter (fun r => r.job == jid && r.home == q)).foldl (fun n r => n + r.frames m.pagetok) 0)

/-- Entries of a serving-engine queue (R15). -/
def seDepth : Nat := 64

/-- A queue of the serving engine has room (R15). -/
def State.seRoom (s : State) : Bool := s.sv.seq.any (fun k => decide (k.length < seDepth))

/-- Write an entry into the first of the serving engine's queues that has room; without one it waits with the stage manager (R15, R18). -/
def State.sePut (s : State) (e : SeEnt) : State :=
  match s.sv.seq.findIdx? (fun k => decide (k.length < seDepth)) with
  | some i => { s with sv := { s.sv with seq := s.sv.seq.modify i (· ++ [e]) } }
  | none => { s with sv := { s.sv with seBack := s.sv.seBack ++ [e] } }

/-- An entry of the serving engine is complete, or discarded. -/
def State.seDrop (s : State) (p : SeEnt → Bool) : State :=
  { s with sv := { s.sv with seq := s.sv.seq.map (fun k => k.filter (fun e => !p e)), seBack := s.sv.seBack.filter (fun e => !p e) } }

/-- Record where the placement of a page of a request stands. -/
def State.notePage (s : State) (rid layer page oid : Nat) : State :=
  s.updReq rid (fun r => { r with pages := (r.pages.filter (fun p => ¬ (p.layer == layer && p.page == page))) ++
    [{ layer := layer, page := page, sealing := true, oid := oid }] })

/-- The serving engine places a full page into tier 1 (R196); lacking space it stays SEALING in its frame (R197). -/
def State.placePage (s : State) (r : Req) (m : Manifest) (layer page : Nat) : State :=
  let oid := s.nextOid 1
  match s.reserveNew 1 (newRec oid 1 (2 ^ (r.home % 4)) (m.pagetok * m.kvb) r.id 0 0) false with
  | (some s', _) =>
    ((s'.sePut (.sealPage r.id layer page)).startPlacing
      { pid := 0, oid := oid, tier := 1, qmask := 2 ^ (r.home % 4), len := m.pagetok * m.kvb, src := .addr (r.frame m layer page)
        pinAt := false, for_ := .seal r.id layer page, f := r.f }).notePage r.id layer page oid
  | (none, s') => s'.notePage r.id layer page 0

/-- A full page becomes SEALING (R196): its placement is an entry of the serving engine, which waits with the stage manager while no
queue has room (R15). -/
def State.startSeal (s : State) (r : Req) (m : Manifest) (layer page : Nat) : State :=
  if s.seRoom then s.placePage r m layer page else (s.notePage r.id layer page 0).sePut (.sealPage r.id layer page)

/-- The pages that a request's first n entries fill become SEALING (R196). -/
def State.sealUpTo (s : State) (r : Req) (m : Manifest) (n : Nat) : State :=
  (List.range (n / m.pagetok)).foldl (fun s g =>
    (List.range m.layers).foldl (fun s l =>
      if r.pages.any (fun p => p.layer == l && p.page == g) then s else s.startSeal r m l g) s) s

/-- Seal every page of a request whose positions all hold committed entries (R196). -/
def State.sealFull (s : State) (rid : Nat) (m : Manifest) : State :=
  match s.req? rid with
  | none => s
  | some r => s.sealUpTo r m r.len

/-- During a step, once a quadrant's runs of it are over: the pages of the quadrant's requests that prompt-chunk and decode rows alone
have filled become SEALING (R196, log 51). Tree nodes lie behind those rows' entries. -/
def State.sealStep (s : State) (q : Nat) : State :=
  match s.jobAt q with
  | none => s
  | some j =>
    match s.manOf j.id with
    | none => s
    | some m =>
      (s.sv.reqs.filter (fun r => r.job == j.id && r.home == q && decide (r.rows > 0) && !r.badPrompt)).foldl (fun s r =>
        s.sealUpTo r m (r.len + if r.st = .decode then 1 else r.rows)) s

/-- The first entry that waits for room in the serving engine's queues is written, once there is room. -/
def State.seNext (s : State) : State :=
  match s.sv.seBack, s.seRoom with
  | e :: rest, true =>
    let s : State := { s with sv := { s.sv with seBack := rest } }
    (match e with
     | .sealPage rid l g =>
       (match s.req? rid with
        | some r => (match s.manOf r.job with | some m => s.placePage r m l g | none => s)
        | none => s)
     | .compose _ => s.sePut e
     | .deliver _ => s.sePut e)
  | _, _ => s

/-- An entry of the serving engine completes, and the first one that waits takes its room. -/
def State.seDone (s : State) (e : SeEnt) : State := (s.seDrop (· == e)).seNext

/-- Retry the sealing placements that found no space, at a step boundary (R197). -/
def State.retrySeals (s : State) (jid : Nat) : State :=
  match s.manOf jid with
  | none => s
  | some m =>
    (s.sv.reqs.filter (fun r => r.job == jid && r.resident)).foldl (fun s r =>
      (r.pages.filter (fun p => p.sealing && p.oid == 0 && !s.sv.seBack.contains (.sealPage r.id p.layer p.page))).foldl (fun s p =>
        (s.serve51 jid 10 1).startSeal r m p.layer p.page) s) s

/-- Release a request's pages: SEALING placements are cleared, SEALED pages evicted, frames freed (R197). -/
def State.releasePages (s : State) (r : Req) : State :=
  let s := (s.pool.placing.filter (fun p => match p.for_ with | .seal i _ _ => i == r.id | .resume i => i == r.id | _ => false)).foldl
    (fun s p => s.dropPlacing p) s
  let s : State := { s with pool := (r.pages.filter (fun p => p.oid != 0 && !p.sealing)).foldl (fun p g => p.clear 1 g.oid) s.pool }
  (s.seDrop (fun e => match e with | .sealPage i _ _ => i == r.id | _ => false)).updReq r.id (fun r => { r with pages := [] })

/-- Remove a request's parked object (R210). -/
def State.dropParked (s : State) (r : Req) : State :=
  if r.parkObj = 0 then s else { s with pool := s.pool.clear 2 r.parkObj }

/-! ### Ending a request -/

/-- A request leaves the device: its record is written or not, its pages are released, the commands that wait on it
complete, and it joins the recognised ended requests (R195, R210, R213). -/
def State.endReq (s : State) (rid status : Nat) (record : Bool) : State :=
  match s.req? rid with
  | none => s
  | some r =>
    let s := if record then s.writeEnd r status 7 else s
    let s := (s.pool.placing.filter (fun p => match p.for_ with | .park i => i == rid | _ => false)).foldl (fun s p => s.dropPlacing p) s
    let s := (s.releasePages r).dropParked r
    let s := s.completeOpt r.parkSlot CANCELLED 0
    let s := s.completeOpt r.resumeSlot (if status = EVICTED then EVICTED else CANCELLED) 0
    let s : State := match endIx (r.endStatus status) with | some i => s.serve51 r.job i 1 | none => s
    let s := s.updJob r.job (fun j => { j with reqsEnded := j.reqsEnded + 1 })
    let mine := s.sv.endedReqs.filter (fun e => e.2 == r.job)
    let rest := if mine.length < 4096 then s.sv.endedReqs
                else (match mine with | e :: _ => s.sv.endedReqs.erase e | [] => s.sv.endedReqs)
    { s with sv := { s.sv with reqs := s.sv.reqs.filter (fun x => x.id != rid), endedReqs := rest ++ [(rid, r.job)] } }

/-- A parked request loses its object to expiry or for want of room: it ends without an end record, a resume that waits completes with
EVICTED, and so does a later one (R141, R142, R192, R209). -/
def State.loseReq (s : State) (rid : Nat) : State :=
  match s.req? rid with
  | none => s
  | some r =>
    let s := if r.resumeSlot.isSome then s.serve51 ((r.resumeTo.map (·.1)).getD r.job) 14 1 else s
    let s := s.endReq rid EVICTED false
    { s with sv := { s.sv with lost := if r.resumeSlot.isSome then s.sv.lost else (rid :: s.sv.lost).take 65536 } }

/-- The parked requests of removed objects are lost. -/
def State.loseGone (s : State) : State :=
  (s.sv.reqs.filter (fun r => r.st == .parked && !s.pool.present 2 r.parkObj)).foldl (fun s r => s.loseReq r.id) s

/-- The end that a cancel gives a request in its present state (R210): whether it writes an end record. -/
def Req.cancelRecord (r : Req) : Bool :=
  match r.st with
  | .idle => false
  | .parked => decide (r.pstate ≠ 3)
  | .resuming => decide (r.pstate ≠ 3)
  | .queued => true
  | .prefill => true
  | .decode => true
  | .parking => true

/-- Cancel a request: it ends with CANCELLED. The first cancel that waits replies DONE, and a later one finds the request ended
(R210). -/
def State.cancelReq (s : State) (rid : Nat) : State :=
  match s.req? rid with
  | none => s
  | some r =>
    ((s.endReq rid CANCELLED r.cancelRecord).completeAll (r.cancelSlots.take 1) DONE 0).completeAll (r.cancelSlots.drop 1) ALREADY 0

/-! ### Parking and resuming (R207 to R209) -/

/-- The record of a parked object (R208). -/
def Req.parkRecord (r : Req) (m : Manifest) : List Byte :=
  leBytes 8 r.id ++ leBytes 2 r.prod ++ leBytes 1 r.st.code ++ leBytes 1 m.layers ++ leBytes 2 m.kvb ++
  leBytes 2 m.pagetok ++ leBytes 4 r.len ++ leBytes 4 (r.pending.getD 0xFFFFFFFF) ++ leBytes 4 r.consumed ++
  leBytes 4 r.delivered ++ leBytes 8 r.prompt ++ leBytes 4 r.plen ++ leBytes 4 r.maxnew ++ leBytes 8 r.outbuf ++
  leBytes 4 r.outcap ++ leBytes 4 r.recIx ++ leBytes 4 r.temp.toNat ++ leBytes 2 r.topk ++ leBytes 2 r.topp ++
  leBytes 4 0 ++ leBytes 8 r.seed.toNat ++ (List.range 4).flatMap (fun i => leBytes 4 (r.stop.getD i 0xFFFFFFFF)) ++
  leBytes 4 0 ++
  leBytes 1 ((if r.keep then 1 else 0) + (if r.slotRep then 2 else 0) + (if r.notify then 4 else 0) +
             (if r.nospec then 8 else 0) + r.home % 4 * 16) ++ leBytes 3 0 ++
  leBytes 4 r.poisoned ++ leBytes 4 r.accepted

/-- A byte list as cells of a sparse memory. -/
def cellsOf (base : Nat) (bs : List Byte) : Mem :=
  (List.zipIdx bs).filterMap (fun (b, i) => if b = 0 then none else some (base + i, b))

/-- Where a request's entries stand now, layer by layer: SEALED pages in tier 1, other pages in their frames. -/
def State.entryPieces (s : State) (r : Req) (m : Manifest) : List Piece :=
  (List.range m.layers).flatMap (fun l =>
    (List.range (ceilDiv r.len m.pagetok)).flatMap (fun g =>
      let n := min m.pagetok (r.len - g * m.pagetok) * m.kvb
      match r.pages.find? (fun p => p.layer == l && p.page == g && !p.sealing) with
      | some p =>
        match s.pool.copyFor 1 p.oid (r.home % 4) with
        | some c => (c.ranges 0 n).map (fun (a, k) => Piece.dev a k)
        | none => [.hole n]
      | none => [.dev (r.frame m l g) n]))

/-- Start a request's park into the wings of its home quadrant (R207); without room the command completes with
NO_SPACE and the request stays resident (R142). -/
def State.startPark (s : State) (rid : Nat) (m : Manifest) : State :=
  match s.req? rid with
  | none => s
  | some r =>
    let oid := s.nextOid 4
    let len := 0x1000 + m.layers * r.len * m.kvb
    let (cells, pois) := s.gather (s.entryPieces r m) 0x1000
    let s := s.noteReads (r.home % 4) (s.entryPieces r m)
    match s.reserveNew 4 (newRec oid 2 (2 ^ (r.home % 4)) len r.id 0 0) false with
    | (some s', _) =>
      let s := s'.loseGone.startPlacing
        { pid := 0, oid := oid, tier := 2, qmask := 2 ^ (r.home % 4), len := len
          src := .bytes (cellsOf 0 (r.parkRecord m) ++ cells) pois, pinAt := false, for_ := .park rid, f := r.f }
      let s := s.hold 2 oid (.req rid)
      (s.updReq rid (fun r => { r with pstate := r.st.code, parkObj := oid, rows := 0 })).enter rid .parking
    | (none, s') =>
      ((s'.loseGone.completeOpt r.parkSlot NOSPACE 0).updReq rid (fun r => { r with parkSlot := none })).serve51 r.job 12 1

/-- Start a resume into a job and home quadrant (R209): each full page of every layer is placed into tier 1 from the
parked object. Lacking space the placements are cleared and the request stays PARKED (R133). -/
def State.startResume (s : State) (rid jid home : Nat) (m : Manifest) : State :=
  match s.req? rid with
  | none => s
  | some r =>
    let go : Option State × State := (List.range m.layers).foldl (fun (acc : Option State × State) l =>
      (List.range (r.len / m.pagetok)).foldl (fun (acc : Option State × State) g =>
        match acc.1 with
        | none => acc
        | some s =>
          let oid := s.nextOid 1
          let len := m.pagetok * m.kvb
          match s.reserveNew 1 (newRec oid 1 (2 ^ home) len rid r.parkObj 0) false with
          | (some s', _) =>
            let s := s'.startPlacing { pid := 0, oid := oid, tier := 1, qmask := 2 ^ home, len := len
                                       src := .obj r.parkObj (0x1000 + (l * r.len + g * m.pagetok) * m.kvb)
                                       pinAt := false, for_ := .resume rid, f := r.f }
            let s := s.updReq rid (fun r => { r with pages := r.pages ++ [{ layer := l, page := g, sealing := false, oid := oid }] })
            (some s, s)
          | (none, s') => (none, s')) acc) (some s, s)
    match go with
    | (some s, _) =>
      let s := s.hold 2 r.parkObj (.req rid)
      ((s.updReq rid (fun r => { r with job := jid, home := home })).serve51 jid 13 1).enter rid .resuming
    | (none, s) =>
      let s := match s.req? rid with | some r => s.releasePages r | none => s
      (s.completeOpt r.resumeSlot NOSPACE 0).updReq rid (fun r => { r with resumeSlot := none, resumeTo := none })

/-- Copy n bytes of device memory, with poison by line or codeword (R151). -/
def State.devCopy (s : State) (src dst n : Nat) : State :=
  let (cells, pois) := s.gather [.dev src n] 0
  (s.noteReads (src / 0x80000000) [.dev src n]).fill [(dst, n)] 0 cells pois

/-- Copy the last N mod PAGETOK entries of every layer into the frame set (R209). -/
def State.copyTail (s : State) (r : Req) (m : Manifest) : State :=
  let tail := r.len % m.pagetok
  let g := r.len / m.pagetok
  match s.pool.copyFor 2 r.parkObj (r.home % 4) with
  | none => s
  | some c =>
    (List.range m.layers).foldl (fun s l =>
      let ps := c.pieces (0x1000 + (l * r.len + g * m.pagetok) * m.kvb) (tail * m.kvb)
      let (cells, pois) := s.gather ps 0
      if tail = 0 then s else (s.noteReads c.copy ps).fill [(r.frame m l g, tail * m.kvb)] 0 cells pois) s

end Sys2Proof.Machine
end

