-- ==== Sys2Proof/Machine/CueSheet.lean ====
section
/-! DEFINITION. Cue sheets and exchange sheets as the stage manager loads them (R147, R161 to R165, R170, R172, R257). -/

namespace Sys2Proof.Machine

open Config

/-! ### Reading sheets -/

/-- The 512 bits at a byte offset. -/
def rawAt (bs : List Byte) (off : Nat) : BitVec 512 := BitVec.ofNat 512 (leAt bs off 64)

/-- The entries of a sheet, 64 bytes each. -/
def entriesOf (bs : List Byte) : List (BitVec 512) := (List.range (bs.length / 64)).map (fun i => rawAt bs (64 * i))

/-- An entry before it is written into a queue. -/
def teEnt (raw : BitVec 512) (ext : Option (BitVec 256)) (job : Nat) : TeEnt :=
  { raw := raw, ext := ext, n := 0, iter := 0, started := false, done := false, posts := true, waitFrom := 0
    dst := 0, left := 0, job := job, step := 0, gone := 0, held := 0, owed := [] }

/-- A sheet's entries as queue entries: an EXT entry joins the entry before it (R165). -/
def pairExt (job : Nat) : List (BitVec 512) → List TeEnt
  | [] => []
  | r :: rest =>
    if (rawField r 0x01 1).testBit 1 then
      match rest with
      | x :: rest' => teEnt r (some (x.extractLsb' 256 256)) job :: pairExt job rest'
      | [] => [teEnt r none job]
    else teEnt r none job :: pairExt job rest

/-- The object-source form of MOVE, STREAM and PLACE: SRC_ID not 0, or an alias (R162, R163). -/
def TeEnt.fromObj (e : TeEnt) : Bool := e.flags.testBit 2 || e.srcId != 0

/-! ### Checks (R163, R170) -/

/-- A field of a near-stack descriptor. -/
def nearField (d : BitVec 256) (lo n : Nat) : Nat := bits d.toNat lo n
def nearGather (d : BitVec 256) : Bool := d.getLsbD 0
def nearExpand (d : BitVec 256) : Bool := d.getLsbD 1
def nearRepack (d : BitVec 256) : Bool := d.getLsbD 2

/-- K per step of the descriptor's format (R93). -/
def nearK (d : BitVec 256) : Nat :=
  let f := nearField d 3 4
  if f = 4 ∨ f = 9 then 8 else if f = 1 ∨ f = 2 then 2 else 4

/-- Element tokens of one weight block, 32 elements of K (R45). -/
def nearBlock (d : BitVec 256) : Nat := 32 / nearK d

/-- Weight blocks of a chunk, at most 128 (R45). -/
def nearBlocks (d : BitVec 256) : Nat := min 128 (ceilDiv (nearField d 9 10 * nearK d) 32)

/-- Weight blocks of a group of four output scale blocks (R94, R148). -/
def nearGroup (d : BitVec 256) : Nat := if nearRepack d && nearField d 7 2 == 2 then 2 else 4

/-- Tokens of one dense output chunk. -/
def nearDense (d : BitVec 256) : Nat :=
  nearField d 9 10 + (if nearRepack d then ceilDiv (nearBlocks d) (nearGroup d) else 0)

/-- Lines that one operation of an entry carries (R169): 64 KiB, or a near-stack output chunk. DESIGN CHOICE (log 50): a stream that
stays a ZSKIP stream is cut at the length of a dense chunk. -/
def TeEnt.opLines (e : TeEnt) : Nat :=
  match e.flags.testBit 1, e.ext with
  | true, some d => if nearExpand d || nearRepack d then max 1 (nearDense d) else 512
  | _, _ => 512

/-- Operations that an entry is carried out as (R169). A PLACE moves an object once to each quadrant of its QMASK (R132). -/
def TeEnt.opsAll (e : TeEnt) : Nat :=
  if e.op = 1 ∨ e.op = 2 ∨ e.op = 3 then ceilDiv (e.len / 128) e.opLines
  else if e.op = 4 then (if e.fromObj then popCount e.qmask 4 else 1) * ceilDiv e.len 65536
  else 0

/-- Operations of an entry that no slot has been granted yet. -/
def TeEnt.opsLeft (e : TeEnt) : Nat := e.opsAll - e.gone - e.held

/-- A near-stack descriptor keeps the field limits of R147 and its operations agree with its fields (R148). DESIGN CHOICE (log 50): the
agreement of OPS, FMT, BLKOUT and KSTEPS is that REPACK, which builds scale tokens, names an MX format, and chunks whose K length is
a multiple of BLKOUT's block length, as a matrix word would need them (R92). -/
def nearOk (d : BitVec 256) : Bool :=
  let f (lo n : Nat) : Nat := nearField d lo n
  (!(nearExpand d || nearRepack d) || (decide (1 ≤ f 3 4) && decide (f 3 4 ≤ 10) && decide (1 ≤ f 9 10) && decide (f 9 10 ≤ 512))) &&
  (!nearRepack d || (decide (5 ≤ f 3 4) && (f 7 2 == 1 || f 7 2 == 2) && decide (f 9 10 * nearK d % (if f 7 2 = 1 then 32 else 16) = 0))) &&
  (!nearGather d || (decide (1 ≤ f 19 13) && decide (f 19 13 ≤ 32) && decide (1 ≤ f 32 13) && decide (f 32 13 ≤ 4096) &&
          decide (f 45 48 % 128 = 0) && decide (f 45 48 < 0x200000000)))

/-- A range lies in quadrant q's own staging buffer (R117). -/
def inStaging (q a n : Nat) : Bool := decide (stagingBase q ≤ a) && decide (a + n ≤ stagingBase q + 0x8000000)

/-- A range lies in one quadrant's staging buffer (R117). -/
def inSomeStaging (a n : Nat) : Bool := (List.range 4).any (fun q => inStaging q a n)

/-- A range lies within one active MU of quadrant q (R117). -/
def inOneMu (q a n : Nat) : Bool :=
  let o := a - q * 0x80000000
  decide (q * 0x80000000 ≤ a) && decide (o < 0x78000000) && decide (o % 0xC00000 + n ≤ 0xC00000)

/-- The destination limits of a MOVE (R163). -/
def moveDstOk (q dst len : Nat) : Bool :=
  decide (dst % 128 = 0) && decide (len % 128 = 0) && decide (128 ≤ len) && (inStaging q dst len || inOneMu q dst len)

/-- The source limits of a MOVE or STREAM without an object: a tier-0 address, 128-byte aligned, or a host-window one. -/
def moveSrcOk (off len : Nat) : Bool :=
  (decide (off + len ≤ 0x200000000) && decide (off % 128 = 0)) || (isHost off && decide (off + len ≤ 0x1000000000000))

/-- The largest length of a tier (R131). -/
def tierLimit (tier : Nat) : Nat := if tier = 1 then 0x3BF8000000 else 0xDBF8000000

/-- SRC_OFF and DST of an iteration keep the limits of R163 (R164). -/
def TeEnt.limitsOk (e : TeEnt) (q : Nat) : Bool :=
  let so := e.srcOff
  let d := e.dstAt
  let soOk := decide (0 ≤ so) && decide (so < 2 ^ 48)
  if e.op = 1 then soOk && decide (0 ≤ d) && moveDstOk q d.toNat e.len && (e.fromObj || moveSrcOk so.toNat e.len)
  else if e.op = 2 then soOk && (e.fromObj || moveSrcOk so.toNat e.len)
  else if e.op = 3 then decide (0 ≤ d) && decide (d.toNat % 128 = 0) && inStaging q d.toNat e.len
  else if e.op = 4 then soOk && decide (0 ≤ d) && decide (d < 2 ^ 60) && (e.fromObj || inSomeStaging so.toNat e.len)
  else if e.op = 7 then soOk && decide (so < 2 ^ 24) && decide (0 ≤ d) && decide (d < 2 ^ 32) && decide (bits d.toNat 6 9 = 0)
  else true

/-- The fields every entry but EXT uses (R162). -/
def TeEnt.commonOk (e : TeEnt) : Bool :=
  decide (e.cue ≤ 63) &&
  (if e.cue = 63 then decide (e.postn = 0) else if e.op = 8 then decide (e.postn = 0) else decide (1 ≤ e.postn)) &&
  (if e.wkind = 0 then decide (e.widx = 0) else if e.wkind ≤ 2 then decide (e.widx ≤ 62)
   else decide (e.wkind = 3) && decide (e.widx ≤ 63))

/-- Fields an operation does not use are zero, and GLINK is 0 or 255 where no link is used (R163). -/
def TeEnt.unusedOk (e : TeEnt) (glink qm tier src off dst len : Bool) : Bool :=
  (if glink then decide (e.glink ≤ 37) else decide (e.glink = 0) || decide (e.glink = 255)) &&
  (qm || decide (e.field 0x0E 1 = 0)) && (tier || decide (e.tier = 0)) && (src || decide (e.srcId = 0)) &&
  (off || decide (bits (e.field 0x18 8) 0 48 = 0)) && (dst || decide (e.field 0x20 8 = 0)) && (len || decide (e.len = 0))

/-- One entry keeps the limits of R162, R163 and R172. -/
def TeEnt.ok (e : TeEnt) (q : Nat) : Bool :=
  let objOk := if e.fromObj then e.tier == 1 || e.tier == 2 else e.tier == 0
  let nse := e.flags.testBit 1
  let nseOk := !nse || (e.fromObj && e.tier == 1 && (match e.ext with | some d => nearOk d | none => false))
  e.commonOk &&
  (if e.op = 1 then
     e.unusedOk (!inStaging q (e.field 0x20 8) e.len) false true true true true true && objOk && nseOk && e.limitsOk q
   else if e.op = 2 then
     e.unusedOk true false true true true false true && objOk && nseOk && decide (e.len % 128 = 0) &&
     decide (128 ≤ e.len) && e.limitsOk q
   else if e.op = 3 then
     !nse && e.unusedOk true false false false false true true && decide (e.len % 128 = 0) && decide (128 ≤ e.len) && e.limitsOk q
   else if e.op = 4 then
     !nse && e.unusedOk false true true true true true true && decide (e.qmask ≠ 0) && decide (e.field 0x0E 1 < 16) &&
     (e.tier == 1 || e.tier == 2) &&
     decide (1 ≤ e.len) && e.limitsOk q
   else if e.op = 5 ∨ e.op = 6 ∨ e.op = 8 then !nse && e.unusedOk false false false false false false false
   else if e.op = 7 then
     !nse && e.unusedOk false false false true true true true && decide (e.srcId < 2 ^ 38) && e.limitsOk q && decide (e.len < 65536)
   else if e.op = 0x0C then
     !nse && e.unusedOk false false false false false true true && decide (1 ≤ e.field 0x20 8) &&
     decide (e.field 0x20 8 ≤ 1023) && decide (1 ≤ e.len) && decide (e.len ≤ 65535)
   else false)

/-- Loops of a queue's entries, in order: a body lies within the entries before it and holds no LOOP (R164, R170). -/
def loopsOk (es : List TeEnt) : Bool :=
  (List.zipIdx es).all (fun (e, i) =>
    e.op != 0x0C ||
    (decide (e.field 0x20 8 ≤ i) && ((es.drop (i - e.field 0x20 8)).take (e.field 0x20 8)).all (fun b => b.op != 0x0C)))

/-- Every EXT follows an NSE entry and only one, and EXT uses only its own fields (R165, R170). -/
def extOk : List (BitVec 512) → Bool
  | [] => true
  | r :: rest =>
    let op := rawField r 0 1
    if (rawField r 1 1).testBit 1 && op != 0x0F then
      match rest with
      | x :: rest' =>
        rawField x 0 1 == 0x0F && (rawField x 0 32 &&& (2 ^ 256 - 1 - 0xFF00_F8FF)) == 0 &&
        (rawField x 3 1 == 0 || rawField x 3 1 == 255) && extOk rest'
      | [] => false
    else op != 0x0F && extOk rest

/-- The entries of a cue sheet of quadrant q are well formed (R170). -/
def sheetOk (q : Nat) (bs : List Byte) : Bool :=
  decide (bs.length % 64 = 0) && extOk (entriesOf bs) && (pairExt 0 (entriesOf bs)).all (fun e => e.ok q)

/-- Counters that a sheet names in CUE. -/
def sheetCues (bs : List Byte) : List Nat := ((pairExt 0 (entriesOf bs)).map (·.cue)).filter (· < 63)

/-! ### Exchange sheets (R257) -/

/-- One exchange-sheet entry keeps the limits of R257. -/
def xentOk (r : BitVec 512) : Bool :=
  let f (b n : Nat) : Nat := rawField r b n
  let op := f 0 1
  decide (1 ≤ op) && decide (op ≤ 4) && decide (f 1 1 ≤ 15) && decide (f 0x26 1 ≤ 2) && decide (f 0x28 1 ≤ 3) &&
  (decide (f 3 1 ≤ 63) || f 3 1 == 255) && (decide (f 6 1 ≤ 63) || f 6 1 == 255) &&
  (if f 0x26 1 = 1 then decide (f 0x27 1 ≤ 62) else decide (f 0x27 1 ≤ 63)) &&
  (op == 4 || (decide (f 2 1 ≤ 2) && decide (f 8 8 % 128 = 0) && decide (f 8 8 < 0x200000000) && decide (128 ≤ f 0x20 4) &&
    decide (f 0x20 4 ≤ 2 ^ 31) && decide (f 0x20 4 % 128 = 0) &&
    (op != 3 || (decide (f 7 1 ≤ 3) && decide (1 ≤ f 0x24 1) && decide (f 0x24 1 ≤ 254) && decide (2 ≤ f 0x25 1))) &&
    (op != 2 || decide (bits (f 0x18 8) 48 2 ≤ 2))))

/-! ### Sheets of a production -/

/-- The bytes of an object's copy as quadrant q reads it in tier 1. -/
def State.objBytes (s : State) (oid q len : Nat) : List Byte :=
  match s.pool.copyFor 1 oid q with
  | some r => (s.readCopy r 0 len).1
  | none => []

/-- The object an alias is bound to (R177). -/
def Prod.alias? (p : Prod) (a : Nat) : Option Nat := look p.bindings a

/-- The sheets of a role that quadrant q takes, with the queue each goes to (log 7). The object that an alias is bound
to stands for its entry (R179). -/
def State.sheets (s : State) (p : Prod) (role q : Nat) : List (Nat × List Byte) :=
  (List.zipIdx p.man.objs).filterMap (fun (o, i) =>
    if o.role = role ∧ o.q1.testBit q then
      some (cueQueue p.num q i % 8, s.objBytes (if o.tag < 256 then (p.alias? o.tag).getD o.oid else o.oid) q o.len)
    else none)

/-- The loops of each queue of a tier engine, whose entries are those of its sheets one after another (R170). -/
def queuesOk (ss : List (Nat × List Byte)) : Bool :=
  (List.range 8).all (fun tq => loopsOk ((ss.filter (·.1 == tq)).flatMap (fun e => pairExt 0 (entriesOf e.2))))

/-- No two queues of one tier engine name the same counter in CUE (R170). -/
def cuesApart (ss : List (Nat × List Byte)) : Bool :=
  ss.all (fun a => ss.all (fun b => a.1 == b.1 || (sheetCues a.2).all (fun c => !(sheetCues b.2).contains c)))

/-- Every sheet of a production passes R170, and its exchange sheet R257. -/
def State.sheetsOk (s : State) (p : Prod) : Bool :=
  (maskList p.man.quads 4).all (fun q =>
    [3, 4].all (fun role => (s.sheets p role q).all (fun e => sheetOk q e.2) && queuesOk (s.sheets p role q) && cuesApart (s.sheets p role q))) &&
  (match p.alias? 255 with
   | some oid =>
     (p.man.objs.filter (fun o => o.tag == 255 && o.role == 5)).all (fun o =>
       let q := ((maskList p.man.quads 4).head?).getD 0
       decide (o.len % 64 = 0) && (entriesOf (s.objBytes oid q o.len)).all xentOk)
   | none => true)

/-- Entries of a tier-engine queue, and of an exchange-engine queue (R15). -/
def teDepth : Nat := 1024
def xeDepth : Nat := 256

/-- The stage manager writes waiting entries into a queue, numbering them, as long as the queue has room (R15, R18). -/
def TeQueue.refill (k : TeQueue) (now : Nat) : TeQueue :=
  let n := teDepth - (k.ents.filter (·.iter == 0)).length
  if n = 0 ∨ k.back.isEmpty then k
  else
    let es := k.back.take n
    { k with ents := k.ents ++ (List.zipIdx es).map (fun (e, i) => { e with n := k.nextN + i, waitFrom := now })
             nextN := k.nextN + es.length, back := k.back.drop n }

/-- Give a tier-engine queue entries, which wait with the stage manager for room in it. -/
def TeQueue.push (k : TeQueue) (es : List TeEnt) (now : Nat) : TeQueue := ({ k with back := k.back ++ es } : TeQueue).refill now

/-- Replace n bytes of an entry. -/
def setRaw (r : BitVec 512) (byte n v : Nat) : BitVec 512 :=
  BitVec.ofNat 512 (r.toNat - bits r.toNat (8 * byte) (8 * n) * 2 ^ (8 * byte) + v % 2 ^ (8 * n) * 2 ^ (8 * byte))

/-- An entry that names an alias reads the object bound to it when the entry is written; an alias bound to nothing names an
object that cannot exist, which reads as a hole (R177). -/
def Prod.resolve (p : Sys2Proof.Machine.Prod) (e : TeEnt) : TeEnt :=
  if e.flags.testBit 2 then { e with raw := setRaw e.raw 0x10 8 ((p.alias? (e.srcId % 256)).getD (15 * 2 ^ 60)) } else e

/-- The entries of a sheet for a step of a job, its aliases resolved. -/
def Prod.entries (p : Sys2Proof.Machine.Prod) (job step : Nat) (bs : List Byte) : List TeEnt :=
  (pairExt job (entriesOf bs)).map (fun (e : TeEnt) => { p.resolve e with step := step })

/-- Write the sheets of a role for a step of a job into the tier-engine queues of a production's quadrants (R161). -/
def State.queueSheets (s : State) (p : Sys2Proof.Machine.Prod) (role job step : Nat) : State :=
  (maskList p.man.quads 4).foldl (fun s q =>
    (s.sheets p role q).foldl (fun s e =>
      s.updQuad q (fun x => { x with queues := x.queues.modify e.1 (fun k => k.push (p.entries job step e.2) s.now) })) s) s

/-- The production as a step of a job takes it: the changeovers that take effect by then have bound their new objects (R179). -/
def State.prodAt (s : State) (p : Sys2Proof.Machine.Prod) (job step : Nat) : Sys2Proof.Machine.Prod :=
  { p with bindings := (s.sv.changes.filter (fun c => c.job == job && decide (c.step ≤ step))).foldl (fun bs c =>
      bs.map (fun b => if b.2 == c.old then (b.1, c.new) else b)) p.bindings }

/-- The job number under which a resident load of production n runs: above every job ID (R320). -/
def loadJob (n : Nat) : Nat := 2 ^ 32 + n

/-- A resident load of a production has entries left. -/
def State.loading (s : State) (n : Nat) : Bool :=
  s.quads.any (fun x => x.queues.any (fun k => (k.ents ++ k.back).any (fun e => e.job == loadJob n)))

/-- The stage manager writes waiting entries into the exchange engine's queues, in order, as long as the queue of each has room (R15,
R18). -/
def Fabric.refillX (b : Fabric) : Fabric :=
  b.xback.foldl (fun (b : Fabric) e =>
    if (b.queues.getD (e.field 1 1) []).length < xeDepth && !b.xback.any (fun d => d.field 1 1 == e.field 1 1) then
      { b with queues := b.queues.modify (e.field 1 1) (· ++ [e]) }
    else { b with xback := b.xback ++ [e] }) { b with xback := [] }

/-- Write the exchange sheet of a step of a job into the exchange engine's queues (R257). -/
def State.queueExchange (s : State) (p : Prod) (job step : Nat) : State :=
  match p.alias? 255 with
  | none => s
  | some oid =>
    let s : State := (p.man.objs.filter (fun o => o.tag == 255 && o.role == 5)).foldl (fun s o =>
      let q := ((maskList p.man.quads 4).head?).getD 0
      (entriesOf (s.objBytes oid q o.len)).foldl (fun s r =>
        { s with fab := { s.fab with
            xback := s.fab.xback ++
              [{ n := s.fab.nextOp, raw := r, started := false, done := false, job := job, step := step, issued := 0, parent := 0 }]
            nextOp := s.fab.nextOp + 1 } }) s) s
    { s with fab := s.fab.refillX }

/-- Write the sheets of a job's steps up to step n into the engines' queues, those that are not yet there (R18). -/
def State.writeSheets (s : State) (p : Sys2Proof.Machine.Prod) (jid n : Nat) : State :=
  match s.job? jid with
  | none => s
  | some j =>
    let due := (List.range (n - max j.steps j.sheets)).map (max j.steps j.sheets + 1 + ·)
    (due.foldl (fun s k => (s.queueSheets (s.prodAt p jid k) 3 jid k).queueExchange (s.prodAt p jid k) jid k) s).updJob jid (fun j =>
      { j with sheets := max j.sheets n })

end Sys2Proof.Machine
end

