-- ==== Sys2Proof/Machine/Manifest.lean ====
section
/-! DEFINITION. Manifests as PRODUCTION_LOAD reads and checks them (R182 to R184, R214, R215). -/

namespace Sys2Proof.Machine

open Config

/-- A finite FP32 number. -/
def fpFinite (w : Nat) : Bool := bits w 23 8 != 255

/-- A finite FP32 number above 0. -/
def fpPositive (w : Nat) : Bool := fpFinite w && !w.testBit 31 && w % 2 ^ 31 != 0

/-- A 128-byte aligned staging-buffer offset. -/
def stagingOff (o : Nat) : Bool := decide (o < 0x8000000) && decide (o % 128 = 0)

/-- The ROUTING field, from its 192 bytes (R214). -/
def routeOf (bs : List Byte) : RoutePar :=
  let f (o n : Nat) : Nat := leAt bs o n
  let w (o : Nat) : BitVec 32 := BitVec.ofNat 32 (leAt bs o 4)
  { experts := f 0 2, choices := f 2 1, epasses := f 3 1, renorm := (f 4 1).testBit 0, topknorm := (f 4 1).testBit 1
    skip := (f 4 1).testBit 2, skipmax := f 5 1, capfact := f 6 2, capmin := f 8 2, updint := f 0x0A 2
    brate := w 0x0C, bmax := w 0x10, skipth := w 0x14, rscale := w 0x18, exptab := f 0x1C 2, biasseed := f 0x1E 2
    scorelink := f 0x20 1, donelink := f 0x21 1, alink := f 0x22 1, dspn := f 0x23 1, fcue := f 0x24 1, dcue := f 0x25 1
    slots := f 0x26 1, cslots := f 0x27 1, nshard := f 0x28 1, rcue := f 0x29 1, shard := f 0x2C 4, rarea := f 0x30 4
    fmap := f 0x34 4, actoff := f 0x38 4, ansoff := f 0x3C 4, inbox := f 0x40 4, dmax := f 0x44 2, rowbytes := f 0x48 4 }

/-- The limits of R214 for a production with experts. -/
def RoutePar.limitsOk (r : RoutePar) (layers : Nat) : Bool :=
  decide (2 ≤ r.experts) && decide (r.experts ≤ 256) && decide (1 ≤ r.choices) && decide (r.choices ≤ 8) &&
  decide (1 ≤ r.epasses) && decide (r.epasses ≤ layers) &&
  (if r.skip then decide (1 ≤ r.skipmax) && decide (r.skipmax < r.epasses) else decide (r.skipmax = 0)) &&
  (decide (r.capfact = 0) || decide (64 ≤ r.capfact)) && decide (r.capmin ≤ 4096) &&
  decide (1 ≤ r.updint) && decide (r.updint ≤ 1024) && fpPositive r.brate.toNat && fpPositive r.bmax.toNat &&
  (if r.skip then fpFinite r.skipth.toNat else decide (r.skipth = 0)) && fpPositive r.rscale.toNat &&
  decide (r.exptab ≤ 255) && (decide (r.biasseed ≤ 255) || decide (r.biasseed = 0xFFFF)) &&
  decide (r.scorelink ≤ 37) && decide (r.donelink ≤ 37) && (decide (r.alink ≤ 37) || decide (r.alink = 255)) &&
  decide (r.dspn ≤ 63) && decide (r.fcue ≤ 62) && decide (r.dcue ≤ 63) && decide (1 ≤ r.slots) && decide (r.slots ≤ 64) &&
  decide (r.cslots ≤ 64) && decide (1 ≤ r.nshard) && decide (r.nshard ≤ 64) && decide (r.rcue ≤ 62) &&
  decide (128 ≤ r.shard) && decide (r.shard ≤ 12582912) && decide (r.shard % 128 = 0) &&
  stagingOff r.rarea && stagingOff r.fmap && stagingOff r.actoff && stagingOff r.ansoff && stagingOff r.inbox &&
  decide (r.dmax ≤ 4096) &&
  (if r.dmax = 0 then decide (r.rowbytes = 0)
   else decide (128 ≤ r.rowbytes) && decide (r.rowbytes ≤ 65536) && decide (r.rowbytes % 128 = 0))

/-- An object entry, from its 32 bytes (R183). -/
def objEntOf (bs : List Byte) : ObjEnt :=
  { oid := leAt bs 0 8, len := leAt bs 8 8, src := leAt bs 0x10 8, role := leAt bs 0x18 1
    q2 := leAt bs 0x19 1 % 16, q1 := leAt bs 0x1A 1 % 16, tag := leAt bs 0x1C 2 }

/-- The limits of R183 for one entry. -/
def ObjEnt.ok (o : ObjEnt) (quads : Nat) : Bool :=
  decide (1 ≤ o.oid) && decide (o.oid < 2 ^ 60) && decide (1 ≤ o.len) && decide (o.len ≤ tierLimit 2) &&
  (isHost o.src || inWindow o.src o.len) && decide (o.role ≤ 5) && decide (o.q2 ≠ 0) &&
  decide (o.q1 &&& (15 - quads) = 0) && (decide (o.q1 ≠ 0) || decide (o.role = 5)) &&
  (decide (o.tag ≤ 255) || decide (o.tag = 0xFFFF))

/-- A manifest from its bytes; PAGETOK 0 stands for 256 (R182). -/
def manifestOf (bs : List Byte) : Manifest :=
  let f (o n : Nat) : Nat := leAt bs o n
  { manId := f 8 8, quads := f 0x10 1 % 16, layers := f 0x11 1, steprows := f 0x12 2, chunkmax := f 0x14 2, pfmin := f 0x16 2
    pagetok := if f 0x18 2 = 0 then 256 else f 0x18 2, kvb := f 0x1A 2, frames := f 0x1C 2, treemax := f 0x1E 1
    draft := f 0x1F 1, maxctx := f 0x20 4, vocab := f 0x24 4, eos := f 0x28 4, pin2 := (f 0x2C 4).testBit 0
    rp := routeOf ((bs.drop 0x40).take 192)
    objs := (List.range (f 6 2)).map (fun i => objEntOf ((bs.drop (256 + 32 * i)).take 32)) }

/-- The limits of R182, and the cases of R184. -/
def Manifest.ok (m : Manifest) : Bool :=
  decide (1 ≤ m.objs.length) && decide (m.objs.length ≤ 2048) && decide (1 ≤ m.manId) && decide (m.manId < 2 ^ 60) &&
  decide (m.quads ≠ 0) && decide (1 ≤ m.layers) && decide (32 ≤ m.steprows) && decide (m.steprows ≤ 4096) &&
  decide (m.steprows % 32 = 0) && decide (1 ≤ m.chunkmax) && decide (m.chunkmax ≤ m.steprows) &&
  decide (m.pfmin ≤ m.steprows - 32) && [64, 128, 256, 512].contains m.pagetok &&
  decide (128 ≤ m.kvb) && decide (m.kvb ≤ 8192) && decide (m.kvb % 128 = 0) && decide (1 ≤ m.frames) &&
  decide (m.frames ≤ 4096) && decide (m.treemax ≤ 63) && decide (m.draft ≤ 1) && decide (2 ≤ m.maxctx) &&
  decide (m.maxctx ≤ 1048576) && decide (2 ≤ m.vocab) && decide (m.vocab ≤ 16777216) &&
  (decide (m.eos < m.vocab) || decide (m.eos = 0xFFFFFFFF)) &&
  m.objs.all (fun o => o.ok m.quads) &&
  decide ((m.objs.map (·.oid)).eraseDups.length = m.objs.length) &&
  decide (((m.objs.filter (fun o => decide (o.tag ≤ 255))).map (·.tag)).eraseDups.length =
    (m.objs.filter (fun o => decide (o.tag ≤ 255))).length) &&
  m.objs.all (fun o => decide (o.oid ≠ m.manId)) &&
  (maskList m.quads 4).all (fun q => m.objs.any (fun o => o.role == 2 && o.q1.testBit q)) &&
  (m.objs.any (fun o => o.role == 1) == m.objs.any (fun o => o.role == 4)) &&
  decide (m.frames * m.layers * m.pagetok * m.kvb ≤ 1536 * 1048576)

/-- An entry bound to an alias, of ROLE 5, long enough and in every quadrant (R215). -/
def Manifest.tableAt (m : Manifest) (alias_ len : Nat) : Bool :=
  m.objs.any (fun o => decide (o.tag = alias_) && decide (o.role = 5) && decide (len ≤ o.len) && decide (m.quads &&& (15 - o.q1) = 0))

/-- The cases of R215 that the manifest alone shows. -/
def Manifest.routingOk (m : Manifest) (raw : List Byte) : Bool :=
  let r := m.rp
  if r.experts = 0 then
    -- every other field is 0; RTFLAGS' reserved bits and the reserved bytes are ignored (R8)
    decide (leAt raw 2 2 = 0) && decide (leAt raw 4 1 % 8 = 0) && decide (leAt raw 5 0x25 = 0) &&
    decide (leAt raw 0x2C 0x1A = 0) && decide (leAt raw 0x48 4 = 0)
  else
    r.limitsOk m.layers && decide (r.fcue ≠ r.rcue) && decide (r.fcue ≠ r.dcue) && decide (r.rcue ≠ r.dcue) &&
    m.tableAt r.exptab (r.epasses * r.experts * 16) &&
    (decide (r.biasseed = 0xFFFF) || m.tableAt r.biasseed (r.epasses * r.experts * 4)) &&
    decide (r.scorelink ≠ r.donelink) &&
    (decide (r.alink = 255) || (decide (r.alink ≠ r.scorelink) && decide (r.alink ≠ r.donelink)))

/-- The header's own encodings: MAGIC, FORMAT, and NOBJ against the length given (R182, R186). -/
def headerOk (bs : List Byte) (mlen : Nat) : Bool :=
  decide (leAt bs 0 4 = 0x50584B53) && decide (leAt bs 4 2 = 1) && decide (mlen = 256 + 32 * leAt bs 6 2)

/-- The bytes that an entry's object has, or is to have: its committed tier-2 copy when that serves, else its source. -/
def State.entryBytes (s : State) (f : Nat) (o : ObjEnt) : List Byte :=
  let covered := match s.pool.readable 2 o.oid with
    | some r => decide (r.len = o.len) && decide (o.q2 &&& (15 - r.qmask) = 0)
    | none => false
  let (cells, _) := s.gather (s.srcPieces f (if covered then .obj o.oid 0 else .addr o.src) 2 o.len
    (((maskList o.q2 4).head?).getD 0)) 0
  memRead cells 0 o.len

/-- No cue sheet of the production names the routing block's counters (R215). -/
def State.cuesFree (s : State) (f : Nat) (m : Manifest) : Bool :=
  decide (m.rp.experts = 0) ||
  (m.objs.filter (fun o => o.role == 3 || o.role == 4)).all (fun o =>
    (sheetCues (s.entryBytes f o)).all (fun c => decide (c ≠ m.rp.fcue) && decide (c ≠ m.rp.rcue) && decide (c ≠ m.rp.dcue)))

/-- A manifest is accepted (R184, R215). -/
def State.manifestOk (s : State) (f : Nat) (bs : List Byte) (mlen : Nat) : Bool :=
  let m := manifestOf bs
  headerOk bs mlen && m.ok && m.routingOk ((bs.drop 0x40).take 192) && s.cuesFree f m

end Sys2Proof.Machine
end

