-- ==== Sys2Proof/Machine/Fp.lean ====
section
/-! DEFINITION. Floating-point values as exact dyadic numbers, rounding to nearest even, the FP32 operations of R38,
the conversions of R113 and the element formats of R89. Every NaN produced is 0x7FC0_0000 (R91); nothing is flushed. -/

namespace Sys2Proof.Machine

open Config

/-- A floating value: NaN, an infinity, or the exact number ± m × 2^e. -/
inductive FVal where
  | nan
  | inf (neg : Bool)
  | fin (neg : Bool) (m : Nat) (e : Int)
  deriving DecidableEq, Repr, Inhabited

/-- A floating format: exponent and mantissa bits and bias (R89). -/
structure FFmt where
  eb : Nat
  mb : Nat
  bias : Nat
  deriving DecidableEq, Repr, Inhabited

def fp32 : FFmt := { eb := 8, mb := 23, bias := 127 }
def bf16 : FFmt := { eb := 8, mb := 7, bias := 127 }
def fp16 : FFmt := { eb := 5, mb := 10, bias := 15 }
def e4m3 : FFmt := { eb := 4, mb := 3, bias := 7 }
def e5m2 : FFmt := { eb := 5, mb := 2, bias := 15 }
def e2m3 : FFmt := { eb := 2, mb := 3, bias := 1 }
def e3m2 : FFmt := { eb := 3, mb := 2, bias := 3 }
def e2m1 : FFmt := { eb := 2, mb := 1, bias := 1 }

/-- The finite value of an encoding's fields (R89). -/
def FFmt.finite (f : FFmt) (x : Nat) : FVal :=
  let s := x.testBit (f.eb + f.mb)
  let ex := bits x f.mb f.eb
  let m := bits x 0 f.mb
  if ex = 0 then .fin s m (1 - (f.bias : Int) - f.mb)
  else .fin s (m + 2 ^ f.mb) ((ex : Int) - f.bias - f.mb)

/-- An encoding of a format with infinities and NaNs in its top exponent. -/
def FFmt.ieee (f : FFmt) (x : Nat) : FVal :=
  if bits x f.mb f.eb = 2 ^ f.eb - 1 then
    (if bits x 0 f.mb = 0 then .inf (x.testBit (f.eb + f.mb)) else .nan)
  else f.finite x

/-- An FP32 word as a value. -/
def ofF32 (x : BitVec 32) : FVal := fp32.ieee x.toNat

/-- The canonical NaN (R91). -/
def qnan : BitVec 32 := 0x7FC00000#32

/-- Shift right by k, rounding to nearest, ties to even. -/
def rneShift (m k : Nat) : Nat :=
  let q := m >>> k
  let r := m % 2 ^ k
  if 2 * r > 2 ^ k ∨ (2 * r = 2 ^ k ∧ q % 2 = 1 ∧ 0 < k) then q + 1 else q

/-- Number of bits of a number. -/
def bitLen (m : Nat) : Nat := if m = 0 then 0 else m.log2 + 1

/-- Exponent of the last place of a non-zero magnitude m × 2^e in a format. -/
def FFmt.ulp (f : FFmt) (m : Nat) (e : Int) : Int :=
  max (e + bitLen m - 1 - f.mb) (1 - (f.bias : Int) - f.mb)

/-- Magnitude code of m × 2^e rounded to nearest even, unbounded above. -/
def FFmt.code (f : FFmt) (m : Nat) (e : Int) : Nat :=
  if m = 0 then 0
  else
    let t := f.ulp m e
    let n := if e ≥ t then m * 2 ^ (e - t).toNat else rneShift m (t - e).toNat
    (t - (1 - (f.bias : Int) - f.mb)).toNat * 2 ^ f.mb + n

/-- Magnitude code of m × 2^e rounded towards zero, and whether it is exact. -/
def FFmt.codeDown (f : FFmt) (m : Nat) (e : Int) : Nat × Bool :=
  if m = 0 then (0, true)
  else
    let t := f.ulp m e
    let (n, ex) := if e ≥ t then (m * 2 ^ (e - t).toNat, true)
                   else (m >>> (t - e).toNat, decide (m % 2 ^ (t - e).toNat = 0))
    ((t - (1 - (f.bias : Int) - f.mb)).toNat * 2 ^ f.mb + n, ex)

/-- First code of the top exponent: infinity in an IEEE-like format. -/
def FFmt.infCode (f : FFmt) : Nat := (2 ^ f.eb - 1) * 2 ^ f.mb

/-- Sign and magnitude code joined. -/
def FFmt.signed (f : FFmt) (neg : Bool) (c : Nat) : Nat := c + (if neg then 2 ^ (f.eb + f.mb) else 0)

/-- A value rounded into an IEEE-like format: overflow to infinity, NaN as given (R101, R113). -/
def FFmt.enc (f : FFmt) (nan : Nat) : FVal → Nat
  | .nan => nan
  | .inf s => f.signed s f.infCode
  | .fin s m e => f.signed s (min (f.code m e) f.infCode)

/-- FP32 by round to nearest even. -/
def toF32 (v : FVal) : BitVec 32 := BitVec.ofNat 32 (fp32.enc 0x7FC00000 v)

/-! ### Exact arithmetic -/

/-- The signed integer of a magnitude. -/
def signedNat (neg : Bool) (m : Nat) : Int := if neg then -(m : Int) else (m : Int)

/-- Exact sum. An exact zero of unlike signs is +0 under round to nearest (IEEE 754). -/
def FVal.add : FVal → FVal → FVal
  | .nan, _ => .nan
  | _, .nan => .nan
  | .inf s, .inf t => if s = t then .inf s else .nan
  | .inf s, .fin _ _ _ => .inf s
  | .fin _ _ _, .inf t => .inf t
  | .fin s m e, .fin t n g =>
    let lo := min e g
    let v := signedNat s (m * 2 ^ (e - lo).toNat) + signedNat t (n * 2 ^ (g - lo).toNat)
    if v = 0 then .fin (s && t && m == 0 && n == 0) 0 lo else .fin (decide (v < 0)) v.natAbs lo

def FVal.neg : FVal → FVal
  | .nan => .nan
  | .inf s => .inf (!s)
  | .fin s m e => .fin (!s) m e

/-- Exact product; zero times infinity is NaN. -/
def FVal.mul : FVal → FVal → FVal
  | .nan, _ => .nan
  | _, .nan => .nan
  | .inf s, .inf t => .inf (s != t)
  | .inf s, .fin t n _ => if n = 0 then .nan else .inf (s != t)
  | .fin s m _, .inf t => if m = 0 then .nan else .inf (s != t)
  | .fin s m e, .fin t n g => .fin (s != t) (m * n) (e + g)

/-- Numeric comparison of finite numbers and infinities: negative, zero or positive difference. -/
def FVal.cmp (a b : FVal) : Int :=
  match a, b with
  | .inf s, .inf t => if s = t then 0 else if s then -1 else 1
  | .inf s, _ => if s then -1 else 1
  | _, .inf t => if t then 1 else -1
  | .fin s m e, .fin t n g =>
    let lo := min e g
    signedNat s (m * 2 ^ (e - lo).toNat) - signedNat t (n * 2 ^ (g - lo).toNat)
  | _, _ => 0

def FVal.isNan : FVal → Bool
  | .nan => true
  | _ => false

def FVal.isNeg : FVal → Bool
  | .nan => false
  | .inf s => s
  | .fin s _ _ => s

/-! ### Operations of R38 -/

def fadd (a b : BitVec 32) : BitVec 32 := toF32 ((ofF32 a).add (ofF32 b))
def fsub (a b : BitVec 32) : BitVec 32 := toF32 ((ofF32 a).add (ofF32 b).neg)
def fmul (a b : BitVec 32) : BitVec 32 := toF32 ((ofF32 a).mul (ofF32 b))
/-- Quotient under round to nearest even (R220, R223): IEEE 754 division. -/
def fdiv (a b : BitVec 32) : BitVec 32 :=
  match ofF32 a, ofF32 b with
  | .nan, _ => qnan
  | _, .nan => qnan
  | .inf _, .inf _ => qnan
  | .inf s, .fin t _ _ => toF32 (.inf (s != t))
  | .fin s _ _, .inf t => toF32 (.fin (s != t) 0 0)
  | .fin s m e, .fin t n g =>
    if n = 0 then (if m = 0 then qnan else toF32 (.inf (s != t)))
    else
      let k := 64 + bitLen n
      let q := m * 2 ^ k / n
      -- one sticky bit below the quotient makes the rounding exact
      toF32 (.fin (s != t) (2 * q + (if m * 2 ^ k % n = 0 then 0 else 1)) (e - g - k - 1))

def ffma (a b c : BitVec 32) : BitVec 32 := toF32 (((ofF32 a).mul (ofF32 b)).add (ofF32 c))

/-- a is below b, −0.0 below +0.0; neither is NaN. -/
def flt (a b : BitVec 32) : Bool :=
  let c := (ofF32 a).cmp (ofF32 b)
  decide (c < 0) || (c == 0 && (ofF32 a).isNeg && !(ofF32 b).isNeg)

def fmax (a b : BitVec 32) : BitVec 32 :=
  if (ofF32 a).isNan then (if (ofF32 b).isNan then qnan else b)
  else if (ofF32 b).isNan then a else if flt a b then b else a

def fmin (a b : BitVec 32) : BitVec 32 :=
  if (ofF32 a).isNan then (if (ofF32 b).isNan then qnan else b)
  else if (ofF32 b).isNan then a else if flt b a then b else a

/-- A condition code on a comparison (R38): `un` says that the operands are unordered. -/
def condHolds (imm : Nat) (un : Bool) (c : Int) : Bool :=
  match imm with
  | 0 => !un && c == 0
  | 1 => un || c != 0
  | 2 => !un && decide (c < 0)
  | 3 => !un && decide (c ≤ 0)
  | 4 => !un && decide (c > 0)
  | 5 => !un && decide (c ≥ 0)
  | 6 => un
  | _ => false

def fcmp (imm : Nat) (a b : BitVec 32) : Bool :=
  condHolds imm ((ofF32 a).isNan || (ofF32 b).isNan) ((ofF32 a).cmp (ofF32 b))

/-! ### Faithfully rounded operations (log 10) -/

/-- Integer square root, bit by bit from bit k. -/
def isqrtBits : Nat → Nat → Nat → Nat
  | 0, _, r => r
  | k + 1, n, r => let t := r + 2 ^ k; isqrtBits k n (if t * t ≤ n then t else r)

def isqrt (n : Nat) : Nat := isqrtBits (bitLen n / 2 + 1) n 0

/-- One of the two FP32 neighbours of a number whose magnitude lies in [m × 2^e, (m + 1) × 2^e), equal to the lower
end only when `exact`: the number itself when FP32 holds it. -/
def faithful (op : Nat) (x : BitVec 32) (neg : Bool) (m : Nat) (e : Int) (exact : Bool) : BitVec 32 :=
  let (c, ex) := fp32.codeDown m e
  let c := min c (fp32.infCode - 1)
  if ex && exact && decide (c = fp32.code m e) then BitVec.ofNat 32 (fp32.signed neg c)
  else BitVec.ofNat 32 (fp32.signed neg (if roundUp op x != neg then c + 1 else c))

/-- The result of an operation for an input to which R38 gives no number: free (log 10), but a NaN that the pipeline produces is
the canonical one (R91). -/
def openResult (op : Nat) (x : BitVec 32) : BitVec 32 :=
  if (ofF32 (special op x)).isNan then qnan else special op x

/-- 2 to the power of a fraction a ÷ 2^b below 1, in units of 2^−256, from its bits: the i-th root of two is the
square root of the one before. -/
def exp2Frac : Nat → Nat → Nat → Nat → Nat
  | 0, _, _, acc => acc
  | b + 1, a, root, acc =>
    let root := isqrt (root * 2 ^ 256)
    exp2Frac b a root (if a.testBit b then acc * root / 2 ^ 256 else acc)

/-- 2^A. -/
def exp2 (x : BitVec 32) : BitVec 32 :=
  match ofF32 x with
  | .nan => qnan
  | .inf _ => openResult 0x09 x
  | .fin s m e =>
    -- an exponent beyond 2^10 leaves the format: its neighbours are those of 2^±1024
    if m ≠ 0 ∧ e + bitLen m > 10 then faithful 0x09 x false 1 (if s then -1024 else 1024) false
    else
      let b := (-e).toNat
      let v : Int := signedNat s (m * 2 ^ e.toNat)     -- A in units of 2^−b
      let k := v / (2 ^ b : Nat)
      let f := (v % (2 ^ b : Nat)).toNat
      faithful 0x09 x false (exp2Frac b f (2 ^ 257) (2 ^ 256)) (k - 256) (decide (f = 0))

/-- Binary digits of log2 of y ÷ 2^300, 1 ≤ y ÷ 2^300 < 2, by repeated squaring. -/
def log2Frac : Nat → Nat → Nat → Nat
  | 0, _, acc => acc
  | n + 1, y, acc =>
    let y := y * y / 2 ^ 300
    if y ≥ 2 ^ 301 then log2Frac n (y / 2) (2 * acc + 1) else log2Frac n y (2 * acc)

/-- log2(A). -/
def log2f (x : BitVec 32) : BitVec 32 :=
  match ofF32 x with
  | .nan => qnan
  | .inf _ => openResult 0x0A x
  | .fin s m e =>
    if s || m == 0 then openResult 0x0A x
    else
      let l := bitLen m - 1
      let exact := decide (m = 2 ^ l)
      let v : Int := (e + l) * (2 ^ 100 : Nat) + log2Frac 100 (m * 2 ^ (300 - l)) 0   -- floor in units of 2^−100
      if v ≥ 0 then faithful 0x0A x false v.toNat (-100) exact
      else if exact then faithful 0x0A x true v.natAbs (-100) true
      else faithful 0x0A x true (v.natAbs - 1) (-100) false

/-- 1 ÷ A. -/
def rcp (x : BitVec 32) : BitVec 32 :=
  match ofF32 x with
  | .nan => qnan
  | .inf _ => openResult 0x0B x
  | .fin s m e =>
    if m = 0 then openResult 0x0B x
    else faithful 0x0B x s (2 ^ 300 / m) (-e - 300) (decide (2 ^ 300 % m = 0))

/-- 1 ÷ √A. -/
def rsq (x : BitVec 32) : BitVec 32 :=
  match ofF32 x with
  | .nan => qnan
  | .inf _ => openResult 0x0C x
  | .fin s m e =>
    if s || m == 0 then openResult 0x0C x
    else
      -- A = n × 4^h, 1 ÷ √A = √(2^600 ÷ n) × 2^(−h − 300)
      let n := if e % 2 = 0 then m else 2 * m
      let h := (if e % 2 = 0 then e else e - 1) / 2
      let r := isqrt (2 ^ 600 / n)
      faithful 0x0C x false r (-h - 300) (decide (r * r * n = 2 ^ 600))

/-! ### Conversions (R113) -/

/-- Nearest-even integer of ± m × 2^e. -/
def toIntRne (s : Bool) (m : Nat) (e : Int) : Int :=
  signedNat s (if e ≥ 0 then m * 2 ^ e.toNat else rneShift m (-e).toNat)

/-- Clamp an integer to 32 bits, signed or not. -/
def clamp32 (signed : Bool) (v : Int) : BitVec 32 :=
  BitVec.ofInt 32 (if signed then max (-2147483648) (min 2147483647 v) else max 0 (min 4294967295 v))

/-- FP8 E4M3: no infinity; overflow clamps to ±448, NaN and infinities give 0x7F (R113). -/
def toE4M3 : FVal → Nat
  | .nan => 0x7F
  | .inf _ => 0x7F
  | .fin s m e => e4m3.signed s (min (e4m3.code m e) 0x7E)

/-- CVT from TYPE to the type IMM names (R38, R113). -/
def cvt (type imm : Nat) (a : BitVec 32) : BitVec 32 :=
  let v : FVal := if type = 0 then ofF32 a
    else
      let i : Int := if type = 1 then a.toInt else (a.toNat : Int)
      .fin (decide (i < 0)) i.natAbs 0
  match imm with
  | 0 => toF32 v
  | 1 => match v with
    | .nan => 0
    | .inf s => clamp32 true (if s then -2147483648 else 2147483647)
    | .fin s m e => clamp32 true (toIntRne s m e)
  | 2 => match v with
    | .nan => 0
    | .inf s => clamp32 false (if s then 0 else 4294967295)
    | .fin s m e => clamp32 false (toIntRne s m e)
  | 3 => BitVec.ofNat 32 (bf16.enc 0x7FC0 v)
  | 4 => BitVec.ofNat 32 (fp16.enc 0x7E00 v)
  | 5 => BitVec.ofNat 32 (toE4M3 v)
  | _ => BitVec.ofNat 32 (e5m2.enc 0x7F v)

/-! ### Matrix elements (R89, R90) -/

/-- Width of an element of a format code. -/
def fmtBits (code : Nat) : Nat :=
  match code with
  | 0x0 => 32 | 0x1 => 16 | 0x2 => 16 | 0x4 => 4 | 0x9 => 4 | 0x7 => 6 | 0x8 => 6 | _ => 8

/-- Elements a lane carries: 6-bit elements take a byte's place of 6 bits, four to a lane (R91). -/
def fmtPerLane (code : Nat) : Nat := if fmtBits code = 16 then 2 else if fmtBits code = 4 then 8 else 4

/-- The exact value of an element. -/
def elemVal (code x : Nat) : FVal :=
  match code with
  | 0x1 => bf16.ieee x
  | 0x2 => fp16.ieee x
  | 0x5 => if x % 128 = 0x7F then .nan else e4m3.finite x
  | 0x6 => e5m2.ieee x
  | 0x7 => e2m3.finite x
  | 0x8 => e3m2.finite x
  | 0x9 => e2m1.finite x
  | 0xA => .fin (decide (sext x 8 < 0)) (sext x 8).natAbs (-6)
  | 0x3 => .fin (decide (sext x 8 < 0)) (sext x 8).natAbs 0
  | _ => .fin (decide (sext x 4 < 0)) (sext x 4).natAbs 0

/-- Element e of a lane. -/
def elemOf (code : Nat) (lane : BitVec 32) (e : Nat) : Nat := bits lane.toNat (fmtBits code * e) (fmtBits code)

/-- An E8M0 scale (R90). -/
def scaleVal (x : Nat) : FVal := if x = 0xFF then .nan else .fin false 1 ((x : Int) - 127)

/-- The window sum of a floating group (R100): products truncated below 2^(E_max − 48). -/
def windowSum (ps : List FVal) : FVal :=
  if ps.any FVal.isNan || (ps.contains (.inf false) && ps.contains (.inf true)) then .nan
  else if ps.contains (.inf false) then .inf false
  else if ps.contains (.inf true) then .inf true
  else
    let tops := ps.filterMap (fun p => match p with | .fin _ m e => if m = 0 then none else some (e + bitLen m - 1) | _ => none)
    match tops with
    | [] => .fin false 0 0
    | t :: ts =>
      let lsb := ts.foldl max t - 48
      let sum := ps.foldl (fun (acc : Int) p => match p with
        | .fin s m e => acc + signedNat s (if e ≥ lsb then m * 2 ^ (e - lsb).toNat else m >>> (lsb - e).toNat)
        | _ => acc) 0
      .fin (decide (sum < 0)) sum.natAbs lsb

/-- A group's sum enters an FP32 accumulator under a factor (R101 to R103). -/
def accumulate (c : BitVec 32) (sum factor : FVal) : BitVec 32 :=
  match sum with
  | .fin _ 0 _ => c
  | _ =>
    match factor with
    | .fin _ 0 _ => c
    | _ => toF32 ((ofF32 c).add (sum.mul factor))

/-- A group sum enters an INT32 accumulator (R104): the new value, and whether it clamped. -/
def accumInt (sat : Bool) (c : BitVec 32) (sum : Int) : BitVec 32 × Bool :=
  let v := c.toInt + sum
  if sat then (clamp32 true v, decide (v < -2147483648) || decide (v > 2147483647)) else (BitVec.ofInt 32 v, false)

end Sys2Proof.Machine
end

