-- ==== Sys2Proof/Machine/JobOps.lean ====
section
/-! DEFINITION. Jobs as operations (11): the ledger, ending, holding, pre-emption, and the step boundary of R25. -/

namespace Sys2Proof.Machine

open Config

/-! ### The ledger (R327, R328, R336) -/

/-- A client's defaults (R327). -/
def clientReset (id : Nat) : Client :=
  { id := id, latency := false, share := 100, waitUs := 0, preempted := 0, ended := 0, ae := 0, te := 0, xe := 0, se := 0
    charge := 0, chargeDen := 1 }

def State.client (s : State) (id : Nat) : Client := (s.sv.clients.find? (·.id == id)).getD (clientReset id)

def State.updClient (s : State) (id : Nat) (g : Client → Client) : State :=
  let c := g (s.client id)
  { s with sv := { s.sv with
      clients := if s.sv.clients.any (·.id == id) then s.sv.clients.map (fun e => if e.id == id then c else e)
                 else s.sv.clients ++ [c] } }

/-- A charge is below another, as exact fractions. -/
def Client.below (a b : Client) : Bool := decide (a.charge * b.chargeDen < b.charge * a.chargeDen)

/-- Add array-engine time to a best-effort client's charge: ΔAE × 100 ÷ SHARE, exactly (R328). -/
def Client.accrue (c : Client) (ae : Nat) : Client :=
  let num := c.charge * c.share + ae * 100 * c.chargeDen
  let den := c.chargeDen * c.share
  let g := Nat.gcd num den
  { c with charge := num / g, chargeDen := den / g }

/-- The charge in units of 1/256 share-µs, rounded down (R328). -/
def Client.reported (c : Client) : Nat := c.charge * 256 / c.chargeDen

/-- The job competes for its client: best-effort and QUEUED, RUNNING, or STRUCK and not kept (R328). -/
def Job.competes (j : Job) : Bool :=
  !j.latency && (j.st == .queued || j.st == .running || (j.st == .struck && !j.kept))

/-- A client that comes to have a competing job has its charge raised to the lowest among such clients (R328). -/
def State.joinLedger (s : State) (cid : Nat) (jid : Nat) : State :=
  if s.sv.jobs.any (fun j => j.client == cid && j.id != jid && j.competes) then s
  else
    let others := ((s.sv.jobs.filter (fun j => j.competes && j.client != cid)).map (·.client)).eraseDups.map s.client
    match others with
    | [] => s
    | c :: cs =>
      let low := cs.foldl (fun b d => if d.below b then d else b) c
      s.updClient cid (fun m => if m.below low then { m with charge := low.charge, chargeDen := low.chargeDen } else m)

/-- Move a job to a state, closing the waiting interval it leaves (R337). -/
def State.jobTo (s : State) (id : Nat) (st : JobSt) : State :=
  match s.job? id with
  | none => s
  | some j =>
    let waited := j.st == .queued || (j.st == .struck && !j.kept)
    let s := if waited then s.updClient j.client (fun c => { c with waitUs := c.waitUs + (s.now - j.since) }) else s
    let was := j.competes
    let s := s.updJob id (fun j => { j with st := st, since := s.now, mark := none })
    let s := if st == .running then s else s.seDrop (· == .compose id)
    match s.job? id with
    | some j' => if j'.competes && !was then s.joinLedger j'.client id else s
    | none => s

/-! ### Troupe-wide jobs (R262) -/

/-- A TROUPE control message of a subtype with its arguments (log 15 gives the argument places). -/
def troupeMsg (sub a0 : Nat) (a1 a2 a3 : Nat) : Msg :=
  { msg0 0x14 with troupe := true, a0 := arg (sub % 256 + a0 * 256), a1 := arg a1, a2 := arg a2, a3 := arg a3 }

/-- The other members of a job. -/
def State.jobPeers (s : State) (j : Job) : List Nat := (maskList j.members 8).filter (fun p => p ≠ s.bt.strap)

/-- Send a TROUPE message to every other member of a job. -/
def State.tellMembers (s : State) (j : Job) (m : Msg) : State := (s.jobPeers j).foldl (fun s p => s.tell (peerOf p) m) s

/-! ### Ending a job -/

/-- Cut every quadrant of a job with a run or a change active, except one held by a stall (R78, R79, R180); the job's array-engine
entries that wait are discarded with its others. The two array cycles from the issue of such a cut to its effect pass within the
ending (log 48). -/
def State.cutJob (s : State) (j : Job) : State :=
  (maskList (s.jobQuads j) 4).foldl (fun s q =>
    if s.azgen && j.f != q then s
    else
      let s := if (s.quad q).active && !(s.quad q).halted then ((s.cutNow q (s.quad q).cutTarget).breakEntries q).2 else s
      s.updQuad q (fun x => { x with aeq := x.aeq.map (fun es => es.filter (fun (e : AeEnt) => e.started)) })) s

/-- Discard a job's tier-engine and exchange-engine entries; operations in flight complete and post nothing (R180). -/
def State.discardWork (s : State) (jid : Nat) : State :=
  let s := (s.pool.placing.filter (fun p => match p.for_ with
    | .entry q tq n => (s.quad q).queues.any (fun k => k.ents.any (fun e => e.n == n && e.job == jid)) && tq < 8
    | _ => false)).foldl (fun s p => s.dropPlacing p) s
  let s : State := { s with quads := s.quads.map (fun x =>
    { x with queues := x.queues.map (fun k => { k with ents := k.ents.filter (fun e => e.job != jid), back := k.back.filter (fun e => e.job != jid) })
             gwOut := x.gwOut.map (fun g => (g.1, g.2.map (fun t => { t with owner := none }))) }) }
  let s : State := { s with fab := { s.fab with
      queues := s.fab.queues.map (fun k => k.filter (fun e => e.job != jid)), xback := s.fab.xback.filter (fun e => e.job != jid)
      ops := s.fab.ops.map (fun o => if o.job == jid then { o with job := 0, ectr := 255, xq := none } else o) } }
  s.seDrop (fun e => e == .compose jid || e == .deliver jid)

/-- A routed pass of the job is in flight: its gateways expect tags (R237). -/
def State.passInFlight (s : State) (jid : Nat) : Bool := s.quads.any (fun x => x.rt.active && x.rt.job == jid && x.rt.expect.isSome)

/-- Abandon a job's routed passes: nothing is expected any more and incomplete cache fills are invalid; the generation is bumped when
a pass was in flight (R236, R237). -/
def State.abandonPass (s : State) (jid : Nat) : State :=
  let inFlight := s.passInFlight jid
  if s.quads.any (fun x => x.rt.active && x.rt.job == jid) then
    let s : State := { s with quads := s.quads.map (fun (x : Quad) =>
      if x.rt.job == jid then { x with rt := { Routing.reset with cache := x.rt.cache, cacheProd := x.rt.cacheProd, age := x.rt.age, job := jid } } else x) }
    if inFlight then s.bumpGen else s
  else s

/-- Unpin and evict a job's strike images and job record (R325). -/
def State.dropImages (s : State) (j : Job) : State :=
  { s with pool := (j.images ++ [j.record]).foldl (fun p o => if o = 0 then p else p.clear 1 o) s.pool }

/-- VAL of a job's final reply (R294). -/
def Job.endVal (j : Job) : Nat :=
  j.steps % 2 ^ 32 + min j.discards 0xFFFFFFFF * 2 ^ 32 + j.poisonRecs % 2 ^ 32 * 2 ^ 64 + j.reqsEnded % 2 ^ 32 * 2 ^ 96

/-- Cancel the changeovers that wait on a job (R179). -/
def State.cancelChanges (s : State) (jid : Nat) : State :=
  let s := (s.sv.changes.filter (fun c => c.job == jid)).foldl (fun s c =>
    (s.unhold 1 c.new (.change c.new)).complete c.slot.1 c.slot.2 CANCELLED 0) s
  { s with sv := { s.sv with changes := s.sv.changes.filter (fun c => c.job != jid) } }

/-- End a job with a status: its quadrants are cut, its entries discarded, its requests end (R211), its images and
record are evicted, its commands complete, and it joins the ended jobs (R294, R325). -/
def State.endJob (s : State) (jid status : Nat) : State :=
  match s.job? jid with
  | none => s
  | some j0 =>
    let s := s.cutJob j0
    let s := (s.abandonPass jid).discardWork jid
    let reqSt := if status = FENCED then LOST else status
    let s := (s.sv.reqs.filter (fun r => r.job == jid && r.st != .parked)).foldl (fun s r =>
      if status = CANCELLED then s.cancelReq r.id
      else
        (s.endReq r.id reqSt true).completeAll r.cancelSlots DONE 0) s
    let s := s.cancelChanges jid
    -- a resume that waits for admission to this job finds it ended, and its request stays PARKED (R209)
    let s := (s.sv.reqs.filter (fun r => r.st == .parked && (r.resumeTo.map (·.1)) == some jid)).foldl (fun s r =>
      (s.completeAs r.resumeSlot BAD 0x0C).updReq r.id (fun r => { r with resumeSlot := none, resumeTo := none })) s
    let s := s.jobTo jid .held
    match s.job? jid with
    | none => s
    | some j =>
      let s := s.dropImages j
      let s := s.unholdAll (.setting jid)
      let s := if j.members ≠ 0 ∧ s.fab.role = .lead ∧ j.toldEnd.isNone then s.tellMembers j (troupeMsg 0x14 status jid s.genNext 0) else s
      let fin := if status = DONE ∧ j.poisonRecs > 0 then POISONED else status
      let s := if j.slot < 256 then s.complete j.f j.slot fin j.endVal else s
      let s := (s.completeAll j.endSlots DONE 0).completeOpt j.preSlot CANCELLED 0
      let s := s.completeOpt j.resumeSlot fin j.endVal
      let s := s.updClient j.client (fun c => { c with ended := c.ended + 1 })
      let s := s.clearCtr [0x51] jid
      { s with sv := { s.sv with
          jobs := s.sv.jobs.filter (fun x => x.id != jid)
          endedJobs := (((j, fin) :: s.sv.endedJobs)).take 4096 } }

/-- End the job that runs in a quadrant (R56, R157, R164, R175). -/
def State.endJobAt (s : State) (q status : Nat) : State :=
  match s.jobAt q with
  | some j => s.endJob j.id status
  | none => s

/-! ### Engine completion (R157, R168) -/

/-- A LOOP still needs a body entry: bodies stay in the queue until the loop completes (R164). -/
def TeQueue.needed (k : TeQueue) (e : TeEnt) : Bool :=
  e.iter == 0 &&
  (k.ents.any (fun l => l.op == 0x0C && !l.done && decide (l.n - l.field 0x20 8 ≤ e.n) && decide (e.n < l.n)) ||
   (List.zipIdx k.back).any (fun (l, i) => l.op == 0x0C && decide (k.nextN + i - l.field 0x20 8 ≤ e.n)))

/-- Entries whose completion may post now: complete, not yet posted, every earlier entry of the queue that names the
same counter posted (R157). The first such entry's place. -/
def postable : List TeEnt → List Nat → Nat → Option Nat
  | [], _, _ => none
  | e :: es, blocked, i =>
    if e.posts && e.cue < 63 && e.op != 8 then
      if e.done && !blocked.contains e.cue then some i
      else postable es (e.cue :: blocked) (i + 1)
    else postable es blocked (i + 1)

/-- Apply a post to a cue counter; past 0xFFFF_FFFF it is not applied and the job ends with INTERNAL (R157). -/
def State.post (s : State) (q c n : Nat) : State :=
  let v := ((s.quad q).cues.getD c default).posted + n
  if v ≤ 0xFFFFFFFF then s.updQuad q (fun x => { x with cues := x.cues.modify c (fun e => { e with posted := v }) })
  else s.endJobAt q INTERNAL

/-- Apply every post of a queue that is due, in order, and drop the entries nothing needs any more, whose room waiting entries take. -/
def State.settle (q tq : Nat) : Nat → State → State
  | 0, s => s
  | fuel + 1, s =>
    let k := (s.quad q).queues.getD tq default
    match postable k.ents [] 0 with
    | some i =>
      let e := k.ents.getD i default
      let s := s.updQuad q (fun x => { x with queues := x.queues.modify tq (fun k =>
        { k with ents := k.ents.modify i (fun e => { e with posts := false }) }) })
      State.settle q tq fuel (s.post q e.cue e.postn)
    | none =>
      s.updQuad q (fun x => { x with queues := x.queues.modify tq (fun k =>
        ({ k with ents := k.ents.filter (fun e => ¬ (e.done && (!e.posts || e.cue ≥ 63 || e.op == 8) && !k.needed e)) } : TeQueue).refill s.now) })

/-- The first started and uncompleted entry with number n. -/
def TeQueue.live (k : TeQueue) (n : Nat) : Option TeEnt := k.ents.find? (fun e => e.n == n && e.started && !e.done)

/-- A resident load that has no entry left puts its production on stage (R185, R187, R188). -/
def State.residentDone (s : State) : State :=
  (s.sv.prods.filter (fun p => p.resLoad && !s.loading p.num)).foldl (fun s p =>
    let s : State := { s with sv := { s.sv with prods := s.sv.prods.map (fun (x : Sys2Proof.Machine.Prod) =>
      if x.num == p.num then { x with st := .onStage, stale := false, resLoad := false, slot := none } else x) } }
    s.completeOpt p.slot DONE 2) s

/-- A tier-engine entry completes: its post is applied in queue order (R157, R168). -/
def State.teDone (s : State) (q tq n : Nat) : State :=
  let k := (s.quad q).queues.getD tq default
  match k.live n with
  | none => s
  | some e0 =>
    let s := s.updQuad q (fun x => { x with queues := x.queues.modify tq (fun k =>
      { k with ents := k.ents.map (fun e => if e.n == n && e.iter == e0.iter then { e with done := true, left := 0, gone := e.gone + e.held, held := 0, owed := [] } else e) }) })
    let s := (s.bump 0x41 q (5 * tq) 1)
    let s := State.settle q tq (k.ents.length + 1) s
    if e0.job ≥ 2 ^ 32 then s.residentDone else s

/-! ### Pre-emption (R330 to R332) -/

/-- Space for one more image of a strike, after the ones reserved so far (none: one found no space). -/
def State.reserveImage (jid : Nat) (acc : Option (List (Nat × Nat)) × State) (e : Nat × Nat × Nat) : Option (List (Nat × Nat)) × State :=
  match acc with
  | (none, s) => (none, s)
  | (some ids, s) =>
    let oid := s.nextOid 2
    match s.reserveNew 2 (newRec oid 1 (2 ^ e.1) e.2.1 jid 0 0) false with
    | (some t, _) => (some (ids ++ [(e.2.2, oid)]), { t with pool := { t.pool with pins := t.pool.pins ++ [(1, oid)] } })
    | (none, t) => (none, { t with pool := ids.foldl (fun p i => p.clear 1 i.2) t.pool })

/-- Space for the strike images and the job record of a job at this device (R332 step 1), device-pinned: the images of q0 to q3 and
the record. Without space for all of them the records already written are cleared, and evictions already made stand (R133). -/
def State.reserveStrike (s : State) (j : Job) : Option (List Nat × Nat) × State :=
  let qs := maskList (s.jobQuads j) 4
  let pend := ((s.fab.queues.flatten ++ s.fab.xback).filter (fun e => e.job == j.id && !e.done)).length
  let ents := ((s.quads.flatMap (fun x => x.queues.flatMap (fun k => k.ents ++ k.back))).filter (fun e => e.job == j.id && !e.started)).length
  let recLen := 0x1000 + 64 * pend + 64 * ents + 8 * j.biases.length
  let (ids, s) := (qs.map (fun q => (q, strikeBytes, q)) ++ [((qs.head?).getD 0, recLen, 4)]).foldl (State.reserveImage j.id) (some [], s)
  (ids.map (fun ids => ((List.range 4).map (fun q => (look ids q).getD 0), (look ids 4).getD 0)), s)

/-- Begin a pre-emption at a boundary: reserve, become PREEMPTING, and stop starting entries (R332 steps 1 and 2).
Without space it is given up: a command completes with NO_SPACE, and the job goes on. -/
def State.beginPreempt (s : State) (jid : Nat) : State :=
  match s.job? jid with
  | none => s
  | some j =>
    match s.reserveStrike j with
    | (none, s) =>
      (s.completeOpt j.preSlot NOSPACE 0).updJob jid (fun j => { j with preSlot := none, preAsked := false, preKeep := false })
    | (some (imgs, rec_), s) =>
      let s := s.jobTo jid .preempting
      let s := s.updJob jid (fun j => { j with images := imgs, record := rec_, preAt := s.now, preAsked := false, abandoned := 0, ends := []
                                               preHold := if j.preSlot.isSome then j.preHold else 2000 })
      if j.members ≠ 0 ∧ s.fab.role = .lead then s.tellMembers j (troupeMsg 0x15 0 jid s.genNext 0) else s

/-- The slice rule at a boundary of a best-effort job (R330). -/
def State.sliceDue (s : State) (j : Job) : Bool :=
  !j.latency && decide (j.ranFrom + s.sv.slice ≤ s.now) &&
  s.sv.jobs.any (fun k => !k.latency && k.client != j.client && (k.st == .queued || (k.st == .struck && !k.kept)) &&
    (s.client k.client).below (s.client j.client) && (!s.azgen || k.f == j.f))

/-- A latency-critical job waits for a device this best-effort job owns (R330). -/
def State.latencyDue (s : State) (j : Job) : Bool :=
  !j.latency && s.sv.jobs.any (fun k => k.latency && k.st == .queued && (!s.azgen || k.f == j.f))

/-! ### The step boundary (R25) -/

/-- Action 2: pending cancels, then a pending JOB_END (R210, R325). -/
def State.act2 (s : State) (jid : Nat) : State :=
  let s := (s.sv.reqs.filter (fun r => r.job == jid && !r.cancelSlots.isEmpty)).foldl (fun s r => s.cancelReq r.id) s
  match s.job? jid with
  | some j => if !j.endSlots.isEmpty && j.st == .running then s.endJob jid CANCELLED else s
  | none => s

/-- Action 3: pending parks of resident requests (R207). -/
def State.act3 (s : State) (jid : Nat) : State :=
  match s.manOf jid with
  | none => s
  | some m =>
    (s.sv.reqs.filter (fun r => r.job == jid && r.parkSlot.isSome &&
      (r.st == .prefill || r.st == .decode || r.st == .idle))).foldl (fun s r => s.startPark r.id m) s

/-- Hold a job (R305): a started one keeps its scope. -/
def State.holdJob (s : State) (jid reason : Nat) : State :=
  (s.jobTo jid .held).updJob jid (fun j => { j with reason := reason })

/-- Action 4: a job whose session closed while it ran, as its hold reason tells, stops its host DMA and holds here (R305). -/
def Job.act4 (j : Job) : Bool := decide (j.reason ≠ 0)

/-- The stage manager gives the serving engine the composition of a running job's next step (R15). -/
def State.toCompose (s : State) (jid : Nat) : State :=
  if ((s.job? jid).map (fun j => j.st == JobSt.running && decide (j.slot < 256))).getD false && !(s.sv.seBack ++ s.sv.seq.flatten).contains (.compose jid) then
    s.sePut (.compose jid)
  else s

/-- Action 5: a pending pre-emption, a latency-critical arrival or the slice starts the strike (R330, R331); otherwise composition may
come. -/
def State.act5 (s : State) (jid : Nat) : State :=
  match s.job? jid with
  | none => s
  | some j =>
    (if j.st == .running && (j.preAsked || s.latencyDue j || s.sliceDue j) && s.bt.act == .idle then s.beginPreempt jid
     else s).toCompose jid

/-- Action 1 begins a boundary: what is accepted from here on waits for the next one (R26). -/
def State.markBoundary (s : State) (jid : Nat) : State :=
  let now := s.sv.order
  s.updJob jid (fun j => { j with mark := some now })

/-- Actions 2 to 5 at a boundary of a job whose action 1 has been done, and the seal retries of R197. Admission and
composition (action 6) are COMPOSITION's. -/
def State.boundary (s : State) (jid : Nat) : State :=
  let s := (s.act2 jid).act3 jid
  let s := s.retrySeals jid
  match s.job? jid with
  | none => s
  | some j => if j.st == .running && j.act4 then s.holdJob jid j.reason else s.act5 jid

/-- Actions 1 to 3 for a job that runs no step, within 10 local µs of a command that acts at a boundary (R212). A command accepted
between a boundary's action 1 and its composition waits for the next boundary (R26). -/
def State.boundaryIfIdle (s : State) (jid : Nat) : State :=
  match s.job? jid with
  | none => s
  | some j =>
    if j.inStep || j.mark.isSome then s
    else if j.st == .struck || j.st == .preempting || j.st == .setting then s.act2 jid   -- a park waits for the set (R334)
    else (s.act2 jid).act3 jid

end Sys2Proof.Machine
end

