-- ==== Sys2Proof/Machine/Pass.lean ====
section
/-! DEFINITION. A routed pass from its lists to its answers (R217, R221 to R237): the expert table, tags, publication, the
fetch plan and cache, dispatch records and answers, and the passage to the next pass. -/

namespace Sys2Proof.Machine

open Config

/-! ### Sources, homes and tags (R217, R229, R235, R237) -/

/-- The troupe positions that take part in a job; 0 for a job of this device alone. -/
def Job.positions (j : Job) : List Nat := if j.members = 0 then [0] else maskList j.members 8

/-- This device's position within a job. -/
def State.ownPos (s : State) (j : Job) : Nat := if j.members = 0 then 0 else s.bt.strap

/-- The sources of a pass, in their order (R229). -/
def Job.sources (j : Job) (quads : Nat) : List (Nat × Nat) := j.positions.flatMap (fun p => (maskList quads 4).map (fun q => (p, q)))

/-- A quadrant's own source number. -/
def State.sourceIx (s : State) (j : Job) (quads q : Nat) : Nat := (j.sources quads).findIdx (· == (s.ownPos j, q))

/-- The 128-bit expert-table entry of expert e of pass p, as quadrant q reads it (R217). -/
def State.expEntry (s : State) (q : Nat) (p : Sys2Proof.Machine.Prod) (pass e : Nat) : Nat :=
  match (p.alias? p.man.rp.exptab).bind (fun o => s.pool.copyFor 1 o q) with
  | some r => ofLe (s.readCopy r ((pass * p.man.rp.experts + e) * 16) 16).1
  | none => 0

def expDispatch (w : Nat) : Bool := w.testBit 8
def expCache (w : Nat) : Bool := w.testBit 9
def expSrc (w : Nat) : Nat := bits w 10 3
def expMember (w : Nat) : Nat := bits w 13 3
def expHome (w : Nat) : Nat := bits w 16 2
def expOff (w : Nat) : Nat := bits w 64 40

/-- A tag (R235). -/
def tagOf (batch half gen : Nat) : Nat := batch % 32768 + half * 32768 + gen * 65536

/-- The gateway expects the tag: a pass is active, and its BATCH and GEN match (R237). -/
def Routing.expects (r : Routing) (tag half : Nat) : Bool :=
  match r.expect with | some (b, g) => decide (tag = tagOf b half g) | none => false

/-- Count of group 0x61: eight counters to an expert (R243). -/
def State.expCount (s : State) (q e k n : Nat) : State := s.bump 0x61 q (8 * e + k) n

def State.updRt (s : State) (q : Nat) (g : Routing → Routing) : State := s.updQuad q (fun x => { x with rt := g x.rt })

/-- The job and the production whose pass a quadrant is in. -/
def State.passOf (s : State) (q : Nat) : Option (Job × Sys2Proof.Machine.Prod) :=
  let rt := (s.quad q).rt
  if !rt.active then none
  else match s.job? rt.job with
  | some j => (s.prod? j.prod).map (fun p => (j, p))
  | none => none

/-! ### Posting work (R226, R230, R234) -/

/-- The weights of a work entry are there: no fetch of its expert is left; a dispatch entry's always are. -/
def Routing.workIn (r : Routing) (w : Work) : Bool := w.kind == 2 || !r.fetches.any (fun f => f.expert == w.expert && !f.done)

/-- Post FCUE for every entry whose turn has come, in work-list order. -/
def State.postWorks (s : State) (q fcue : Nat) : State :=
  let rt := (s.quad q).rt
  let ready := (rt.works.takeWhile rt.workIn).length
  let n := ((rt.works.take ready).filter (!·.posted)).length
  if n = 0 then s
  else
    let s := s.updRt q (fun r => { r with works := (List.zipIdx r.works).map (fun (w, i) => if i < ready then { w with posted := true } else w) })
    s.post q fcue n

/-- Work entries of one expert, 32 rows to an entry (R225). -/
def workEntries (expert slot kind half pass round : Nat) : Nat → List (Nat × Nat) → List Work
  | 0, _ => []
  | _, [] => []
  | fuel + 1, rows =>
    { expert := expert, slot := slot, kind := kind, half := half, pass := pass, rows := rows.take 32, round := round
      posted := false, done := false } :: workEntries expert slot kind half pass round fuel (rows.drop 32)

/-- The two lines of work entry x (R225). -/
def Work.lines (w : Work) (x : Nat) : BitVec 1024 × BitVec 1024 :=
  let ranks := (List.zipIdx w.rows).foldl (fun n (r, i) => n + r.2 * 16 ^ i) 0
  let l (n : Nat) : BitVec 32 := BitVec.ofNat 32 n
  (ofLanes [l w.expert, l (w.slot + w.kind * 256), l w.half, l w.rows.length, l x, l w.pass,
            l ranks, l (ranks / 2 ^ 32), l (ranks / 2 ^ 64), l (ranks / 2 ^ 96)],
   ofLanes (w.rows.map (fun r => l r.1)))

/-- Write work entries from index x on into the routing area (R224). -/
def State.writeWorks (s : State) (q rarea x : Nat) (ws : List Work) : State :=
  (List.zipIdx ws).foldl (fun s (w, i) =>
    let (a, b) := w.lines (x + i)
    let at_ := stagingBase q + rarea + 0x84000 + 256 * (x + i)
    (s.devWrite at_ (leBytes 128 a.toNat) false).devWrite (at_ + 128) (leBytes 128 b.toNat) false) s

/-- Open the dispenser of work entries with a number of entries (R226). -/
def State.openDsp (s : State) (q dspn n : Nat) (fresh : Bool) : State :=
  s.updQuad q (fun x => { x with disps := x.disps.modify dspn (fun d => { d with next := if fresh then 0 else d.next, limit := n }) })

/-! ### Dispatch at the home (R233) -/

/-- A message or record whose tag is not expected (R237). -/
def State.staleReply (s : State) (q : Nat) : State := s.bump 0x62 q 5 1

/-- Inbox address of a source's record with an answer slot. -/
def inboxAt (q : Nat) (r : RoutePar) (ix : Nat) : Nat := stagingBase q + r.inbox + ix * (128 + r.rowbytes)

/-- Dispatch experts of a pass whose home is quadrant q of a position. -/
def State.homeExperts (s : State) (q pos quad : Nat) (p : Sys2Proof.Machine.Prod) (pass : Nat) : List Nat :=
  (List.range p.man.rp.experts).filter (fun e =>
    let w := s.expEntry q p pass e
    expDispatch w && expMember w == pos && expHome w == quad)

/-- The job dispatches: some expert of some pass is in dispatch mode, as quadrant q reads the table (R217). -/
def State.dispatches (s : State) (q : Nat) (p : Sys2Proof.Machine.Prod) : Bool :=
  (List.range p.man.rp.epasses).any (fun pass => (List.range p.man.rp.experts).any (fun e => expDispatch (s.expEntry q p pass e)))

/-- Build the dispatch section once the lists are published, every source's end record is there and as many records as
they announce (R233 step 5). -/
def State.tryDispatch (s : State) (q : Nat) : State :=
  match s.passOf q with
  | none => s
  | some (j, p) =>
    let rt := (s.quad q).rt
    let r := p.man.rp
    let total := (rt.endsIn.map (·.2)).foldl (· + ·) 0
    if rt.built || !rt.published || decide (rt.endsIn.length < (j.sources p.man.quads).length) || decide (rt.recsIn.length < total) then s
    else
      let ixs := sortBy (fun a b => decide (a ≤ b)) (rt.recsIn.map (fun e => e.1 * r.dmax + e.2))
      let head (ix off n : Nat) : Nat := memNat s.mem (inboxAt q r ix + off) n
      let ws := (s.homeExperts q (s.ownPos j) q p rt.pass).flatMap (fun e =>
        let rows := (ixs.filter (fun ix => decide (head ix 0x0A 2 = e))).map (fun ix => (ix, head ix 0x05 1))
        workEntries e 0 2 0 rt.pass 65535 (rows.length + 1) rows)
      if rt.works.length + ws.length > 2048 then s.endJob j.id INTERNAL
      else
        let s := s.writeWorks q r.rarea rt.works.length ws
        let s := s.updRt q (fun x => { x with works := x.works ++ ws, built := true })
        let s := s.openDsp q r.dspn (rt.works.length + ws.length) false
        s.postWorks q r.fcue

/-- A dispatch record reaches its home: its header and row, with the row's poisoned ranges, are written to the inbox (R233 step 4). -/
def State.recordIn (s : State) (q : Nat) (hdr row : List Byte) (pois : List (Nat × Nat)) : State :=
  match s.passOf q with
  | none => s.staleReply q
  | some (_, p) =>
    let r := p.man.rp
    if !(s.quad q).rt.expects (leAt hdr 0 4) 0 then s.staleReply q
    else
      let src := leAt hdr 4 1
      let d := leAt hdr 8 2
      let at_ := inboxAt q r (src * r.dmax + d)
      let s := (s.devWrite at_ (leBytes 128 (ofLe (hdr.take 128))) false).devPut (at_ + 128) (row.take r.rowbytes) pois
      let s := s.expCount q (leAt hdr 0x0A 2) 7 1
      (s.updRt q (fun x => { x with recsIn := x.recsIn.filter (· ≠ (src, d)) ++ [(src, d)] })).tryDispatch q

/-- An end record reaches a home, under a key of its sender (R233 step 3). -/
def State.endIn (s : State) (q tag key count : Nat) : State :=
  if !(s.quad q).rt.expects tag 0 then s.staleReply q
  else (s.updRt q (fun x => { x with endsIn := x.endsIn.filter (fun e => e.1 != key) ++ [(key, count)] })).tryDispatch q

/-! ### Answers (R233 steps 6 and 7) -/

/-- Post DCUE once every kept dispatch choice of a published pass has its answer. -/
def State.tryDcue (s : State) (q : Nat) : State :=
  match s.passOf q with
  | none => s
  | some (_, p) =>
    let rt := (s.quad q).rt
    if rt.dcueDone || !rt.published || decide (rt.answers.length < rt.ansSlots) then s
    else
      let s := s.updRt q (fun x => { x with dcueDone := true })
      if p.man.rp.dcue = 63 then s else s.post q p.man.rp.dcue 1

/-- An answer reaches its source, with its poisoned ranges. -/
def State.answerIn (s : State) (q tag d : Nat) (row : List Byte) (pois : List (Nat × Nat)) : State :=
  match s.passOf q with
  | none => s.staleReply q
  | some (_, p) =>
    let r := p.man.rp
    if !(s.quad q).rt.expects tag 0 || decide (d ≥ r.dmax) then s.staleReply q
    else
      let s := s.devPut (stagingBase q + r.ansoff + d * r.rowbytes) (row.take r.rowbytes) pois
      (s.updRt q (fun x => { x with answers := x.answers.filter (· ≠ d) ++ [d] })).tryDcue q

/-- A token arrives on ALINK at the home: once the header and the row's tokens are there, the answer goes back with the
inbox record's tag and answer slot (R233 step 6). -/
def State.answerToken (s : State) (q : Nat) (t : Tok) : State :=
  match s.passOf q with
  | none => s
  | some (j, p) =>
    let r := p.man.rp
    let part := (s.quad q).rt.ansPart ++ [t]
    if part.length < 1 + r.rowbytes / 128 then s.updRt q (fun x => { x with ansPart := part })
    else
      let ix := (laneOf ((part.headD t).data) 0).toNat
      let at_ := inboxAt q r ix
      let tag := memNat s.mem at_ 4
      let d := memNat s.mem (at_ + 8) 2
      let row := (part.drop 1).flatMap (fun k => leBytes 128 k.data.toNat)
      let pois := if (part.headD t).poison then [(0, r.rowbytes)]
        else (List.zipIdx (part.drop 1)).filterMap (fun (k, i) => if k.poison then some (128 * i, 128) else none)
      let s := s.updRt q (fun x => { x with ansPart := [], ansOut := x.ansOut + 1 })
      match (j.sources p.man.quads)[memNat s.mem (at_ + 4) 1]? with
      | none => s
      | some (pos, qs) =>
        if pos = s.ownPos j then s.answerIn qs tag d row pois
        else
          let m : Msg := { msg0 0x07 with dq := qs, rtag := tag, a0 := arg d, payload := row, poison := flitsBad row.length pois }
          let (ok, s) := s.issue { xop0 0x07 (peerOf pos) m with job := j.id, te := some (q, 256, d) }
          if ok then s else (s.bump 0x72 0 9 1).endJob j.id LOST

/-! ### The fetch plan (R229, R232) -/

/-- The state of planning: round, half slots taken in it, fetches so far, cache. -/
structure Plan where
  round : Nat
  taken : Nat
  fetches : List Fetch
  cache : List CacheSlot
  deriving Repr, Inhabited

/-- The cache slot a miss takes: the last use furthest back, the lowest number among equals, never one of this pass. -/
def freeCacheSlot (cache : List CacheSlot) (now : Nat) : Option Nat :=
  ((List.zipIdx cache).foldl (fun (acc : Option (Nat × Nat)) (c, i) =>
    if c.used = now then acc
    else match acc with
      | none => some (i, c.used)
      | some b => if c.used < b.2 then some (i, c.used) else acc) none).map (·.1)

/-- Plan one expert that misses the cache: `key` is its object and offset when it may be cached. -/
def Plan.add (pl : Plan) (slots now e : Nat) (key : Option (Nat × Nat)) : Plan :=
  match key.bind (fun k => (freeCacheSlot pl.cache now).map (fun i => (k, i))) with
  | some (k, i) =>
    { pl with fetches := pl.fetches ++ [{ expert := e, round := pl.round, toCache := some i, slot := i, half := pl.round % 2, shards := 0, started := false, done := false }]
              cache := pl.cache.set i { oid := k.1, off := k.2, valid := false, used := now } }
  | none =>
    let (r, t) := if pl.taken ≥ slots then (pl.round + 1, 0) else (pl.round, pl.taken)
    { pl with round := r, taken := t + 1
              fetches := pl.fetches ++ [{ expert := e, round := r, toCache := none, slot := t, half := r % 2, shards := 0, started := false, done := false }] }

/-! ### Publication (R224 to R226) -/

/-- The rows, with ranks, that keep a choice of an expert. -/
def keptRows (cs : List Choice) (e : Nat) : List (Nat × Nat) :=
  (List.zipIdx cs).flatMap (fun (c, r) => (List.zipIdx c.experts).filterMap (fun (x, k) =>
    if x = some e ∧ c.kept.getD k false then some (r, k) else none))

/-- The choice line of R224. -/
def Choice.line (c : Choice) : BitVec 1024 :=
  let none32 : BitVec 32 := 0xFFFFFFFF#32
  let at8 (f : Nat → BitVec 32) : List (BitVec 32) := (List.range 8).map f
  let kept := (List.range 8).foldl (fun n k => n + (if c.kept.getD k false then 2 ^ k else 0)) 0
  let flag (b : Bool) (k : Nat) : Nat := if b then 2 ^ k else 0
  ofLanes (at8 (fun k => match c.experts.getD k none with | some e => BitVec.ofNat 32 e | none => none32) ++
    at8 (fun k => c.weights.getD k 0) ++
    [BitVec.ofNat 32 (kept + flag c.skipNow 8 + flag c.skipNext 9 + flag c.poison 10)] ++
    at8 (fun k => match c.slots.getD k none with | some x => BitVec.ofNat 32 x | none => none32))

/-- The skip mask token t for the next pass (R241). -/
def maskLine (cs : List Choice) (t : Nat) : BitVec 1024 :=
  ofLanes ((List.range 32).map (fun i => match cs[32 * t + i]? with
    | some c => if c.skipNext then 0 else 0x3F800000#32
    | none => 0))

/-- One dispatch record of a source: answer slot, row, rank, expert, weight, poison. -/
def dispatchList (cs : List Choice) (isDisp : Nat → Bool) : List (Nat × Nat × Nat × Nat × BitVec 32 × Bool) :=
  sortBy (fun a b => decide (a.1 ≤ b.1)) ((List.zipIdx cs).flatMap (fun (c, r) => (List.zipIdx c.experts).filterMap (fun (x, k) =>
    match x, c.slots.getD k none with
    | some e, some d => if c.kept.getD k false && isDisp e then some (d, r, k, e, c.weights.getD k 0, c.poison) else none
    | _, _ => none)))

/-- The 128-byte header of a record (R258). -/
def recordHeader (tag src rank row d e : Nat) (w : BitVec 32) (pass : Nat) (poison : Bool) : List Byte :=
  leBytes 4 tag ++ leBytes 1 src ++ leBytes 1 rank ++ leBytes 2 row ++ leBytes 2 d ++ leBytes 2 e ++ leBytes 4 w.toNat ++
  leBytes 1 pass ++ leBytes 1 (if poison then 1 else 0) ++ leBytes 110 0

/-- Send the records and end records of a published pass (R233 steps 2 and 3): a job that dispatches has a home in every quadrant of
its sources, which may have no dispatch expert of its own (R234). -/
def State.sendRecords (s : State) (q : Nat) (j : Job) (p : Sys2Proof.Machine.Prod) : State :=
  let rt := (s.quad q).rt
  let r := p.man.rp
  let ent (e : Nat) : Nat := s.expEntry q p rt.pass e
  let tag := tagOf rt.batch 0 rt.gen
  let src := s.sourceIx j p.man.quads q
  let me := s.ownPos j
  let recs := dispatchList rt.choices (fun e => expDispatch (ent e))
  let homes := if s.dispatches q p then j.sources p.man.quads else []
  let send (s : State) (pos : Nat) (m : Msg) : State :=
    let (ok, s) := s.issue { xop0 m.type (peerOf pos) m with job := j.id, te := some (q, 256, 0) }
    if ok then s else (s.bump 0x72 0 9 1).endJob j.id LOST
  let s := recs.foldl (fun s (d, row, k, e, w, ps) =>
    let at_ := stagingBase q + r.actoff + row * r.rowbytes
    let bs := (s.devRead at_ r.rowbytes).1
    let pois := if ps then [(0, r.rowbytes)] else s.badRanges at_ r.rowbytes
    let s := s.noteReads q [.dev at_ r.rowbytes]
    let hdr := recordHeader tag src k row d e w rt.pass (!pois.isEmpty)
    let s := s.expCount q e 6 1
    if expMember (ent e) = me then s.recordIn (expHome (ent e)) hdr bs pois
    else
      send s (expMember (ent e)) { msg0 0x05 with
        dq := expHome (ent e), rtag := tag, payload := hdr ++ bs
        poison := flitsBad (128 + r.rowbytes) (pois.map (fun e => (128 + e.1, e.2))) }) s
  homes.foldl (fun s (pos, hq) =>
    let n := (recs.filter (fun e => decide ((expMember (ent e.2.2.2.1), expHome (ent e.2.2.2.1)) = (pos, hq)))).length
    if pos = me then s.endIn hq tag (2 ^ 48 + q) n
    else send s pos { msg0 0x06 with dq := hq, rtag := tag, a0 := arg n }) s

/-- Publish a pass once its last row is routed (R225, R226). -/
def State.publish (s : State) (q : Nat) : State :=
  match s.passOf q with
  | none => s
  | some (j, p) =>
    let rt := (s.quad q).rt
    let r := p.man.rp
    let ent (e : Nat) : Nat := s.expEntry q p rt.pass e
    let now := rt.age + 1
    let key (e : Nat) : Nat × Nat := ((p.alias? (bits (ent e) 0 8)).getD 0, expOff (ent e))
    let cache0 := (rt.cache ++ List.replicate (r.cslots - rt.cache.length) ({ oid := 0, off := 0, valid := false, used := 0 } : CacheSlot)).take r.cslots
    let fetchE := (List.range r.experts).filter (fun e => !expDispatch (ent e) && !(keptRows rt.choices e).isEmpty)
    let hitOf (e : Nat) : Option Nat :=
      if expCache (ent e) then (List.zipIdx cache0).findSome? (fun (c, i) => if c.valid && (c.oid, c.off) == key e then some i else none) else none
    let hits := fetchE.filterMap (fun e => (hitOf e).map (fun i => (e, i)))
    let cache1 := hits.foldl (fun c h => c.modify h.2 (fun x => { x with used := now })) cache0
    let plan := (fetchE.filter (fun e => (hitOf e).isNone)).foldl (fun pl e =>
      pl.add r.slots now e (if expCache (ent e) then some (key e) else none))
      ({ round := 0, taken := 0, fetches := [], cache := cache1 } : Plan)
    let mk (e slot kind half round : Nat) : List Work :=
      let rows := keptRows rt.choices e
      workEntries e slot kind half rt.pass round (rows.length + 1) rows
    let works := hits.flatMap (fun h => mk h.1 h.2 1 0 65535) ++
      plan.fetches.flatMap (fun f => mk f.expert f.slot (if f.toCache.isSome then 1 else 0) (if f.toCache.isSome then 0 else f.half) f.round)
    if works.length > 2048 then s.endJob j.id INTERNAL
    else
      let indexOf (e row : Nat) : Option Nat := (List.zipIdx works).findSome? (fun (w, x) =>
        if w.expert = e ∧ w.rows.any (fun k => k.1 = row) then some x else none)
      let choices := (List.zipIdx rt.choices).map (fun (c, row) =>
        { c with slots := (List.zipIdx c.slots).map (fun (old, k) => match c.experts.getD k none with
          | some e => if c.kept.getD k false then (if expDispatch (ent e) then old else indexOf e row) else none
          | none => none) })
      let base := stagingBase q + r.rarea
      let s := (List.zipIdx choices).foldl (fun s (c, row) => s.devWrite (base + 128 * row) (leBytes 128 c.line.toNat) c.poison) s
      let s := (List.range 128).foldl (fun s t => s.devWrite (base + 0x80000 + 128 * t) (leBytes 128 (maskLine choices t).toNat) false) s
      let s := s.writeWorks q r.rarea 0 works
      let s := s.updRt q (fun x => { x with
        choices := choices, works := works, published := true, built := !s.dispatches q p, dspOpen := true, fetches := plan.fetches
        cache := plan.cache, cacheProd := p.num, age := now, ansOut := 0, ansPart := [] })
      let s := s.post q r.rcue 1
      let s := s.updQuad q (fun x => { x with cues := x.cues.modify r.fcue (fun _ => { posted := 0, retired := 0 }) })
      let s := s.openDsp q r.dspn works.length true
      let s := hits.foldl (fun s h => s.expCount q h.1 5 1) s
      let s := (s.bump 0x62 q 0 1).postWorks q r.fcue
      let s := (s.sendRecords q j p).tryDispatch q
      s.tryDcue q

/-! ### The next pass (R218, R237, R240) -/

/-- CAP of a pass with n rows that do not skip it (R221). -/
def capOf (r : RoutePar) (n : Nat) : Nat :=
  if r.capfact = 0 then n else min n (max r.capmin (ceilDiv (n * r.choices * r.capfact) (256 * r.experts)))

/-- A pass is over: its lists are published, every entry has been posted and taken, every fetch and answer is in (log 18). -/
def State.passOver (s : State) (q : Nat) (r : RoutePar) : Bool :=
  let x := s.quad q
  let rt := x.rt
  rt.published && rt.built && rt.dcueDone && rt.works.all (·.posted) && rt.fetches.all (·.done) &&
  decide (rt.works.length ≤ (x.disps.getD r.dspn Disp.reset).next) &&
  decide (((rt.works.filter (·.kind == 2)).map (·.rows.length)).foldl (· + ·) 0 ≤ rt.ansOut)

/-- Begin a pass: rows that skip it are known, CAP is computed, and its tags are expected. -/
def State.startPass (s : State) (q pass batch : Nat) (skips : List Nat) (skipThis : List Bool) (r : RoutePar) : State :=
  s.updRt q (fun x =>
    let n := x.rows - (skipThis.filter id).length
    { x with pass := pass, batch := batch, part := [], choices := [], skips := skips, skipThis := skipThis, counts := List.replicate r.experts 0
             cap := capOf r n, ansSlots := 0, published := false, built := false, dcueDone := false, recsIn := [], endsIn := [], answers := []
             expect := some (batch % 32768, x.gen) })

/-- Every quadrant of the job is over with the pass that quadrant q is in, so that all of them run the same passes (R235, log 18). -/
def State.passOverAll (s : State) (q : Nat) (p : Sys2Proof.Machine.Prod) : Bool :=
  (List.range 4).all (fun k =>
    let rt := (s.quad k).rt
    !rt.active || rt.job != (s.quad q).rt.job || rt.expect.isNone || decide ((s.quad q).rt.pass < rt.pass) || s.passOver k p.man.rp)

/-- After a pass that is over comes the next one, or nothing is expected any more; a pass without rows is published at once. -/
def State.passes : Nat → State → State
  | 0, s => s
  | fuel + 1, s =>
    match (List.range 4).find? (fun q => match s.passOf q with
        | some (_, p) => (s.quad q).rt.expect.isSome && (s.passOverAll q p || (!(s.quad q).rt.published && decide ((s.quad q).rt.rows = 0)))
        | none => false) with
    | none => s
    | some q =>
      match s.passOf q with
      | none => s
      | some (_, p) =>
        let rt := (s.quad q).rt
        let r := p.man.rp
        let s :=
          if !rt.published then s.publish q
          else if rt.pass + 1 < r.epasses then
            s.startPass q (rt.pass + 1) (rt.batch + 1)
              ((List.range rt.rows).map (fun i => rt.skips.getD i 0 + (if (rt.choices.getD i default).skipNext then 1 else 0)))
              ((List.range rt.rows).map (fun i => (rt.choices.getD i default).skipNext)) r
          else s.updRt q (fun x => { x with expect := none })
        State.passes fuel s

/-- Let the routing blocks go on as far as they can. -/
def State.goOn (s : State) : State := State.passes 4096 s

end Sys2Proof.Machine
end

