-- ==== Sys2Proof/Machine/Grid.lean ====
section
/-! DEFINITION. The grid: links, slot tables, paths, credits and queue traps (R29, R30, R63 to R66, R80, R81), and the
commands PATH_ENABLE, TOKEN_INJECT, TOKEN_HOP and CREDIT_RETURN. Sites are logical: a fenced site's work is its
understudy's (R57, R87; log 16). -/

namespace Sys2Proof.Machine

open Config

/-! ### Sites that run -/

/-- The array's clocks run (R356, R378). -/
def State.clocked (s : State) : Bool := s.isOn && !s.pw.tripT && !s.pw.tripI

/-- Quadrant q is lit, clocked and not held by a stall (R84, R358). -/
def State.quadRuns (s : State) (q : Nat) : Bool := decide (q < 4) && s.clocked && !s.dark q && !(s.quad q).halted

/-- The site switches in the present array cycle (R74, R78). -/
def State.switching (s : State) (q row col : Nat) : Bool :=
  (s.quad q).switchedAt row col == some s.pw.cycle || (s.quad q).cutAt == some s.pw.cycle

/-- The unit of a site can work in this cycle: in the grid, its quadrant running, not fenced without a stand-in, not
under test, not in its switching cycle (R55, R57, R60, R74). -/
def State.siteRuns (s : State) (q row col : Nat) : Bool :=
  let x := s.quad q
  s.quadRuns q && decide (row < 16) && decide (col < 22) && !(x.site row col).isDead && x.test.head? != some (x.phys row col) &&
  !s.switching q row col

/-- Progress in a quadrant restarts the stall count (R83). -/
def State.progress (s : State) (q : Nat) : State := s.updQuad q (fun x => { x with progress := s.now })

/-- Count the live lanes of a firing or the operating cells of a step in the quadrant's activity (R39, R44, R347). -/
def State.worked (s : State) (q lanes cells : Nat) : State :=
  s.updQuad q (fun x => { x with lanes := x.lanes + lanes, cells := x.cells + cells })

/-! ### Links (R20, R30, R167) -/

/-- Where an output port of a switch leads: an input port of a switch, or a gateway link. -/
inductive Hop where
  | sw (q row col port : Nat) (bridge : Bool)
  | gwl (link : Nat)
  deriving DecidableEq, Repr, Inhabited

/-- Ports are 1 north, 2 east, 3 south, 4 west. -/
def hopFrom (q row col out : Nat) : Hop :=
  match out with
  | 1 => if row > 0 then .sw q (row - 1) col 3 false
         else if q < 2 then .gwl (16 + col) else .sw (q - 2) 15 col 3 true
  | 2 => if col < 21 then .sw q row (col + 1) 4 false
         else if q % 2 = 1 then .gwl row else .sw (q + 1) row 0 4 true
  | 3 => if row < 15 then .sw q (row + 1) col 1 false
         else if q ≥ 2 then .gwl (16 + col) else .sw (q + 2) 0 col 1 true
  | _ => if col > 0 then .sw q row (col - 1) 2 false
         else if q % 2 = 0 then .gwl row else .sw (q - 1) row 21 2 true

/-- A port of a switch is closed: the site behind it is fenced (R54, R55). -/
def State.closedPort (s : State) (q row col p : Nat) : Bool :=
  match hopFrom q row col p with
  | .sw q' r c _ _ => (s.quad q').fencedSite r c
  | .gwl _ => false

/-- The edge switch and input port of a gateway link. -/
def linkSite (q link : Nat) : Nat × Nat × Nat :=
  if link < 16 then (if q % 2 = 0 then (link, 0, 4) else (link, 21, 2))
  else if q < 2 then (0, link - 16, 1) else (15, link - 16, 3)

/-! ### Slot tables (R63, R64) -/

/-- Source code of an output of a slot entry: 0 local, 1 to 4 the directions. -/
def entSrc (e : BitVec 32) (out : Nat) : Nat := if out = 0 then bits e.toNat 16 4 else bits e.toNat (4 * (out - 1)) 4

def entDq (e : BitVec 32) : Nat := bits e.toNat 20 3

/-- The entry a switch uses in slot-counter cycle c under the scene in `slot`. -/
def Quad.entAt (x : Quad) (slot row col c : Nat) : BitVec 32 :=
  match x.scene slot with
  | some sc => match x.recIn slot row col with
    | some g => g.slots.getD (c % sc.period) 0
    | none => 0
  | none => 0

/-! ### Paths (R65, R66) -/

/-- Follow a token's route from a switch: every switch it crosses, and every place it ends. A queue is named by its logical site,
whichever unit works for it (R57); nothing passes a closed port (R55). -/
def State.walk (s : State) (slot : Nat) : Nat → Nat × Nat × Nat → Nat → Nat → Nat → Nat → List (Option Dest × Nat × Nat × Nat)
  | 0, _, _, _, _, _ => []
  | fuel + 1, (q, row, col), code, c, h, b =>
    let e := (s.quad q).entAt slot row col c
    let u := (s.quad q).logic row col
    (none, q, row, col) ::
    ((if entSrc e 0 = code then
        [(some { q := q, row := u.1, col := u.2, dq := entDq e, hops := h, bridges := b }, q, row, col)] else []) ++
     [1, 2, 3, 4].flatMap (fun o =>
       if entSrc e o = code then
         match hopFrom q row col o with
         | .gwl l => [(some { q := q, row := row, col := col, dq := 64 + l, hops := h + 1, bridges := b }, q, row, col)]
         | .sw q' r' c' p br =>
           if (s.quad q').fencedSite r' c' then [] else s.walk slot fuel (q', r', c') p (c + 2) (h + 1) (b + if br then 1 else 0)
       else []))

/-- No route is longer. -/
def walkFuel : Nat := 400

def srcQuad : Src → Nat
  | .out k _ => k.q
  | .trap k _ => k.q
  | .gw q _ => q

/-- The holding MU of a trap in a slot's scene. -/
def State.trapHome (s : State) (slot : Nat) (k : Site) (t : Nat) : Nat × Nat :=
  match (s.quad k.q).cfgIn slot k.row k.col with
  | some g => (bits (g.traps.getD t 0).toNat 4 4, bits (g.traps.getD t 0).toNat 8 5)
  | none => (0, 0)

/-- The queue a trap protects. -/
def State.trapQueue (s : State) (slot : Nat) (k : Site) (t : Nat) : Nat :=
  match (s.quad k.q).cfgIn slot k.row k.col with
  | some g => bits (g.traps.getD t 0).toNat 1 3
  | none => 0

/-- Everything a token crosses and reaches when injected in slot-counter cycle c. -/
def State.route (s : State) (slot : Nat) (src : Src) (c : Nat) : List (Option Dest × Nat × Nat × Nat) :=
  match src with
  | .out k n => s.walk slot walkFuel (k.q, (s.quad k.q).phys k.row k.col) (5 + n) c 0 0
  | .trap k t => let h := s.trapHome slot k t; s.walk slot walkFuel (k.q, (s.quad k.q).phys h.1 h.2) 9 c 0 0
  | .gw q l => let (r, col, p) := linkSite q l; s.walk slot walkFuel (q, r, col) p (c + 2) 1 0

/-- The destinations of a token injected in slot-counter cycle c; the slots of a trap's return path are those that end
at the queue it protects. -/
def State.dests (s : State) (slot : Nat) (src : Src) (c : Nat) : List Dest :=
  let ds := (s.route slot src c).filterMap (·.1)
  match src with
  | .trap k t => if ds.all (fun d => d.q == k.q && d.row == k.row && d.col == k.col && d.dq == s.trapQueue slot k t) then ds else []
  | _ => ds

/-- The slots that a source owns at its switch (R66). -/
def State.ownSlots (s : State) (slot : Nat) (src : Src) : List Nat :=
  match (s.quad (srcQuad src)).scene slot with
  | some sc => (List.range sc.period).filter (fun c => !(s.dests slot src c).isEmpty)
  | none => []

/-- The trap that protects a queue: its number at the site. -/
def State.trapFor (s : State) (slot q row col dq : Nat) : Option Nat :=
  match (s.quad q).cfgIn slot row col with
  | some g => (List.range 2).find? (fun t =>
      let d := (g.traps.getD t 0).toNat
      d.testBit 0 && decide (bits d 1 3 = dq))
  | none => none

/-- The protected queues that a source's direct slots reach, with the trap of each. -/
def State.trapsOf (s : State) (slot : Nat) (src : Src) : List (Dest × Nat) :=
  (s.ownSlots slot src).filterMap (fun c =>
    match s.dests slot src c with
    | [d] => if d.dq < 6 then (s.trapFor slot d.q d.row d.col d.dq).map (fun t => (d, t)) else none
    | _ => none)

/-- The protected queue of a source with one path, and its trap. -/
def State.trapOf (s : State) (slot : Nat) (src : Src) : Option (Dest × Nat) := (s.trapsOf slot src).head?

/-- The protected queue, with its trap, whose tokens a source spills to the region at a site (R66, R81). -/
def State.spillOf (s : State) (slot : Nat) (src : Src) (q row col : Nat) : Option (Dest × Nat) :=
  (s.trapsOf slot src).find? (fun e => e.1.q == q && s.trapHome slot { q := e.1.q, row := e.1.row, col := e.1.col } e.2 == (row, col))

/-- The protected queue, with its trap, of the path that owns a slot at its source: that of its direct or of its spill route. -/
def State.trapIn (s : State) (slot : Nat) (src : Src) (c : Nat) : Option (Dest × Nat) :=
  match s.dests slot src c with
  | [d] => if d.dq < 6 then (s.trapFor slot d.q d.row d.col d.dq).map (fun t => (d, t))
           else if d.dq = 6 then s.spillOf slot src d.q d.row d.col else none
  | _ => none

def Quad.trap (x : Quad) (row col t : Nat) : TrapSt :=
  (x.traps.find? (fun e => e.row == row && e.col == col && e.t == t)).getD
    { row := row, col := col, t := t, toks := [], head := 0, coming := 0, landing := [], wroteAt := none, reading := 0, out := []
      lastDue := 0, peak := 0 }

/-- Tokens sent to a trap and not yet sent back. -/
def TrapSt.load (e : TrapSt) : Nat := e.held.length + e.coming

def Quad.setTrap (x : Quad) (e : TrapSt) : Quad :=
  { x with traps := (x.traps.filter (fun y => ¬ (y.row == e.row && y.col == e.col && y.t == e.t))) ++ [e] }

/-- A trap's descriptor and its capacity in tokens (R80). -/
def State.trapDesc (s : State) (slot q row col t : Nat) : Nat :=
  match (s.quad q).cfgIn slot row col with
  | some g => (g.traps.getD t 0).toNat
  | none => 0

def trapCap (d : Nat) : Nat := bits d 30 17 / 17 * 16

/-! ### Credits -/

def destKey (d : Dest) : Nat × Nat × Nat × Nat := (d.q, d.row, d.col, d.dq)

/-- Credits a source holds for a destination. -/
def State.credit (s : State) (src : Src) (d : Dest) : Nat :=
  (look (s.quad (srcQuad src)).credits (src, destKey d)).getD 0

def State.setCredit (s : State) (src : Src) (d : Dest) (n : Nat) : State :=
  s.updQuad (srcQuad src) (fun x => { x with credits := put x.credits (src, destKey d) n })

/-- The slots of a source's path that owns slot c at it: those with its destinations, and its spill route's (R66). -/
def State.pathSlots (s : State) (slot : Nat) (src : Src) (c : Nat) : List Nat :=
  match s.trapIn slot src c with
  | some (d, t) => (s.ownSlots slot src).filter (fun e => (s.trapIn slot src e).map (fun y => (destKey y.1, y.2)) == some (destKey d, t))
  | none => (s.ownSlots slot src).filter (fun e => (s.dests slot src e).map destKey == (s.dests slot src c).map destKey)

/-- The lowest slot of the path that owns slot c: the path's name at its source. -/
def State.pathName (s : State) (slot : Nat) (src : Src) (c : Nat) : Nat := (s.pathSlots slot src c).headD c

/-- The source whose path ends at a queue, of the slot that a token there is of: a gateway path of the slot that the last curtain
change left, or a present path. -/
def State.sourceOf (s : State) (key : Nat × Nat × Nat × Nat) (tag : Nat) : Option Src :=
  s.quads.findSome? (fun x => match x.oldGw.find? (fun e => e.2.1 == key && e.2.2 == tag) with
    | some e => some e.1
    | none => (x.credits.find? (fun e => e.1.2 == key)).map (·.1.1))

/-- The slot current at a source. -/
def State.srcSlot (s : State) (src : Src) : Nat :=
  match src with
  | .out k _ => (s.quad k.q).slotAt k.row k.col
  | .trap k t => let x := s.quad k.q; let h := s.trapHome (x.slotAt k.row k.col) k t; x.slotAt h.1 h.2
  | .gw q _ => (s.quad q).gwSlot

/-- A destination popped a token of a source's path in a slot: its credit will return 2h + 6b cycles later (R66). -/
def State.oweTo (s : State) (src : Src) (slot q row col dq : Nat) : State :=
  match (s.ownSlots slot src).findSome? (fun c => (s.dests slot src c).find? (fun d => destKey d == (q, row, col, dq))) with
  | none => s
  | some d => s.updQuad (srcQuad src) (fun x =>
      { x with credRet := x.credRet ++ [{ slot := slot, due := s.pw.cycle + 2 * d.hops + 6 * d.bridges, src := src, dest := d }] })

/-- An input queue popped a token of a slot: the credit goes to the one path that ends there. -/
def State.owe (s : State) (q row col dq slot : Nat) : State :=
  match s.sourceOf (q, row, col, dq) slot with
  | none => s
  | some src => s.oweTo src slot q row col dq

/-! ### Queues of units -/

/-- An input queue of a site's unit. -/
def Quad.inq (x : Quad) (row col dq : Nat) : List Tok :=
  if isCu row col then (x.cu row col).inq.getD dq [] else (x.mu row col).inq.getD dq []

/-- An output queue of a site's unit. -/
def Quad.outq (x : Quad) (row col k : Nat) : List Tok :=
  if isCu row col then (x.cu row col).outq.getD k [] else (x.mu row col).outq.getD k []

def Quad.setInq (x : Quad) (row col dq : Nat) (ts : List Tok) : Quad :=
  if isCu row col then x.setCu row col { x.cu row col with inq := (x.cu row col).inq.set dq ts }
  else x.setMu row col { x.mu row col with inq := (x.mu row col).inq.set dq ts }

def Quad.setOutq (x : Quad) (row col k : Nat) (ts : List Tok) : Quad :=
  if isCu row col then x.setCu row col { x.cu row col with outq := (x.cu row col).outq.set k ts }
  else x.setMu row col { x.mu row col with outq := (x.mu row col).outq.set k ts }

/-- Pop the head of an input queue; its credit goes back to the path's source. -/
def State.popIn (s : State) (q row col dq : Nat) : State :=
  let tag := match ((s.quad q).inq row col dq).head? with | some t => t.tag | none => 0
  (s.updQuad q (fun x => (x.setInq row col dq ((x.inq row col dq).drop 1)).act row col (90 + dq))).owe q row col dq tag

/-- Token n of an input queue, when it entered in an earlier array cycle (R65) and its TAG is the unit's current slot (R67). -/
def State.tokIn (s : State) (q row col dq n : Nat) : Option Tok :=
  let x := s.quad q
  let ts := x.inq row col dq
  match ts[n]? with
  | some t => if t.tag = x.slotAt row col ∧ n + x.fresh row col dq < ts.length then some t else none
  | none => none

/-- The head of an input queue, when the unit may pop it. -/
def State.headIn (s : State) (q row col dq : Nat) : Option Tok := s.tokIn q row col dq 0

/-! ### Delivering a token -/

/-- A token's 8-byte control word (R86). -/
def ctlWord (t : Tok) : Nat :=
  t.pred.toNat + t.tag % 4 * 2 ^ 32 + (if t.poison then 2 ^ 34 else 0) + (if t.last then 2 ^ 35 else 0) + 2 ^ 36

/-- The token that a line and a control word hold (R86). -/
def tokOfWord (data : List Byte) (w : Nat) (mark : Bool) : Tok :=
  { data := BitVec.ofNat 1024 (ofLe data), pred := BitVec.ofNat 32 w, tag := bits w 32 2, poison := w.testBit 34 || mark
    last := w.testBit 35 }

/-- The line and the control-word place of ring place p of a trap: groups of 17 lines (R80). -/
def trapLine (desc p : Nat) : Nat × Nat :=
  let base := bits desc 13 17 + 17 * (p / 16)
  (base + p % 16, 128 * (base + 16) + 8 * (p % 16))

/-- An inbound link is claimed by a started COLLECT, a dispenser or a routing block (R167). -/
def State.claimed (s : State) (q link : Nat) : Bool :=
  let x := s.quad q
  x.queues.any (fun k => k.ents.any (fun e => e.op == 3 && e.started && !e.done && e.glink == link)) ||
  x.disps.any (fun d => d.links.contains link) ||
  (match s.manOf x.rt.job with
   | some m => x.rt.active && (link == m.rp.scorelink || link == m.rp.donelink)
   | none => false)

/-- Answers that the home of a pass still awaits on ALINK (R167, R233). -/
def State.awaitsAnswer (s : State) (q link : Nat) : Bool :=
  let rt := (s.quad q).rt
  match s.manOf rt.job with
  | some m => rt.active && link == m.rp.alink &&
      decide (rt.ansOut < ((rt.works.filter (·.kind == 2)).map (·.rows.length)).foldl (· + ·) 0)
  | none => false

/-- A token reaches its destination: an input queue, a trap region, or the gateway's inbound side, where a token that
nothing claims is dropped as an orphan (R65, R81, R167, R169). -/
def State.deliver (s : State) (q row col dq : Nat) (tok : Tok) (src : Src) (arrived : Nat) : State :=
  if dq ≥ 64 then
    if s.awaitsAnswer q (dq - 64) then ((s.answerToken q tok).oweTo src tok.tag q row col dq).goOn
    else if s.claimed q (dq - 64) then
      s.updQuad q (fun x => { x with gwIn := put x.gwIn (dq - 64) (((look x.gwIn (dq - 64)).getD []) ++ [(tok, arrived, src)]) })
    else (s.bump 0x44 q 0 1).oweTo src tok.tag q row col dq
  else if dq = 6 then
    match s.spillOf tok.tag src q row col with
    | some (d, t) => s.updQuad d.q (fun x =>
        let e := x.trap d.row d.col t
        x.setTrap { e with landing := e.landing ++ [tok], coming := e.coming - 1 })
    | none => s
  else (s.updQuad q (fun x => (x.setInq row col dq (x.inq row col dq ++ [tok])).act row col dq)).progress q

/-- A token is dropped at port p of a switch for a fence, and counted there (R55). DESIGN CHOICE (log 47): a token that a closed port
would have sent into the fenced site is counted like one that came out of it. -/
def State.fencedDrop (s : State) (q row col p : Nat) : State := s.bump 0x13 q (4 * siteOrd row col + (p - 1)) 1

/-- Send a token out of a switch on every output that names its input code, in slot-counter cycle c (R65). Nothing passes a closed
port (R55) or enters a dark quadrant, into which a bridge carries no array link (R23). -/
def State.fanOut (s : State) (q row col code c : Nat) (tok : Tok) (src : Src) (at_ off : Nat) : State :=
  let e := (s.quad q).entAt tok.tag row col c
  let u := (s.quad q).logic row col
  let s := s.updQuad q (fun x => x.act row col 26)
  let s := if entSrc e 0 = code then s.deliver q u.1 u.2 (entDq e) tok src at_ else s
  [1, 2, 3, 4].foldl (fun s o =>
    if entSrc e o = code then
      match hopFrom q row col o with
      | .gwl l => s.updQuad q (fun x => { x with flights := x.flights ++
          [{ row := row, col := col, port := 0, link := l, due := at_ + 2, bridge := false, off := off, tok := tok, src := src }] })
      | .sw q' r' c' p br =>
        if s.closedPort q row col o then s.fencedDrop q row col o
        else if s.dark q' then s
        else s.updQuad q' (fun x => { x with flights := x.flights ++
          [{ row := r', col := c', port := p, link := 0, due := at_ + (if br then 8 else 2), bridge := br
             off := off + (if br then 6 else 0), tok := tok, src := src }] })
    else s) s

/-! ### Commands -/

/-- Array cycles since every site had switched, within which each path is enabled after a cut (R78). -/
def cutBound : Nat := 64

/-- Every switch that a source's routes in some slots cross and the site of each destination have switched: two cycles ago in a
curtain change (R76); after a cut in the cycle before, the destination queues holding no old token since then, or the bound of R78
having passed. -/
def State.slotsClear (s : State) (slot : Nat) (src : Src) (cs : List Nat) : Bool :=
  cs.all (fun c => (s.route slot src c).all (fun e =>
    let x := s.quad e.2.1
    let row := e.2.2.1
    let col := e.2.2.2
    x.slotAt row col == slot &&
    (match x.switchedAt row col with
     | some t => decide (t + 2 ≤ s.pw.cycle)
     | none => true) &&
    (match x.cutAt, e.1 with
     | some t, some d => decide (t + cutBound ≤ s.pw.cycle) || (decide (t + 1 ≤ s.pw.cycle) && (decide (d.dq ≥ 6) ||
         ((x.inq d.row d.col d.dq).all (fun k => k.tag == slot) && !x.did d.row d.col (110 + d.dq))))
     | some t, none => decide (t + 1 ≤ s.pw.cycle)
     | none, _ => true)))

/-- A path, given by its slots, may be enabled: its routes are clear, and of a protected path the trap's return route too, which
belongs to it (R66, R76). -/
def State.pathClear (s : State) (slot : Nat) (src : Src) (cs : List Nat) : Bool :=
  s.slotsClear slot src cs &&
  (match cs.findSome? (s.trapIn slot src) with
   | some (d, t) =>
     let back := Src.trap { q := d.q, row := d.row, col := d.col } t
     s.slotsClear slot back (s.ownSlots slot back)
   | none => true)

/-- Every possible source of a path in a quadrant's scene. -/
def Quad.allSrcs (x : Quad) (q slot : Nat) : List Src :=
  match x.scene slot with
  | none => []
  | some sc =>
    sc.sites.flatMap (fun g => (List.range 4).map (fun k => Src.out { q := q, row := g.row, col := g.col } k)) ++
    (List.range 38).map (fun l => Src.gw q l)

/-- Credits a source starts with for a destination: 64 (R66), or its share of the 64 claim credits of a gateway link that is
bound to the dispenser of work entries, the remainder going to the path of the lowest slot (R227). -/
def State.credits0 (s : State) (slot : Nat) (src : Src) (d : Dest) : Nat :=
  let x := s.quad d.q
  let claimLink := decide (d.dq ≥ 64) && x.rt.active &&
    (match s.manOf x.rt.job with
     | some m => ((x.disps.getD m.rp.dspn Disp.reset).links).contains (d.dq - 64)
     | none => false)
  if !claimLink then 64
  else
    let paths := ((x.allSrcs d.q slot).filterMap (fun p =>
      ((s.ownSlots slot p).find? (fun c => (s.dests slot p c).any (fun e => destKey e == destKey d))).map (fun c => (p, c))))
    let n := max 1 paths.length
    let lowest := paths.foldl (fun (b : Nat) e => min b e.2) 1000
    64 / n + (if paths.any (fun e => e.1 == src && e.2 == lowest) then 64 % n else 0)

/-- A path, given by its slots, is enabled: its source takes its starting credits for each destination queue; a return path holds
no credits of its own (R81). -/
def State.enablePath (s : State) (slot : Nat) (src : Src) (cs : List Nat) : State :=
  let ds := ((cs.flatMap (s.dests slot src)).filter (·.dq ≠ 6)).eraseDups
  let s := s.updQuad (srcQuad src) (fun x => { x with paths := if x.paths.contains src then x.paths else x.paths ++ [src] })
  match src with
  | .trap _ _ => s
  | .out _ _ => ds.foldl (fun s d => s.setCredit src d (s.credits0 slot src d)) s
  | .gw q l =>
    let s := s.updQuad q (fun x => { x with gwSlots := x.gwSlots ++ [(l, cs.headD 0)] })
    ds.foldl (fun s d => s.setCredit src d (s.credits0 slot src d)) s

/-- PATH_ENABLE (R76): a path of a source in its current slot may inject, with 64 credits for each destination. Each path of a
gateway link is enabled by itself, once it is clear. -/
def execPathEnable (src : Src) (s : State) : Ans :=
  let slot := s.srcSlot src
  let own := s.ownSlots slot src
  .next (if !s.quadRuns (srcQuad src) then s
    else match src with
    | .gw q l =>
      ((own.map (s.pathName slot src)).eraseDups).foldl (fun s p =>
        if (s.quad q).gwSlots.contains (l, p) || !s.pathClear slot src (s.pathSlots slot src p) then s
        else s.enablePath slot src (s.pathSlots slot src p)) s
    | _ =>
      if (s.quad (srcQuad src)).paths.contains src || own.isEmpty || !s.pathClear slot src own then s
      else s.enablePath slot src own)

/-- Take one credit for each destination. -/
def State.spend (s : State) (src : Src) (ds : List Dest) : State :=
  ds.foldl (fun s d => s.setCredit src d (s.credit src d - 1)) s

/-- Array cycle in which a token sent now reaches a destination. -/
def State.arrival (s : State) (d : Dest) : Nat := s.pw.cycle + 2 * d.hops + 6 * d.bridges

/-- Note the arrival of a token sent to a protected queue. -/
def State.noteSent (s : State) (d : Dest) (tn due : Nat) : State :=
  s.updQuad d.q (fun x => x.setTrap { x.trap d.row d.col tn with lastDue := due })

/-- A unit's output queue injects its head, which entered in an earlier array cycle, at most once in a cycle (R66). To a
protected queue it sends direct only while the trap is empty and in the order sent, and otherwise to the trap (R81). -/
def State.injectOut (s : State) (k : Site) (n : Nat) : State :=
  let src := Src.out k n
  let x := s.quad k.q
  let slot := x.slotAt k.row k.col
  let ts := x.outq k.row k.col n
  let at_ := x.phys k.row k.col
  match ts with
  | [] => s
  | t :: rest =>
    let ds := s.dests slot src x.slotCtr
    if t.tag ≠ slot ∨ ¬ x.paths.contains src ∨ ds.isEmpty ∨ x.did k.row k.col (30 + n) ∨ ts.length ≤ x.fresh k.row k.col (10 + n) then s
    else
      let go (s : State) : State :=
        (s.updQuad k.q (fun x => (x.setOutq k.row k.col n rest).act k.row k.col (30 + n))).fanOut k.q at_.1 at_.2 (5 + n) x.slotCtr t
          src s.pw.cycle 0
      match s.trapOf slot src with
      | none => if ds.all (fun d => decide (s.credit src d > 0)) then go (s.spend src ds) else s
      | some (d, tn) =>
        let e := (s.quad d.q).trap d.row d.col tn
        if ds.any (·.dq == 6) then
          if (e.load > 0 ∨ s.credit src d = 0) ∧ e.load < trapCap (s.trapDesc slot d.q d.row d.col tn) then
            let s := s.bump 0x22 d.q (6 * siteOrd d.row d.col + 3 * tn) 1
            go (s.updQuad d.q (fun x => x.setTrap { e with coming := e.coming + 1 }))
          else s
        else match ds with
          | [a] => if e.load = 0 ∧ s.credit src d > 0 ∧ e.lastDue < s.arrival a then go ((s.spend src ds).noteSent d tn (s.arrival a)) else s
          | _ => s

/-- A trap sends the oldest token it has read over its return path, in the order of sending (R80, R81). -/
def State.injectTrap (s : State) (k : Site) (t : Nat) : State :=
  let src := Src.trap k t
  let x := s.quad k.q
  let slot := s.srcSlot src
  let e := x.trap k.row k.col t
  match e.out, s.dests slot src x.slotCtr with
  | (due, tok) :: rest, d :: _ =>
    if ¬ x.paths.contains src ∨ tok.tag ≠ slot ∨ s.pw.cycle ≤ due ∨ s.arrival d ≤ e.lastDue ∨ x.did k.row k.col (40 + t) then s
    else
      let h := s.trapHome slot k t
      let s := s.updQuad k.q (fun x => (x.setTrap { e with out := rest, lastDue := s.arrival d }).act k.row k.col (40 + t))
      let at_ := x.phys h.1 h.2
      s.fanOut k.q at_.1 at_.2 9 x.slotCtr tok src s.pw.cycle 0
  | _, _ => s

/-- What sending a token on a link's path takes in the present cycle: the state after it, or none. A reply goes only in the slot its
claim came in (R175), other tokens on the path of the lowest slot (R66, R166); to a protected queue as R81 says. -/
def State.gwMay (s : State) (q l : Nat) (g : GwTok) : Option State :=
  let src := Src.gw q l
  let x := s.quad q
  let slot := x.gwSlot
  let per := match x.scene slot with | some sc => max 1 sc.period | none => 1
  let ds := s.dests slot src x.slotCtr
  let want := match g.path with | some p => some p | none => (s.ownSlots slot src).head?
  match want with
  | none => none
  | some p =>
    let name := s.pathName slot src p
    let inSlot := match g.path with | some p => decide (x.slotCtr % per = p % per) | none => true
    if ds.isEmpty || s.pathName slot src (x.slotCtr % per) != name || !x.gwSlots.contains (l, name) || decide (s.pw.cycle < g.notBefore) then none
    else match s.trapIn slot src (x.slotCtr % per) with
    | none => if inSlot && ds.all (fun d => decide (s.credit src d > 0)) then some (s.spend src ds) else none
    | some (d, tn) =>
      let e := (s.quad d.q).trap d.row d.col tn
      if ds.any (·.dq == 6) then
        if (e.load > 0 ∨ s.credit src d = 0) ∧ e.load < trapCap (s.trapDesc slot d.q d.row d.col tn) then
          some ((s.bump 0x22 d.q (6 * siteOrd d.row d.col + 3 * tn) 1).updQuad d.q (fun x => x.setTrap { e with coming := e.coming + 1 }))
        else none
      else match ds with
        | [a] => if inSlot ∧ e.load = 0 ∧ s.credit src d > 0 ∧ e.lastDue < s.arrival a then
            some ((s.spend src ds).noteSent d tn (s.arrival a)) else none
        | _ => none

/-- Credits of a path that are out, tokens held in its trap among them, by destination queue (R168). -/
def State.creditsOut (s : State) (q l : Nat) : List (Dest × Nat) :=
  let src := Src.gw q l
  let slot := (s.quad q).gwSlot
  match s.trapIn slot src (s.quad q).slotCtr with
  | some (d, t) => [(d, 64 - s.credit src d + ((s.quad d.q).trap d.row d.col t).load)]
  | none => (s.dests slot src (s.quad q).slotCtr).map (fun d => (d, 64 - s.credit src d))

/-- The gateway sends entry i of a link's queue into the grid, tagged with its current slot (R67). The credits out up to an operation's
last token are noted with its entry (R168). -/
def State.gwSend (s : State) (q l i : Nat) (g : GwTok) : State :=
  let slot := (s.quad q).gwSlot
  let (r, c, p) := linkSite q l
  let s := s.updQuad q (fun x => { x with gwOut := put x.gwOut l (((look x.gwOut l).getD []).eraseIdx i) })
  let s := match g.owner with
    | some (tq, n) =>
      if g.lastOf then
        let owed := s.creditsOut q l
        s.updQuad q (fun x => { x with queues := x.queues.modify tq (fun k => { k with ents := k.ents.map (fun (e : TeEnt) =>
          if e.n == n && e.started && !e.done then { e with owed := e.owed ++ [(slot, owed)] } else e) }) })
      else s
    | none => s
  s.updQuad q (fun x => { x.act r c (50 + l) with flights := x.flights ++
    [{ row := r, col := c, port := p, link := 0, due := s.pw.cycle + 2, bridge := false, off := 0, tok := { g.tok with tag := slot }
       src := .gw q l }] })

/-- A queued reply of an earlier slot is dropped, and counted with the stale claims of the link's dispenser (R67, R175; log 47). -/
def State.dropStaleReply (s : State) (q l : Nat) : State :=
  let x := s.quad q
  let out := (look x.gwOut l).getD []
  let old (g : GwTok) : Bool := g.path.isSome && g.tok.tag != x.gwSlot
  if out.any old then
    let s := s.updQuad q (fun x => { x with gwOut := put x.gwOut l (out.filter (fun g => !old g)) })
    match x.disps.findIdx? (fun d => d.links.contains l) with
    | some i => s.bump 0x43 q (6 * i + 4) (out.filter old).length
    | none => s
  else s

/-- The gateway injects a token of a link: the first reply that may go in this cycle, else the first other token (R66, R166, R175). -/
def State.injectGw (s : State) (q l : Nat) : State :=
  let s := s.dropStaleReply q l
  let (r, c, _) := linkSite q l
  if (s.quad q).did r c (50 + l) then s
  else
    let out := List.zipIdx ((look (s.quad q).gwOut l).getD [])
    match (out.filter (·.1.path.isSome)).findSome? (fun (g, i) => (s.gwMay q l g).map (fun t => (t, g, i))) with
    | some (t, g, i) => t.gwSend q l i g
    | none =>
      match out.find? (·.1.path.isNone) with
      | some (g, i) => match s.gwMay q l g with | some t => t.gwSend q l i g | none => s
      | none => s

/-- TOKEN_INJECT (R66). -/
def execTokenInject (src : Src) (s : State) : Ans :=
  .next (if s.quadRuns (srcQuad src) then
      match src with
      | .out k n => if s.siteRuns k.q k.row k.col then s.injectOut k n else s
      | .trap k t => if s.siteRuns k.q k.row k.col then s.injectTrap k t else s
      | .gw q l => s.injectGw q l
    else s)

/-- TOKEN_HOP (R65, R67): the n-th token on the quadrant's links arrives. A token that comes from or into a fenced site is dropped
(R55). A switch drops a token of another slot, which is counted as a tag drop and, as long as the last cut runs its course, as a
cut discard of the switch, otherwise as a curtain discard (R75, R78). -/
def execTokenHop (q n : Nat) (s : State) : Ans :=
  .next (match (s.quad q).flights[n]? with
    | none => s
    | some f =>
      if s.quadRuns q && decide (f.due ≤ s.pw.cycle) then
        let s := s.updQuad q (fun x => { x with flights := x.flights.eraseIdx n })
        if f.port = 0 then s.deliver q f.row f.col (64 + f.link) f.tok f.src f.due
        else if s.closedPort q f.row f.col f.port || (s.quad q).fencedSite f.row f.col then s.fencedDrop q f.row f.col f.port
        else if f.tok.tag ≠ (s.quad q).slotAt f.row f.col then
          ((s.bump 0x24 q (3 * siteOrd f.row f.col) 1).bump 0x24 q
            (3 * siteOrd f.row f.col + if (s.quad q).cutAt.isSome then 2 else 1) 1).addDiscards q 1
        else
          let late := s.pw.cycle - f.due + f.off
          s.fanOut q f.row f.col f.port (((s.quad q).slotCtr + slotWrap - late % slotWrap) % slotWrap) f.tok f.src f.due f.off
      else s)

/-- An entry after a credit of a slot's path came back for a destination: the operations whose last token's credit is home are
complete, and give back their tracker slots (R168, R169). -/
def TeEnt.repaid (e : TeEnt) (slot : Nat) (d : Dest) : TeEnt :=
  let back := e.owed.map (fun o => if o.1 = slot then (o.1, o.2.map (fun c => if destKey c.1 == destKey d then (c.1, c.2 - 1) else c)) else o)
  let home (o : Nat × List (Dest × Nat)) : Bool := o.2.all (fun c => c.2 == 0)
  let n := (back.filter home).length
  { e with owed := back.filter (fun o => !home o), gone := e.gone + n, held := e.held - n }

/-- CREDIT_RETURN (R66): a credit comes back to its source, which keeps it if the path's slot is still current there; a MOVE into an
MU or a STREAM completes with the credit of its last token, be its scene left or not (R77, R168). -/
def execCreditReturn (q n : Nat) (s : State) : Ans :=
  .next (match (s.quad q).credRet[n]? with
    | none => s
    | some r =>
      if s.quadRuns q && decide (r.due ≤ s.pw.cycle) then
        let s := s.updQuad q (fun x => { x with credRet := x.credRet.eraseIdx n })
        let s := if r.slot = s.srcSlot r.src then s.setCredit r.src r.dest (min 64 (s.credit r.src r.dest + 1)) else s
        match r.src with
        | .gw _ l =>
          let mine (e : TeEnt) : Bool := e.started && !e.done && e.glink == l && !e.owed.isEmpty
          let was := (s.quad q).queues
          let s := s.updQuad q (fun x => { x with queues := x.queues.map (fun k =>
            { k with ents := k.ents.map (fun e => if mine e then e.repaid r.slot r.dest else e) }) })
          (List.zipIdx was).foldl (fun s (k, tq) =>
            (k.ents.filter (fun e => mine e && decide (e.opsAll ≤ (e.repaid r.slot r.dest).gone))).foldl (fun s e => s.teDone q tq e.n) s) s
        | _ => s
      else s)

end Sys2Proof.Machine
end

