-- ==== Sys2Proof/Machine/Vector.lean ====
section
/-! DEFINITION. The vector pipeline (R34 to R39) and the command VECTOR_FIRING. -/

namespace Sys2Proof.Machine

/-! ### Fields -/

/-- The firing word's fields (R34). -/
def SiteCfg.in0 (g : SiteCfg) : Nat := bits g.firing.toNat 0 3
def SiteCfg.in1 (g : SiteCfg) : Nat := bits g.firing.toNat 3 3
def SiteCfg.outmask (g : SiteCfg) : Nat := bits g.firing.toNat 6 4
def SiteCfg.maten (g : SiteCfg) : Bool := g.firing.getLsbD 10
def SiteCfg.aq (g : SiteCfg) : Nat := bits g.firing.toNat 11 3
def SiteCfg.bq (g : SiteCfg) : Nat := bits g.firing.toNat 14 3
def SiteCfg.vclr (g : SiteCfg) : Nat := bits g.firing.toNat 17 4
def SiteCfg.drain (g : SiteCfg) : Bool := g.matrix.getLsbD 42

/-- Constant K[i] (R34). -/
def SiteCfg.konst (g : SiteCfg) (i : Nat) : BitVec 32 := g.consts.extractLsb' (32 * i) 32

/-- An unused CU: its whole section is zero (R34). -/
def SiteCfg.unused (g : SiteCfg) : Bool :=
  g.firing == 0 && g.matrix == 0 && g.consts == 0 && g.stages.all (· == 0)

/-- A stage word's fields (R37). -/
structure Stage where
  op : Nat
  srca : Nat
  srcb : Nat
  srcc : Nat
  dst : Nat
  csel : Nat
  pmode : Nat
  type : Nat
  imm : Nat
  deriving DecidableEq, Repr, Inhabited

def stageOf (w : BitVec 32) : Stage :=
  let f (lo n : Nat) : Nat := bits w.toNat lo n
  { op := f 0 6, srca := f 6 4, srcb := f 10 4, srcc := f 14 4, dst := f 18 3, csel := f 21 3, pmode := f 24 2
    type := f 26 2, imm := f 28 4 }

/-- How many sources an operation reads (R38); 0 for a reserved operation. -/
def opSources (op : Nat) : Nat :=
  if op = 0x04 ∨ op = 0x08 then 3
  else if [0x00, 0x09, 0x0A, 0x0B, 0x0C, 0x0D, 0x22, 0x23, 0x24].contains op then 1
  else if (0x01 ≤ op ∧ op ≤ 0x07) ∨ (0x10 ≤ op ∧ op ≤ 0x1A) ∨ op = 0x20 ∨ op = 0x21 then 2
  else 0

/-- The TYPE values an operation accepts (R38). -/
def typeOk (op type : Nat) : Bool :=
  if [0x00, 0x08, 0x0D, 0x16, 0x17, 0x18, 0x20, 0x21].contains op then decide (type ≤ 2)
  else if (0x10 ≤ op ∧ op ≤ 0x15) ∨ op = 0x19 ∨ op = 0x1A then type == 1 || type == 2
  else type == 0

/-- The sources an operation reads, in order. -/
def Stage.sources (w : Stage) : List Nat := [w.srca, w.srcb, w.srcc].take (opSources w.op)

/-- A stage word keeps its encodings (R37, R38, R50); `in1`: the firing word names a secondary input, without which no source
field may name it, whether or not the operation reads that source. -/
def stageOk (w : Stage) (in1 : Bool) : Bool :=
  decide (opSources w.op > 0) && decide (w.srca ≤ 0xA) && decide (w.srcb ≤ 0xA) && decide (w.srcc ≤ 0xA) &&
  decide (w.dst ≤ 4) && decide (w.type ≤ 2) && typeOk w.op w.type &&
  (w.op != 0x07 || decide (w.imm ≤ 6)) && (w.op != 0x0D || decide (w.imm ≤ 6)) && (w.op != 0x15 || decide (w.imm ≤ 5)) &&
  (in1 || !([w.srca, w.srcb, w.srcc] : List Nat).contains 6)

/-! ### One stage -/

/-- What moves down the pipeline: PREV, the predicate, and the poison gathered so far. -/
structure VPipe where
  prev : List (BitVec 32)
  pred : BitVec 32
  poison : Bool
  deriving DecidableEq, Repr, Inhabited

/-- Inputs of a firing that every stage can name. -/
structure VIn where
  in0 : List (BitVec 32)
  in1 : List (BitVec 32)
  konst : Nat → BitVec 32

/-- A source's 32 lanes (R37). -/
def srcLanes (i : VIn) (regs : List VReg) (prev : List (BitVec 32)) (w : Stage) (code : Nat) : List (BitVec 32) :=
  match code with
  | 0 => prev
  | 5 => i.in0
  | 6 => i.in1
  | 7 => List.replicate 32 (i.konst w.csel)
  | 8 => List.replicate 32 0
  | 9 => List.replicate 32 (if w.type = 0 then 0x3F800000#32 else 1#32)
  | 10 => (List.range 32).map (fun n => if w.type = 0 then toF32 (.fin false n 0) else BitVec.ofNat 32 n)
  | c => lanesOf ((regs.getD (c - 1) { data := 0, poison := false }).data)

/-- Non-zero as a value of a type: FP32, an integer, or a narrow floating format in the low bits (R37, R38). -/
def nonZero (w : Stage) (v : BitVec 32) : Bool :=
  if w.op = 0x0D then
    (match w.imm with
     | 0 => v &&& 0x7FFFFFFF#32 != 0
     | 1 => v != 0
     | 2 => v != 0
     | 3 => v &&& 0x7FFF#32 != 0
     | 4 => v &&& 0x7FFF#32 != 0
     | _ => v &&& 0x7F#32 != 0)
  else if w.type = 0 then v &&& 0x7FFFFFFF#32 != 0 else v != 0

/-- An integer operand by TYPE. -/
def intVal (type : Nat) (v : BitVec 32) : Int := if type = 1 then v.toInt else (v.toNat : Int)

/-- The result of a lane-wise operation (R38). -/
def laneOp (w : Stage) (a b c : BitVec 32) : BitVec 32 :=
  match w.op with
  | 0x00 => a
  | 0x01 => fadd a b
  | 0x02 => fsub a b
  | 0x03 => fmul a b
  | 0x04 => ffma a b c
  | 0x05 => fmax a b
  | 0x06 => fmin a b
  | 0x07 => if fcmp w.imm a b then 0x3F800000#32 else 0
  | 0x08 => if (if w.type = 0 then c &&& 0x7FFFFFFF#32 != 0 else c != 0) then a else b
  | 0x09 => exp2 a
  | 0x0A => log2f a
  | 0x0B => rcp a
  | 0x0C => rsq a
  | 0x0D => cvt w.type w.imm a
  | 0x10 => a + b
  | 0x11 => a - b
  | 0x12 => a * b
  | 0x13 => if intVal w.type a < intVal w.type b then b else a
  | 0x14 => if intVal w.type b < intVal w.type a then b else a
  | 0x15 => if condHolds w.imm false (intVal w.type a - intVal w.type b) then 1 else 0
  | 0x16 => a &&& b
  | 0x17 => a ||| b
  | 0x18 => a ^^^ b
  | 0x19 => a <<< (b.toNat % 32)
  | _ => if w.type = 1 then a.sshiftRight (b.toNat % 32) else a >>> (b.toNat % 32)

/-- Sums of neighbouring pairs: one level of RSUM's tree. -/
def pairSums : List (BitVec 32) → List (BitVec 32)
  | a :: b :: l => fadd a b :: pairSums l
  | l => l

/-- A reduction over the lanes of a mask (R38, R39). -/
def reduce (op : Nat) (a : List (BitVec 32)) (mask : BitVec 32) : BitVec 32 :=
  let live := (List.range 32).filter (fun n => mask.getLsbD n)
  if op = 0x22 then
    let l := (List.range 32).map (fun n => if mask.getLsbD n then a.getD n 0 else 0)
    (pairSums (pairSums (pairSums (pairSums (pairSums l))))).headD 0
  else
    match live.map (fun n => a.getD n 0) with
    | [] => if op = 0x23 then 0xFF800000#32 else 0x7F800000#32
    | v :: vs =>
      let r := vs.foldl (fun r x => if op = 0x23 then fmax r x else fmin r x) v
      if (ofF32 r).isNan then qnan else r

def isReduction (op : Nat) : Bool := op == 0x22 || op == 0x23 || op == 0x24

/-- A 32-bit mask from a test of each lane. -/
def maskOf (p : Nat → Bool) : BitVec 32 :=
  BitVec.ofNat 32 ((List.range 32).foldl (fun m n => if p n then m + 2 ^ n else m) 0)

/-- A stage register named as a source is poisoned, whether or not the operation reads that source (R36). -/
def Stage.badReg (w : Stage) (regs : List VReg) : Bool :=
  [w.srca, w.srcb, w.srcc].any (fun c => decide (1 ≤ c ∧ c ≤ 4) && (regs.getD (c - 1) { data := 0, poison := false }).poison)

/-- Run one stage (R36 to R39). -/
def runStage (i : VIn) (w : Stage) (regs : List VReg) (p : VPipe) : List VReg × VPipe :=
  let live : BitVec 32 := if w.pmode = 1 ∨ w.pmode = 2 then BitVec.allOnes 32 else p.pred
  let red := isReduction w.op
  let poison := p.poison || (w.badReg regs && (red || live != 0))
  let a := srcLanes i regs p.prev w w.srca
  let b := srcLanes i regs p.prev w w.srcb
  let c := srcLanes i regs p.prev w w.srcc
  let k := (b.getD 0 0).toNat % 32
  let wrote : BitVec 32 := if red then BitVec.allOnes 32 else live
  let out : List (BitVec 32) :=
    if red then List.replicate 32 (reduce w.op a live)
    else (List.range 32).map (fun n =>
      if live.getLsbD n then
        (if w.op = 0x20 then a.getD ((n + k) % 32) 0
         else if w.op = 0x21 then a.getD k 0
         else laneOp w (a.getD n 0) (b.getD n 0) (c.getD n 0))
      else p.prev.getD n 0)
  let regs := if w.dst = 0 then regs
    else regs.modify (w.dst - 1) (fun r =>
      { data := ofLanes ((List.range 32).map (fun n => if wrote.getLsbD n then out.getD n 0 else laneOf r.data n))
        poison := if wrote = BitVec.allOnes 32 then poison else r.poison || (poison && wrote != 0) })
  let cmp := maskOf (fun n => nonZero w (out.getD n 0))
  let pred := if w.pmode = 2 then cmp else if w.pmode = 3 then p.pred &&& cmp else p.pred
  (regs, { prev := out, pred := pred, poison := poison })

/-- Run the eight stages. -/
def runStages (i : VIn) : List Stage → List (List VReg) → VPipe → List (List VReg) × VPipe
  | [], _, p => ([], p)
  | _ :: _, [], p => ([], p)
  | w :: ws, r :: rs, p =>
    let (r', p') := runStage i w r p
    let (rs', p'') := runStages i ws rs p'
    (r' :: rs', p'')

/-- A firing's result token and the stage registers it leaves (R34 to R37). -/
def fire (g : SiteCfg) (regs : List (List VReg)) (t0 : Tok) (t1 : Option Tok) (tag : Nat) : List (List VReg) × Tok :=
  let i : VIn := { in0 := lanesOf t0.data, in1 := match t1 with | some t => lanesOf t.data | none => List.replicate 32 0
                   konst := g.konst }
  let p : VPipe := { prev := i.in0, pred := match t1 with | some t => t0.pred &&& t.pred | none => t0.pred
                     poison := t0.poison || (match t1 with | some t => t.poison | none => false) }
  let (regs, p) := runStages i (g.stages.map stageOf) regs p
  let regs := if t0.last then
      regs.map (fun r => (List.zipIdx r).map (fun (v, n) => if g.vclr.testBit n then ({ data := 0, poison := false } : VReg) else v))
    else regs
  (regs, { data := ofLanes p.prev, pred := p.pred, tag := tag, poison := p.poison, last := t0.last })

/-! ### The command -/

/-- A drained row token waits for the output queues in this cycle, the cycle's row not having left yet (R35, R43). -/
def Cu.rowWaits (c : Cu) (g : SiteCfg) (cycle : Nat) (left : Bool) : Bool :=
  g.maten && g.drain && !left &&
  (match c.fullAt with | t :: _ => decide (t + 40 + c.drainRow ≤ cycle) | [] => false)

/-- VECTOR_FIRING (R35): a CU whose inputs are at hand and whose output queues have free entries fires, at most once in
an array cycle. IN0 = 6 takes the drained row token that waits; the last of a tile frees its accumulator bank. -/
def execVectorFiring (k : Site) (s : State) : Ans :=
  .next (
    let x := s.quad k.q
    let c := x.cu k.row k.col
    match x.cfg k.row k.col with
    | none => s
    | some g =>
      let outs := maskList g.outmask 4
      let need := if c.rowWaits g s.pw.cycle (x.did k.row k.col 25) then 2 else 1
      let room := outs.all (fun o => decide ((c.outq.getD o []).length + c.resv.getD o 0 + need ≤ 64))
      let in0 : Option Tok := if g.in0 = 6 then c.drainq.head? else if g.in0 = 7 then none else s.headIn k.q k.row k.col g.in0
      let in1 : Option (Option Tok) :=
        if g.in1 = 7 then some none
        else if g.in1 = g.in0 then (s.tokIn k.q k.row k.col g.in1 1).map some
        else (s.headIn k.q k.row k.col g.in1).map some
      if s.siteRuns k.q k.row k.col && isCu k.row k.col && !g.unused && room && !c.vf.any (fun v => v.due == s.pw.cycle + 28) then
        match in0, in1 with
        | some t0, some t1 =>
          let (regs, tok) := fire g c.vregs t0 t1 (x.slotAt k.row k.col)
          let c := { c with vregs := regs, vf := c.vf ++ [{ due := s.pw.cycle + 28, mask := g.outmask, tok := tok }]
                            resv := (List.range 4).map (fun o => c.resv.getD o 0 + if g.outmask.testBit o then 1 else 0) }
          let c := if g.in0 = 6 then
              (if t0.last then { c with drainq := c.drainq.drop 1, full := c.full.drop 1, fullAt := c.fullAt.drop 1, drainRow := 0 }
               else { c with drainq := c.drainq.drop 1 })
            else c
          let s := s.updQuad k.q (fun x => x.setCu k.row k.col c)
          let s := if g.in0 ≤ 5 then s.popIn k.q k.row k.col g.in0 else s
          let s := match t1 with | some _ => s.popIn k.q k.row k.col g.in1 | none => s
          let pred := match t1 with | some t => t0.pred &&& t.pred | none => t0.pred
          ((s.cuCount k.q k.row k.col 0 1).worked k.q (popcount pred) 0).progress k.q
        | _, _ => s
      else s)

end Sys2Proof.Machine
end

