-- ==== Sys2Proof/Machine/Matrix.lean ====
section
/-! DEFINITION. The matrix datapath (R40 to R45, R92 to R112) and the commands OPERAND_FILL, SIDE_TOKEN, MATRIX_STEP and
TILE_DRAIN. -/

namespace Sys2Proof.Machine

/-! ### The matrix word (R41, R42, R92, R93) -/

structure MWord where
  afmt : Nat
  bfmt : Nat
  blk : Nat
  expand : Nat
  wbits : Nat
  sparse : Bool
  zskip : Bool
  sat : Bool
  ksteps : Nat
  kchunks : Nat
  holdB : Bool
  reuse : Nat
  drain : Bool
  deriving DecidableEq, Repr, Inhabited

def mwordOf (w : BitVec 64) : MWord :=
  let f (lo n : Nat) : Nat := bits w.toNat lo n
  { afmt := f 0 4, bfmt := f 4 4, blk := f 8 2, expand := f 10 2, wbits := f 12 2, sparse := w.getLsbD 14
    zskip := w.getLsbD 15, sat := w.getLsbD 16, ksteps := f 17 10, kchunks := if f 27 6 = 0 then 64 else f 27 6
    holdB := w.getLsbD 33, reuse := f 34 8, drain := w.getLsbD 42 }

/-- Elements of K that a step covers (R93). -/
def kPerStep (a b : Nat) : Nat :=
  if fmtBits a = 4 ∧ fmtBits b = 4 then 8 else if fmtBits a = 16 ∨ fmtBits b = 16 then 2 else 4

def MWord.kps (m : MWord) : Nat := kPerStep m.afmt m.bfmt

/-- Elements of K, uncompressed, that a step covers on the A side. -/
def MWord.kA (m : MWord) : Nat := m.kps * (if m.sparse then 2 else 1)

/-- The K length of a chunk (R92). -/
def MWord.klen (m : MWord) : Nat := m.ksteps * m.kA

/-- Length of a scale block; 0 without block scales. -/
def MWord.blen (m : MWord) : Nat := if m.blk = 1 then 32 else if m.blk = 2 then 16 else 0

/-- The operand pair, BLK and EXPAND are permitted (R92). -/
def MWord.pairOk (m : MWord) : Bool :=
  let mx (c : Nat) : Bool := decide (5 ≤ c) && decide (c ≤ 10)
  if m.expand = 0 then
    (decide (1 ≤ m.afmt ∧ m.afmt ≤ 2) && decide (1 ≤ m.bfmt ∧ m.bfmt ≤ 2) && m.blk == 0) ||
    (decide (3 ≤ m.afmt ∧ m.afmt ≤ 4) && decide (3 ≤ m.bfmt ∧ m.bfmt ≤ 4) && m.blk == 0) ||
    (mx m.afmt && mx m.bfmt && (m.blk == 1 || m.blk == 2))
  else [1, 2, 3, 5, 6, 10].contains m.afmt && m.bfmt == m.afmt && m.blk == (if m.afmt ≤ 3 then 0 else 1)

/-- A matrix word keeps its limits (R41, R92). -/
def MWord.ok (m : MWord) : Bool :=
  m.pairOk && decide (m.expand ≤ 2) && (m.expand == 0 || m.wbits != 0) && (!m.sparse || (m.expand == 0 && !m.zskip)) &&
  decide (1 ≤ m.ksteps) && decide (m.ksteps ≤ (if m.sparse then 256 else 512)) && decide (1 ≤ m.reuse) &&
  (m.kchunks == 1 || m.reuse == 1) && (m.blk == 0 || m.klen % m.blen == 0) && (m.expand == 0 || m.klen % 32 == 0)

/-- The accumulator is INT32 (R92). -/
def MWord.isInt (m : MWord) : Bool := (m.expand == 0 && (m.afmt == 3 || m.afmt == 4)) || (m.expand == 1 && m.afmt == 3)

/-! ### Operand streams (R94 to R96, R105, R109) -/

/-- What a token of a stream is, by its position. -/
inductive StrKind where
  | occ | meta_ | scale | elem
  deriving DecidableEq, Repr, Inhabited

/-- Codes of a code token and code tokens of a weight block (R105). -/
def codesPer (wbits : Nat) : Nat := if wbits = 1 then 16 else if wbits = 2 then 10 else 8
def codeTokens (wbits : Nat) : Nat := if wbits = 1 then 2 else 4

/-- Steps that a metadata token covers (R109). -/
def MWord.stepsPerMeta (m : MWord) : Nat := if m.kps = 8 then 2 else if m.kps = 4 then 4 else 8

/-- The A stream of a chunk (R94). -/
def MWord.aStream (m : MWord) : List StrKind :=
  if m.blen = 0 then List.replicate (ceilDiv m.klen (fmtPerLane m.afmt)) .elem
  else
    let n := m.klen / m.blen
    (List.range (ceilDiv n 4)).flatMap (fun g =>
      StrKind.scale :: List.replicate (min 4 (n - 4 * g) * m.blen / fmtPerLane m.afmt) StrKind.elem)

/-- Weight blocks of a chunk (R45). -/
def MWord.nwb (m : MWord) : Nat := ceilDiv m.klen 32

/-- A weight block is occupied under the occupancy token, if there is one (R45). -/
def MWord.occupied (m : MWord) (occ : Option Tok) (w : Nat) : Bool :=
  !m.zskip || (match occ with | some t => t.data.getLsbD w | none => false)

/-- Element, code and parameter tokens of weight block w. -/
def MWord.wbToks (m : MWord) (w : Nat) : Nat :=
  if m.expand ≠ 0 then 1 + codeTokens m.wbits
  else ceilDiv (min 32 (m.klen - 32 * w) / (if m.sparse then 2 else 1)) (fmtPerLane m.bfmt)

/-- Weight blocks in a scale group of the B side. -/
def MWord.wbPerGroup (m : MWord) : Nat := if m.blk = 2 then 2 else 4

/-- The B stream carries scale tokens (R94). -/
def MWord.bScaled (m : MWord) : Bool := m.blk != 0 && m.expand != 2

/-- The B stream of a chunk, once its occupancy token is known (R94). -/
def MWord.bStream (m : MWord) (occ : Option Tok) : List StrKind :=
  if m.zskip && occ.isNone then [.occ]
  else
    (if m.zskip then [.occ] else []) ++
    (if m.sparse then List.replicate (ceilDiv m.ksteps m.stepsPerMeta) .meta_ else []) ++
    (List.range (ceilDiv m.nwb m.wbPerGroup)).flatMap (fun g =>
      let ws := ((List.range m.wbPerGroup).map (fun i => m.wbPerGroup * g + i)).filter (fun w => decide (w < m.nwb) && m.occupied occ w)
      (if m.bScaled && !ws.isEmpty then [.scale] else []) ++ ws.flatMap (fun w => List.replicate (m.wbToks w) StrKind.elem))

/-- Tokens a slot has received. -/
def OpSlot.got (o : OpSlot) : Nat := o.toks.length + o.scales.length + o.meta_.length + (if o.occ.isSome then 1 else 0)

/-- The stream of a side for a slot. -/
def MWord.stream (m : MWord) (sideB : Bool) (o : OpSlot) : List StrKind := if sideB then m.bStream o.occ else m.aStream

/-- The slot has its whole chunk. -/
def MWord.fullSlot (m : MWord) (sideB : Bool) (o : OpSlot) : Bool :=
  (o.got == (m.stream sideB o).length) && !(sideB && m.zskip && o.occ.isNone)

/-- What the slot takes next. -/
def MWord.next (m : MWord) (sideB : Bool) (o : OpSlot) : Option StrKind :=
  if m.fullSlot sideB o then none else (m.stream sideB o)[o.got]?

/-- Put a token into a slot. -/
def OpSlot.take (o : OpSlot) (k : StrKind) (t : Tok) : OpSlot :=
  match k with
  | .occ => { o with occ := some t }
  | .meta_ => { o with meta_ := o.meta_ ++ [t] }
  | .scale => { o with scales := o.scales ++ [t] }
  | .elem => { o with toks := o.toks ++ [t] }

/-- What a side takes next: into its current slot, or, that being full, its next one (R40). -/
def Cu.sideNext (c : Cu) (m : MWord) (sideB : Bool) : Option StrKind :=
  let (cur, nxt) := if sideB then (c.bCur, c.bNext) else (c.aCur, c.aNext)
  if m.fullSlot sideB cur then m.next sideB nxt else m.next sideB cur

def Cu.sideTake (c : Cu) (m : MWord) (sideB : Bool) (k : StrKind) (t : Tok) : Cu :=
  if sideB then
    (if m.fullSlot true c.bCur then { c with bNext := c.bNext.take k t } else { c with bCur := c.bCur.take k t })
  else (if m.fullSlot false c.aCur then { c with aNext := c.aNext.take k t } else { c with aCur := c.aCur.take k t })

/-- First token of weight block w among the B slot's element tokens. -/
def MWord.wbBase (m : MWord) (occ : Option Tok) (w : Nat) : Nat :=
  ((List.range w).filter (m.occupied occ)).foldl (fun n v => n + m.wbToks v) 0

/-- The first step from t on whose weight block is occupied, and the empty blocks passed over (R45, R111). -/
def MWord.skipTo (m : MWord) (occ : Option Tok) : Nat → Nat → Nat → Nat × Nat
  | 0, t, n => (t, n)
  | fuel + 1, t, n =>
    if t ≥ m.ksteps ∨ m.occupied occ (t * m.kA / 32) then (t, n)
    else m.skipTo occ fuel (min m.ksteps ((t * m.kA / 32 + 1) * 32 / m.kA)) (n + 1)

/-- The B tokens that step t needs are in the slot, with their scales and metadata. -/
def MWord.bHas (m : MWord) (b : OpSlot) (t : Nat) : Bool :=
  let k := (t + 1) * m.kA - 1
  let last := if m.sparse then (2 * (k / 4) + 1) / fmtPerLane m.bfmt
    else if m.expand ≠ 0 then m.wbBase b.occ (k / 32) + 1 + k % 32 / codesPer m.wbits
    else m.wbBase b.occ (k / 32) + k % 32 / fmtPerLane m.bfmt
  decide (last < b.toks.length) && (!m.sparse || decide (t / m.stepsPerMeta < b.meta_.length))

def MWord.aHas (m : MWord) (a : OpSlot) (t : Nat) : Bool := decide (((t + 1) * m.kA - 1) / fmtPerLane m.afmt < a.toks.length)

/-- The next step's operands are in the buffers. -/
def MWord.ready (m : MWord) (c : Cu) : Bool :=
  let (t, _) := m.skipTo c.bCur.occ 129 c.stepIx 0
  !(m.zskip && c.bCur.occ.isNone) && decide (t < m.ksteps) && m.aHas c.aCur t && m.bHas c.bCur t

/-- Keep the cycle since which the next step's operands are in the buffers. -/
def Cu.noteReady (c : Cu) (m : MWord) (cycle : Nat) : Cu :=
  { c with readyAt := if m.ready c then some (c.readyAt.getD cycle) else none }

/-- Array cycles in which the scales of a block are delivered: 32 B in each (R97). -/
def MWord.scaleCycles (m : MWord) : Nat := if m.blk = 0 then 0 else if m.expand = 2 then 1 else 2

/-- Steps of a scale block. -/
def MWord.blockSteps (m : MWord) : Nat := m.blen / m.kA

/-- Step t is the first of a scale block. -/
def MWord.startsBlock (m : MWord) (t : Nat) : Bool := m.blk != 0 && t * m.kA % m.blen == 0

/-- The scales of a block whose first step is t are at the cells in this cycle (R97): delivered while the block before it ran, or,
with no block in progress, after its scales and first operands were in the buffers. -/
def Cu.scalesAt (c : Cu) (m : MWord) (t cycle : Nat) : Bool :=
  !m.startsBlock t ||
  (match c.readyAt, c.stepAt with
   | some r, some p => if r ≤ p then decide (c.blockAt + max m.blockSteps m.scaleCycles ≤ cycle) else decide (r + m.scaleCycles ≤ cycle)
   | some r, none => decide (r + m.scaleCycles ≤ cycle)
   | none, _ => false)

/-- The matrix datapath of a site is in use in its current scene: its configuration and matrix word. -/
def State.matrixAt (s : State) (k : Site) : Option (SiteCfg × MWord) :=
  match (s.quad k.q).cfg k.row k.col with
  | some g => if s.siteRuns k.q k.row k.col && isCu k.row k.col && g.maten then some (g, mwordOf g.matrix) else none
  | none => none

/-- A side can take an element token in this cycle. -/
def State.sideReady (s : State) (k : Site) (g : SiteCfg) (m : MWord) (sideB : Bool) : Bool :=
  ((s.quad k.q).cu k.row k.col).sideNext m sideB == some .elem && (s.headIn k.q k.row k.col (if sideB then g.bq else g.aq)).isSome

/-- Take one token of the given kind into a side. -/
def State.sideFill (s : State) (k : Site) (g : SiteCfg) (m : MWord) (sideB : Bool) : State :=
  let dq := if sideB then g.bq else g.aq
  match ((s.quad k.q).cu k.row k.col).sideNext m sideB, s.headIn k.q k.row k.col dq with
  | some kind, some t =>
    let s := s.updQuad k.q (fun x => x.setCu k.row k.col (((x.cu k.row k.col).sideTake m sideB kind t).noteReady m s.pw.cycle))
    s.popIn k.q k.row k.col dq
  | _, _ => s

/-- Take up to n element tokens into a side. -/
def State.elemFill (k : Site) (g : SiteCfg) (m : MWord) (sideB : Bool) : Nat → State → State
  | 0, s => s
  | n + 1, s => if s.sideReady k g m sideB then State.elemFill k g m sideB n (s.sideFill k g m sideB) else s

/-- OPERAND_FILL (R40): the feed gives one element token to each side when both can take one in this cycle, and otherwise up to
two to the side that can. -/
def execOperandFill (k : Site) (s : State) : Ans :=
  .next (match s.matrixAt k with
    | none => s
    | some (g, m) =>
      let fed (s : State) : State := s.updQuad k.q (fun x => x.act k.row k.col 22)
      if (s.quad k.q).did k.row k.col 22 then s
      else match s.sideReady k g m false, s.sideReady k g m true with
        | true, true => fed ((s.sideFill k g m false).sideFill k g m true)
        | true, false => fed (State.elemFill k g m false 2 s)
        | false, true => fed (State.elemFill k g m true 2 s)
        | false, false => s)

/-- SIDE_TOKEN (R95): a scale, metadata or occupancy token leaves the head of its queue over the side path, one in a cycle for each
side. -/
def execSideToken (k : Site) (sideB : Bool) (s : State) : Ans :=
  .next (match s.matrixAt k with
    | none => s
    | some (g, m) =>
      match ((s.quad k.q).cu k.row k.col).sideNext m sideB with
      | some .elem => s
      | some _ =>
        let code := if sideB then 24 else 23
        if (s.quad k.q).did k.row k.col code || (s.headIn k.q k.row k.col (if sideB then g.bq else g.aq)).isNone then s
        else (s.sideFill k g m sideB).updQuad k.q (fun x => x.act k.row k.col code)
      | none => s)

/-! ### One cell's group (R98 to R107) -/

/-- The A element at position k of row i: present when its token's PRED has the row live (R44). DESIGN CHOICE (log 46): where
one step reads two tokens of a side, each token's PRED decides for its own elements, and a row or column operates when it is live
in either. -/
def MWord.aElem (m : MWord) (a : OpSlot) (i k : Nat) : Option FVal :=
  match a.toks[k / fmtPerLane m.afmt]? with
  | some t => if t.pred.getLsbD i then some (elemVal m.afmt (elemOf m.afmt (laneOf t.data i) (k % fmtPerLane m.afmt))) else none
  | none => none

/-- The 2:4 index field of the group of four that holds position k, in column j (R109). -/
def MWord.metaField (m : MWord) (b : OpSlot) (j k : Nat) : Nat :=
  let t := k / m.kA
  let per := m.kA / 4
  match b.meta_[t / m.stepsPerMeta]? with
  | some tok => bits (laneOf tok.data j).toNat (4 * (t % m.stepsPerMeta * per + k / 4 % per)) 4
  | none => 0

/-- The B element at position k of column j: present when it is stored and its token's PRED has the column live
(R44, R99, R105 to R108). -/
def MWord.bElem (m : MWord) (b : OpSlot) (j k : Nat) : Option FVal :=
  let per := fmtPerLane m.bfmt
  let plain (ix : Nat) (e : Nat) : Option FVal :=
    match b.toks[ix]? with
    | some t => if t.pred.getLsbD j then some (elemVal m.bfmt (elemOf m.bfmt (laneOf t.data j) e)) else none
    | none => none
  if m.sparse then
    let f := m.metaField b j k
    let i0 := f % 4
    let i1 := f / 4
    if i0 ≥ i1 then none
    else if k % 4 = i0 then plain (2 * (k / 4) / per) (2 * (k / 4) % per)
    else if k % 4 = i1 then plain ((2 * (k / 4) + 1) / per) ((2 * (k / 4) + 1) % per)
    else none
  else if ¬ m.occupied b.occ (k / 32) then none
  else if m.expand ≠ 0 then
    let base := m.wbBase b.occ (k / 32)
    let w := m.wbits + 1
    match b.toks[base]?, b.toks[base + 1 + k % 32 / codesPer m.wbits]? with
    | some par, some t =>
      if t.pred.getLsbD j then
        let code := bits (laneOf t.data j).toNat (w * (k % 32 % codesPer m.wbits)) w
        if m.expand = 1 then some (elemVal m.afmt (bits (laneOf par.data code).toNat 0 (fmtBits m.afmt)))
        else
          let v : Int := (code : Int) - (bits (laneOf par.data j).toNat 16 w : Nat)
          some (.fin (decide (v < 0)) v.natAbs 0)
      else none
    | _, _ => none
  else plain (m.wbBase b.occ (k / 32) + k % 32 / per) (k % 32 % per)

/-- The A block scale at position k of row i; 1 without block scales (R90, R96). -/
def MWord.aScale (m : MWord) (a : OpSlot) (i k : Nat) : FVal :=
  if m.blen = 0 then .fin false 1 0
  else
    let n := k / m.blen
    scaleVal (bits (laneOf ((a.scales.map (·.data)).getD (n / 4) 0) i).toNat (8 * (n % 4)) 8)

/-- The B block scale at position k of column j. -/
def MWord.bScale (m : MWord) (b : OpSlot) (j k : Nat) : FVal :=
  if !m.bScaled then .fin false 1 0
  else
    let n := k / m.blen
    let before := ((List.range (n / 4)).filter (fun g =>
      (List.range m.wbPerGroup).any (fun i => decide (m.wbPerGroup * g + i < m.nwb) && m.occupied b.occ (m.wbPerGroup * g + i)))).length
    scaleVal (bits (laneOf ((b.scales.map (·.data)).getD before 0) j).toNat (8 * (n % 4)) 8)

/-- The column factor of scale-and-zero-point weights: S in BF16 (R107). -/
def MWord.colFactor (m : MWord) (b : OpSlot) (j k : Nat) : FVal :=
  if m.expand = 2 then
    bf16.ieee (bits (laneOf ((b.toks.map (·.data)).getD (m.wbBase b.occ (k / 32)) 0) j).toNat 0 16)
  else .fin false 1 0

/-- The products of cell (i, j) over positions [k0, k0 + n); a NaN scale makes every element of its block NaN (R99, R102). -/
def MWord.products (m : MWord) (a b : OpSlot) (i j k0 n : Nat) : List FVal :=
  (List.range n).filterMap (fun d =>
    match m.aElem a i (k0 + d), m.bElem b j (k0 + d) with
    | some x, some y => some (if (m.aScale a i (k0 + d)).isNan || (m.bScale b j (k0 + d)).isNan then .nan else x.mul y)
    | _, _ => none)

/-- An integer product's value. -/
def FVal.toInt : FVal → Int
  | .fin s m e => signedNat s (m * 2 ^ e.toNat)
  | _ => 0

/-- A group enters the accumulator of cell (i, j): the new value, and whether it clamped (R98 to R104). -/
def MWord.cell (m : MWord) (a b : OpSlot) (i j k0 n : Nat) (c : BitVec 32) : BitVec 32 × Bool :=
  match m.products a b i j k0 n with
  | [] => (c, false)
  | ps =>
    if m.isInt then accumInt m.sat c (ps.foldl (fun s p => s + p.toInt) 0)
    else match m.colFactor b j k0 with
      | .fin _ 0 _ => (c, false)     -- an S of zero adds nothing (R107)
      | f => (accumulate c (windowSum ps) (((m.aScale a i k0).mul (m.bScale b j k0)).mul f), false)

/-- Length of a group (R98). -/
def MWord.groupLen (m : MWord) : Nat := if m.blen ≠ 0 then m.blen else if m.expand ≠ 0 then 32 else m.kA

/-! ### A step (R43 to R45) -/

/-- Element tokens of the A side that step t reads. -/
def MWord.aToksOf (m : MWord) (a : OpSlot) (t : Nat) : List Tok :=
  let lo := t * m.kA / fmtPerLane m.afmt
  let hi := ((t + 1) * m.kA - 1) / fmtPerLane m.afmt
  (a.toks.drop lo).take (hi - lo + 1)

/-- Predicate bits of a set of tokens together. -/
def predsOf (ts : List Tok) : BitVec 32 := ts.foldl (fun p t => p ||| t.pred) 0

/-- The columns live in step t: those live in a B token the step reads. -/
def MWord.colsOf (m : MWord) (b : OpSlot) (t : Nat) : BitVec 32 :=
  maskOf (fun j => (List.range m.kA).any (fun d =>
    let k := t * m.kA + d
    let ix := if m.sparse then 2 * (k / 4) / fmtPerLane m.bfmt
      else if m.expand ≠ 0 then m.wbBase b.occ (k / 32) + 1 + k % 32 / codesPer m.wbits
      else m.wbBase b.occ (k / 32) + k % 32 / fmtPerLane m.bfmt
    match b.toks[ix]? with | some tok => tok.pred.getLsbD j | none => false))

/-- Bad 2:4 groups that step t reads, over its columns (R110). -/
def MWord.badMeta (m : MWord) (b : OpSlot) (t : Nat) : Nat :=
  if !m.sparse then 0
  else ((List.range 32).flatMap (fun j => (List.range (m.kA / 4)).filter (fun u =>
    let f := m.metaField b j (t * m.kA + 4 * u)
    decide (f % 4 ≥ f / 4)))).length

/-- Some token of a slot is poisoned (R43). -/
def OpSlot.poisoned (o : OpSlot) : Bool :=
  (o.toks ++ o.scales ++ o.meta_).any (·.poison) || (match o.occ with | some t => t.poison | none => false)

/-- The cells of a group are brought into the bank (R98): the bank, and the clamping additions. -/
def MWord.enterGroup (m : MWord) (a b : OpSlot) (bank : Bank) (k0 n : Nat) : Bank × Nat :=
  let old := if bank.cells.isEmpty then List.replicate 1024 0 else bank.cells
  let rows := (List.range n).foldl (fun p d => match a.toks[(k0 + d) / fmtPerLane m.afmt]? with | some t => p ||| t.pred | none => p) 0#32
  let new := (List.zipIdx old).map (fun (c, ix) => if rows.getLsbD (ix / 32) then m.cell a b (ix / 32) (ix % 32) k0 n c else (c, false))
  ({ bank with cells := new.map (·.1) }, (new.filter (·.2)).length)

/-- A chunk ends: slots retire, the held side after REUSE tiles (R41), and after the last chunk the tile waits to drain. -/
def Cu.endChunk (c : Cu) (m : MWord) (cycle : Nat) : Cu :=
  let bank := { c.bank with poison := c.bank.poison || c.aCur.poisoned || c.bCur.poisoned }
  let keep := decide (c.reuseIx + 1 < m.reuse)
  let c := { c with bank := bank, stepIx := 0 }
  let c := if keep && !m.holdB then c else { c with aCur := c.aNext, aNext := OpSlot.empty }
  let c := if keep && m.holdB then c else { c with bCur := c.bNext, bNext := OpSlot.empty }
  if c.chunkIx + 1 < m.kchunks then { c with chunkIx := c.chunkIx + 1 }
  else { c with chunkIx := 0, reuseIx := if keep then c.reuseIx + 1 else 0, bank := Bank.empty, full := c.full ++ [c.bank]
                fullAt := c.fullAt ++ [cycle] }

/-- The array cycle of the last step of the tile being computed (R43): the present one when the tile had no step. -/
def Cu.lastStep (c : Cu) (cycle : Nat) : Nat := if c.bank.oper.isEmpty then cycle else c.stepAt.getD cycle

/-- Both current slots have their whole chunk. -/
def MWord.allIn (m : MWord) (c : Cu) : Bool := m.fullSlot false c.aCur && m.fullSlot true c.bCur

/-- MATRIX_STEP (R43 to R45, R97): the datapath runs its next step, one in a cycle, once its operands are in the current slots
and its block's scales at the cells. Empty weight blocks under ZSKIP are passed over at no cost, with their A tokens, those that
end a chunk in the cycle of the step before them or when their A tokens are in. -/
def execMatrixStep (k : Site) (s : State) : Ans :=
  .next (match s.matrixAt k with
    | none => s
    | some (_, m) =>
      let c := (s.quad k.q).cu k.row k.col
      let (t, skipped) := m.skipTo c.bCur.occ 129 c.stepIx 0
      if (c.stepIx = 0 ∧ c.chunkIx = 0 ∧ c.full.length ≥ 2) ∨ (m.zskip ∧ c.bCur.occ.isNone) then s
      else if t ≥ m.ksteps then
        -- the rest of the chunk is empty blocks
        if m.allIn c then
          (s.updQuad k.q (fun x => x.setCu k.row k.col
            (({ c.endChunk m (c.lastStep s.pw.cycle) with readyAt := none } : Cu).noteReady m (c.stepAt.getD s.pw.cycle)))).cuCount k.q k.row k.col 3 skipped
        else s
      else if !(s.quad k.q).did k.row k.col 21 && m.aHas c.aCur t && m.bHas c.bCur t && c.scalesAt m t s.pw.cycle then
        let rows := predsOf (m.aToksOf c.aCur t)
        let cols := m.colsOf c.bCur t
        let oper := (List.range 32).map (fun i => c.bank.oper.getD i 0 ||| (if rows.getLsbD i then cols else 0))
        let bad := m.badMeta c.bCur t
        let bank := { c.bank with oper := oper, poison := c.bank.poison || decide (bad > 0) }
        let k1 := (t + 1) * m.kA
        let (bank, clamps) := if k1 % m.groupLen = 0 then m.enterGroup c.aCur c.bCur bank (k1 - m.groupLen) m.groupLen else (bank, 0)
        let c := { c with bank := bank, stepIx := t + 1, stepAt := some s.pw.cycle, readyAt := none
                          blockAt := if m.startsBlock t then s.pw.cycle else c.blockAt }
        let (t', tail) := m.skipTo c.bCur.occ 129 (t + 1) 0
        let ends := decide (m.ksteps ≤ t') && m.allIn c
        let c := (if ends then c.endChunk m s.pw.cycle else c).noteReady m s.pw.cycle
        let s := s.updQuad k.q (fun x => (x.setCu k.row k.col c).act k.row k.col 21)
        let count (s : State) (ix n : Nat) : State := if n = 0 then s else s.cuCount k.q k.row k.col ix n
        ((count (count (count (count (count s 1 1) 2 (if rows = 0 then 1 else 0)) 3 (skipped + if ends then tail else 0)) 8 clamps) 9
          bad).worked k.q 0 (popcount rows * popcount cols)).progress k.q
      else s)

/-! ### Draining (R35, R43) -/

/-- Row token r of a finished tile. -/
def Bank.row (b : Bank) (r tag : Nat) : Tok :=
  { data := ofLanes ((b.cells.drop (32 * r)).take 32), pred := b.oper.getD r 0, tag := tag, poison := b.poison, last := r == 31 }

/-- One row leaves the datapath when it may: to the output queues of OUTMASK (DRAIN = 1), discarded and counted when
OUTMASK is 0, or offered to the vector pipeline, which empties the bank with row 31 (R35, R43). -/
def State.drainOne (s : State) (k : Site) (g : SiteCfg) : State :=
  let x := s.quad k.q
  let c := x.cu k.row k.col
  match c.full, c.fullAt with
  | b :: _, t :: _ =>
    if s.pw.cycle < t + 40 + c.drainRow ∨ c.drainRow ≥ 32 ∨ x.did k.row k.col 25 then s
    else
      let tok := b.row c.drainRow (x.slotAt k.row k.col)
      if g.drain then
        let outs := maskList g.outmask 4
        if outs.all (fun o => decide ((c.outq.getD o []).length + c.resv.getD o 0 < 64)) then
          let c := { c with outq := (List.zipIdx c.outq).map (fun (ts, o) => if g.outmask.testBit o then ts ++ [tok] else ts)
                            drainRow := c.drainRow + 1 }
          let c := if tok.last then { c with full := c.full.drop 1, fullAt := c.fullAt.drop 1, drainRow := 0 } else c
          let s := s.updQuad k.q (fun x => outs.foldl (fun x o => x.act k.row k.col (10 + o)) ((x.setCu k.row k.col c).act k.row k.col 25))
          if outs.isEmpty then s.cuCount k.q k.row k.col 7 1 else s.progress k.q
        else s
      else if c.drainq.isEmpty then
        s.updQuad k.q (fun x => (x.setCu k.row k.col { c with drainq := [tok], drainRow := c.drainRow + 1 }).act k.row k.col 25)
      else s
  | _, _ => s

/-- TILE_DRAIN (R43): the oldest finished tile emits its next row token, one in a cycle, row r no earlier than 40 + r cycles after
the tile's last step. -/
def execTileDrain (k : Site) (s : State) : Ans :=
  .next (match s.matrixAt k with
    | none => s
    | some (g, _) => s.drainOne k g)

end Sys2Proof.Machine
end

