-- ==== Sys2Proof/Machine/Fence.lean ====
section
/-! DEFINITION. Units that fail (R33, R46, R48, R54 to R59), and the commands QUEUE_ECC_ERROR and STATUS_POLL. -/

namespace Sys2Proof.Machine

open Config

/-! ### Fences and remaps (R54, R57) -/

/-- Column of the understudy of a kind in a row (R28). -/
def spineCol (cu : Bool) (row : Nat) : Nat := if (row % 2 = 0) = cu then 10 else 11

/-- The standby understudy a site of a row is given: its own row's, else the nearest row's, the smaller number first
among equals (R57). -/
def Quad.understudy (x : Quad) (cu : Bool) (row : Nat) : Option (Nat × Nat) :=
  ((List.range 16).flatMap (fun d => (if d ≤ row then [row - d] else []) ++ (if d > 0 ∧ row + d < 16 then [row + d] else []))).findSome? (fun r =>
    if (x.site r (spineCol cu r)).st = 1 then some (r, spineCol cu r) else none)

/-- Give a fenced site its understudy; a standing-in MU starts with every line zero (R57). -/
def State.remap (s : State) (q row col : Nat) : State :=
  let x := s.quad q
  let s := s.updQuad q (fun x => x.setSite { x.site row col with due := false })
  match x.understudy (isCu row col) row with
  | none => s
  | some (r, c) =>
    let s := s.updQuad q (fun x =>
      (x.setSite { x.site row col with partner := some (r, c), detour := 0, due := false }).setSite
        { x.site r c with st := 2, partner := some (row, col), detour := 0 })
    match muIndex row col with
    | none => s
    | some m =>
      { s.mend (lineAddr q m 0) 0xC00000 with
        mem := memZero s.mem (lineAddr q m 0) 0xC00000
        marks := s.marks.filter (fun k => ¬ (lineAddr q m 0 ≤ k ∧ k < lineAddr q m 0 + 0xC00000)) }

/-- Fence a site for a reason of R61, in state 3 or 4 (R54). The site that must then be mapped afresh, if one must: the fenced one, or
the one that a fenced stand-in replaced (R57). -/
def State.fence (s : State) (q row col st reason : Nat) : Option (Nat × Nat) × State :=
  let x := s.quad q
  let e := x.site row col
  let dead : SiteSt := { e with st := st, reason := reason, partner := none, detour := 0, at_ := s.now, seen := x.resets, due := false }
  let s := s.updQuad q (fun x => { x.setSite dead with hops := x.hops.filter (fun h => h.2.1 != (row, col)) })
  if e.st = 0 then (some (row, col), s)
  else match e.partner with
    | some (r, c) =>
      if e.st = 2 then (some (r, c), s.updQuad q (fun x => x.setSite { x.site r c with partner := none, detour := 0 })) else (none, s)
    | none => (none, s)

/-- Declare a site dead outside a run: it is fenced, and its work is given to an understudy at once (R54, R57). -/
def State.declareDead (s : State) (q row col reason : Nat) : State :=
  if ((s.quad q).site row col).st ≥ 3 then s
  else match s.fence q row col 3 reason with
    | (some k, s) => s.remap q k.1 k.2
    | (none, s) => s

/-- The remaps that wait for the quadrant's RDY_MAP bit are applied, in row, then column, order (R56). -/
def State.remapDue (s : State) (q : Nat) : State :=
  (((List.range 352).map (fun i => (i / 22, i % 22))).filter (fun k => ((s.quad q).site k.1 k.2).due)).foldl
    (fun s k => s.remap q k.1 k.2) s

/-- A unit dies at run time (R54, R56, R79): the quadrant's job is cut and ends with INTERNAL, the site is fenced, UNIT_FAULT names it,
and the quadrant is reset; the remap follows once the quadrant's RDY_MAP bit is set again. -/
def State.unitDies (s : State) (q row col reason : Nat) : State :=
  if ((s.quad q).site row col).st ≥ 3 then s
  else
    let s := s.endJobAt q INTERNAL
    let s := if (s.quad q).active then (s.cutNow q (s.quad q).cutTarget) else s
    let (k, s) := s.fence q row col 3 reason
    let s := match k with
      | some k => s.updQuad q (fun x => x.setSite { x.site k.1 k.2 with due := true })
      | none => s
    (s.raise 0x10 q (leBytes 2 (row + 16 * col) ++ [BitVec.ofNat 8 reason])).quadReset q false

/-! ### Queue errors (R33) -/

/-- Set the tokens of a queue: inputs first, then outputs. -/
def Quad.setQueue (x : Quad) (row col queue : Nat) (ts : List Tok) : Quad :=
  let n := if isCu row col then 6 else 4
  if queue < n then x.setInq row col queue ts else x.setOutq row col (queue - n) ts

def Quad.queue (x : Quad) (row col queue : Nat) : List Tok :=
  let n := if isCu row col then 6 else 4
  if queue < n then x.inq row col queue else x.outq row col (queue - n)

/-- Count one of a unit's ECC figures: 0 corrected, 1 uncorrectable, 2 control discards. -/
def State.eccCount (s : State) (k : Site) (i : Nat) : State :=
  if isCu k.row k.col then s.cuCount k.q k.row k.col (4 + i) 1 else s.muCount k.q k.row k.col i 1

/-- Note an uncorrectable or control error of the unit that works for a logical site (R54). -/
def State.noteError (s : State) (k : Site) : State :=
  let p := (s.quad k.q).phys k.row k.col
  s.updQuad k.q (fun x => { x with errs := (x.errs.filter (fun e => decide (s.now < e.2.2 + 1000000))) ++ [(p.1, p.2, s.now)] })

/-- A unit with four errors noted within 1,000,000 local µs dies (R54). -/
def State.reap (s : State) (q : Nat) : State :=
  let live := (s.quad q).errs.filter (fun e => decide (s.now < e.2.2 + 1000000))
  match live.find? (fun e => decide (4 ≤ (live.filter (fun d => d.1 == e.1 && d.2.1 == e.2.1)).length) && decide (((s.quad q).site e.1 e.2.1).st < 3)) with
  | some e => s.unitDies q e.1 e.2.1 5
  | none => s

/-- A read of an MU line shows what its SECDED code shows: a corrected bit is counted; an uncorrectable error is counted and noted
(R46, R48, R54, R62, R149). -/
def State.lineEcc (s : State) (k : Site) (ecc : ScrubKind) : State :=
  match ecc with
  | .clean => s
  | .correctable => s.muCount k.q k.row k.col 0 1
  | .uncorrectable => ((s.muCount k.q k.row k.col 1 1).noteError k).reap k.q

/-- QUEUE_ECC_ERROR (R33): the token at place `pos` of a queue of a unit, inputs first, meets an error. -/
def execQueueEccError (k : Site) (queue pos : Nat) (kind : EccKind) (s : State) : Ans :=
  .next (
    let ts := (s.quad k.q).queue k.row k.col queue
    match ts[pos]? with
    | none => s
    | some t =>
      if !s.isOn || decide (k.q ≥ 4) || decide (k.row ≥ 16) || decide (k.col ≥ 22) then s
      else match kind with
      | .single => s.eccCount k 0
      | .doubleData =>
        (((s.updQuad k.q (fun x => x.setQueue k.row k.col queue (ts.set pos { t with poison := true }))).eccCount k 1).noteError k).reap k.q
      | .doubleCtl =>
        let s := s.updQuad k.q (fun x => x.setQueue k.row k.col queue (ts.eraseIdx pos))
        let s := if queue < (if isCu k.row k.col then 6 else 4) then s.owe k.q k.row k.col queue t.tag else s
        let s := ((s.eccCount k 1).eccCount k 2).raise 0x12 k.q (leBytes 2 (k.row + 16 * k.col) ++ [BitVec.ofNat 8 queue])
        (s.noteError k).reap k.q)

/-! ### Status polls (R54) -/

/-- STATUS_POLL (R54, R56): `missed` are the sites whose poll went unanswered. A site that misses three in a row is
declared dead, in row, then column, order. -/
def execStatusPoll (q : Nat) (missed : List (Nat × Nat)) (s : State) : Ans :=
  .next (
    let x := s.quad q
    if !s.quadRuns q || x.run.isNone then s
    else
      let live := (((List.range 352).map (fun i => (i / 22, i % 22))).filter (fun k => missed.contains k && decide ((x.site k.1 k.2).st < 3)))
      let polls := live.map (fun k => (k.1, k.2, ((x.polls.find? (fun p => p.1 == k.1 && p.2.1 == k.2)).map (·.2.2)).getD 0 + 1))
      let s := s.updQuad q (fun x => { x with polls := polls.filter (fun p => decide (p.2.2 < 3)) })
      (polls.filter (fun p => decide (p.2.2 ≥ 3))).foldl (fun s p => s.unitDies q p.1 p.2.1 4) s)

end Sys2Proof.Machine
end

