-- ==== Sys2Proof/Machine/MemUnit.lean ====
section
/-! DEFINITION. Memory units (R46 to R53, R424) and the commands AG_ISSUE,
GATHER_INDEX, SET_DOWN, PICK_UP, BANK_ACCESS and ENGINE_MU_ACCESS. -/

namespace Sys2Proof.Machine

/-! ### Ports (R47, R51) -/

/-- Entries of an output queue that are taken, or owed to reads in flight. -/
def Mu.outLoad (m : Mu) (dq : Nat) : Nat :=
  (m.outq.getD dq []).length + (m.rets.filter (fun r => r.dq == dq)).length +
  ((m.ports.take 2).foldl (fun n as => n + (as.filter (fun a => a.dq == dq)).length) 0)

/-- A port may be granted in this cycle: no access holds it, and it has not been granted yet. -/
def Mu.portFree (m : Mu) (port cycle : Nat) : Bool := (m.ports.getD port []).isEmpty && m.grantAt.getD port 0 != cycle + 1

/-- AG `ag` of a site asks for its port in this cycle (R51): a read with an address and an entry for its token; a write with a
data token that it took in an earlier cycle. -/
def State.agReady (s : State) (k : Site) (ag : Nat) : Option (AgDesc × AgNext) :=
  let x := s.quad k.q
  let m := x.mu k.row k.col
  match x.cfg k.row k.col with
  | none => none
  | some g =>
    let d := agDescOf (g.ags.getD ag 0)
    let a := m.ags.getD ag AgSt.idle
    match a.next d (x.rstartAt k.row k.col) with
    | none => none
    | some nx =>
      let has := if d.isRead then decide (m.outLoad d.dq < 64) && x.cueMet nx.wait
                 else a.hold.isSome && !x.did k.row k.col (100 + ag)
      if m.portFree d.port s.pw.cycle && has then some (d, nx) else none

/-- The AG that a port grants: the lowest number after the last one granted (R51). -/
def State.agWinner (s : State) (k : Site) (port : Nat) : Option Nat :=
  let lastAg := (((s.quad k.q).mu k.row k.col).lastAg).getD port 3
  let ready (i : Nat) : Bool := match s.agReady k i with | some (d, _) => d.port == port | none => false
  (((List.range 4).filter (fun i => decide (i > lastAg))) ++ ((List.range 4).filter (fun i => decide (i ≤ lastAg)))).find? ready

/-! ### The curtain point (R71, R72) -/

/-- A change in waiting begins: the gateway switches, and its old paths are gone (R72, R74); which queues they led to stays known, so
that the credits of its old tokens still return (R168). -/
def Quad.beginChange (x : Quad) (c : ChangeSt) (cycle now : Nat) : Quad :=
  let isGw (s : Src) : Bool := match s with | .gw _ _ => true | _ => false
  { x with chg := some { c with gw := true, began := cycle }, gwSlot := c.target, progress := now
           oldGw := (x.credits.filter (fun e => isGw e.1.1)).map (fun e => (e.1.1, e.1.2, c.old))
           credits := x.credits.filter (fun e => !isGw e.1.1), paths := x.paths.filter (fun p => !isGw p), gwSlots := [] }

/-- Every retire-set AG of a run has issued its last address: the run's curtain point, at which a waiting curtain
change begins. -/
def Quad.curtain (x : Quad) (cycle now : Nat) : Quad :=
  match x.run with
  | none => x
  | some r =>
    match x.scene r.slot with
    | none => x
    | some sc =>
      let isDone (e : Nat × Nat × Nat) : Bool :=
        ((x.mu e.1 e.2.1).ags.getD e.2.2 AgSt.idle).fin && x.slotAt e.1 e.2.1 == r.slot
      if r.curtain.isNone && sc.retire.all isDone then
        let x := { x with run := some { r with curtain := some cycle } }
        match x.chg with
        | some c => if !c.gw && c.old == r.slot then x.beginChange c cycle now else x
        | none => x
      else x

/-! ### Issuing -/

/-- The AG's state after it issued. -/
def AgSt.advance (a : AgSt) (d : AgDesc) : AgSt :=
  if d.mode = 1 ∨ d.mode = 2 then { a with n := a.n + 1, fin := decide (a.n + 1 = d.total) }
  else if d.mode = 3 ∨ d.mode = 4 then
    (if a.n + 1 = d.total then { a with n := 0, idx := a.idx.drop 1 } else { a with n := a.n + 1 })
  else { a with line := a.line + 1, left := a.left - 1 }

/-- A range fault of an AG: counted, and signalled the first time in a run (R52, R53). -/
def State.rangeFault (s : State) (k : Site) (ag : Nat) : State :=
  let s := s.muCount k.q k.row k.col 4 1
  if (((s.quad k.q).mu k.row k.col).ags.getD ag AgSt.idle).faulted then s
  else
    (s.updQuad k.q (fun x => x.setMu k.row k.col { x.mu k.row k.col with
      ags := (x.mu k.row k.col).ags.modify ag (fun a => { a with faulted := true }) })).raise 0x13 k.q
        (leBytes 2 (k.row + 16 * k.col) ++ [BitVec.ofNat 8 ag])

/-- The AG issues its next line address, if its port grants it in this cycle (R51 to R53). -/
def State.agIssue (s : State) (k : Site) (ag : Nat) : State :=
  match s.agReady k ag with
  | none => s
  | some (d, nx) =>
    if s.agWinner k d.port ≠ some ag then s
    else
      let x := s.quad k.q
      let m := x.mu k.row k.col
      let tag := x.slotAt k.row k.col
      let hold := (m.ags.getD ag AgSt.idle).hold
      let line : Option Int := match hold with
        | some (_, l) => some l
        | none => nx.line
      let inRange : Option Nat := match line with
        | some l => if 0 ≤ l ∧ l ≤ 98303 then some l.toNat else none
        | none => none
      let tok : Tok := match hold with
        | some (t, _) => t
        | none => mkTok 0 tag nx.poison nx.last
      let m := { m with ags := m.ags.modify ag (fun a => { a.advance d with hold := none }), lastAg := m.lastAg.set d.port ag
                        grantAt := m.grantAt.set d.port (s.pw.cycle + 1) }
      let m := match inRange with
        | some l => { m with ports := m.ports.modify d.port (· ++ [{ line := l, write := !d.isRead, tok := tok, dq := d.dq, trap := none, ag := ag }]) }
        | none => if d.isRead then { m with rets := m.rets ++ [{ due := s.pw.cycle + 4, dq := d.dq, tok := { tok with poison := true } }] } else m
      let s := s.updQuad k.q (fun x => (x.setMu k.row k.col m).act k.row k.col (104 + ag))
      let s := if inRange.isNone then s.rangeFault k ag else s
      let s := if d.isRead then s.updQuad k.q (fun x => x.meetAt tag nx.wait) else s
      (s.updQuad k.q (fun x => x.curtain s.pw.cycle s.now)).progress k.q

/-- A write AG takes the data token of its next address, once that address's cue wait is met (R48, R51); it issues the address in
a later cycle. An address it cannot write (an index out of bounds) is held as line -1. -/
def State.agTake (s : State) (k : Site) (ag : Nat) : State :=
  let x := s.quad k.q
  match x.cfg k.row k.col with
  | none => s
  | some g =>
    let d := agDescOf (g.ags.getD ag 0)
    let a := (x.mu k.row k.col).ags.getD ag AgSt.idle
    if d.isRead ∨ a.hold.isSome ∨ x.did k.row k.col (100 + ag) then s
    else match a.next d (x.rstartAt k.row k.col), s.headIn k.q k.row k.col d.dq with
      | some nx, some t =>
        if !x.cueMet nx.wait then s
        else
          let s := s.updQuad k.q (fun x => ((x.setMu k.row k.col { x.mu k.row k.col with
            ags := (x.mu k.row k.col).ags.modify ag (fun a => { a with hold := some (t, nx.line.getD (-1)) }) }).act k.row k.col
              (100 + ag)).meetAt (x.slotAt k.row k.col) nx.wait)
          s.popIn k.q k.row k.col d.dq
      | _, _ => s

/-- An AG's work in a cycle: an address, and for a write AG the data token of the one after it. -/
def State.agStep (s : State) (k : Site) (ag : Nat) : State := (s.agIssue k ag).agTake k ag

/-- The site is an MU that can work now. -/
def State.muRuns (s : State) (k : Site) : Bool := s.siteRuns k.q k.row k.col && !isCu k.row k.col

/-- The mode of an AG. -/
def State.agMode (s : State) (k : Site) (ag : Nat) : Nat :=
  match (s.quad k.q).cfg k.row k.col with
  | some g => (agDescOf (g.ags.getD ag 0)).mode
  | none => 0

/-- AG_ISSUE (R51). -/
def execAgIssue (k : Site) (ag : Nat) (s : State) : Ans := .next (if s.muRuns k then s.agStep k ag else s)

/-- GATHER_INDEX (R53): a gather or scatter AG pops an index token and takes one nest for each live lane, lane 0 first. -/
def execGatherIndex (k : Site) (ag : Nat) (s : State) : Ans :=
  .next (match (s.quad k.q).cfg k.row k.col with
    | none => s
    | some g =>
      let d := agDescOf (g.ags.getD ag 0)
      let a := (((s.quad k.q).mu k.row k.col).ags).getD ag AgSt.idle
      if s.muRuns k && (d.mode == 3 || d.mode == 4) && a.idx.isEmpty && decide (ag < 4) then
        match s.headIn k.q k.row k.col d.iq with
        | some t =>
          let lanes := ((List.range 32).filter (fun l => t.pred.getLsbD l)).map (fun l => (l, (laneOf t.data l).toNat, t.poison))
          (s.updQuad k.q (fun x => x.setMu k.row k.col { x.mu k.row k.col with
            ags := (x.mu k.row k.col).ags.modify ag (fun a => { a with idx := lanes, n := 0 }) })).popIn k.q k.row k.col d.iq
        | none => s
      else s)

/-- A set-down or pick-up AG takes a header token, or moves its next line (R53). A header with a count of 0 or above
98,304 is discarded whole and counted as a range fault. -/
def State.headerStep (s : State) (k : Site) (ag : Nat) : State :=
  match (s.quad k.q).cfg k.row k.col with
  | none => s
  | some g =>
    let d := agDescOf (g.ags.getD ag 0)
    let a := (((s.quad k.q).mu k.row k.col).ags).getD ag AgSt.idle
    if a.left > 0 then s.agStep k ag
    else
      match s.headIn k.q k.row k.col d.iq with
      | none => s
      | some t =>
        let first := bits (laneOf t.data 0).toNat 0 17
        let count := (laneOf t.data 1).toNat
        let s := s.popIn k.q k.row k.col d.iq
        if count = 0 ∨ count > 98304 then s.rangeFault k ag
        else s.updQuad k.q (fun x => x.setMu k.row k.col { x.mu k.row k.col with
          ags := (x.mu k.row k.col).ags.modify ag (fun a => { a with line := first, left := count }) })

/-- SET_DOWN (R53). -/
def execSetDown (k : Site) (ag : Nat) (s : State) : Ans :=
  .next (if s.muRuns k && s.agMode k ag == 5 then s.headerStep k ag else s)

/-- PICK_UP (R53). -/
def execPickUp (k : Site) (ag : Nat) (s : State) : Ans :=
  .next (if s.muRuns k && s.agMode k ag == 6 then s.headerStep k ag else s)

/-! ### Banks (R47, R48) -/

/-- The bank of a line served an access in this cycle. -/
def Mu.bankBusy (m : Mu) (line cycle : Nat) : Bool := m.bankAt.contains (line % 32, cycle)

/-- The access of a lower port waits for the same bank, and comes first (R47). -/
def Mu.bankLower (m : Mu) (port line : Nat) : Bool :=
  (m.ports.take port).any (fun as => match as with | a :: _ => a.line % 32 == line % 32 | [] => false)

def Mu.useBank (m : Mu) (line cycle : Nat) : Mu :=
  { m with bankAt := (m.bankAt.filter (fun e => e.2 == cycle)) ++ [(line % 32, cycle)] }

/-- A trap whose region an MU holds, with its descriptor, in the MU's current scene. -/
def State.trapsHeld (s : State) (k : Site) : List (TrapSt × Nat) :=
  let x := s.quad k.q
  let slot := x.slotAt k.row k.col
  (x.traps.map (fun (e : TrapSt) => (e, s.trapDesc slot k.q e.row e.col e.t))).filter (fun e =>
    e.2.testBit 0 && bits e.2 4 4 == k.row && bits e.2 8 5 == k.col)

/-- A trap with a token that has arrived and is not yet written takes a free write port (R80). DESIGN CHOICE (log 46): of several
such traps the one that has stood longest unchanged comes first. -/
def State.trapWriteAsk (s : State) (k : Site) : State :=
  match (s.trapsHeld k).find? (fun e => !e.1.landing.isEmpty) with
  | some (e, desc) =>
    let place := (e.head + e.toks.length) % max 1 (trapCap desc)
    s.updQuad k.q (fun x => x.setMu k.row k.col
      (let m := x.mu k.row k.col
       { m with grantAt := m.grantAt.set 2 (s.pw.cycle + 1)
                ports := m.ports.set 2 [{ line := (trapLine desc place).1, write := true, tok := e.landing.headD (mkTok 0 0 false false)
                                          dq := 0, trap := some (e.row, e.col, e.t, place), ag := 4 }] }))
  | none => s

/-- A trap with an enabled return path, a token in its region and a credit of the protected queue's pool takes a free read port 1,
and that credit (R80, R81). A line written in this cycle is read in a later one (R47). Several traps come in the order of
`trapWriteAsk` (log 46). -/
def State.trapReadAsk (s : State) (k : Site) : State :=
  let x := s.quad k.q
  let dest (e : TrapSt) (desc : Nat) : Dest := { q := k.q, row := e.row, col := e.col, dq := bits desc 1 3, hops := 0, bridges := 0 }
  let owner (e : TrapSt) (desc : Nat) : Option Src := s.sourceOf (destKey (dest e desc)) (x.slotAt k.row k.col)
  let asks (p : TrapSt × Nat) : Bool :=
    !p.1.toks.isEmpty && p.1.reading == 0 && p.1.wroteAt != some s.pw.cycle &&
    x.paths.contains (.trap { q := k.q, row := p.1.row, col := p.1.col } p.1.t) &&
    (match owner p.1 p.2 with | some o => decide (s.credit o (dest p.1 p.2) > 0) | none => false)
  match (s.trapsHeld k).find? asks with
  | some (e, desc) =>
    match owner e desc with
    | none => s
    | some o =>
      let place := e.head % max 1 (trapCap desc)
      (s.spend o [dest e desc]).updQuad k.q (fun x => (x.setTrap { e with reading := 1 }).setMu k.row k.col
        (let m := x.mu k.row k.col
         { m with grantAt := m.grantAt.set 1 (s.pw.cycle + 1)
                  ports := m.ports.set 1 [{ line := (trapLine desc place).1, write := false, tok := mkTok 0 0 false false
                                            dq := 0, trap := some (e.row, e.col, e.t, place), ag := 4 }] }))
  | none => s

/-- A trap's access is served: a spilled token and its control word are written; or the oldest token is read, and its return path
has it 4 cycles later (R80, R86). -/
def State.trapServe (s : State) (k : Site) (i : Nat) (a : Access) (key : Nat × Nat × Nat × Nat) : State :=
  let x := s.quad k.q
  let e := x.trap key.1 key.2.1 key.2.2.1
  let desc := s.trapDesc (x.slotAt k.row k.col) k.q key.1 key.2.1 key.2.2.1
  let ctl := lineAddr k.q i 0 + (trapLine desc key.2.2.2).2
  let at_ := lineAddr k.q i a.line
  if a.write then
    match e.landing with
    | [] => s
    | t :: rest =>
      let e' := { e with toks := e.toks ++ [t], landing := rest, wroteAt := some s.pw.cycle, peak := max e.peak (e.toks.length + 1) }
      let ix := 6 * siteOrd e.row e.col + 3 * e.t + 1
      let s := s.updQuad k.q (fun x => x.setTrap e')
      let s := s.setCtr 0x22 k.q ix (max (s.counter 0x22 k.q ix) e'.toks.length)
      ((s.devWrite at_ (leBytes 128 t.data.toNat) t.poison).devWrite ctl (leBytes 8 (ctlWord t)) false).progress k.q
  else
    let tok := tokOfWord (memRead s.mem at_ 128) (ofLe (memRead s.mem ctl 8)) (s.marked at_ 128)
    s.updQuad k.q (fun x => x.setTrap { e with
      toks := e.toks.drop 1, head := (e.head + 1) % max 1 (trapCap desc), reading := 0, out := e.out ++ [(s.pw.cycle + 4, tok)] })

/-- A cycle in which a port's access waits for its bank, counted once. -/
def State.bankWait (s : State) (k : Site) (port : Nat) : State :=
  if (s.quad k.q).did k.row k.col (97 + port) then s
  else (s.updQuad k.q (fun x => x.act k.row k.col (97 + port))).muCount k.q k.row k.col 3 1

/-- What the SECDED code of a line shows when the line is read (R46). -/
def State.eccAt (s : State) (a : Nat) : ScrubKind :=
  match look s.flaws a with
  | some true => .uncorrectable
  | some false => .correctable
  | none => .clean

/-- The access at a port's head is served when its bank is free, and otherwise waits a cycle, which is counted (R47, R48); a read
shows what the line's code shows (R46). -/
def State.serveHead (s : State) (k : Site) (port : Nat) : State :=
  let m := (s.quad k.q).mu k.row k.col
  match (m.ports.getD port []), muIndex k.row k.col with
  | a :: rest, some i =>
    if m.bankBusy a.line s.pw.cycle || m.bankLower port a.line then s.bankWait k port
    else
      let m := { m.useBank a.line s.pw.cycle with ports := m.ports.set port rest }
      let s := s.updQuad k.q (fun x => x.setMu k.row k.col m)
      let at_ := lineAddr k.q i a.line
      let ecc := s.eccAt at_
      let s := match a.trap with
        | some key => s.trapServe k i a key
        | none =>
          if a.write then s.lineWrite k.q i a.line a.tok
          else
            let tok := { a.tok with data := BitVec.ofNat 1024 (ofLe (memRead s.mem at_ 128)), poison := a.tok.poison || s.marked at_ 128 }
            s.updQuad k.q (fun x => x.setMu k.row k.col { m with rets := m.rets ++ [{ due := s.pw.cycle + 4, dq := a.dq, tok := tok }] })
      if a.write then s else s.lineEcc k ecc
  | _, _ => s

/-- BANK_ACCESS (R46 to R48, R80): the access at a port's head is served. Ports are read port 0, read port 1 and write port; a port
that no AG was granted in this cycle first takes an access of a trap. -/
def execBankAccess (k : Site) (port : Nat) (s : State) : Ans :=
  .next (if !s.muRuns k then s
    else
      let free := ((s.quad k.q).mu k.row k.col).portFree port s.pw.cycle
      let s := if free && port == 2 then s.trapWriteAsk k else if free && port == 1 then s.trapReadAsk k else s
      s.serveHead k port)

/-! ### Engine accesses (R424) -/

/-- The MU of a quadrant that holds a tier-0 address, by its logical site. -/
def muAt (a : Nat) : Option Site :=
  if a < 0x200000000 ∧ a % 0x80000000 < 0x78000000 then
    let p := muSite (a % 0x80000000 / 0xC00000)
    some { q := a / 0x80000000, row := p.1, col := p.2 }
  else none

/-- The MUs that a range of tier-0 addresses touches: an MU's lines take 12 MiB. -/
def musOf (a n : Nat) : List Site :=
  if a < 0x200000000 ∧ n > 0 then (List.range ((a % 0xC00000 + n - 1) / 0xC00000 + 1)).filterMap (fun i => muAt (a - a % 0xC00000 + 0xC00000 * i)) else []

/-- An engine may have read port 1, or the write port, of every MU of a range in this cycle: no AG and no trap has been granted it, and
the bank of the range's first line in the MU is free (R47, R424). An MU whose quadrant does not run grants nothing. -/
def State.engineFree (s : State) (a n : Nat) (write : Bool) : Bool :=
  (musOf a n).all (fun k =>
    let m := (s.quad k.q).mu k.row k.col
    m.portFree (if write then 2 else 1) s.pw.cycle && !m.bankBusy (a % 0xC00000 / 128) s.pw.cycle)

/-- The engine takes those ports for this cycle. -/
def State.engineTake (s : State) (a n : Nat) (write : Bool) : State :=
  (musOf a n).foldl (fun s k => s.updQuad k.q (fun x =>
    let m := x.mu k.row k.col
    x.setMu k.row k.col { m.useBank (a % 0xC00000 / 128) s.pw.cycle with
      grantAt := m.grantAt.set (if write then 2 else 1) (s.pw.cycle + 1) })) s

/-- ENGINE_MU_ACCESS (R424): an engine reads or writes a line through read port 1 or the write port in a cycle in which
no AG and no trap has been granted that port, waiting for the bank; what it reads is the engine's (`readData`). -/
def execEngineMuAccess (k : Site) (line : Nat) (acc : LineAccess) (s : State) : Ans :=
  .next (
    let m := (s.quad k.q).mu k.row k.col
    let port := match acc with | some _ => 2 | none => 1
    match muIndex k.row k.col with
    | none => s
    | some i =>
      if s.quadRuns k.q && decide (k.row < 16) && decide (k.col < 22) && !((s.quad k.q).site k.row k.col).isDead &&
         decide (line < 98304) && m.portFree port s.pw.cycle then
        if m.bankBusy line s.pw.cycle || m.bankLower port line then s.bankWait k port
        else
          let m := { m.useBank line s.pw.cycle with grantAt := m.grantAt.set port (s.pw.cycle + 1) }
          let s := s.updQuad k.q (fun x => x.setMu k.row k.col m)
          match acc with
          | some (d, p) => s.devWrite (lineAddr k.q i line) (leBytes 128 d.toNat) p
          | none => { s with readData := s.devRead (lineAddr k.q i line) 128 }
      else s)

end Sys2Proof.Machine
end

