-- ==== Sys2Proof/Machine/Strike.lean ====
section
/-! DEFINITION. The strike image (R86): the parts whose layout the spec gives, as cells of an object; which offsets those are. The other bytes are free (log 14). -/

namespace Sys2Proof.Machine

/-- Non-zero bytes of a list at an offset. -/
def cellsAt (off : Nat) (bs : List Byte) : Mem := cellsOf off bs

/-- A 136-byte token record (R86). -/
def tokRecord (t : Tok) : List Byte := leBytes 128 t.data.toNat ++ leBytes 8 (ctlWord t)

/-- A list of token records from an offset, 136 bytes each. -/
def tokRecords (off : Nat) (ts : List Tok) : Mem :=
  (List.zipIdx ts).flatMap (fun (t, i) => cellsAt (off + 136 * i) (tokRecord t))

/-- The stall record's 64 bytes (R86). -/
def StallRec.bytes (r : StallRec) : List Byte :=
  leBytes 1 r.cause ++ leBytes 1 0 ++ leBytes 2 r.full ++ leBytes 2 r.empty ++ leBytes 2 r.fullCount ++ leBytes 8 r.tripUs ++
  leBytes 8 r.progressUs ++ leBytes 2 r.cueAg ++ leBytes 1 r.cueIdx ++ leBytes 5 0 ++ leBytes 8 r.cueValue ++
  leBytes 8 r.cueTarget ++ leBytes 16 0

/-- The image header (R86, R171). DESIGN CHOICE (log 49): the current slot in a change is the gateway's, and an empty slot's SCENE_ID
reads 0. -/
def Quad.strikeHeader (x : Quad) (q kind job now : Nat) (stall : List Byte) : List Byte :=
  leBytes 2 kind ++ leBytes 1 q ++
  leBytes 1 (x.gwSlot % 4 + (match x.chg with | some c => if c.cut then 8 else 4 | none => if x.cutFrom.isSome then 8 else 0)) ++
  leBytes 4 job ++ (x.scenes.flatMap (fun c => leBytes 2 ((c.map (·.id)).getD 0))) ++ leBytes 8 x.slotCtr ++ leBytes 8 now ++
  (x.cues.flatMap (fun c => leBytes 4 c.posted ++ leBytes 4 c.retired)) ++
  (x.disps.flatMap (fun d => leBytes 3 d.next ++ leBytes 3 d.limit ++ leBytes 2 d.quota)) ++ stall

/-- A site has switched in the change in progress. -/
def Quad.switched (x : Quad) (row col : Nat) : Bool :=
  match x.chg with | some c => c.done.any (fun e => e.1 == x.phys row col) | none => false

/-- The first bytes of a site's record: row, column, current slot, switched flag, occupancies. -/
def Quad.siteHead (x : Quad) (row col : Nat) (occ : List Nat) : List Byte :=
  [BitVec.ofNat 8 row, BitVec.ofNat 8 col, BitVec.ofNat 8 (x.slotAt row col), if x.switched row col then 1 else 0] ++
  occ.map (BitVec.ofNat 8)

/-- The cells of an accumulator bank, a row of 32 after another (R43, R86). -/
def Bank.bytes (b : Bank) : List Byte := b.cells.flatMap (fun w => leBytes 4 w.toNat)

/-- The data of tokens one after another, 128 bytes each, from an offset. -/
def dataBlock (off : Nat) (ts : List Tok) : Mem := cellsAt off (ts.flatMap (fun t => leBytes 128 t.data.toNat))

/-- A CU record at an offset (R86). DESIGN CHOICE (log 49): a stage register's record has PRED 0, TAG 0 and VALID 1, or is all zero for
a register that holds zero unpoisoned; accumulator bank 0 is the one being computed and bank 1 the oldest finished one, row by row; the
operand buffer holds A-current, A-next, B-current and B-next, the metadata store B-current and B-next. -/
def Quad.cuRecord (x : Quad) (off row col : Nat) : Mem :=
  let c := x.cu row col
  let qs := c.inq ++ c.outq
  cellsAt off (x.siteHead row col (qs.map List.length)) ++
  (List.zipIdx qs).flatMap (fun (ts, i) => tokRecords (off + 0x40 + 8704 * i) ts) ++
  (List.zipIdx c.vregs.flatten).flatMap (fun (r, i) =>
    if r.data = 0 ∧ !r.poison then []
    else cellsAt (off + 0x15440 + 136 * i) (tokRecord { data := r.data, pred := 0, tag := 0, poison := r.poison, last := false })) ++
  tokRecords (off + 0x16540) (c.vf.map (·.tok)) ++
  cellsAt (off + 0x17420) c.bank.bytes ++ cellsAt (off + 0x18420) (c.full.headD Bank.empty).bytes ++
  (List.zipIdx [c.aCur, c.aNext, c.bCur, c.bNext]).flatMap (fun (o, i) => dataBlock (off + 0x19460 + 0x10000 * i) o.toks) ++
  (List.zipIdx [c.bCur, c.bNext]).flatMap (fun (o, i) => dataBlock (off + 0x59460 + 0x4000 * i) o.meta_)

/-- What an address generator's record begins with, in the order R86 names it: the loop indices, the cue base, the indices of the
gather still to run, and the finished flag (log 49). -/
def Quad.agBytes (x : Quad) (row col i : Nat) : List Byte :=
  let d := match x.cfg row col with | some g => agDescOf (g.ags.getD i 0) | none => agDescOf 0
  let a := (x.mu row col).ags.getD i AgSt.idle
  (List.range 4).flatMap (fun l => leBytes 2 (if l ≤ d.levels then d.index a.n l else 0)) ++
  leBytes 4 ((x.rstartAt row col).getD d.cue 0) ++ leBytes 4 a.idx.length ++ [if a.fin then 1 else 0]

/-- What a trap's record begins with: the ring places of its oldest token and of the next, and its tokens (R86, log 49). -/
def Quad.trapBytes (x : Quad) (row col t : Nat) : List Byte :=
  match x.traps.find? (fun e => e.row == row && e.col == col && e.t == t) with
  | some e => leBytes 4 e.head ++ leBytes 4 (e.head + e.toks.length) ++ leBytes 4 e.toks.length
  | none => List.replicate 12 0

/-- An MU record at an offset (R86). -/
def Quad.muRecord (x : Quad) (off row col : Nat) : Mem :=
  let m := x.mu row col
  let qs := m.inq ++ m.outq
  cellsAt off (x.siteHead row col (qs.map List.length)) ++
  (List.zipIdx qs).flatMap (fun (ts, i) => tokRecords (off + 0x40 + 8704 * i) ts) ++
  (List.range 4).flatMap (fun i => cellsAt (off + 0x11040 + 64 * i) (x.agBytes row col i)) ++
  (List.range 2).flatMap (fun t => cellsAt (off + 0x11140 + 32 * t) (x.trapBytes row col t))

/-- Tokens on the links out of a switch (R86): at output o, first the one that has a whole array cycle to go, then the one about to
arrive; U's are in no link. -/
def Quad.switchTokens (x : Quad) (q row col cycle : Nat) : List (Nat × Tok) :=
  [1, 2, 3, 4].flatMap (fun o =>
    let at_ (f : Flight) : Bool := match hopFrom q row col o with
      | .gwl l => f.port == 0 && f.link == l && f.row == row && f.col == col
      | .sw q' r c p br => q' == q && !br && f.row == r && f.col == c && f.port == p
    (x.flights.filter (fun f => at_ f && decide (f.due ≤ cycle + 2))).map (fun f => (2 * o + (if f.due ≤ cycle + 1 then 1 else 0), f.tok)))

/-- A source of a site by its number among the eight (log 49): the links of the gateway at its north, east, south and west, then OUT0 to OUT3. -/
def siteSource (q row col i : Nat) : Option Src :=
  if i < 4 then (match hopFrom q row col (i + 1) with | .gwl l => some (.gw q l) | .sw _ _ _ _ _ => none)
  else some (.out { q := q, row := row, col := col } (i - 4))

/-- A switch record at an offset (R86). DESIGN CHOICE (log 49): a source's 8 bytes hold its credits one byte for each destination, in
the order in which its path reaches them; the delay line holds the tokens that come in over a bridge, the next to arrive first. -/
def Quad.switchRecord (x : Quad) (q off row col cycle : Nat) : Mem :=
  cellsAt off (x.siteHead row col []) ++
  (x.switchTokens q row col cycle).flatMap (fun (i, t) => cellsAt (off + 0x40 + 136 * i) (tokRecord t)) ++
  tokRecords (off + 0x590) (((x.flights.filter (fun f => f.bridge && f.row == row && f.col == col)).take 6).map (·.tok)) ++
  (List.range 8).flatMap (fun i => match siteSource q row col i with
    | some src => cellsAt (off + 0x8C0 + 8 * i) (((x.credits.filter (fun e => e.1.1 == src)).take 8).map (fun e => BitVec.ofNat 8 e.2))
    | none => [])

/-- The site of active CU m: the CUs of a row outside the spine, in column order. -/
def cuSite (m : Nat) : Nat × Nat :=
  let row := m / 10
  let j := m % 10
  (row, (if row % 2 = 0 then 2 * j else 2 * j + 1) + (if j ≥ 5 then 2 else 0))

/-- The strike image of a quadrant, as cells from offset 0, and its poisoned ranges (R86). -/
def State.strikeCells (s : State) (q kind job : Nat) (stall : List Byte) : Mem × List (Nat × Nat) :=
  let x := s.quad q
  let (ram, pois) := s.gather [.dev (q * 0x80000000) 0x78000000] 0x04C00000
  let (stg, pois') := s.gather [.dev (stagingBase q) 0x8000000] 0x7CC00000
  (cellsAt 0 (x.strikeHeader q kind job s.now stall) ++
   (List.range 160).flatMap (fun m => let p := cuSite m; x.cuRecord (0x1000 + 409600 * m) p.1 p.2) ++
   (List.range 160).flatMap (fun m => let p := muSite m; x.muRecord (0x03E81000 + 73728 * m) p.1 p.2) ++
   (List.range 352).flatMap (fun m => x.switchRecord q (0x049C1000 + 4096 * m) (m / 22) (m % 22) s.pw.cycle) ++ ram ++ stg,
   pois ++ pois')

/-- The offsets of a strike image that R86 lays out, with the choices of log 49. -/
def strikeGiven (o : Nat) : Bool :=
  if o < 0x1000 then true
  else if o < 0x03E81000 then
    let r := (o - 0x1000) % 409600
    decide (r < 14) || (decide (0x40 ≤ r) && decide (r < 0x19420)) || decide (0x19460 ≤ r)
  else if o < 0x049C1000 then
    let r := (o - 0x03E81000) % 73728
    decide (r < 12) || (decide (0x40 ≤ r) && decide (r < 0x11040)) ||
    (decide (0x11040 ≤ r) && decide (r < 0x11140) && decide ((r - 0x11040) % 64 < 17)) ||
    (decide (0x11140 ≤ r) && decide (r < 0x11180) && decide ((r - 0x11140) % 32 < 12)) || decide (0x11180 ≤ r)
  else if o < 0x04B21000 then
    let r := (o - 0x049C1000) % 4096
    decide (r < 4) || decide (0x40 ≤ r)
  else true

end Sys2Proof.Machine
end

