-- ==== Sys2Proof/Machine/Scene.lean ====
section
/-! DEFINITION. Scene images and their checks (R50, R66, R69, R75, R80), and the commands LOAD, LOAD_COMPLETE, RUN,
RUN_RETIRE, CHANGE, CUT and SITE_SWITCH (R68 to R79). -/

namespace Sys2Proof.Machine

open Config

/-! ### Reading an image (R69) -/

/-- The configuration a site record holds, from cells that start at 0. -/
def siteCfgOf (row col : Nat) (c : Mem) : SiteCfg :=
  let n (off k : Nat) : Nat := memNat c off k
  let cu := isCu row col
  { row := row, col := col
    firing := if cu then BitVec.ofNat 64 (n 0 8) else 0
    matrix := if cu then BitVec.ofNat 64 (n 8 8) else 0
    consts := if cu then BitVec.ofNat 256 (n 0x10 32) else 0
    stages := if cu then (List.range 8).map (fun i => BitVec.ofNat 32 (n (0x30 + 4 * i) 4)) else []
    ags := if cu then [] else (List.range 4).map (fun i => BitVec.ofNat 256 (n (32 * i) 32))
    traps := (List.range 2).map (fun i => BitVec.ofNat 128 (n ((if cu then 0x50 else 0x80) + 16 * i) 16))
    sw := BitVec.ofNat 64 (n 0x100 8)
    slots := (List.range 32).map (fun i => BitVec.ofNat 32 (n (0x110 + 4 * i) 4)) }

/-- A scene image's contents, from cells that start at 0; site records of zeros are not listed. -/
def sceneOf (c : Mem) : Scene :=
  let h := memNat c 0 8
  let used := ((c.filter (fun e => decide (0x100 ≤ e.1) && decide (e.1 < sceneBytes))).map (fun e => (e.1 - 0x100) / 0x200)).eraseDups
  { id := bits h 0 16, period := bits h 16 6, wdog := bits h 22 16
    retire := (List.range (bits h 38 5)).map (fun i =>
      let e := memNat c (8 + 2 * i) 2
      (bits e 0 4, bits e 4 5, bits e 9 2))
    sites := used.map (fun i => siteCfgOf (i / 22) (i % 22) (memSlice c (0x100 + 0x200 * i) 0x200 0)), placed := [], was := [] }

/-! ### Checks (R50) -/

/-- The configuration of a site in a scene under check; absent sites are all zero. -/
def Scene.at (sc : Scene) (row col : Nat) : Option SiteCfg := sc.sites.find? (fun g => g.row == row && g.col == col)

/-- One trap descriptor (R80). -/
def trapOk (cu : Bool) (d : Nat) : Bool :=
  !d.testBit 0 ||
  (decide (bits d 1 3 ≤ (if cu then 5 else 3)) && decide (bits d 8 5 ≤ 21) && !isCu (bits d 4 4) (bits d 8 5) && !isSpine (bits d 8 5) &&
   decide (bits d 13 17 ≤ 98303) && decide (17 ≤ bits d 30 17) && decide (bits d 30 17 ≤ 98294) && decide (bits d 30 17 % 17 = 0) &&
   decide (bits d 13 17 + bits d 30 17 ≤ 98304))

/-- Both traps of a site: at most one for a queue. -/
def trapsOk (cu : Bool) (g : SiteCfg) : Bool :=
  g.traps.all (fun t => trapOk cu t.toNat) &&
  (match g.traps with
   | [a, b] => !(a.getLsbD 0 && b.getLsbD 0 && bits a.toNat 1 3 == bits b.toNat 1 3)
   | _ => true)

/-- A CU section (R34, R37, R41). -/
def cuOk (g : SiteCfg) : Bool :=
  g.unused ||
  (let m := mwordOf g.matrix
   (g.in1 != 6) && (g.outmask != 0 || (g.maten && m.drain)) && (g.in0 != 6 || (g.maten && !m.drain)) &&
   (!(g.maten && !m.drain) || g.in0 == 6) && (!g.maten || (decide (g.aq ≤ 5) && decide (g.bq ≤ 5) && m.ok)) &&
   (g.stages.map stageOf).all (fun w => stageOk w (g.in1 != 7)) && trapsOk true g)

/-- No element twice. -/
def noRepeat (l : List Nat) : Bool := l.eraseDups.length == l.length

/-- An MU section: descriptors and queue use (R49, R50). -/
def muOk (g : SiteCfg) : Bool :=
  let ds := g.ags.map agDescOf
  ds.all AgDesc.ok && noRepeat (ds.flatMap (fun d => d.ins.eraseDups)) && noRepeat (ds.flatMap AgDesc.outs) &&
  trapsOk false g

/-- The unit section of an understudy site is zero (R69). -/
def SiteCfg.unitZero (g : SiteCfg) : Bool := g.unused && g.ags.all (· == 0) && g.traps.all (· == 0)

/-- The slot entries below PERIOD keep their codes (R64). -/
def entriesOk (cu : Bool) (period : Nat) (g : SiteCfg) : Bool :=
  (g.slots.take period).all (fun e =>
    (List.range 5).all (fun o => decide (entSrc e o ≤ (if cu then 8 else 9))) &&
    (if cu then decide (entDq e ≤ 5) else decide (entDq e ≤ 3) || entDq e == 6))

/-- How the sites of a quadrant stand when routes are traced: the unit that works for a logical site, the logical site a unit works
for, and the sites that are fenced (R55, R57). -/
structure GridView where
  home : Nat × Nat → Nat × Nat
  unit : Nat × Nat → Nat × Nat
  shut : Nat × Nat → Bool

/-- No site fenced: what an image is checked against (R50). -/
def GridView.plain : GridView := { home := id, unit := id, shut := fun _ => false }

/-- The quadrant's present view. -/
def Quad.view (x : Quad) : GridView :=
  { home := fun k => x.phys k.1 k.2, unit := fun k => x.logic k.1 k.2, shut := fun k => decide ((x.site k.1 k.2).st ≥ 3) }

/-- An end of a route: the site and queue (6 a trap write, 64 + link the gateway, 128 + port a bridge), the hops to it, and the slot
in which it is reached. -/
structure RouteEnd where
  row : Nat
  col : Nat
  dq : Nat
  hops : Nat
  phase : Nat
  deriving DecidableEq, Repr, Inhabited

/-- An end's place. -/
def RouteEnd.place (e : RouteEnd) : Nat × Nat × Nat := (e.row, e.col, e.dq)

/-- A route (R66): its ends; whether it holds: no dead end, no link twice in one slot, no fenced site; and the switches it crosses,
each with the input it enters by. -/
structure Route where
  ends : List RouteEnd
  ok : Bool
  via : List (Nat × Nat × Nat)
  deriving DecidableEq, Repr, Inhabited

/-- Follow a route inside the quadrant. A bridge ends the part of the route that this image holds. -/
def Scene.trace (sc : Scene) (q : Nat) (v : GridView) : Nat → List (Nat × Nat × Nat × Nat) → Nat × Nat → Nat → Nat → Nat → Route
  | 0, _, _, _, _, _ => { ends := [], ok := false, via := [] }
  | fuel + 1, seen, (row, col), code, c, h =>
    let here := (row, col, code, c % sc.period)
    let e := match sc.at row col with | some g => g.slots.getD (c % sc.period) 0 | none => 0
    let outs := (List.range 5).filter (fun o => entSrc e o == code)
    if seen.contains here || outs.isEmpty || v.shut (row, col) then { ends := [], ok := false, via := [(row, col, code)] }
    else
      outs.foldl (fun (acc : Route) o =>
        let stop (r : Nat × Nat) (dq h : Nat) : Route :=
          { acc with ends := acc.ends ++ [{ row := r.1, col := r.2, dq := dq, hops := h, phase := c % sc.period }] }
        if o = 0 then stop (v.unit (row, col)) (entDq e) h
        else match hopFrom q row col o with
          | .gwl l => stop (row, col) (64 + l) (h + 1)
          | .sw q' r c' p _ =>
            if q' ≠ q then stop (row, col) (128 + o) (h + 1)
            else
              let t := sc.trace q v fuel (here :: seen) (r, c') p (c + 2) (h + 1)
              { ends := acc.ends ++ t.ends, ok := acc.ok && t.ok, via := acc.via ++ t.via })
        { ends := [], ok := true, via := [(row, col, code)] }

/-- The routes of a source: one for each slot it owns. -/
def Scene.routes (sc : Scene) (q : Nat) (v : GridView) (k : Nat × Nat) (code lead : Nat) : List Route :=
  (List.range sc.period).filterMap (fun c =>
    let e := match sc.at k.1 k.2 with | some g => g.slots.getD ((c + lead) % sc.period) 0 | none => 0
    if (List.range 5).any (fun o => entSrc e o == code) then some (sc.trace q v 1408 [] k code (c + lead) (if lead = 0 then 0 else 1)) else none)

/-- What a group of routes starts from: an output queue of a unit, a holding MU's trap reads, a gateway link, or a bridge's input at an
edge switch, where the part of a path that this image holds begins. -/
inductive SrcKind where
  | out | back | gw | bridge
  deriving DecidableEq, Repr, Inhabited

/-- The routes of one source. -/
structure Group where
  kind : SrcKind
  row : Nat
  col : Nat
  ix : Nat
  routes : List Route
  deriving DecidableEq, Repr, Inhabited

/-- The edge switches and input ports at which bridges enter a quadrant (R20). -/
def bridgePorts (q : Nat) : List (Nat × Nat × Nat) :=
  (List.range 22).map (fun c => if q < 2 then (15, c, 3) else (0, c, 1)) ++
  (List.range 16).map (fun r => if q % 2 = 0 then (r, 21, 2) else (r, 0, 4))

/-- The routes of every source of the quadrant's part of a scene. -/
def Scene.groups (sc : Scene) (q : Nat) (v : GridView) : List Group :=
  (sc.sites.flatMap (fun g => (List.range 4).map (fun k =>
    { kind := .out, row := g.row, col := g.col, ix := k, routes := sc.routes q v (v.home (g.row, g.col)) (5 + k) 0 }))) ++
  ((sc.sites.filter (fun g => !isCu g.row g.col)).map (fun g =>
    { kind := .back, row := g.row, col := g.col, ix := 0, routes := sc.routes q v (v.home (g.row, g.col)) 9 0 })) ++
  ((List.range 38).map (fun l =>
    let e := linkSite q l
    { kind := .gw, row := e.1, col := e.2.1, ix := l, routes := sc.routes q v (e.1, e.2.1) e.2.2 2 })) ++
  ((bridgePorts q).map (fun e => { kind := .bridge, row := e.1, col := e.2.1, ix := e.2.2, routes := sc.routes q v (e.1, e.2.1) e.2.2 0 }))

/-- The trap of a queue in the scene. -/
def Scene.trapOn (sc : Scene) (row col dq : Nat) : Option Nat :=
  match sc.at row col with
  | some g => (g.traps.map BitVec.toNat).find? (fun d => d.testBit 0 && bits d 1 3 == dq)
  | none => none

/-- The trap of an end, when the end is a protected queue. -/
def Scene.trapAt (sc : Scene) (e : Nat × Nat × Nat) : Option Nat := if e.2.2 < 6 then sc.trapOn e.1 e.2.1 e.2.2 else none

/-- The ends of a route, by their places. -/
def Route.places (r : Route) : List (Nat × Nat × Nat) := r.ends.map RouteEnd.place

/-- A route to a trap's region (R81). -/
def Route.spills (r : Route) : Bool := r.places.any (fun d => d.2.2 == 6)

/-- The distinct paths of a source: one for each set of ends, spill routes apart (R66). -/
def Group.paths (g : Group) : List (List (Nat × Nat × Nat)) := ((g.routes.filter (fun r => !r.spills)).map Route.places).eraseDups

/-- The routes of a source keep R66: every route holds; an output queue has one path only; a path to a protected queue does not
branch; and each spill route ends, unbranched, at the region of the trap of a path's queue (R81). -/
def Scene.groupOk (sc : Scene) (g : Group) : Bool :=
  g.routes.all (·.ok) && (g.kind != .out || decide (g.paths.length ≤ 1)) &&
  g.paths.all (fun ds => ds.length == 1 || ds.all (fun d => (sc.trapAt d).isNone)) &&
  (g.routes.filter Route.spills).all (fun r => match r.places with
    | [t] => g.paths.any (fun ds => match ds with
      | [d] => (match sc.trapAt d with | some w => bits w 4 4 == t.1 && bits w 8 5 == t.2.1 | none => false)
      | _ => false) || g.kind == .bridge
    | _ => false)

/-- Trap return paths at a holding MU: each ends, unbranched, at one queue whose trap the MU holds (R80, R81). -/
def Scene.backOk (sc : Scene) (g : Group) : Bool :=
  g.routes.all (fun r => r.ok && (match r.places with
    | [d] => (match sc.trapAt d with | some w => bits w 4 4 == g.row && bits w 8 5 == g.col | none => false)
    | _ => false))

/-- Every path of the quadrant keeps R66, those that enter over a bridge among them, and no queue ends two paths. -/
def Scene.pathsOk (sc : Scene) (q : Nat) (v : GridView) : Bool :=
  let gs := sc.groups q v
  let ends := ((gs.filter (fun g => g.kind != .back)).flatMap (fun g => g.paths.flatMap List.eraseDups)).filter (fun d => decide (d.2.2 < 6))
  gs.all (fun g => if g.kind = .back then sc.backOk g else sc.groupOk g) && (ends.eraseDups.length == ends.length)

/-- The switches that a scene's paths cross, each with the input by which a path enters it. -/
def Scene.crossed (sc : Scene) (q : Nat) (v : GridView) : List (Nat × Nat × Nat) :=
  ((sc.groups q v).flatMap (fun g => g.routes.flatMap (·.via))).eraseDups

/-- An input link of a site is marked LOOPBACK (R69). -/
def Scene.loopback (sc : Scene) (row col p : Nat) : Bool := match sc.at row col with | some g => g.sw.getLsbD (p - 1) | none => false

/-- The links that a scene's paths use between its sites, LOOPBACK ones apart: from site, to site (R73, R75). -/
def Scene.links (sc : Scene) (q : Nat) : List ((Nat × Nat) × (Nat × Nat)) :=
  (sc.crossed q GridView.plain).filterMap (fun n =>
    if n.2.2 = 0 ∨ n.2.2 > 4 ∨ sc.loopback n.1 n.2.1 n.2.2 then none
    else match hopFrom q n.1 n.2.1 n.2.2 with
      | .sw q' r c _ _ => if q' = q then some ((r, c), (n.1, n.2.1)) else none
      | .gwl _ => none)

/-- Take away, round by round, the links whose start takes nothing in; a cycle leaves some over. -/
def acyclic : Nat → List ((Nat × Nat) × (Nat × Nat)) → Bool
  | 0, ls => ls.isEmpty
  | n + 1, ls =>
    let ls' := ls.filter (fun l => ls.any (fun m => m.2 == l.1))
    if ls'.length = ls.length then ls.isEmpty else acyclic n ls'

/-- A scene image passes R50. -/
def sceneOk (q : Nat) (sc : Scene) : Bool :=
  decide (1 ≤ sc.period) && decide (sc.period ≤ 32) && decide (1 ≤ sc.retire.length) && decide (sc.retire.length ≤ 16) &&
  sc.retire.all (fun e => decide (e.2.1 < 22) && !isCu e.1 e.2.1 &&
    (match sc.at e.1 e.2.1 with
     | some g => (agDescOf (g.ags.getD e.2.2 0)).mode == 1 || (agDescOf (g.ags.getD e.2.2 0)).mode == 2
     | none => false)) &&
  sc.sites.all (fun g =>
    (if isSpine g.col then g.unitZero else if isCu g.row g.col then cuOk g else muOk g) &&
    entriesOk (isCu g.row g.col) sc.period g) &&
  sc.pathsOk q GridView.plain && acyclic 353 (sc.links q)

/-! ### Loads (R68, R70, R79) -/

/-- Putting a production on stage fails: its holds are released, it is STORED again, and its command completes (R187). -/
def State.failStage (s : State) (num status off : Nat) : State :=
  match s.prod? num with
  | none => s
  | some p =>
    let s := (s.pool.placing.filter (fun p => p.for_ == .stage num)).foldl (fun s p => s.dropPlacing p) s
    let s := (s.unholdAll (.prod num)).discardWork (loadJob num)
    let s : State := { s with sv := { s.sv with prods := s.sv.prods.map (fun (x : Sys2Proof.Machine.Prod) =>
      if x.num == num then { x with st := .stored, slot := none, todo := [], bindings := [], stale := false, resLoad := false } else x) } }
    s.completeAs p.slot status off

/-- A refused load: the production command that caused it completes (R50, R58). -/
def State.refuseLoad (s : State) (q status : Nat) : State :=
  (s.sv.prods.filter (fun p => p.slot.isSome && (p.st == .staging || p.st == .staged) && p.man.quads.testBit q)).foldl
    (fun s p => s.failStage p.num status 0xFFFF) s

/-- The first started entry of the array engine that completes is gone from its queue. -/
def aeDrop (p : AeOp → Bool) : List (List AeEnt) → List (List AeEnt)
  | [] => []
  | es :: qs => if es.any (fun e => e.started && p e.op) then es.eraseP (fun e => e.started && p e.op) :: qs else es :: aeDrop p qs

def AeOp.isLoad (slot : Nat) : AeOp → Bool
  | .load n _ _ => n == slot
  | _ => false

def AeOp.isRun (slot : Nat) : AeOp → Bool
  | .run n _ => n == slot
  | _ => false

def AeOp.isChange : AeOp → Bool
  | .change _ _ => true
  | _ => false

def Quad.aeDone (x : Quad) (p : AeOp → Bool) : Quad := { x with aeq := aeDrop p x.aeq }

/-- LOAD starts (R68): the image at a tier-1 address begins to be written into a slot that is neither current nor a started
change's target; naming such a slot ends the job with INTERNAL (R79), and another length is refused (R50). None: it waits, for an
earlier load of the slot. -/
def State.startLoad (s : State) (q slot addr len : Nat) : Option State :=
  let x := s.quad q
  let gone (s : State) : State := s.updQuad q (fun x => x.aeDone (AeOp.isLoad slot))
  if x.loads.any (·.slot == slot) then none
  else if slot == x.gwSlot || (match x.chg with | some c => slot == c.target || slot == c.old | none => false) ||
      (match x.cutFrom with | some c => slot == c.2 | none => false) then some (gone (s.endJobAt q INTERNAL))
  else if len ≠ sceneBytes then some (gone (s.refuseLoad q BAD))
  else
    let sc := sceneOf (s.gather [.dev addr len] 0).1
    some (s.updQuad q (fun x => { x with loads := x.loads ++ [{ slot := slot, scene := sc }] }))

/-- An image with the slot entries of some sites replaced: what the array engine's rerouting makes of it (R58). -/
def Scene.retable (sc : Scene) (ts : Tables) : Scene :=
  let blank (row col : Nat) : SiteCfg := siteCfgOf row col []
  let put (gs : List SiteCfg) (t : Nat × Nat × List (BitVec 32)) : List SiteCfg :=
    if gs.any (fun g => g.row == t.1 && g.col == t.2.1) then
      gs.map (fun g => if g.row = t.1 ∧ g.col = t.2.1 then { g with slots := t.2.2 } else g)
    else gs ++ [{ blank t.1 t.2.1 with slots := t.2.2 }]
  let had (t : Nat × Nat × List (BitVec 32)) : List (BitVec 32) := ((sc.at t.1 t.2.1).getD (blank t.1 t.2.1)).slots
  { sc with sites := ts.foldl put sc.sites, was := ts.map (fun t => (t.1, t.2.1, had t)) }

/-- The image of a stored scene, before the array engine fitted it to the fences at its load (R58). -/
def Scene.image (sc : Scene) : Scene :=
  let sc := sc.retable sc.was
  { sc with sites := sc.sites.filter (fun g => g != siteCfgOf g.row g.col []), placed := [], was := [] }

/-- A group's routes cross a fenced site. -/
def Group.touches (g : Group) (shut : Nat × Nat → Bool) : Bool := g.routes.any (fun r => r.via.any (fun n => shut (n.1, n.2.1)))

/-- The ends of a group, with the slot of those that leave over a bridge: what a detour must keep. -/
def Group.goals (g : Group) : List (List ((Nat × Nat × Nat) × Nat)) :=
  (g.routes.map (fun r => r.ends.map (fun e => (e.place, if e.dq ≥ 128 then e.phase else 0)))).eraseDups

/-- Most hops of a group's routes to an end. -/
def Group.reach (g : Group) (d : Nat × Nat × Nat) : Nat :=
  (g.routes.flatMap (·.ends)).foldl (fun n e => if e.place = d then max n e.hops else n) 0

/-- Largest number of hops that rerouting adds to a path of a group. -/
def Group.added (old new : Group) : Nat := ((old.routes.flatMap Route.places).map (fun d => new.reach d - old.reach d)).foldl max 0

/-- A rerouted scene keeps R58: every path leads from its source to the queues it led to and holds on the present grid, and a path
that no fenced site touches is as it was, so that a detour uses only slots the scene leaves free. -/
def Scene.detourOk (sc sc' : Scene) (q : Nat) (v : GridView) : Bool :=
  let new := sc'.groups q v
  sc'.sites.all (fun g => entriesOk (isCu g.row g.col) sc.period g) && sc'.pathsOk q v &&
  (sc.groups q GridView.plain).all (fun g =>
    match new.find? (fun n => n.kind == g.kind && n.row == g.row && n.col == g.col && n.ix == g.ix) with
    | some n => if g.touches v.shut then g.goals.all n.goals.contains && n.goals.all g.goals.contains else n == g
    | none => g.routes.isEmpty) &&
  new.all (fun n => n.routes.isEmpty || (sc.groups q GridView.plain).any (fun g => g.kind == n.kind && g.row == n.row && g.col == n.col && g.ix == n.ix))

/-- The hops that rerouting adds on account of each fenced site (R58, R61). -/
def Scene.addedHops (sc sc' : Scene) (q : Nat) (x : Quad) : List ((Nat × Nat) × Nat) :=
  let new := sc'.groups q x.view
  (x.sites.filter (fun e => decide (e.st ≥ 3))).map (fun e =>
    ((e.row, e.col), ((sc.groups q GridView.plain).filter (fun g => g.touches (· == (e.row, e.col)))).foldl (fun n g =>
      match new.find? (fun n => n.kind == g.kind && n.row == g.row && n.col == g.col && n.ix == g.ix) with
      | some m => max n (g.added m)
      | none => n) 0))

/-- DETOUR of a site from the stored scenes (R61): the most hops its remap adds, at the fenced site and at its understudy. -/
def Quad.noteHops (x : Quad) (slot : Nat) (hs : List ((Nat × Nat) × Nat)) : Quad :=
  let hops := x.hops.filter (fun h => h.1 != slot) ++ hs.map (fun h => (slot, h.1, h.2))
  let most (k : Nat × Nat) : Nat := ((hops.filter (fun h => h.2.1 == k)).map (fun h => h.2.2)).foldl max 0
  { x with hops := hops, detours := x.detours.set slot ((hs.map (·.2)).foldl max 0)
           sites := x.sites.map (fun (e : SiteSt) =>
             match e.partner with
             | some p => { e with detour := if e.st ≥ 3 then most (e.row, e.col) else most p }
             | none => e) }

/-- An image is written into a slot, the configurations of fenced sites into their understudies (R58, R70). -/
def State.storeScene (s : State) (q slot : Nat) (sc : Scene) (hs : List ((Nat × Nat) × Nat)) : State :=
  let s := s.updQuad q (fun x =>
    let placed := x.sites.filterMap (fun (e : SiteSt) => if e.st ≥ 3 then e.partner.map (fun p => ((e.row, e.col), p)) else none)
    ({ x with scenes := x.scenes.set slot (some { sc with placed := placed }) } : Quad).noteHops slot hs)
  s.setCtr 0x25 q (6 + 2 * slot) ((hs.map (·.2)).foldl max 0)

/-- LOAD_COMPLETE (R58, R70): the image is checked and written. `reroute`: the slot entries that the array engine's rerouting gives
the switches of a scene whose paths touch a fenced site; none when a detour cannot be routed within free slots, which refuses the
scene, as does a unit in use at a fenced site that nothing stands in for. -/
def execLoadComplete (q slot : Nat) (reroute : Option Tables) (s : State) : Ans :=
  .next (
    let x := s.quad q
    match x.loads.find? (·.slot == slot) with
    | none => s
    | some l =>
      if !s.quadRuns q then s
      else
        let s := s.updQuad q (fun x => ({ x with loads := x.loads.filter (fun e => e.slot != slot) } : Quad).aeDone (AeOp.isLoad slot))
        let v := x.view
        if !sceneOk q l.scene then s.refuseLoad q BAD
        else if l.scene.sites.any (fun g => (x.site g.row g.col).isDead && !g.unitZero) then s.refuseLoad q LIMIT
        else if !(l.scene.groups q GridView.plain).any (fun g => g.touches v.shut) then s.storeScene q slot l.scene []
        else match reroute with
          | none => s.refuseLoad q LIMIT
          | some ts =>
            let sc := l.scene.retable ts
            if l.scene.detourOk sc q v then s.storeScene q slot sc (l.scene.addedHops sc q x) else s.refuseLoad q LIMIT)

/-! ### Runs (R71) -/

/-- An MU at the start of a run: every AG at the beginning of its descriptor. -/
def Mu.started (m : Mu) : Mu := { m with ags := List.replicate 4 { AgSt.idle with running := true } }

/-- Dispensers of a scene open a new range at each run (R173). -/
def State.openDisps (s : State) (q id : Nat) : State :=
  let s := (List.zipIdx (s.quad q).disps).foldl (fun s (d, i) =>
    if !d.static && d.scene == id && d.limit > d.next then s.bump 0x43 q (6 * i + 5) (d.limit - d.next) else s) s
  s.updQuad q (fun x => { x with disps := x.disps.map (fun (d : Disp) =>
    if !d.static && d.scene == id then { d with next := d.limit, limit := min (d.limit + d.quota) 0xFFFFFF } else d) })

/-- The dispenser that serves work entries while a routed pass is active (R227). -/
def State.dspn (s : State) (q : Nat) : Option Nat :=
  let rt := (s.quad q).rt
  if rt.active then (s.manOf rt.job).map (·.rp.dspn) else none

/-- A claim that arrived in an earlier cycle at a dispenser of some kind has not been served yet: it comes before an opening or a DSET
of the present cycle (R173, R175). The claims that a routed pass holds (R227) wait for neither. -/
def State.claimsOwed (s : State) (q : Nat) (p : Disp → Bool) : Bool :=
  let x := s.quad q
  (List.zipIdx x.disps).any (fun (d, i) => s.dspn q != some i && p d &&
    d.links.any (fun l => ((look x.gwIn l).getD []).any (fun e => decide (e.2.1 < s.pw.cycle))))

/-- RUN starts (R68, R71): the current scene's AGs start and the gateway opens to the run's streams. None: it waits, until its slot is
current at the gateway, the run before it has retired in an earlier cycle or is the one a curtain change leaves, and, for a first
run, the job's step has been composed. -/
def State.startRun (s : State) (q slot : Nat) (first : Bool) : Option State :=
  let x := s.quad q
  match x.scene slot with
  | none => none
  | some sc =>
    let behind := match x.chg, x.run with
      | some c, some r => c.gw && !c.cut && c.target == slot && r.slot == c.old && x.leaving.isNone
      | _, _ => false
    let composed := !first || (match s.jobAt q with
      | some j => j.inStep && !((s.prod? j.prod).map (·.resLoad)).getD false
      | none => false)
    if decide (slot = x.gwSlot) && ((x.run.isNone && x.retiredAt != some s.pw.cycle) || behind) && composed && x.cutFrom.isNone &&
       !s.claimsOwed q (fun d => !d.static && d.scene == sc.id) then
      let r : RunSt := { slot := slot, began := s.pw.cycle, curtain := none
                         rstart := if x.run.isNone then x.cues.map (·.retired) else [], met := [] }
      let s := s.updQuad q (fun x => { x with run := some r, leaving := x.run, progress := s.now, ran := x.ran || first })
      let s := s.updQuad q (fun x => (sc.sites.filter (fun g => !isCu g.row g.col && x.slotAt g.row g.col == slot)).foldl
        (fun x g => x.setMu g.row g.col (x.mu g.row g.col).started) x)
      some (s.openDisps q sc.id)
    else none

/-- CHANGE starts (R68, R72): with `cut` it issues a cut, otherwise it begins at the present run's curtain point, or at once when
no run is before it. None: it waits, for a change in progress and for the LOAD of its slot; naming the current slot it is done.
DESIGN CHOICE (log 46): a change that has started and waits for its curtain point is in progress, with the stall count restarted at
its start (R83). -/
def State.startChange (s : State) (q slot : Nat) (cut : Bool) : Option State :=
  let x := s.quad q
  if x.chg.isSome || x.cutFrom.isSome then none
  else if slot = x.gwSlot then some (s.updQuad q (fun x => x.aeDone AeOp.isChange))
  else if x.loads.any (·.slot == slot) || (x.scene slot).isNone then none
  else if cut then some (s.updQuad q (fun x => { x with cutFrom := some (s.pw.cycle, slot), progress := s.now }))
  else
    let c : ChangeSt := { target := slot, old := x.gwSlot, cut := false, began := s.pw.cycle, gw := false, done := [] }
    let atOnce := match x.run with | some r => r.curtain.isSome | none => true
    some (s.updQuad q (fun x => if atOnce then x.beginChange c s.pw.cycle s.now else { x with chg := some c, progress := s.now }))

/-! ### The array engine's queues (R15, R17, R68) -/

/-- Start an entry of the array engine, if it need not wait. -/
def State.aeBegin (s : State) (q : Nat) : AeOp → Option State
  | .load slot addr len => s.startLoad q slot addr len
  | .run slot first => s.startRun q slot first
  | .change slot cut => s.startChange q slot cut

/-- Start the entries of one queue in order, until one must wait (R17): n at most. -/
def State.aeGo (q aq : Nat) : Nat → State → State
  | 0, s => s
  | n + 1, s =>
    let es := (s.quad q).aeq.getD aq []
    let i := es.findIdx (fun e => !e.started)
    match es[i]? with
    | none => s
    | some e =>
      -- the entry counts as started while it begins, so that one that completes at once is found
      let t := s.updQuad q (fun x => { x with aeq := x.aeq.modify aq (fun es => es.set i { e with started := true }) })
      match t.aeBegin q e.op with
      | some t => State.aeGo q aq n t
      | none => s

/-- The stage manager writes an entry into a queue with room for it, and the array engine starts what it can of that queue (R16 to R18). -/
def State.aePush (s : State) (q aq : Nat) (op : AeOp) : State :=
  if !s.quadRuns q || decide (aq ≥ 4) || decide (64 ≤ ((s.quad q).aeq.getD aq []).length) then s
  else
    let s := s.updQuad q (fun x => { x with aeq := x.aeq.modify aq (· ++ [{ op := op, started := false }]) })
    State.aeGo q aq 64 s

/-- The array engine of a quadrant starts what it can of its four queues. -/
def State.aeStart (s : State) (q : Nat) : State :=
  if s.quadRuns q then (List.range 4).foldl (fun s aq => State.aeGo q aq 64 s) s else s

/-- LOAD (R68): the entry enters its queue, and starts when it may. -/
def execLoad (q aq slot addr len : Nat) (s : State) : Ans := .next (if slot < 4 then s.aePush q aq (.load slot addr len) else s)

/-- RUN (R68): the entry enters its queue, and starts when it may. -/
def execRun (q aq slot : Nat) (first : Bool) (s : State) : Ans := .next (if slot < 4 then s.aePush q aq (.run slot first) else s)

/-- No run of the present step is left to start: every RUN that waits stands behind the first run of a later step (R24). -/
def Quad.stepRunsOver (x : Quad) : Bool :=
  x.aeq.all (fun es => ((es.filter (fun e => !e.started)).takeWhile (fun e => match e.op with | .run _ first => !first | _ => true)).all
    (fun e => match e.op with | .run _ _ => false | _ => true))

/-- The runs of the present step are over in the quadrant (R24). -/
def Quad.runsOver (x : Quad) : Bool := x.ran && x.run.isNone && x.leaving.isNone && x.chg.isNone && x.cutFrom.isNone && x.stepRunsOver

/-- Once the quadrant's runs of the step are over, the pages they filled become SEALING (R196). -/
def State.sealIfOver (s : State) (q : Nat) : State := if (s.quad q).runsOver then s.sealStep q else s

/-- The quadrant holds no token and no work of a slot (R71). -/
def Quad.clearOf (x : Quad) (slot : Nat) : Bool :=
  let mine (t : Tok) : Bool := t.tag == slot
  x.cus.all (fun (k, c) =>
    (c.inq ++ c.outq).all (fun ts => !ts.any mine) && !c.vf.any (fun v => mine v.tok) &&
    (x.slotAt k.1 k.2 != slot || (c.full.isEmpty && c.drainq.isEmpty))) &&
  x.mus.all (fun (k, m) =>
    (m.inq ++ m.outq).all (fun ts => !ts.any mine) && !m.rets.any (fun r => mine r.tok) &&
    (x.slotAt k.1 k.2 != slot || (m.ports.take 2).all (fun as => as.all (·.trap.isSome)))) &&
  x.traps.all (fun t => !t.held.any mine) && x.flights.all (fun f => !mine f.tok)

/-- The AGs of a run's retire set have issued and, in mode 2, completed their writes (R71). -/
def Quad.retireSetDone (x : Quad) (r : RunSt) : Bool :=
  match x.scene r.slot with
  | none => true
  | some sc => sc.retire.all (fun e =>
      match sc.at e.1 e.2.1 with
      | some g => (agDescOf (g.ags.getD e.2.2 0)).mode != 2 ||
          (((x.mu e.1 e.2.1).ports.getD 2 []).all (fun a => a.ag != e.2.2) && (((x.mu e.1 e.2.1).ags.getD e.2.2 AgSt.idle).hold).isNone)
      | none => true)

/-- RUN_RETIRE (R71, R160): the run being left, else the present run, retires once its curtain point lies in an earlier
cycle and its work has drained. -/
def execRunRetire (q : Nat) (s : State) : Ans :=
  .next (
    let x := s.quad q
    match (match x.leaving with | some r => some r | none => x.run) with
    | none => s
    | some r =>
      let past := match r.curtain with | some c => decide (c < s.pw.cycle) | none => false
      if s.quadRuns q && past && x.retireSetDone r && x.clearOf r.slot then
        ((s.updQuad q (fun x =>
          let x := x.noteMet
          let r := (match x.leaving with | some r => some r | none => x.run).getD r
          let x := { x.retireRun r with retiredAt := some s.pw.cycle }.aeDone (AeOp.isRun r.slot)
          if x.leaving.isSome then { x with leaving := none } else { x with run := none })).bump 0x25 q (5 + 2 * r.slot) 1).sealIfOver q
      else s)

/-! ### Changes (R72 to R79) -/

/-- CHANGE (R68): the entry enters its queue, and starts when it may. -/
def execChange (q aq slot : Nat) (cut : Bool) (s : State) : Ans := .next (if slot < 4 then s.aePush q aq (.change slot cut) else s)

/-- CUT (R78): a cut that was issued takes effect two cycles later. An entry it breaks ends the job with INTERNAL (R180). -/
def execCut (q : Nat) (s : State) : Ans :=
  .next (match (s.quad q).cutFrom with
    | none => s
    | some (c, slot) =>
      if s.quadRuns q && decide (c + 2 ≤ s.pw.cycle) then
        let (broke, s) := (s.cutNow q slot).breakEntries q
        if broke then s.endJobAt q INTERNAL else s
      else s)

/-- Input ports of a site over which an old-scene path comes in, LOOPBACK ones apart (R73). -/
def Quad.upstream (x : Quad) (q : Nat) (c : ChangeSt) (row col : Nat) : List Nat :=
  match x.scene c.old with
  | some sc => [1, 2, 3, 4].filter (fun p => (sc.crossed q x.view).contains (row, col, p) && !sc.loopback row col p)
  | none => []

/-- Every upstream neighbour switched in an earlier cycle (R73). -/
def State.upstreamDone (s : State) (q : Nat) (c : ChangeSt) (row col : Nat) : Bool :=
  ((s.quad q).upstream q c row col).all (fun p =>
    match hopFrom q row col p with
    | .gwl _ => c.gw && decide (c.began < s.pw.cycle)
    | .sw q' r c' _ _ =>
      if (s.quad q').fencedSite r c' then true
      else if q' = q then c.done.any (fun e => e.1 == (r, c') && decide (e.2 < s.pw.cycle))
      else
        let y := s.quad q'
        y.slotAt r c' == c.target &&
        y.switchedAt r c' != some s.pw.cycle)

/-- The trap's region lies in the MU of a site under a slot's scene (R80). -/
def Quad.trapHeld (x : Quad) (slot : Nat) (t : TrapSt) (row col : Nat) : Bool :=
  match x.cfgIn slot t.row t.col with
  | some g => bits (g.traps.getD t.t 0).toNat 4 4 == row && bits (g.traps.getD t.t 0).toNat 8 5 == col
  | none => false

/-- No old-scene token or work is left at a site (R73): none in its switch in this cycle, on its links, in the queues of its unit,
which may stand in for another site's, or in a trap of that unit or in its SRAM. -/
def Quad.siteDrained (x : Quad) (q : Nat) (c : ChangeSt) (srow scol cycle : Nat) : Bool :=
  let old (t : Tok) : Bool := t.tag == c.old
  let ups := x.upstream q c srow scol
  let (row, col) := x.logic srow scol
  x.flights.all (fun f => !(f.row == srow && f.col == scol && old f.tok && ups.contains f.port)) &&
  !x.did srow scol 26 &&
  x.traps.all (fun t => !((t.row == row && t.col == col) || x.trapHeld c.old t row col) || !t.held.any old) &&
  (if isCu row col then
     let u := x.cu row col
     (u.inq ++ u.outq).all (fun ts => !ts.any old) && u.vf.isEmpty && u.full.isEmpty && u.drainq.isEmpty
   else
     let u := x.mu row col
     (u.inq ++ u.outq).all (fun ts => !ts.any old) && u.ports.all List.isEmpty && u.rets.isEmpty && u.bankAt.all (fun e => e.2 != cycle) && u.ags.all (fun a => a.hold.isNone) &&
     (match x.cfgIn c.old row col with
      | none => true
      | some g => (List.zipIdx g.ags).all (fun (w, i) =>
          let d := agDescOf w
          let a := u.ags.getD i AgSt.idle
          if d.mode = 0 then true
          else if d.mode ≤ 2 then a.fin || !a.running
          else a.idx.isEmpty && decide (a.left = 0))))

/-- The sites of a quadrant that take part in a change: every one but a fenced one (R73). -/
def Quad.changeSites (x : Quad) : List (Nat × Nat) :=
  ((List.range 352).map (fun i => (i / 22, i % 22))).filter (fun k => !decide ((x.site k.1 k.2).st ≥ 3))

/-- The run that a change leaves behind. -/
def Quad.leftRun (x : Quad) (c : ChangeSt) : Option RunSt :=
  match x.leaving with
  | some r => some r
  | none => x.run.filter (fun r => decide (r.slot = c.old))

/-- Every site has switched: the change is complete, its wave length is kept, and the run it left has retired (R77). -/
def State.finishChange (s : State) (q : Nat) (c : ChangeSt) : State :=
  let wave := s.pw.cycle - c.began
  let s := match (s.quad q).leftRun c with
    | some r => s.bump 0x25 q (5 + 2 * r.slot) 1
    | none => s
  let s : State := s.updQuad q (fun x =>
    let x : Quad := { x with recent := c.done.filter (fun e => decide (s.pw.cycle < e.2 + 2)) }
    let x := x.aeDone AeOp.isChange
    match x.leftRun c with
    | none => { x with chg := none }
    | some r =>
      let x : Quad := x.retireRun r
      let x : Quad := { x with retiredAt := some s.pw.cycle }
      let x : Quad := x.aeDone (AeOp.isRun r.slot)
      { x with chg := none, leaving := none, run := x.run.filter (fun n => decide (n.slot ≠ c.old)) })
  (((s.bump 0x25 q 1 1).setCtr 0x25 q 3 wave).setCtr 0x25 q 4 (max wave (s.counter 0x25 q 4))).sealIfOver q

/-- SITE_SWITCH (R73, R74): a site, named by its place in the grid, whose upstream neighbours have switched and whose old work has drained makes the new
slot current, with its units' old state cleared; the last one completes the change (R77). -/
def execSiteSwitch (k : Site) (s : State) : Ans :=
  .next (
    let x := s.quad k.q
    match x.chg with
    | none => s
    | some c =>
      if s.quadRuns k.q && c.gw && x.changeSites.contains (k.row, k.col) && !x.switched k.row k.col &&
         s.upstreamDone k.q c k.row k.col && x.siteDrained k.q c k.row k.col s.pw.cycle then
        let u := x.logic k.row k.col
        let isMine (p : Src) : Bool := match p with
          | .out e _ => e.q == k.q && (e.row, e.col) == u
          | .trap e t => s.trapHome c.old e t == u && e.q == k.q
          | .gw _ _ => false
        let running := match x.run with | some r => decide (r.slot = c.target) | none => false
        let c' := { c with done := c.done ++ [((k.row, k.col), s.pw.cycle)] }
        let s := s.updQuad k.q (fun x =>
          let x : Quad := x.noteMet
          let x : Quad := { x with credits := x.credits.filter (fun e => !isMine e.1.1), credRet := x.credRet.filter (fun r => !isMine r.src)
                                   paths := x.paths.filter (fun p => !isMine p), chg := some c', progress := s.now }
          if isCu u.1 u.2 then x.setCu u.1 u.2 (x.cu u.1 u.2).switched
          else x.setMu u.1 u.2 ((x.mu u.1 u.2).switched running))
        if c'.done.length = x.changeSites.length then
          s.finishChange k.q c'
        else s
      else s)

/-! ### Set (R87) -/

/-- What a set puts back into a quadrant: the struck state under the present fences, with a load of each stored slot begun. -/
def Quad.setBack (x img : Quad) : Quad :=
  let held (i : Nat) : Bool := img.loads.any (·.slot == i)
  let again : List LoadSt := (List.zipIdx img.scenes).filterMap (fun (c, i) =>
    if held i then none else c.map (fun (sc : Scene) => { slot := i, scene := sc.image }))
  { img with sites := x.sites, slotCtr := x.slotCtr, lastReset := x.lastReset, resets := x.resets, stall := x.stall, stallImg := x.stallImg
             polls := x.polls, errs := x.errs, test := x.test, testSlot := x.testSlot, testRes := x.testRes, testOne := x.testOne
             scenes := (List.zipIdx img.scenes).map (fun (c, i) => if held i then c else none)
             loads := img.loads ++ again, hops := [], detours := [0, 0, 0, 0]
             lanes := x.lanes, cells := x.cells, cycs := x.cycs, lastAct := x.lastAct
             queues := x.queues, rt := { Routing.reset with cache := x.rt.cache, cacheProd := x.rt.cacheProd, age := x.rt.age } }

end Sys2Proof.Machine
end

