-- ==== Sys2Proof/Machine/Stall.lean ====
section
/-! DEFINITION. Quadrants that stall (R83, R84), and the commands STALL_WATCHDOG_TRIP and STALL_STRIKE_COMMIT. -/

namespace Sys2Proof.Machine

open Config

/-! ### The stall (R83, R84) -/

/-- A scene's watchdog limit in local µs (R69). -/
def Quad.wdog (x : Quad) (slot : Nat) : Nat :=
  match x.scene slot with
  | some sc => if sc.wdog = 0 then 10000 else 100 * sc.wdog
  | none => 10000

/-- The limit in force (R83). DESIGN CHOICE (log 46): a change that has started and waits for its curtain point is in progress. -/
def Quad.stallLimit (x : Quad) : Nat :=
  match x.chg with
  | some c => max (x.wdog c.old) (x.wdog c.target)
  | none => x.wdog x.gwSlot

/-- Cause 1 at a CU: of the queues its firing word names, one full while another is empty (R84). DESIGN CHOICE (log 46): with several
of either, the first in the order IN0, IN1, AQ, BQ is named. -/
def Quad.joinAt (x : Quad) (row col : Nat) : Option (Nat × Nat × Nat) :=
  match x.cfg row col with
  | none => none
  | some g =>
    let named := (([g.in0, g.in1] ++ (if g.maten then [g.aq, g.bq] else [])).filter (· ≤ 5)).eraseDups
    let full := named.find? (fun n => decide ((x.inq row col n).length ≥ 64))
    let empty := named.find? (fun n => (x.inq row col n).isEmpty)
    match full, empty with
    | some f, some e => some (f, e, (x.inq row col f).length)
    | _, _ => none

/-- Cause 2 at an MU: an AG waiting on a cue counter: the AG, the counter, its advance and the advance awaited. -/
def Quad.cueWaitAt (x : Quad) (row col : Nat) : Option (Nat × Nat × Nat × Nat) :=
  match x.cfg row col with
  | none => none
  | some g =>
    (List.range 4).findSome? (fun i =>
      let d := agDescOf (g.ags.getD i 0)
      match ((x.mu row col).ags.getD i AgSt.idle).next d (x.rstartAt row col) with
      | some nx =>
        match nx.wait with
        | some (c, t) =>
          if x.cueMet nx.wait then none
          else
            let base := if d.mode ≤ 2 then (x.rstartAt row col).getD c 0 else 0
            some (i, c, (x.cues.getD c { posted := 0, retired := 0 }).posted - base, t - base)
        | none => none
      | none => none)

/-- The sites in row, then column, order. -/
def allSites : List (Nat × Nat) := (List.range 352).map (fun i => (i / 22, i % 22))

/-- The stall record of a trip (R84, R86). -/
def State.stallRec (s : State) (q : Nat) (forced3 : Bool) : StallRec :=
  let x := s.quad q
  let r0 : StallRec := { cause := 3, full := 0, empty := 0, fullCount := 0, tripUs := s.now, progressUs := x.progress
                         cueAg := 0, cueIdx := 0, cueValue := 0, cueTarget := 0 }
  if forced3 then r0
  else match allSites.findSome? (fun k => if isCu k.1 k.2 then (x.joinAt k.1 k.2).map (fun j => (k, j)) else none) with
  | some (k, f, e, n) =>
    { r0 with cause := 1, full := k.1 + 16 * k.2 + 512 * f, empty := k.1 + 16 * k.2 + 512 * e, fullCount := n }
  | none =>
    match allSites.findSome? (fun k => if isCu k.1 k.2 then none else (x.cueWaitAt k.1 k.2).map (fun j => (k, j))) with
    | some (k, a, c, v, t) => { r0 with cause := 2, cueAg := k.1 + 16 * k.2 + 512 * a, cueIdx := c, cueValue := v, cueTarget := t }
    | none => r0

/-- The stage manager's part of a trip: the job's other quadrants are cut, and the members of a troupe-wide job are told that it has
ended with STALLED (R84). -/
def State.stallJob (s : State) (q : Nat) : State :=
  match s.jobAt q with
  | none => s
  | some j =>
    let s := s.cutJob j
    if j.members ≠ 0 ∧ s.fab.role = .lead ∧ j.toldEnd.isNone then
      (s.tellMembers j (troupeMsg 0x14 STALLED j.id ((s.genNext + if s.passInFlight j.id then 1 else 0) % 65536) 0)).updJob j.id (fun (j : Job) => { j with toldEnd := some STALLED })
    else s

/-- A quadrant is held and its strike begins; without tier-1 space only the stall record is kept (R84). -/
def State.stallTrip (s : State) (q : Nat) (forced3 : Bool) : State :=
  let r := s.stallRec q forced3
  let s := (s.updQuad q (fun x => { x with halted := true, stall := some r })).bump 0x25 q 0 1
  let jid := match s.jobAt q with | some j => j.id | none => 0
  let s := s.stallJob q
  let old := (s.quad q).stallImg
  let s : State := if old = 0 then s else { s with pool := s.pool.clear 1 old }
  let (cells, pois) := s.strikeCells q 2 jid r.bytes
  let oid := s.nextOid 2
  let s := s.updQuad q (fun x => { x with stallImg := 0 })
  match s.reserveNew 2 (newRec oid 1 (2 ^ q) strikeBytes jid 0 0) false with
  | (some s', _) => s'.startPlacing { pid := 0, oid := oid, tier := 1, qmask := 2 ^ q, len := strikeBytes, src := .bytes cells pois
                                      pinAt := true, for_ := .stall q, f := 0 }
  | (none, s') => s'

/-- STALL_WATCHDOG_TRIP (R83, R84): with a run or a change active and no progress for the limit, the quadrant halts. -/
def execStallWatchdogTrip (q : Nat) (s : State) : Ans :=
  .next (
    let x := s.quad q
    if s.quadRuns q && x.active && decide (x.progress + x.stallLimit ≤ s.now) then s.stallTrip q false else s)

/-- STALL_STRIKE_COMMIT (R84 steps 5 and 6): the image commits, JOIN_STALL is raised, the job completes with STALLED, and the
quadrant is reset with its counters kept. -/
def execStallStrikeCommit (q : Nat) (s : State) : Ans :=
  .next (
    let x := s.quad q
    match x.stall with
    | none => s
    | some r =>
      if !s.isOn || !x.halted then s
      else
        let s := match s.pool.placing.find? (fun p => p.for_ == .stall q) with
          | some p => ((s.commitPlacing p).2).updQuad q (fun x => { x with stallImg := p.oid })
          | none => s
        let s := s.raise 0x11 q (leBytes 2 r.cause ++ leBytes 2 r.full ++ leBytes 2 r.empty ++ leBytes 2 r.fullCount)
        let s := s.endJobAt q STALLED
        s.quadReset q true)

end Sys2Proof.Machine
end

