-- ==== Sys2Proof/Machine/Place.lean ====
section
/-! DEFINITION. Placements from their check to what their commit completes (R131 to R133, R145), the loading and staging of
productions that runs on them (R185 to R188), and the commands PLACE and PLACEMENT_COMMIT. -/

namespace Sys2Proof.Machine

open Config

/-! ### Starting a placement (R132 steps 1 to 3) -/

/-- The source range reaches no hole, and its object is committed in the other tier and long enough. -/
def State.srcOk (s : State) (p : Placing) : Bool :=
  match p.src with
  | .addr a => s.reachable p.f a p.len false
  | .obj oid off => match s.pool.readable (3 - p.tier) oid with | some r => decide (off + p.len ≤ r.len) | none => false
  | .bytes _ _ => true

/-- A source can be read: the repertory is ready where the source is in it, and no quadrant whose memories it is read from is dark
(R23, R132, R154, R315). -/
def State.srcReady (s : State) (src : PSrc) (otherTier len : Nat) (readers : List Nat) : Bool :=
  let t1 := match src with | .obj _ _ => otherTier == 1 | _ => false
  let repertory := match src with | .addr a => inWindow a 1 | .obj _ _ => otherTier == 2 | .bytes _ _ => false
  (!repertory || s.rdy 25) && (s.srcQuads src otherTier len readers).all (fun q => if t1 then s.quadReady q true else !s.dark q)

/-- Every quadrant of the target is ready, the repertory too where the target is in it, and the source can be read. -/
def State.placeReady (s : State) (p : Placing) : Bool :=
  (maskList p.qmask 4).all (fun q => s.quadReady q (p.tier == 1)) && (p.tier != 2 || s.rdy 25) &&
  s.srcReady p.src (3 - p.tier) p.len (maskList p.qmask 4)

/-- The quadrants that a placement needs. -/
def State.placeQuads (s : State) (p : Placing) : List Nat :=
  maskList p.qmask 4 ++ s.srcQuads p.src (3 - p.tier) p.len (maskList p.qmask 4)

/-- The status that refuses a placement before it changes anything (R133). -/
def State.placeCheck (s : State) (p : Placing) : Option Nat :=
  if s.pool.reserved p.tier p.oid then some BUSY
  else if s.pool.present p.tier p.oid then some BAD
  else if !s.srcOk p then some BAD
  else if !s.placeReady p then some NOTREADY
  else none

/-- Check, allocate and start a placement: DONE when it has started, else the status it fails with. A refusal because a quadrant is
dark starts its wake (R359). A source object's
hold is taken and released by a placement that finds no space, which stamps it (R132, R135). -/
def State.placeNow (s : State) (r : Rec) (p : Placing) (noEvict : Bool) : Nat × State :=
  match s.placeCheck p with
  | some st => (st, if st = NOTREADY then (s.placeQuads p).foldl State.wake s else s)
  | none =>
    match s.reserve r noEvict with
    | (some s', _) => (DONE, s'.startPlacing p)
    | (none, s') =>
      (NOSPACE, match p.src with
        | .obj oid _ => { s' with pool := s'.pool.stamp (3 - p.tier) oid s'.stampNow }
        | _ => s')

/-! ### Productions (R185 to R187) -/

def State.updProd (s : State) (num : Nat) (g : Sys2Proof.Machine.Prod → Sys2Proof.Machine.Prod) : State :=
  { s with sv := { s.sv with prods := s.sv.prods.map (fun p => if p.num == num then g p else p) } }

/-- Loading fails: the production is ABSENT again and its command completes (R186). -/
def State.failProdLoad (s : State) (num status : Nat) : State :=
  match s.prod? num with
  | none => s
  | some p => ({ s with sv := { s.sv with prods := s.sv.prods.filter (·.num != num) } }).completeAs p.slot status 0xFFFF

/-- An entry is already committed in tier 2 as the manifest asks (R186). -/
def State.stored (s : State) (o : ObjEnt) : Bool :=
  match s.pool.readable 2 o.oid with
  | some r => decide (r.len = o.len) && decide (o.q2 &&& (15 - r.qmask) = 0)
  | none => false

/-- Go on loading a production: place the next entry that is not stored yet, and last the manifest itself (R186). -/
def State.loadNext : Nat → Nat → State → State
  | 0, _, s => s
  | fuel + 1, num, s =>
    match s.prod? num with
    | none => s
    | some p =>
      let f := match p.slot with | some (f, _) => f | none => 0
      match p.todo with
      | o :: rest =>
        if s.stored o then State.loadNext fuel num (s.updProd num (fun p => { p with todo := rest }))
        else
          let (st, s) := s.placeNow (newRec o.oid 2 o.q2 o.len 0 0 0)
            { pid := 0, oid := o.oid, tier := 2, qmask := o.q2, len := o.len, src := .addr o.src, pinAt := p.man.pin2
              for_ := .load num, f := f } false
          if st = DONE then s else s.failProdLoad num st
      | [] =>
        let n := 256 + 32 * p.man.objs.length
        let (st, s) := s.placeNow (newRec p.man.manId 2 1 n 0 0 0)
          { pid := 0, oid := p.man.manId, tier := 2, qmask := 1, len := n, src := .bytes p.manBytes [], pinAt := false
            for_ := .load num, f := f } false
        if st = DONE then s else s.failProdLoad num st

/-- A placement of a loading production has committed. -/
def State.loaded (s : State) (num oid : Nat) : State :=
  match s.prod? num with
  | none => s
  | some p =>
    if oid = p.man.manId then
      (s.updProd num (fun p => { p with st := .stored, slot := none, todo := [], manBytes := [] })).completeOpt p.slot DONE 0
    else State.loadNext (p.todo.length + 2) num (s.updProd num (fun p => { p with todo := p.todo.drop 1 }))

/-- A production has resident weights. -/
def Manifest.resident (m : Manifest) : Bool := m.objs.any (fun o => o.role == 1)

/-- A running or held job of another production holds a quadrant of a production (R187). -/
def State.othersHold (s : State) (p : Sys2Proof.Machine.Prod) : Bool :=
  s.sv.jobs.any (fun j => (j.owns || j.st == .held) && j.prod != p.num && decide (s.jobQuads j &&& p.man.quads ≠ 0))

/-- Run a production's resident-load cue sheet (R187 step 4, R188, R179). -/
def State.startResident (s : State) (num : Nat) : State :=
  match s.prod? num with
  | none => s
  | some p =>
    let s := s.updProd num (fun p => { p with resLoad := true })
    (s.queueSheets p 4 (loadJob num) 0).residentDone

/-- Staging steps 3 and 4 (R187): tier-2 holds are released, the alias table is filled, the sheets are checked (R170), and
the resident load runs when nothing else holds the quadrants. -/
def State.finishStage (s : State) (num : Nat) : State :=
  match s.prod? num with
  | none => s
  | some p =>
    let s := (s.pool.holds.filter (fun h => h.who == .prod num && h.tier == 2)).foldl (fun s h => s.unhold 2 h.oid (.prod num)) s
    let binds := (p.man.objs.filter (fun o => decide (o.tag ≤ 255))).map (fun o => (o.tag, o.oid))
    let s := s.updProd num (fun p => { p with bindings := binds })
    let p := { p with bindings := binds }
    if !s.sheetsOk p then s.failStage num BAD 0xFFFF
    else if !p.man.resident then
      (s.updProd num (fun p => { p with st := .onStage, slot := none })).completeOpt p.slot DONE 2
    else if s.othersHold p then
      (s.updProd num (fun p => { p with st := .staged, slot := none })).completeOpt p.slot DONE 1
    else s.startResident num

/-- An entry is already committed in tier 1 where the manifest wants it (R187). -/
def State.staged (s : State) (o : ObjEnt) : Bool :=
  match s.pool.readable 1 o.oid with
  | some r => decide (o.q1 &&& (15 - r.qmask) = 0)
  | none => false

/-- An entry of a staging production is in tier 1: it takes its hold. -/
def State.stageHold (s : State) (num oid : Nat) : State :=
  (s.hold 1 oid (.prod num)).updProd num (fun p => { p with todo := p.todo.filter (·.oid != oid) })

/-- Staging step 2 (R187) over the entries left, in manifest order: an entry is held or placed once no earlier entry is left in any
quadrant of its QMASK, so that each quadrant's placements run in manifest order and the quadrants in parallel. `busy`: the quadrants
of the entries passed over. -/
def State.stageFrom (num f : Nat) : List ObjEnt → Nat → State → State
  | [], _, s => s
  | o :: rest, busy, s =>
    if o.q1 &&& busy ≠ 0 || s.pool.placing.any (fun p => p.for_ == .stage num && p.oid == o.oid) then
      State.stageFrom num f rest (busy ||| o.q1) s
    else if s.staged o then State.stageFrom num f rest busy (s.stageHold num o.oid)
    else
      match s.placeNow (newRec o.oid 1 o.q1 o.len 0 o.oid 0)
        { pid := 0, oid := o.oid, tier := 1, qmask := o.q1, len := o.len, src := .obj o.oid 0, pinAt := false
          for_ := .stage num, f := f } false with
      | (st, s) => if st = DONE then State.stageFrom num f rest (busy ||| o.q1) s else s.failStage num st 0xFFFF

/-- Go on staging a production: when no entry is left, steps 3 and 4. -/
def State.stageNext (s : State) (num : Nat) : State :=
  match s.prod? num with
  | none => s
  | some p =>
    let s := State.stageFrom num (match p.slot with | some (f, _) => f | none => 0) p.todo 0 s
    match s.prod? num with
    | some p => if p.st == .staging && p.todo.isEmpty then s.finishStage num else s
    | none => s

/-- A tier-1 placement of a staging production has committed. -/
def State.stagedOne (s : State) (num oid : Nat) : State := (s.stageHold num oid).stageNext num

/-! ### Loans at the borrower (R144 to R146) -/

/-- The borrower still counts the loan's term, which ends 1/16,384 early (R146). -/
def LoanTaken.live (l : LoanTaken) (now : Nat) : Bool := decide (now < l.sent + (l.term - ceilDiv l.term 16384))

/-- Bytes of a loan in use, in whole blocks. -/
def LoanTaken.used (l : LoanTaken) : Nat := (l.objs.map (fun o => ceilDiv o.2.1 blockBytes * blockBytes)).foldl (· + ·) 0

/-- Evict the borrower's own objects of a loan that are not pinned or held, lowest stamp and then lowest ID first, until n more bytes
fit (R136, R145). Answers the objects evicted, and the loan. -/
def LoanTaken.makeRoom (n : Nat) (held : List Nat) : Nat → LoanTaken → List Nat × LoanTaken
  | 0, l => ([], l)
  | fuel + 1, l =>
    if l.used + ceilDiv n blockBytes * blockBytes ≤ l.size * 2 ^ 30 then ([], l)
    else
      match (l.objs.filter (fun o => !l.pins.contains o.1 && !held.contains o.1)).foldl (fun (acc : Option (Nat × Nat × Nat)) o =>
          match acc with
          | none => some o
          | some b => if o.2.2 < b.2.2 ∨ (o.2.2 = b.2.2 ∧ o.1 < b.1) then some o else some b) none with
      | some v =>
        let r := LoanTaken.makeRoom n held fuel { l with objs := l.objs.filter (fun o => o.1 != v.1) }
        (v.1 :: r.1, r.2)
      | none => ([], l)

def State.updTaken (s : State) (id : Nat) (g : LoanTaken → LoanTaken) : State :=
  { s with pool := { s.pool with taken := s.pool.taken.map (fun l => if l.id == id then g l else l) } }

/-- Objects of a loan that a get is reading: a reader holds them (R134, R145). -/
def State.loanReads (s : State) (id : Nat) : List Nat :=
  (s.fab.ops.filter (fun o => o.kind == 2 && o.msg.a2.getLsbD 4 && bits o.msg.a2.toNat 16 32 == id)).map (fun o => o.msg.a0.toNat)

/-- Tell the lender of a loan that an object of it has been evicted. R253 gives no message for it: DESIGN CHOICE (log 52), a LOAN_PUT
of length 0. -/
def State.loanEvicted (l : LoanTaken) (s : State) (oid : Nat) : State :=
  (s.issue (xop0 0x04 l.peer { msg0 0x04 with a0 := arg l.id, a1 := arg oid, a3 := arg (2 ^ 40) })).2

/-- Send a borrower's object to its lender as LOAN_PUT segments of at most 65,536 B, which complete the waiting slot (R145,
R254). `tier` holds 3 and `qmask` the loan ID in such a placement. -/
def State.loanPuts (s : State) (p : Placing) (l : LoanTaken) (slot : Nat × Nat) (cells : Mem) (pois : List (Nat × Nat)) : State :=
  let (par, s) := s.newParent
  let n := ceilDiv p.len 65536
  (List.range n).foldl (fun s i =>
    let k := min 65536 (p.len - 65536 * i)
    let m : Msg := { msg0 0x04 with
      a0 := arg p.qmask, a1 := arg p.oid, a2 := arg (65536 * i), a3 := arg (p.len + (if i + 1 = n then 2 ^ 40 else 0))
      payload := memRead cells (65536 * i) k
      poison := flitsBad k (pois.filterMap (fun (a, w) =>
        if 65536 * i < a + w then some (max a (65536 * i) - 65536 * i, a + w - max a (65536 * i)) else none)) }
    let (ok, s) := s.issue { xop0 0x04 l.peer m with parent := par, off := 65536 * i, slot := some slot }
    -- an unroutable message completes the operation with REMOTE_LOST (R265)
    if ok then s else
      (({ s with fab := { s.fab with ops := s.fab.ops.filter (·.parent != par) } }).bump 0x72 0 9 1).completeOpt
        (if ((s.fn slot.1).slot slot.2).st == SlotSt.working then some slot else none) LOST 0) s

/-! ### What a commit completes -/

/-- What the commit of a placement, with its count of marked lines, brings about. -/
def State.placed (s : State) (p : Placing) (lines : Nat) : State :=
  let st := if lines > 0 then POISONED else DONE
  match p.for_ with
  | .slot f n => s.complete f n st lines
  | .load num => s.loaded num p.oid
  | .stage num => s.stagedOne num p.oid
  | .entry q tq n => (s.bump 0x41 q (5 * tq + 4) p.len).teDone q tq n
  | .lendSide loan peer opid _ =>
    let s : State := { s with pool := { s.pool with given := s.pool.given.map (fun (g : LoanGiven) =>
      if g.id == loan then { g with used := g.used + p.len } else g) } }
    let s := s.hold p.tier p.oid (.loan loan)
    s.tell peer { msg0 0x81 with opid := opid, a0 := arg st, a1 := arg lines }
  | .borrow _ _ => s
  | .seal _ _ _ => s
  | .park _ => s
  | .resume _ => s
  | .stall _ => s

/-- Placements that commit by a row of their own. -/
def PFor.ownRow : PFor → Bool
  | .seal _ _ _ => true
  | .park _ => true
  | .resume _ => true
  | .stall _ => true
  | .slot _ _ => false
  | .load _ => false
  | .stage _ => false
  | .entry _ _ _ => false
  | .lendSide _ _ _ _ => false
  | .borrow _ _ => false

/-- The tier that a borrower's object is read from: a committed object of tier 2 first, then one of tier 1. R131 names `the other
tier` and a loan is in neither: DESIGN CHOICE (log 52). -/
def State.loanTier (s : State) (oid : Nat) : Nat := if (s.pool.readable 2 oid).isSome then 2 else 1

/-- A placement's operations may all have been issued: those of PRODUCTION_LOAD and ON_STAGE are issued while the tier engines of
their quadrants hold fewer than 512 operations (R190, log 53), and a cue-sheet PLACE's as the tracker grants them (R169). -/
def State.moveOpen (s : State) (p : Placing) : Bool :=
  let gate := (maskList p.qmask 4).all (fun q => decide ((s.quad q).teSlots < 512))
  match p.for_ with
  | .load _ => gate
  | .stage _ => gate
  | .entry q tq n =>
    (match ((s.quad q).queues.getD tq default).live n with
     | some e => decide (e.opsLeft = 0)
     | none => false)
  | _ => true

/-- The MU lines that a placement reads directly (R424). -/
def Placing.muRead (p : Placing) : Nat × Nat := match p.src with | .addr a => (a, p.len) | _ => (0x200000000, 0)

/-- The placement may read the MUs of its source in this cycle (R424). -/
def State.placeFree (s : State) (p : Placing) : Bool := s.engineFree p.muRead.1 p.muRead.2 false

/-- The data of a placement has moved, its reads of MU lines done: its copies commit. Answers the count of marked lines. -/
def State.moveCommit (s : State) (p : Placing) : Nat × State := (s.engineTake p.muRead.1 p.muRead.2 false).commitPlacing p

/-- PLACEMENT_COMMIT (R129, R132 steps 4 to 6): the data of a started placement has moved, and its copies commit. -/
def execPlacementCommit (pid : Nat) (h : HostView) (s : State) : Ans :=
  .next (
    match s.pool.placing.find? (·.pid == pid) with
    | none => s
    | some p =>
      if !s.isOn || p.for_.ownRow || !s.moveOpen p || !s.placeFree p then s
      else
        let s := s.withHost h
        match p.for_ with
        | .borrow f n =>
          let ps := s.srcPieces p.f p.src (match p.src with | .obj oid _ => s.loanTier oid | _ => 2) p.len 0
          let (cells, pois) := match p.src with
            | .bytes c k => (c, k)
            | _ => s.gather ps 0
          let s := (s.engineTake p.muRead.1 p.muRead.2 false).noteReads (((s.srcQuads p.src (match p.src with | .obj oid _ => s.loanTier oid | _ => 2) p.len [0]).head?).getD 0) ps
          let s := ({ s with pool := { s.pool with placing := s.pool.placing.filter (·.pid != pid) } }).unholdAll (.place pid)
          (match s.pool.taken.find? (·.id == p.qmask) with
           | some l => if l.live s.now then s.loanPuts p l (f, n) cells pois else s.complete f n EVICTED 0
           | none => s.complete f n EVICTED 0)
        | _ =>
          let (lines, s) := s.moveCommit p
          s.placed p lines)

/-! ### PLACE (R131) -/

/-- The first parameter of a PLACE found wrong, by packet offset. -/
def State.placeBad (s : State) (p : Pkt) : Option Nat :=
  let oid := p.at 0x40 8
  let src := bits (p.at 0x48 8) 0 48
  let len := p.at 0x50 8
  let sobj := p.at 0x58 8
  let soff := p.at 0x60 8
  let tier := p.at 0x68 1
  let qm := bits (p.at 0x69 1) 0 4
  let srcRec := s.pool.readable (if tier = 3 then s.loanTier sobj else 3 - tier) sobj
  if oid = 0 ∨ oid ≥ 2 ^ 60 then some 0x40
  else if sobj = 0 ∧ !((decide (src < 0x200000000) && decide (src % 128 = 0)) || inWindow src 1 || isHost src) then some 0x48
  else if sobj ≠ 0 ∧ src ≠ 0 then some 0x48
  else if s.azgen ∧ sobj = 0 ∧ inWindow src 1 ∧ (src - 0x040000000000) / 0x10000000000 ≠ p.f then some 0x48
  else if len = 0 ∨ (tier ≤ 2 ∧ len > tierLimit tier) then some 0x50
  else if sobj = 0 ∧ !(if inWindow src 1 then inWindow src len else s.reachable p.f src len false) then some 0x48
  else if sobj ≠ 0 ∧ srcRec.isNone then some 0x58
  else if sobj ≠ 0 && (match srcRec with | some r => decide (soff + len > r.len) | none => false) then some 0x60
  else if tier = 0 ∨ tier > 3 ∨ (s.azgen ∧ tier = 3) then some 0x68
  else if tier ≤ 2 ∧ (qm = 0 ∨ !s.ownQuad p qm) then some 0x69
  else if tier ≤ 2 ∧ p.at 0x6C 4 ≠ 0 then some 0x6C
  else none

/-- A PLACE into a borrowed loan (R145): the borrower's own objects make room, and the data goes to the lender. LENGTH may be at most
`the loan's free size` (R131), which eviction still raises: DESIGN CHOICE (log 52), a LENGTH above the loan's SIZE is BAD_PARAM, and
one that finds no room after eviction NO_SPACE. -/
def State.placeLoan (s : State) (p : Pkt) : State × Rep :=
  let oid := p.at 0x40 8
  let len := p.at 0x50 8
  let loan := p.at 0x6C 4
  let noEvict := (p.at 0x6A 1).testBit 1
  let sobj := p.at 0x58 8
  let src : PSrc := if sobj = 0 then .addr (bits (p.at 0x48 8) 0 48) else .obj sobj (p.at 0x60 8)
  let tier := s.loanTier sobj
  if s.fab.fenced then (s, .fin FENCED 0)
  else
    match s.pool.taken.find? (·.id == loan) with
    | none => (s, .fin EVICTED 0)
    | some l =>
      if !l.live s.now then (s, .fin EVICTED 0)
      else if len > l.size * 2 ^ 30 then (s, .bad 0x50)
      else if s.pool.placing.any (fun x => x.tier == 3 && x.oid == oid) || s.fab.ops.any (fun o => o.kind == 4 && o.msg.a1 == arg oid) then
        (s, .fin BUSY 0)
      else if s.pool.taken.any (fun t => t.objs.any (fun o => o.1 == oid)) then (s, .bad 0x40)
      else if !s.srcReady src tier len [0] then ((s.srcQuads src tier len [0]).foldl State.wake s, .fin NOTREADY 0)
      else
        let (gone, l') := if noEvict then ([], l) else LoanTaken.makeRoom len (s.loanReads loan) l.objs.length l
        -- evictions already made stand, whether or not they suffice (R133)
        let s := gone.foldl (State.loanEvicted l) (s.updTaken loan (fun _ => l'))
        if l'.used + ceilDiv len blockBytes * blockBytes > l.size * 2 ^ 30 then (s, .fin NOSPACE 0)
        else
          let pin := (p.at 0x6A 1).testBit 0
          let s := s.updTaken loan (fun l => { l with pins := l.pins.filter (· ≠ oid) ++ (if pin then [oid] else []) })
          let pid := s.pool.nextPid
          let s : State := { s with pool := { s.pool with
            nextPid := pid + 1
            placing := s.pool.placing ++ [{ pid := pid, oid := oid, tier := 3, qmask := loan, len := len, src := src
                                            pinAt := pin, for_ := .borrow p.f p.n, f := p.f }] } }
          let s := if sobj = 0 then s else s.hold tier sobj (.place pid)
          (s, .later)

/-- PLACE's own rule. -/
def State.placeRule (p : Pkt) (s : State) : State × Rep :=
  match s.placeBad p with
  | some off => (if off = 0x48 ∧ isHost (bits (p.at 0x48 8) 0 48) then s.bump 0x01 p.f 9 1 else s, .bad off)
  | none =>
    let oid := p.at 0x40 8
    let tier := p.at 0x68 1
    let qm := bits (p.at 0x69 1) 0 4
    let len := p.at 0x50 8
    let sobj := p.at 0x58 8
    if tier = 3 then s.placeLoan p
    else
      let src : PSrc := if sobj = 0 then .addr (bits (p.at 0x48 8) 0 48) else .obj sobj (p.at 0x60 8)
      let (st, s) := s.placeNow (newRec oid tier qm len 0 sobj 0)
        { pid := 0, oid := oid, tier := tier, qmask := qm, len := len, src := src, pinAt := (p.at 0x6A 1).testBit 0
          for_ := .slot p.f p.n, f := p.f } ((p.at 0x6A 1).testBit 1)
      (s, if st = DONE then .later else if st = BAD then .bad 0x40 else .fin st 0)

/-- PLACE (R131 to R133, R145). -/
def execPlace (f slot : Nat) (s : State) : Ans := .next (s.command f slot 0x0201 State.placeRule)

end Sys2Proof.Machine
end

