-- ==== Sys2Proof/Machine/PoolCmds.lean ====
section
/-! DEFINITION. The pool's commands and events (R134 to R146, R154, R277, R278): EVICT, PIN, POOL_QUERY, LEND, BORROW, loan
ends, the wings sweep, the patrol scrub, CXL.mem accesses and snoops. -/

namespace Sys2Proof.Machine

open Config

/-! ### EVICT, PIN, POOL_QUERY -/

/-- A copy of the object in the tier is reserved, held or pinned. -/
def Pool.locked (p : Pool) (tier oid : Nat) : Bool := p.reserved tier oid || p.isHeld tier oid || p.isPinned tier oid

/-- EVICT's own rule (R137). -/
def State.evictRule (p : Pkt) (s : State) : State × Rep :=
  let oid := p.at 0x40 8
  let t := p.at 0x48 1
  let tiers := if t = 3 then [1, 2] else [t]
  if t = 0 ∨ t > 3 then (s, .bad 0x48)
  else if oid >>> 60 ≥ 6 then (s, .bad 0x40)
  else if tiers.any (fun k => s.pool.locked k oid) then (s, .fin BUSY 0)
  else if !tiers.any (fun k => s.pool.present k oid) then (s, .bad 0x40)
  else ({ s with pool := tiers.foldl (fun q k => q.clear k oid) s.pool }, .fin DONE 0)

/-- EVICT (R137). -/
def execEvict (f slot : Nat) (s : State) : Ans := .next (s.command f slot 0x0202 State.evictRule)

/-- Pinning would raise a quadrant's pinned blocks above 90 % of its pool (R138). -/
def Pool.pinOver (p : Pool) (tier oid : Nat) : Bool :=
  (p.copies tier oid).any (fun r => decide (10 * (p.pinnedBlocks tier r.copy + ceilDiv r.len blockBytes) > 9 * poolBlocks tier))

/-- PIN's own rule (R138); a class 4 object is never pinned (R140). -/
def State.pinRule (p : Pkt) (s : State) : State × Rep :=
  let oid := p.at 0x40 8
  let t := p.at 0x48 1
  let act := p.at 0x49 1
  if t = 0 ∨ t > 2 then (s, .bad 0x48)
  else if act > 1 then (s, .bad 0x49)
  else if oid >>> 60 ≥ 6 then (s, .bad 0x40)
  else if s.pool.reserved t oid then (s, .fin BUSY 0)
  else if !s.pool.present t oid ∨ oid >>> 60 = 4 then (s, .bad 0x40)
  else if act = 0 then ({ s with pool := { s.pool with pins := s.pool.pins.filter (fun e => e ≠ (t, oid)) } }, .fin DONE 0)
  else if s.pool.isPinned t oid then (s, .fin DONE 0)
  else if s.pool.pinOver t oid then (s, .fin LIMIT 0)
  else ({ s with pool := { s.pool with pins := s.pool.pins ++ [(t, oid)] } }, .fin DONE 0)

/-- PIN (R138). -/
def execPin (f slot : Nat) (s : State) : Ans := .next (s.command f slot 0x0203 State.pinRule)

/-- Blocks of the records of a region that satisfy a test. -/
def recBlocks (rs : List Rec) : Nat := (rs.flatMap (·.ext)).foldl (fun n e => n + e.2) 0

/-- One 32-byte entry of the POOL_QUERY report: a tier's pool in a quadrant, or its wings (R139). -/
def State.poolEntry (s : State) (tier q : Nat) (wings : Bool) : List Byte :=
  let p := s.pool
  let rs := p.recs.filter (fun r => r.tier == tier && r.copy == q && (r.oid >>> 60 == 4) == wings)
  let cap := if wings then wingsBlocks else poolBlocks tier
  let runs := p.runs tier q (if wings then 4 else 0)
  let lowest := (p.evictable tier q).foldl (fun n o => min n (p.stampOf tier o)) 0xFFFFFFFF
  let expired := (rs.filter (fun r => r.committed && decide (r.expiry ≤ s.now))).length
  leBytes 4 cap ++ leBytes 4 (cap - recBlocks rs) ++ leBytes 4 (recBlocks (rs.filter (fun r => p.isPinned tier r.oid))) ++
  leBytes 4 (recBlocks (rs.filter (fun r => p.isHeld tier r.oid))) ++ leBytes 4 (rs.filter (·.committed)).length ++
  leBytes 4 (runs.foldl (fun n r => max n r.2) 0) ++ leBytes 4 (if wings then expired else lowest) ++
  leBytes 4 (if s.dark q then 1 else 0)

/-- The POOL_QUERY report (R139). -/
def State.poolReport (s : State) : List Byte :=
  leBytes 8 s.now ++ leBytes 4 s.stampNow ++ leBytes 4 s.pool.given.length ++ leBytes 4 s.pool.taken.length ++ leBytes 12 0 ++
  (List.range 4).flatMap (fun q => s.poolEntry 1 q false) ++ (List.range 4).flatMap (fun q => s.poolEntry 2 q false) ++
  (List.range 4).flatMap (fun q => s.poolEntry 2 q true)

/-- POOL_QUERY (R139). -/
def execPoolQuery (f slot : Nat) (s : State) : Ans :=
  .next (s.command f slot 0x0204 (fun p s =>
    if p.at 0x48 4 < 416 then (s, .bad 0x48) else s.report p 0x40 (p.at 0x40 8) (p.at 0x48 4) s.poolReport 0))

/-! ### Lending (R143, R146) -/

/-- A PEER field as a peer number. DESIGN CHOICE (log 52): a value from 0x4000 to 0x7FFF, which is no 14-bit address and has bit 15
clear, is taken modulo 16,384, as if bit 14 were reserved (R8). -/
def peerField (v : Nat) : Nat := if v ≥ 0x8000 then peerOf (v % 8) else v % 16384

/-- Free blocks of a tier's pool in a quadrant. -/
def Pool.freeBlocks (p : Pool) (tier q : Nat) : Nat := (p.runs tier q 0).foldl (fun n r => n + r.2) 0

/-- Shares of b blocks over quadrants in proportion to free space, the remainder to the lowest quadrants with room. -/
def shareOut (b total : Nat) : List (Nat × Nat) → Nat → List (Nat × Nat)
  | [], _ => []
  | (q, free) :: rest, extra =>
    let k := b * free / total
    let more := min extra (free - k)
    (q, k + more) :: shareOut b total rest (extra - more)

/-- Free runs of a quadrant, in the order in which R127 takes them. -/
def Pool.runsDown (p : Pool) (tier q : Nat) : List (Nat × Nat) :=
  sortBy (fun a b => decide (a.2 > b.2 ∨ (a.2 = b.2 ∧ a.1 ≤ b.1))) (p.runs tier q 0)

/-- Reserve b blocks of a tier over the ready quadrants, evicting by age until they suffice (R136, R143). Reserved space is no object:
the model keeps it under an ID of class 6, which no object has, with no record in a directory (log 52). -/
def State.lendSpace (tier b oid : Nat) : Nat → State → Option State × State
  | fuel, s =>
    let qs := (List.range 4).filter (fun q => s.quadReady q (tier == 1))
    let frees := qs.map (fun q => (q, s.pool.freeBlocks tier q))
    let total := frees.foldl (fun n e => n + e.2) 0
    if b ≤ total then
      let base := frees.foldl (fun n e => n + b * e.2 / total) 0
      let shares := (shareOut b total frees (b - base)).filter (fun e => decide (0 < e.2))
      let qm := shares.foldl (fun m e => m + 2 ^ e.1) 0
      let s' : State := shares.foldl (fun s e =>
        { s with pool := { s.pool with recs := s.pool.recs ++
          [{ newRec oid tier qm (e.2 * blockBytes) 0 0 0 with copy := e.1, ext := (takeRuns (s.pool.runsDown tier e.1) e.2).getD [] }] } }) s
      (some s', s)
    else
      match fuel with
      | 0 => (none, s)
      | fuel + 1 =>
        match qs.findSome? (fun q => (s.pool.victim tier q).map (fun o => (q, o))) with
        | none => (none, s)
        | some (q0, o0) =>
          let (q, o) := qs.foldl (fun (b : Nat × Nat) q => match s.pool.victim tier q with
            | some o => if s.pool.stampOf tier o < s.pool.stampOf tier b.2 ∨
                (s.pool.stampOf tier o = s.pool.stampOf tier b.2 ∧ o < b.2) then (q, o) else b
            | none => b) (q0, o0)
          State.lendSpace tier b oid fuel ({ s with pool := s.pool.clear tier o }.bump 0x33 q (if tier = 1 then 2 else 3) 1)

/-- Free a loan at the lender: its reservation and its class 5 objects (R146). -/
def State.freeGiven (s : State) (id : Nat) : State :=
  let mine := (s.pool.recs.filter (fun r => r.oid >>> 60 == 5 && r.owner / 65536 == id)).map (fun r => (r.tier, r.oid))
  let resv := (s.pool.given.filter (·.id == id)).map (fun g => (g.tier, g.resv))
  let s := (s.pool.placing.filter (fun p => match p.for_ with | .lendSide l _ _ _ => l == id | _ => false)).foldl (fun s p => s.dropPlacing p) s
  { s with pool := { ((mine ++ resv).foldl (fun p e => p.clear e.1 e.2) s.pool) with
      given := s.pool.given.filter (·.id != id) } }

/-- Withdraw the offers to a peer. -/
def State.dropOffers (s : State) (peer : Nat) : State :=
  { s with pool := { ((s.pool.offers.filter (·.peer == peer)).foldl (fun p o => p.clear o.tier o.resv) s.pool) with
      offers := s.pool.offers.filter (·.peer != peer) } }

/-- Loans end at the borrower, whose objects in them are gone (R146). -/
def Pool.endTaken (p : Pool) (gone : LoanTaken → Bool) : Pool :=
  { p with taken := p.taken.filter (fun l => !gone l)
           ended := (p.ended ++ (p.taken.filter gone).flatMap (fun l => l.objs.map (fun o => (l.peer, o.1)))).eraseDups }

/-- End a loan at the borrower (R146). -/
def State.endTaken (s : State) (id : Nat) : State := { s with pool := s.pool.endTaken (·.id == id) }

/-- LEND's own rule (R143). -/
def State.lendRule (p : Pkt) (s : State) : State × Rep :=
  let peer := peerField (p.at 0x40 2)
  let tier := p.at 0x42 1
  let size := p.at 0x44 2
  let term := bits (p.at 0x48 8) 0 41
  if s.fab.fenced then (s, .fin FENCED 0)
  else if tier = 0 ∨ tier > 2 then (s, .bad 0x42)
  else if size > 512 then (s, .bad 0x44)
  else if term < 1000 ∨ term > 2 ^ 40 then (s, .bad 0x48)
  else if size = 0 then
    let s := s.dropOffers peer
    let s := (s.pool.given.filter (fun g => g.peer == peer && g.recalled.isNone)).foldl (fun s g =>
      s.tell peer { msg0 0x13 with a0 := arg g.id }) s
    ({ s with pool := { s.pool with given := s.pool.given.map (fun g =>
        if g.peer == peer && g.recalled.isNone then { g with recalled := some s.now } else g) } }, .fin DONE 0)
  else if s.pool.offers.any (·.peer == peer) then (s, .fin BUSY 0)
  else
    let lent := ((s.pool.given.filter (·.tier == tier)).map (·.size) ++ (s.pool.offers.filter (·.tier == tier)).map (·.size)).foldl (· + ·) 0
    if 2 * 4096 * (lent + size) > 4 * poolBlocks tier ∨ s.pool.given.length ≥ 16 then (s, .fin LIMIT 0)
    else
      let oid := 6 * 2 ^ 60 + s.pool.nextPid
      match State.lendSpace tier (4096 * size) oid s.pool.recs.length s with
      | (some s', _) =>
        ({ s' with pool := { s'.pool with
             nextPid := s'.pool.nextPid + 1
             offers := s'.pool.offers ++ [{ peer := peer, tier := tier, size := size, term := term, resv := oid }] } },
         .fin DONE 0)
      | (none, s') => (s', .fin NOSPACE 0)

/-- LEND (R143). -/
def execLend (f slot : Nat) (s : State) : Ans := .next (s.command f slot 0x0205 State.lendRule)

/-- Loans taken, with those asked for and not answered yet (R144). -/
def State.loansHeld (s : State) : Nat := s.pool.taken.length + (s.fab.ops.filter (fun o => o.kind == 8)).length

/-- BORROW's own rule (R144): the request goes to the lender, whose answer completes the command. -/
def State.borrowRule (p : Pkt) (s : State) : State × Rep :=
  let peer := peerField (p.at 0x40 2)
  let tier := p.at 0x42 1
  let size := p.at 0x44 2
  let loan := p.at 0x4C 4
  if s.fab.fenced then (s, .fin FENCED 0)
  else if tier = 0 ∨ tier > 2 then (s, .bad 0x42)
  else if size > 512 then (s, .bad 0x44)
  else if loan = 0 then
    if s.loansHeld ≥ 16 then (s, .fin LIMIT 0)
    else
      let m : Msg := { msg0 0x08 with a0 := arg (tier + size * 65536) }
      let (ok, s) := s.issue { xop0 0x08 peer m with slot := some (p.f, p.n) }
      (s, if ok then .later else .fin LOST 0)
  else
    match s.pool.taken.find? (·.id == loan) with
    | none => (s, .fin EVICTED 0)
    | some l =>
      if !l.live s.now then (s, .fin EVICTED 0)
      else
        let (ok, s) := s.issue { xop0 0x09 l.peer { msg0 0x09 with a0 := arg loan } with slot := some (p.f, p.n) }
        (s, if ok then .later else .fin LOST 0)

/-- BORROW (R144). -/
def execBorrow (f slot : Nat) (s : State) : Ans := .next (s.command f slot 0x0206 State.borrowRule)

/-- LOAN_TERM_EXPIRY (R146): each side counts the term in its own local µs, the borrower's count ending first. -/
def execLoanTermExpiry (loan : Nat) (lender : Bool) (s : State) : Ans :=
  .next (
    if !s.isOn then s
    else if lender then
      match s.pool.given.find? (·.id == loan) with
      | some g => if g.start + g.term ≤ s.now then s.freeGiven loan else s
      | none => s
    else
      match s.pool.taken.find? (·.id == loan) with
      | some l => if l.live s.now then s else s.endTaken loan
      | none => s)

/-- LOAN_RECALL_FREE (R146): 2,000 local µs after the recall was sent the lender frees the loan. -/
def execLoanRecallFree (loan : Nat) (s : State) : Ans :=
  .next (
    match s.pool.given.find? (·.id == loan) with
    | some g =>
      (match g.recalled with
       | some t => if s.isOn && decide (t + 2000 ≤ s.now) then s.freeGiven loan else s
       | none => s)
    | none => s)

/-! ### The wings (R141) -/

/-- WINGS_SWEEP (R141): expired parked caches that nothing holds are removed, and their requests are parked no more (R192, R211). -/
def execWingsSweep (s : State) : Ans :=
  .next (
    if !s.isOn then s
    else
      ((s.pool.recs.filter (fun r => r.tier == 2 && r.oid >>> 60 == 4 && r.committed && decide (r.expiry ≤ s.now) &&
        !s.pool.isHeld 2 r.oid)).foldl (fun s r => { s with pool := s.pool.clear 2 r.oid }.bump 0x33 r.copy 4 1) s).loseGone)

/-! ### Patrol scrub (R154) -/

/-- The last codeword of a stack or package, whose scrub completes a pass (R155). -/
def lastCodeword (grp off : Nat) : Bool := if grp = 0x31 then off == 0xC00000000 - 64 else off == 0x2000000000 - 64

/-- What the code of a codeword shows: an error that has come into it shows as what it is. -/
def State.scrubbed (s : State) (a : Nat) (kind : ScrubKind) : ScrubKind :=
  match look s.flaws a with | some true => .uncorrectable | some false => .correctable | none => kind

/-- PATROL_SCRUB (R154): one codeword is read; a correctable error is written back, an uncorrectable one becomes the poison
marker and raises MEM_UE. A dark quadrant is not scrubbed. -/
def execPatrolScrub (addr : Nat) (kind : ScrubKind) (s : State) : Ans :=
  .next (
    let a := addr / 64 * 64
    match stackOf a with
    | none => s
    | some (g, q, n, off) =>
      if !s.isOn || s.dark q || !s.inDevice a 64 then s
      else
        let s := if lastCodeword g off then s.bump g q (5 * n + 4) 1 else s
        if s.marks.contains a then s.bump g q (5 * n + 2) 1
        else match s.scrubbed a kind with
        | .clean => s
        | .correctable => (s.mend a 64).bump g q (5 * n) 1
        | .uncorrectable =>
          let s := (((s.mend a 64).bump g q (5 * n + 1) 1).bump g q (5 * n + 3) 1)
          ({ s with marks := markPut s.marks a }).raise 0x14 q
            ([BitVec.ofNat 8 (if g = 0x31 then 5 * q + n else 32 + 8 * q + n)] ++ leBytes 7 0 ++ leBytes 8 a))

/-! ### CXL.mem and snoops (R121, R122, R277, R278) -/

/-- Quarters of the staging window that a range touches. -/
def windowQuads (off len : Nat) : List Nat := (List.range 4).filter (fun q => decide (off < (q + 1) * 0x400000000) && decide (q * 0x400000000 < off + len))

/-- The parts of a window range that lie in each quadrant's quarter: first offset and bytes. -/
def windowParts (off len : Nat) : List (Nat × Nat) :=
  (windowQuads off len).map (fun q => (max off (q * 0x400000000), min (off + len) ((q + 1) * 0x400000000) - max off (q * 0x400000000)))

/-- Serve a CXL.mem access: while RDY_MAP bit 25 is clear a read gives zeros with poison and a write is discarded (R122). -/
def State.cxlServe (s : State) (a : CxlAcc) : State :=
  match a.data with
  | none =>
    if !s.rdy 25 then ({ s with readData := (List.replicate a.len 0, true) } : State).bump 0x01 0 10 1
    else
      let ps := (windowParts a.off a.len).map (fun e => Piece.dev (windowAddr e.1) e.2)
      let bs := (windowParts a.off a.len).flatMap (fun e => memRead s.mem (windowAddr e.1) e.2)
      let bad := (windowParts a.off a.len).any (fun e => s.marked (windowAddr e.1) e.2)
      { s.noteReads 0 ps with readData := (bs, bad) }
  | some data =>
    if !s.rdy 25 then s.bump 0x01 0 10 1
    else (windowParts a.off a.len).foldl (fun s e => s.devWrite (windowAddr e.1) ((data.drop (e.1 - a.off)).take e.2) false) s

/-- A quadrant whose packages an access needs is dark. -/
def State.cxlDark (s : State) (a : CxlAcc) : Bool := (windowQuads a.off a.len).any s.dark

/-- Take a CXL.mem access: one to a dark quadrant's quarter starts its wake and is held until its packages have left self-refresh
(R122). -/
def State.cxlTake (s : State) (a : CxlAcc) : State :=
  if !s.isOn || decide (a.off + a.len > 0x1000000000) then s
  else if s.rdy 25 && s.cxlDark a then
    let s := (windowQuads a.off a.len).foldl State.wake s
    { s with pw := { s.pw with cxlWait := s.pw.cxlWait ++ [a] } }
  else s.cxlServe a

/-- Serve the held accesses whose quadrants are lit again, in the order in which they came. -/
def State.cxlDrain (s : State) : State :=
  s.pw.cxlWait.foldl (fun s a => if s.cxlDark a then { s with pw := { s.pw with cxlWait := s.pw.cxlWait ++ [a] } } else s.cxlServe a)
    { s with pw := { s.pw with cxlWait := [] } }

/-- CXL_MEM_READ (R121, R122, R278). -/
def execCxlMemRead (off len : Nat) (s : State) : Ans := .next (s.cxlTake { off := off, len := len, data := none })

/-- CXL_MEM_WRITE (R121, R122). -/
def execCxlMemWrite (off : Nat) (data : List Byte) (s : State) : Ans := .next (s.cxlTake { off := off, len := data.length, data := some data })

/-- HOST_SNOOP (R277): answered without data; the line leaves the device cache. -/
def execHostSnoop (addr : Nat) (s : State) : Ans :=
  .next (
    if s.isOn then { s with fns := s.fns.map (fun x => { x with dcache := x.dcache.filter (· ≠ addr / 64) }) } else s)

end Sys2Proof.Machine
end

