-- ==== Sys2Proof/Machine/Stage.lean ====
section
/-! DEFINITION. The production commands (R178, R179, R186 to R189): PRODUCTION_LOAD, ON_STAGE, OFF_STAGE, CHANGEOVER and
PRODUCTION_DROP. -/

namespace Sys2Proof.Machine

open Config

/-! ### PRODUCTION_LOAD (R186) -/

/-- Read n bytes that a command names in the host window or the staging window; small host reads stay in the device
cache (R277). -/
def State.readNamed (s : State) (f a n : Nat) : List Byte × State :=
  if isHost a then (let r := s.dmaRead f a n (decide (n ≤ 4096)); (r.1.1, r.2)) else (memRead s.mem a n, s)

/-- An address range in the host window or in function f's part of the staging window, without a hole. -/
def State.named (s : State) (f a n : Nat) : Bool :=
  if isHost a then s.reachable f a n false
  else inWindow a n && (!s.azgen || (a - 0x040000000000) / 0x10000000000 == f)

def prod0 (num : Nat) (m : Manifest) (slot : Nat × Nat) (bytes : Mem) : Sys2Proof.Machine.Prod :=
  { num := num, st := .loading, man := m, bindings := [], slot := some slot, todo := m.objs, manBytes := bytes
    stale := false, resLoad := false }

/-- PRODUCTION_LOAD's own rule. -/
def State.prodLoadRule (h : HostView) (p : Pkt) (s : State) : State × Rep :=
  let man := p.at 0x40 8
  let mlen := p.at 0x48 4
  let num := p.at 0x4C 2
  let s := s.withHost h
  if man % 128 ≠ 0 ∨ !s.named p.f man (if mlen < 288 ∨ mlen > 65792 then 1 else mlen) then
    (if isHost man then s.bump 0x01 p.f 9 1 else s, .bad 0x40)
  else if mlen < 288 ∨ mlen > 65792 then (s, .bad 0x48)
  else if num < 1 ∨ num > 4095 then (s, .bad 0x4C)
  else
    match s.prod? num with
    | some x => (s, if x.st = .loading then .fin BUSY 0 else .bad 0x4C)
    | none =>
      let (bs, s) := s.readNamed p.f man mlen
      let m := manifestOf bs
      if mlen ≠ 256 + 32 * ofLe ((bs.drop 6).take 2) then (s, .bad 0x48)
      else if !s.manifestOk p.f bs mlen then (s, .bad 0xFFFF)
      else if !s.ownQuad p (m.quads ||| m.objs.foldl (fun q o => q ||| o.q2) 0) then (s, .bad 0xFFFF)
      else
        let s : State := { s with sv := { s.sv with prods := s.sv.prods ++ [prod0 num m (p.f, p.n) (cellsOf 0 bs)] } }
        (State.loadNext (m.objs.length + 2) num s, .later)

/-- PRODUCTION_LOAD (R182 to R186, R215). -/
def execProductionLoad (f slot : Nat) (h : HostView) (s : State) : Ans :=
  .next (s.command f slot 0x0301 (State.prodLoadRule h))

/-! ### ON_STAGE and OFF_STAGE (R187, R189) -/

/-- STAGING, STAGED or ON_STAGE (R185). -/
def ProdSt.isStaged : ProdSt → Bool
  | .loading => false
  | .stored => false
  | .staging => true
  | .staged => true
  | .onStage => true

/-- ON_STAGE's own rule. -/
def State.onStageRule (p : Pkt) (s : State) : State × Rep :=
  let num := p.at 0x40 2
  match s.prod? num with
  | none => (s, .bad 0x40)
  | some x =>
    if x.st = .staged then (s, .fin DONE 1)
    else if x.st = .onStage then (s, .fin DONE 2)
    else if x.st ≠ .stored then (s, .bad 0x40)
    else if (s.sv.prods.filter (·.st.isStaged)).length ≥ 16 then (s, .fin LIMIT 0)
    else if !x.man.objs.all (fun o => (s.pool.readable 2 o.oid).isSome) || (s.pool.readable 2 x.man.manId).isNone then (s, .fin EVICTED 0)
    else
      let s := (x.man.manId :: x.man.objs.map (·.oid)).foldl (fun s o => s.hold 2 o (.prod num)) s
      let s := s.updProd num (fun x => { x with st := .staging, slot := some (p.f, p.n), todo := x.man.objs.filter (fun o => o.q1 != 0) })
      (s.stageNext num, .later)

/-- ON_STAGE (R187). -/
def execOnStage (f slot : Nat) (s : State) : Ans := .next (s.command f slot 0x0302 State.onStageRule)

/-- Placements of a production that is loading are dropped. -/
def State.dropLoads (s : State) (num : Nat) : State :=
  (s.pool.placing.filter (fun p => p.for_ == .load num)).foldl (fun s p => s.dropPlacing p) s

/-- OFF_STAGE's own rule. A production that is still loading or staging has no job either: its placements are dropped, and the command
that waits for them completes with CANCELLED (DESIGN CHOICE, log 54). -/
def State.offStageRule (p : Pkt) (s : State) : State × Rep :=
  let num := p.at 0x40 2
  match s.prod? num with
  | none => (s, .bad 0x40)
  | some _ =>
    if s.sv.jobs.any (fun j => j.prod == num) then (s, .fin BUSY 0)
    else ((s.dropLoads num).failStage num CANCELLED 0, .fin DONE 0)

/-- OFF_STAGE (R189). -/
def execOffStage (f slot : Nat) (s : State) : Ans := .next (s.command f slot 0x0303 State.offStageRule)

/-! ### CHANGEOVER (R178, R179) -/

/-- The production whose alias table binds an object: one with a job that owns its quadrants first. -/
def State.bindsObj (s : State) (oid : Nat) : Option Sys2Proof.Machine.Prod :=
  let ps := s.sv.prods.filter (fun x => (x.st == .staged || x.st == .onStage) && x.bindings.any (·.2 == oid))
  match ps.find? (fun x => s.sv.jobs.any (fun j => j.prod == x.num && (j.owns || j.st == .held))) with
  | some x => some x
  | none => ps.head?

/-- The changeover takes effect: every alias bound to OLD_ID is bound to NEW_ID, OLD_ID's hold is released, and EVICT_OLD
evicts it (R137, R179). Resident weights must be loaded again. -/
def State.applyChange (s : State) (num old new : Nat) (evictOld : Bool) : State :=
  match s.prod? num with
  | none => s
  | some x =>
    let resident := x.man.objs.any (fun o => o.role == 1 && (decide (o.tag ≤ 255) && x.alias? o.tag == some old))
    let s := s.hold 1 new (.prod num)
    let s := s.unhold 1 new (.change new)
    let s := s.unhold 1 old (.prod num)
    let s := s.updProd num (fun x =>
      { x with bindings := x.bindings.map (fun b => if b.2 == old then (b.1, new) else b)
               stale := x.stale || resident })
    -- fetch-cache slots of OLD_ID are invalid from here on (R232)
    let s : State := { s with quads := s.quads.map (fun (q : Quad) => { q with rt := { q.rt with
      cache := q.rt.cache.map (fun c => if c.oid == old then { c with valid := false } else c) } }) }
    if evictOld && !s.pool.locked 1 old then { s with pool := s.pool.clear 1 old } else s

/-- NEW_ID can stand for OLD_ID (R178): its length, and a copy in every quadrant of OLD_ID's tier-1 QMASK, which is empty for an object
that is bound without tier-1 copies (R183). -/
def State.changeFits (s : State) (x : Sys2Proof.Machine.Prod) (old new : Nat) : Bool :=
  let len := ((s.pool.readable 1 old).orElse (fun _ => s.pool.readable 2 old)).map (·.len)
  let len := (len.orElse (fun _ => (x.man.objs.find? (·.oid == old)).map (·.len))).getD 0
  let q1 := (((s.pool.copies 1 old).head?).map (·.qmask)).getD 0
  match s.pool.readable 1 new with
  | some n => decide (n.len = len) && decide (q1 &&& (15 - n.qmask) = 0)
  | none => false

/-- CHANGEOVER's own rule: the change waits for the end of the last step that the stage manager has written entries for (R179). -/
def State.changeoverRule (p : Pkt) (s : State) : State × Rep :=
  let old := p.at 0x40 8
  let new := p.at 0x48 8
  let ev := (p.at 0x50 1).testBit 0
  match s.bindsObj old with
  | none => (s, .bad 0x40)
  | some x =>
    if new = 0 ∨ new ≥ 2 ^ 60 ∨ !s.changeFits x old new then (s, .bad 0x48)
    else if s.sv.changes.any (fun c => [c.old, c.new].any (fun o => o == old || o == new)) then (s, .fin BUSY 0)
    else
      match s.sv.jobs.find? (fun j => j.prod == x.num && (j.owns || j.st == .held)) with
      | some j =>
        if j.inStep || decide (j.steps < j.sheets) then
          let s := s.hold 1 new (.change new)
          ({ s with sv := { s.sv with changes := s.sv.changes ++
              [{ old := old, new := new, evictOld := ev, prod := x.num, job := j.id, step := max (j.steps + 1) j.sheets + 1
                 slot := (p.f, p.n) }] } }, .later)
        else (s.applyChange x.num old new ev, .fin DONE (j.steps + 1))
      | none => (s.applyChange x.num old new ev, .fin DONE 0)

/-- CHANGEOVER (R178, R179). -/
def execChangeover (f slot : Nat) (s : State) : Ans := .next (s.command f slot 0x0304 State.changeoverRule)

/-- The changeovers of a job whose step s − 1 has ended take effect and complete (R179). -/
def State.endStepChanges (s : State) (jid step : Nat) : State :=
  let due := s.sv.changes.filter (fun c => c.job == jid && decide (c.step ≤ step))
  let s : State := { s with sv := { s.sv with changes := s.sv.changes.filter (fun c => ¬ (c.job == jid && decide (c.step ≤ step))) } }
  due.foldl (fun s c => (s.applyChange c.prod c.old c.new c.evictOld).complete c.slot.1 c.slot.2 DONE c.step) s

/-! ### PRODUCTION_DROP (R189) -/

/-- Unpin an object in both tiers and evict it where nothing holds or reserves it. -/
def Pool.dropObj (p : Pool) (oid : Nat) : Pool :=
  let p : Pool := { p with pins := p.pins.filter (fun e => e.2 != oid) }
  [1, 2].foldl (fun p t => if p.present t oid && !p.locked t oid then p.clear t oid else p) p

/-- PRODUCTION_DROP's own rule. -/
def State.prodDropRule (p : Pkt) (s : State) : State × Rep :=
  let num := p.at 0x40 2
  match s.prod? num with
  | none => (s, .fin BUSY 0)
  | some x =>
    if x.st ≠ .stored then (s, .fin BUSY 0)
    else
      let others := (s.sv.prods.filter (·.num != num)).flatMap (fun y => y.man.manId :: y.man.objs.map (·.oid))
      let mine := (x.man.objs.map (·.oid) ++ [x.man.manId]).filter (fun o => !others.contains o)
      ({ s with pool := mine.foldl Pool.dropObj s.pool, sv := { s.sv with prods := s.sv.prods.filter (·.num != num) } }, .fin DONE 0)

/-- PRODUCTION_DROP (R189). -/
def execProductionDrop (f slot : Nat) (s : State) : Ans := .next (s.command f slot 0x0305 State.prodDropRule)

end Sys2Proof.Machine
end

