-- ==== Sys2Proof/Machine/NearStack.lean ====
section
/-! DEFINITION. The near-stack engines: what a tier-1 read with a descriptor emits (R147, R148), and the counters of
group 0x34 (R155). -/

namespace Sys2Proof.Machine

open Config

/-- A 128-byte line with its poison. -/
abbrev Line := BitVec 1024 × Bool

/-- A line that a hole gives (R118). -/
def holeLine : Line := (0, true)

/-- What near-stack work adds to the counters of R155: bytes read, zero tokens, scale tokens, faults. -/
structure NearTally where
  read : Nat
  zeros : Nat
  scales : Nat
  faults : Nat
  deriving DecidableEq, Repr, Inhabited

def NearTally.add (a b : NearTally) : NearTally :=
  { read := a.read + b.read, zeros := a.zeros + b.zeros, scales := a.scales + b.scales, faults := a.faults + b.faults }

def NearTally.none : NearTally := { read := 0, zeros := 0, scales := 0, faults := 0 }

/-- A piece of near-stack work: the device address at which it is done, which names the engine (R119), what it adds to that engine's
counters, and what it reads. -/
structure NearWork where
  at_ : Nat
  tally : NearTally
  reads : List Piece

/-- A token that leaves the near-stack engines, with the work behind it. -/
abbrev NearTok := Line × List NearWork

/-- Work done before a token of a list adds to the first of them. -/
def withWork (ws : List NearWork) : List NearTok → List NearTok
  | [] => []
  | (l, w) :: ts => (l, ws ++ w) :: ts

/-! ### Reading an object (R124) -/

/-- A line of an object's bytes at an offset. -/
def State.objLine (s : State) (r : Rec) (off : Nat) : Line :=
  let (bs, p) := s.readCopy r off 128
  (BitVec.ofNat 1024 (ofLe bs), p)

/-- The device address of an object's byte; past LENGTH, that of its first. -/
def Rec.addrOf (r : Rec) (off : Nat) : Nat :=
  (((r.ranges (if off < r.len then off else 0) 1).head?).map (·.1)).getD (tierBase r.tier r.copy)

/-- The rows of a GATHER, in list order (R148): a row that crosses a 4 KiB interleave block, or passes LENGTH, gives zero
tokens with poison and counts one fault. -/
def State.gatherRows (s : State) (r : Rec) (d : BitVec 256) : List NearTok :=
  let lines := nearField d 19 13
  (List.range (nearField d 32 13)).flatMap (fun i =>
    let o := 128 * ofLe (s.devRead (nearField d 45 48 + 4 * i) 4).1
    if o % 4096 + 128 * lines > 4096 ∨ o + 128 * lines > r.len then
      (List.range lines).map (fun k =>
        (holeLine, [{ at_ := r.addrOf o, tally := { NearTally.none with faults := if k = 0 then 1 else 0 }, reads := [] }]))
    else
      (List.range lines).map (fun k =>
        (s.objLine r (o + 128 * k),
         [{ at_ := r.addrOf (o + 128 * k), tally := { NearTally.none with read := 128 }, reads := r.pieces (o + 128 * k) 128 }])))

/-- Stored line i of the operation: a gathered row's line, or the object's line at SRC_OFF + 128 × i; a line past the end
reads as a hole and counts a fault. -/
def State.storedLine (s : State) (r : Rec) (gathered : Option (List NearTok)) (off i : Nat) : NearTok :=
  match gathered with
  | some ls => ls.getD i (holeLine, [])
  | none =>
    let o := off + 128 * i
    (s.objLine r o,
     [{ at_ := r.addrOf o, tally := { NearTally.none with read := 128, faults := if o + 128 > r.len then 1 else 0 }, reads := r.pieces o 128 }])

/-! ### Expanding and repacking (R148) -/

/-- The scale token of group g of chunk c: byte m of lane j is the scale of column j for output block m of the group. -/
def State.nearScale (s : State) (r : Rec) (d : BitVec 256) (c g : Nat) (filled : Nat → Bool) : NearTok :=
  let plane := nearField d 93 40 + 32 * c * nearBlocks d
  let byte (j m : Nat) : Nat × Bool × Bool :=
    let b := if nearField d 7 2 = 2 then 2 * g + m / 2 else 4 * g + m
    if b ≥ nearBlocks d then (0, false, false)
    else if filled b then (0x7F, false, false)
    else
      let o := plane + 32 * b + j
      let (bs, p) := s.readCopy r o 1
      (ofLe bs, p, decide (o ≥ r.len))
  let lanes := (List.range 32).map (fun j => BitVec.ofNat 32 ((List.range 4).foldl (fun n m => n + (byte j m).1 * 256 ^ m) 0))
  let all := (List.range 32).flatMap (fun j => (List.range 4).map (fun m => byte j m))
  let o := plane + 32 * nearGroup d * g
  let n := 32 * (min (nearGroup d) (nearBlocks d - nearGroup d * g))
  ((ofLanes lanes, all.any (·.2.1)),
   [{ at_ := r.addrOf o, reads := r.pieces o n
      tally := { NearTally.none with scales := 1, read := n, faults := if all.any (·.2.2) then 1 else 0 } }])

/-- The output of chunk c, whose first stored line is `at_`, and the stored line behind it. -/
def State.nearChunk (s : State) (r : Rec) (d : BitVec 256) (gathered : Option (List NearTok)) (off : Nat) (dense : Bool) (c at_ : Nat) :
    List NearTok × Nat :=
  let nb := nearBlocks d
  let ex := nearExpand d
  let occ : NearTok := if dense then (((0 : BitVec 1024), false), []) else s.storedLine r gathered off at_
  let occupied (b : Nat) : Bool := dense || occ.1.1.getLsbD b
  let size (b : Nat) : Nat := min (nearBlock d) (nearField d 9 10 - b * nearBlock d)
  let step (acc : List NearTok × Nat) (g : Nat) : List NearTok × Nat :=
    let blocks := (List.range (nearGroup d)).filterMap (fun i => if nearGroup d * g + i < nb then some (nearGroup d * g + i) else none)
    let wants := nearRepack d && (dense || ex || blocks.any occupied)
    let sc := if wants then [s.nearScale r d c g (fun b => ex && !occupied b)] else []
    blocks.foldl (fun (acc : List NearTok × Nat) b =>
      if occupied b then
        (acc.1 ++ (List.range (size b)).map (fun i => s.storedLine r gathered off (acc.2 + i)), acc.2 + size b)
      else if ex then
        -- the engine that inserts zero tokens: the one that read the occupancy token
        (acc.1 ++ List.replicate (size b)
          ((0, false), [{ at_ := r.addrOf (off + 128 * at_), tally := { NearTally.none with zeros := 1 }, reads := [] }]), acc.2)
      else acc) (acc.1 ++ sc, acc.2)
  let r := (List.range (ceilDiv nb (nearGroup d))).foldl step ([], if dense then at_ else at_ + 1)
  if dense then r else if ex then (withWork occ.2 r.1, r.2) else (occ :: r.1, r.2)

/-- Chunks one after another until n tokens are there. -/
def State.nearChunks (s : State) (r : Rec) (d : BitVec 256) (gathered : Option (List NearTok)) (off : Nat) (dense : Bool) (n : Nat) :
    Nat → Nat → Nat → List NearTok → List NearTok
  | 0, _, _, out => out.take n
  | fuel + 1, c, at_, out =>
    if out.length ≥ n then out.take n
    else
      let (o, at') := s.nearChunk r d gathered off dense c at_
      State.nearChunks s r d gathered off dense n fuel (c + 1) at' (out ++ o)

/-- What an entry with a near-stack descriptor emits: n tokens (R148, R165). A stored stream is dense exactly when LEN is the
dense output's length and nothing expands it (log 17). -/
def State.nearOut (s : State) (r : Rec) (d : BitVec 256) (off n : Nat) : List NearTok :=
  let gathered := if nearGather d then some (s.gatherRows r d) else none
  if !nearExpand d && !nearRepack d then (List.range n).map (s.storedLine r gathered off)
  else s.nearChunks r d gathered off (!nearExpand d && n % nearDense d == 0) n (n + 1) 0 0 []

/-! ### Counting (R155, R365) -/

/-- The near-stack engine at a device address: quadrant and stack (R119). -/
def engineAt (a : Nat) : Option (Nat × Nat) := (stackOf a).map (fun e => (e.2.1, e.2.2.1))

/-- Count one operation's tokens at the engines that work on it, each of which takes part in the operation: its bytes read, the bytes
of the tokens it works on, and the rest. A fault raises the engine's shared source. -/
def State.nearCount (s : State) (ts : List NearTok) : State :=
  let ws := ts.flatMap (·.2)
  ((ws.filterMap (fun w => engineAt w.at_)).eraseDups).foldl (fun s (q, n) =>
    let mine (w : NearWork) : Bool := engineAt w.at_ == some (q, n)
    let t := (ws.filter mine).foldl (fun t w => t.add w.tally) NearTally.none
    let out := (ts.filter (fun e => (e.2.getLast?).any mine)).length
    let s := ((s.bump 0x34 q (6 * n) 1).bump 0x34 q (6 * n + 1) t.read).bump 0x34 q (6 * n + 2) (128 * out)
    let s := ((s.bump 0x34 q (6 * n + 3) t.zeros).bump 0x34 q (6 * n + 4) t.scales).bump 0x34 q (6 * n + 5) t.faults
    if t.faults = 0 then s else s.pulse (124 + 112 * q + n)) (s.noteReads ((((ws.head?).bind (fun w => engineAt w.at_)).map (·.1)).getD 0) (ws.flatMap (·.reads)))

end Sys2Proof.Machine
end

