-- ==== Sys2Proof/Machine/TierEngine.lean ====
section
/-! DEFINITION. The tier engines (R156 to R175, R180, R181): when an entry starts, what each operation does, loops, the
tracker, and tile dispensers. -/

namespace Sys2Proof.Machine

open Config

/-! ### Starting an entry (R161, R169) -/

/-- A started LOOP that has iterations left holds back the entries behind it (R164). -/
def TeEnt.looping (e : TeEnt) : Bool := e.op == 0x0C && e.started && !e.done

/-- The first entry that has not started, with the entries before it; none while a LOOP before it repeats. -/
def TeQueue.head (k : TeQueue) : Option (TeEnt × List TeEnt) :=
  let before := k.ents.takeWhile (·.started)
  match k.ents.drop before.length with
  | e :: _ => if before.any TeEnt.looping then none else some (e, before)
  | [] => none

/-- The LOOP whose next iteration is about to start, with the wait of that iteration (R164). -/
def TeQueue.loopNext (k : TeQueue) : Option TeEnt :=
  match k.ents.find? TeEnt.looping with
  | some l =>
    if k.loopIx < l.len && (k.ents.takeWhile (fun e => e.n != l.n)).all (·.started) then some { l with iter := k.loopIx } else none
  | none => none

/-- What a queue waits with: its next entry, or a LOOP between two iterations. -/
def TeQueue.next (k : TeQueue) : Option TeEnt := match k.head with | some (e, _) => some e | none => k.loopNext

/-- The step that an entry belongs to has begun: the exchange counters count that step's operations alone (R255). -/
def State.stepReached (s : State) (jid step : Nat) : Bool :=
  match s.job? jid with
  | some j => decide (step ≤ j.steps + (if j.inStep then 1 else 0))
  | none => true

/-- The wait condition with a value (R162). -/
def State.teWait (s : State) (q : Nat) (e : TeEnt) (v : Int) : Bool :=
  match e.wkind with
  | 0 => true
  | 1 => decide (v ≤ (((s.quad q).cues.getD e.widx default).retired : Int))
  | 2 => decide (v ≤ (((s.quad q).cues.getD e.widx default).posted : Int))
  | 3 => s.stepReached e.job e.step && decide (v ≤ ((s.fab.ctrs.getD e.widx 0 : Nat) : Int))
  | _ => false

/-- The entry's source is in the host window. -/
def TeEnt.hostSource (e : TeEnt) : Bool :=
  (e.op == 1 || e.op == 2) && !e.fromObj && decide (0 ≤ e.srcOff) && isHost e.srcOff.toNat

/-- The function whose host window an entry's job uses. -/
def State.jobFn (s : State) (jid : Nat) : Nat := match s.job? jid with | some j => j.f | none => 0

/-- The entry's job lets it start: it runs, or holds and the entry needs no host memory; a resident load always does
(R180, R332). -/
def State.jobStarts (s : State) (e : TeEnt) : Bool :=
  decide (e.job ≥ 2 ^ 32) ||
  (match s.job? e.job with
   | some j =>
     (match j.st with
      | .running => true
      | .held => !e.hostSource
      | .queued => false
      | .preempting => false
      | .struck => false
      | .setting => false)
   | none => false)

/-- The operation uses tracker slots (R169). -/
def TeEnt.tracked (e : TeEnt) : Bool := e.op == 1 || e.op == 2 || e.op == 3 || e.op == 4

/-- The entry under way whose operations the tracker has not all admitted: an entry's operations go in address order, so the entries
behind it wait (R169). A COLLECT takes its slots one by one, as its tokens come, and holds nothing back. -/
def TeQueue.granting (k : TeQueue) : Option TeEnt :=
  k.ents.find? (fun e => e.started && !e.done && (e.op == 1 || e.op == 2 || e.op == 4) && decide (0 < e.opsLeft))

/-- The next entry of a queue is of the given operation and everything but the tracker lets it start. -/
def State.teDue (s : State) (q tq op : Nat) : Option TeEnt :=
  let k := (s.quad q).queues.getD tq default
  if !s.quadRuns q || k.granting.isSome then none
  else match k.head with
  | none => none
  | some (e, before) =>
    if e.op = op && s.jobStarts e && (op == 0x0C || s.teWait q e e.wval) && (!e.flags.testBit 0 || before.all (·.done)) then some e
    else none

/-- The COLLECTs of a queue that need a slot for the operation their next token falls in. -/
def TeQueue.starved (k : TeQueue) : List TeEnt :=
  k.ents.filter (fun e => e.op == 3 && e.started && !e.done && decide (e.held = 0) && decide (0 < e.opsLeft))

/-- Operations that a queue asks the tracker for: those left of the entry under way or of the entry that could start, and one for each
COLLECT without a slot. -/
def State.teAsk (s : State) (q tq : Nat) : Nat :=
  let k := (s.quad q).queues.getD tq default
  (match k.granting with
   | some e => e.opsLeft
   | none => (([1, 2, 3, 4].filterMap (s.teDue q tq)).map (fun e => if e.op = 3 then 1 else e.opsAll)).foldl (· + ·) 0) + k.starved.length

/-- Slots that quadrant q's tier engine takes for its queues below tq before that queue gets one. -/
def State.teBefore (s : State) (q tq : Nat) : Nat :=
  min (1024 - (s.quad q).teSlots) (((List.range (min tq 8)).map (s.teAsk q)).foldl (· + ·) 0)

/-- Slots that queue tq of quadrant q may be granted: the tier engine holds at most 1,024 operations and the device 3,840 when it takes
one, and slots go by queue number, among equal numbers by quadrant (R169). -/
def State.teRoom (s : State) (q tq : Nat) : Nat :=
  let others := ((List.range 4).map (fun k => s.teBefore k (if k < q then tq + 1 else tq))).foldl (· + ·) 0
  min (1024 - (s.quad q).teSlots - s.teBefore q tq) (3840 - s.trackers - others)

/-- The next entry of a queue, when it can start: one that moves data needs a slot for its first operation. -/
def State.teReady (s : State) (q tq op : Nat) : Option TeEnt :=
  match s.teDue q tq op with
  | some e => if e.tracked && decide (s.teRoom q tq = 0) then none else some e
  | none => none

def State.updTq (s : State) (q tq : Nat) (g : TeQueue → TeQueue) : State :=
  s.updQuad q (fun x => { x with queues := x.queues.modify tq g })

/-- Change the entry with number n. -/
def State.updEnt (s : State) (q tq n : Nat) (g : TeEnt → TeEnt) : State :=
  s.updTq q tq (fun k => { k with ents := k.ents.map (fun e => if e.n == n then g e else e) })

/-- Every iteration of a started LOOP has started its last entry: the LOOP completes (R164). -/
def State.loopEnd (s : State) (q tq : Nat) : State :=
  let k := (s.quad q).queues.getD tq default
  match k.ents.find? TeEnt.looping with
  | none => s
  | some l =>
    if k.loopIx ≥ l.len && (k.ents.takeWhile (fun e => e.n != l.n)).all (·.started) then s.teDone q tq l.n else s

/-- Mark an entry started: what the queue waits with next begins to wait (R180), and a LOOP may have started its last entry. -/
def State.teStart (s : State) (q tq n : Nat) : State :=
  let s := s.updEnt q tq n (fun e => { e with started := true })
  let now := s.now
  let s := s.updTq q tq (fun k =>
    { k with ents := k.ents.map (fun e => if (k.next.map (·.n)) == some e.n then { e with waitFrom := now } else e) })
  s.loopEnd q tq

/-- An entry cannot be carried out: its job ends with a status, or its production fails to go on stage. -/
def State.teFail (s : State) (e : TeEnt) (status : Nat) : State :=
  if e.job ≥ 2 ^ 32 then
    let s := (s.sv.jobs.filter (fun j => j.prod == e.job - 2 ^ 32 && j.owns)).foldl (fun s j => s.endJob j.id status) s
    s.failStage (e.job - 2 ^ 32) status 0xFFFF
  else s.endJob e.job status

/-! ### The data of MOVE and STREAM (R163, R165) -/

/-- A 128-byte line of host memory through the map of function f, which a running job still uses (R284, R305). -/
def State.hostLine (s : State) (f : Nat) (on : Bool) (a : Nat) : Line :=
  let (cells, pois) := s.gather (({ s.fn f with opened := on } : Fn).pieces 7 a 128) 0
  (BitVec.ofNat 1024 (memNat cells 0 128), !pois.isEmpty)

/-- A line at a device-local address of tier 0 or the host window. -/
def State.addrLine (s : State) (e : TeEnt) (a : Nat) : Line :=
  if isHost a then s.hostLine (s.jobFn e.job) (s.dmaOn (s.jobFn e.job) e.job) a
  else (let (bs, p) := s.devRead a 128; (BitVec.ofNat 1024 (ofLe bs), p))

/-- The pieces that a MOVE or STREAM without an object reads. -/
def State.addrPieces (s : State) (e : TeEnt) (a n : Nat) : List Piece :=
  if isHost a then ({ s.fn (s.jobFn e.job) with opened := s.dmaOn (s.jobFn e.job) e.job } : Fn).pieces 7 a n else [s.devPiece a n]

/-- Count what reading some pieces for quadrant q counts; holes in the host window count at the function (R284, R307). -/
def State.noteSource (s : State) (q f : Nat) (host : Bool) (ps : List Piece) : State :=
  let hole := ps.any (fun p => match p with | .hole _ => true | _ => false)
  if host then (if hole then s.bump 0x01 f 9 1 else s) else s.noteReads q ps

/-- The near-stack descriptor that an entry works under (R165). -/
def TeEnt.near (e : TeEnt) : Option (BitVec 256) := if e.flags.testBit 1 then e.ext else none

/-- The lines that operations [i, i + k) of an entry move, and the state with the counters of that work advanced. -/
def State.teData (s : State) (q : Nat) (e : TeEnt) (i k : Nat) : List Line × State :=
  let first := i * e.opLines
  let n := min (k * e.opLines) (e.len / 128 - first)
  let off := e.srcOff.toNat + 128 * first
  if e.fromObj then
    match s.pool.copyFor e.tier e.srcId q with
    | none => (List.replicate n holeLine, s.noteReads q [.hole (128 * n)])
    | some r =>
      match e.near with
      | some d =>
        let ts := ((s.nearOut r d e.srcOff.toNat (e.len / 128)).drop first).take n
        (ts.map (·.1), (List.range k).foldl (fun s j => s.nearCount ((ts.drop (j * e.opLines)).take e.opLines)) s)
      | none => ((List.range n).map (fun j => s.objLine r (off + 128 * j)), s.noteReads q (r.pieces off (128 * n)))
  else
    ((List.range n).map (fun j => s.addrLine e (off + 128 * j)), s.noteSource q (s.jobFn e.job) (isHost off) (s.addrPieces e off (128 * n)))

/-- The range of MU lines that an entry's next operations read directly: its own source, or the index list of a gather (R424). -/
def TeEnt.muRead (e : TeEnt) : Nat × Nat :=
  match e.near with
  | some d => if nearGather d then (nearField d 45 48, 4 * nearField d 32 13) else (0x200000000, 0)
  | none => if e.fromObj then (0x200000000, 0) else (e.srcOff.toNat, e.len)

/-- The quadrant that a source's bytes lie in is dark (R23). -/
def State.srcDark (s : State) (q : Nat) (e : TeEnt) : Bool :=
  if e.fromObj then (match s.pool.copyFor e.tier e.srcId q with | some r => s.dark r.copy | none => false)
  else decide (e.srcOff.toNat < 0x200000000) && s.dark (e.srcOff.toNat / 0x80000000)

/-- Tokens for the gateway to inject: headers, and the lines of whole operations, the last token of each of them marked (R166, R168). -/
def gwTokens (tq n ops : Nat) (head ts : List Tok) : List GwTok :=
  let g (t : Tok) (b : Bool) : GwTok := { tok := t, owner := some (tq, n), lastOf := b, path := none, notBefore := 0 }
  head.map (g · false) ++ (List.zipIdx ts).map (fun (t, i) => g t (decide ((i + 1) % ops = 0) || decide (i + 1 = ts.length)))

/-- Queue tokens on a gateway link's outbound side. -/
def State.gwQueue (s : State) (q link : Nat) (ts : List GwTok) : State :=
  s.updQuad q (fun x => { x with gwOut := put x.gwOut link (((look x.gwOut link).getD []) ++ ts) })

/-- The header token of a set-down: first line and count (R53, R166). -/
def setDownHeader (line count slot : Nat) : Tok :=
  mkTok (ofLanes [BitVec.ofNat 32 line, BitVec.ofNat 32 count]) slot false false

/-- Write lines to consecutive addresses of tier 0. -/
def State.putLines (s : State) (a : Nat) (ls : List Line) : State :=
  (List.zipIdx ls).foldl (fun s (l, i) => s.devWrite (a + 128 * i) (leBytes 128 l.1.toNat) l.2) s

/-- The destination of a MOVE is in the staging buffer. -/
def TeEnt.toStaging (e : TeEnt) : Bool := e.op == 1 && decide (e.dstAt.toNat % 0x80000000 ≥ 0x78000000)

/-- Grant k operations of a MOVE or STREAM: their lines go to the staging buffer or, after the header of a set-down's first operation,
to the gateway (R163, R166, R169). -/
def State.teMoveOps (s : State) (q tq k : Nat) (e : TeEnt) : State :=
  let i := e.gone + e.held
  let s := if e.fromObj && e.near.isNone then s else s.engineTake e.muRead.1 e.muRead.2 false
  let (ls, s) := s.teData q e i k
  let s := (s.bump 0x41 q (5 * tq + 4) (128 * ls.length)).updEnt q tq e.n (fun e => { e with held := e.held + k })
  let slot := (s.quad q).gwSlot
  let dst := e.dstAt.toNat
  if e.toStaging then s.putLines (dst + 128 * e.opLines * i) ls
  else
    let head := if e.op = 1 ∧ i = 0 then [setDownHeader (dst % 0x80000000 % 0xC00000 / 128) (e.len / 128) slot] else []
    s.gwQueue q e.glink (gwTokens tq e.n e.opLines head (ls.map (fun l => mkTok l.1 slot l.2 false)))

/-- Carry out a MOVE or a STREAM whose entry can start. One that reads an MU directly waits for its port and bank (R424). -/
def State.teMove (s : State) (q tq : Nat) (e : TeEnt) : State :=
  if s.srcDark q e then s.teFail e NOTREADY
  else if !e.limitsOk q then (s.bump 0x44 q 2 1).teFail e INTERNAL
  else if !s.engineFree e.muRead.1 e.muRead.2 false then s
  else (s.teMoveOps q tq (min (s.teRoom q tq) e.opsAll) e).teStart q tq e.n

/-- MOVE (R163, R166). -/
def execMove (q tq : Nat) (h : HostView) (s : State) : Ans :=
  .next (match s.teReady q tq 1 with | some e => (s.withHost h).teMove q tq e | none => s)

/-- STREAM (R163, R166). -/
def execStream (q tq : Nat) (h : HostView) (s : State) : Ans :=
  .next (match s.teReady q tq 2 with | some e => (s.withHost h).teMove q tq e | none => s)

/-- Links that the routing block of a routed step claims; no dispenser and no COLLECT may name them (R167, R242). -/
def State.routeLinks (s : State) (q : Nat) : List Nat :=
  let rt := (s.quad q).rt
  if rt.active then (match s.manOf rt.job with | some m => [m.rp.scorelink, m.rp.donelink, m.rp.alink].filter (· ≤ 37) | none => [])
  else []

/-! ### COLLECT (R166, R169) -/

/-- The tokens that wait inbound on a link. -/
def Quad.inbound (x : Quad) (link : Nat) : List (Tok × Nat × Src) := (look x.gwIn link).getD []

/-- Take the first inbound token of a link: its credit goes back to its source. -/
def State.takeIn (s : State) (q link : Nat) : State :=
  match (s.quad q).inbound link with
  | (t, _, src) :: rest =>
    let (r, c, _) := linkSite q link
    (s.updQuad q (fun x => { x with gwIn := put x.gwIn link rest })).oweTo src t.tag q r c (64 + link)
  | [] => s

/-- The COLLECT of a queue that takes a token now: the first started one of some link, when a token waits there for it and it holds
the slot of the operation that the token falls in (R169). -/
def State.collecting (s : State) (q tq : Nat) : Option (TeEnt × Tok) :=
  let es := ((s.quad q).queues.getD tq default).ents.filter (fun e => e.op == 3 && e.started && !e.done)
  (List.zipIdx es).findSome? (fun (e, i) =>
    if (es.take i).any (fun d => d.glink == e.glink) || decide (e.held = 0) then none
    else match (s.quad q).inbound e.glink with | (t, _) :: _ => some (e, t) | [] => none)

/-- A COLLECT's next line has been written: with its last the entry completes, and with an operation's last line its slot is given back
and the next operation's taken if there is one (R169). -/
def State.collected (s : State) (q tq : Nat) (e : TeEnt) : State :=
  let s := (s.bump 0x41 q (5 * tq + 4) 128).updEnt q tq e.n (fun e => { e with dst := e.dst + 128, left := e.left - 128 })
  if e.left ≤ 128 then s.teDone q tq e.n
  else if (e.len - e.left + 128) % 65536 ≠ 0 then s
  else
    let s := s.updEnt q tq e.n (fun e => { e with gone := e.gone + 1, held := 0 })
    let k := min 1 (s.teRoom q tq)
    s.updEnt q tq e.n (fun e => { e with held := k })

/-- COLLECT (R163, R166, R168): a started one writes the next token of its link; otherwise the next entry starts. -/
def execCollect (q tq : Nat) (s : State) : Ans :=
  .next (
    match (if s.quadRuns q then s.collecting q tq else none) with
    | some (e, t) =>
      ((s.putLines e.dst [(t.data, t.poison)]).takeIn q e.glink).collected q tq e
    | none =>
      match s.teReady q tq 3 with
      | none => s
      | some e =>
        if (s.quad q).disps.any (fun d => d.links.contains e.glink) || (s.routeLinks q).contains e.glink then s.teFail e INTERNAL
        else if !e.limitsOk q then (s.bump 0x44 q 2 1).teFail e INTERNAL
        else (s.updEnt q tq e.n (fun e => { e with dst := e.dstAt.toNat, left := e.len, held := 1 })).teStart q tq e.n)

/-! ### PLACE (R163, R131 to R133) -/

/-- Carry out a PLACE entry: R132 steps 3 to 5, its commit completing it. -/
def State.tePlace (s : State) (q tq : Nat) (e : TeEnt) : State :=
  if !e.limitsOk q then (s.bump 0x44 q 2 1).teFail e INTERNAL
  else
    let oid := if e.dstAt = 0 then s.nextOid 1 else e.dstAt.toNat
    let room := s.teRoom q tq
    let src : PSrc := if e.fromObj then .obj e.srcId e.srcOff.toNat else .addr e.srcOff.toNat
    let (st, s) := s.placeNow (newRec oid e.tier e.qmask e.len 0 (if e.fromObj then e.srcId else 0) 0)
      { pid := 0, oid := oid, tier := e.tier, qmask := e.qmask, len := e.len, src := src, pinAt := false
        for_ := .entry q tq e.n, f := s.jobFn e.job } false
    if st = DONE then
      -- an ID is used up by an object that comes to be (R125)
      let s := if e.dstAt = 0 then (s.newOid 1).2 else s
      (s.updEnt q tq e.n (fun e => { e with held := min room e.opsAll })).teStart q tq e.n
    else s.teFail e (if st = NOTREADY then NOTREADY else INTERNAL)

/-- PLACE_ENTRY (R163). -/
def execPlaceEntry (q tq : Nat) (s : State) : Ans :=
  .next (match s.teReady q tq 4 with | some e => s.tePlace q tq e | none => s)

/-! ### POST, WAIT, DSET, CRESET (R157, R172) -/

/-- POST (R157): it completes at once, and its completion posts. -/
def execPost (q tq : Nat) (s : State) : Ans :=
  .next (match s.teReady q tq 5 with | some e => (s.teStart q tq e.n).teDone q tq e.n | none => s)

/-- WAIT (R161, R168). -/
def execWait (q tq : Nat) (s : State) : Ans :=
  .next (match s.teReady q tq 6 with | some e => (s.teStart q tq e.n).teDone q tq e.n | none => s)

/-- A DSET's effect on the dispensers (R172). -/
def Quad.dset (x : Quad) (e : TeEnt) : Quad :=
  { x with disps := (List.zipIdx x.disps).map (fun (d, i) =>
      if i = e.dsetDisp then
        { next := e.dsetStart, limit := if e.dsetStatic then min (e.dsetStart + e.dsetQuota) 0xFFFFFF else e.dsetStart
          quota := e.dsetQuota, scene := e.dsetScene, static := e.dsetStatic, links := e.dsetLinks }
      else { d with links := d.links.filter (fun l => !e.dsetLinks.contains l) }) }

/-- DSET (R172). -/
def execDset (q tq : Nat) (s : State) : Ans :=
  .next (match s.teReady q tq 7 with
    | some e =>
      -- the claims of earlier cycles come first (R175)
      if s.claimsOwed q (fun _ => true) then s
      else if e.dsetLinks.any (s.routeLinks q).contains then s.teFail e INTERNAL
      else if !e.limitsOk q then (s.bump 0x44 q 2 1).teFail e INTERNAL
      else ((s.updQuad q (fun x => x.dset e)).teStart q tq e.n).teDone q tq e.n
    | none => s)

/-- CRESET (R156): both values of the counter become zero. -/
def execCreset (q tq : Nat) (s : State) : Ans :=
  .next (match s.teReady q tq 8 with
    | some e => ((s.updQuad q (fun x => { x with cues := x.cues.modify e.cue (fun _ => { posted := 0, retired := 0 }) })).teStart
        q tq e.n).teDone q tq e.n
    | none => s)

/-! ### LOOP (R164) -/

/-- LOOP: reached once its body's first iteration has started; its wait gates the iterations after that one. -/
def execLoop (q tq : Nat) (s : State) : Ans :=
  .next (match s.teReady q tq 0x0C with
    | some e => (s.updTq q tq (fun k => { k with loopIx := 1 })).teStart q tq e.n
    | none => s)

/-- LOOP_ITERATION: the next iteration's entries start before the LOOP, with their sources, destinations and waits
stepped. One whose source or destination breaks R163 is not carried out and ends the job. -/
def execLoopIteration (q tq : Nat) (s : State) : Ans :=
  .next (
    let k := (s.quad q).queues.getD tq default
    match k.ents.find? TeEnt.looping with
    | none => s
    | some l =>
      let before := k.ents.takeWhile (fun e => e.n != l.n)
      let i := k.loopIx
      if !s.quadRuns q || !s.jobStarts l || !before.all (·.started) || decide (i ≥ l.len) ||
         !s.teWait q l { l with iter := i }.wval then s
      else
        let body := before.filter (fun e => e.iter == 0 && decide (l.n - l.field 0x20 8 ≤ e.n))
        -- a copy keeps its entry's number, with the iteration's above it
        let copies := body.map (fun e =>
          { e with n := e.n % 2 ^ 32 + i * 2 ^ 32, iter := i, started := false, done := false, posts := true, waitFrom := s.now, dst := 0
                   left := 0, gone := 0, held := 0, owed := [] })
        if !copies.all (·.limitsOk q) then (s.bump 0x44 q 2 1).teFail l INTERNAL
        else s.updTq q tq (fun k => { k with ents := before ++ copies ++ k.ents.drop before.length, loopIx := i + 1 }))

/-! ### The tracker, completion and wait trips (R168, R169, R180) -/

/-- TRACKER_RETRY (R169): a queue that the tracker has refused asks again. The entry under way takes operations as far as slots are
free; those that a PLACE holds have moved by then. A COLLECT takes the slot it lacks. The cycles of the wait are the tick's to count. -/
def execTrackerRetry (q tq : Nat) (s : State) : Ans :=
  .next (
    let k := (s.quad q).queues.getD tq default
    if !s.quadRuns q then s
    else match k.granting, k.starved with
    | some e, _ =>
      if e.op = 4 then
        let s := s.updEnt q tq e.n (fun e => { e with gone := e.gone + e.held, held := 0 })
        let room := s.teRoom q tq
        s.updEnt q tq e.n (fun e => { e with held := min room e.opsLeft })
      else if s.teRoom q tq = 0 then s
      else if s.srcDark q e then s.teFail e NOTREADY
      else if !s.engineFree e.muRead.1 e.muRead.2 false then s
      else s.teMoveOps q tq (min (s.teRoom q tq) e.opsLeft) e
    | none, e :: _ => if s.teRoom q tq = 0 then s else s.updEnt q tq e.n (fun e => { e with held := 1 })
    | none, [] => s)

/-- ENTRY_COMPLETE (R168): a MOVE into the staging buffer completes with the acknowledgement of its last write; an earlier write's ends
its operations. The other entries complete in their own rows' events. -/
def execEntryComplete (q tq n : Nat) (s : State) : Ans :=
  .next (
    match ((s.quad q).queues.getD tq default).live n with
    | some e =>
      if !s.quadRuns q || !e.toStaging then s
      else if 0 < e.opsLeft then s.updEnt q tq n (fun e => { e with gone := e.gone + e.held, held := 0 })
      else s.teDone q tq n
    | none => s)

/-- TE_WAIT_TRIP (R180): the next entry, or a LOOP between two iterations, has waited 100,000 local µs while no run or change was
active. -/
def execTeWaitTrip (q tq : Nat) (s : State) : Ans :=
  .next (
    let x := s.quad q
    match (x.queues.getD tq default).next with
    | some e =>
      if s.quadRuns q && !x.active && decide (max e.waitFrom x.progress + 100000 ≤ s.now) then
        (s.bump 0x44 q 3 1).stallTrip q true
      else s
    | none => s)

/-! ### Tile dispensers (R174, R175) -/

/-- The dispenser that a link is bound to. -/
def Quad.dispOf (x : Quad) (link : Nat) : Option (Nat × Disp) :=
  ((List.zipIdx x.disps).find? (fun e => e.1.links.contains link)).map (fun e => (e.2, e.1))

/-- The slot in which a token arrived at the gateway (R175). -/
def State.arrivalSlot (s : State) (q at_ : Nat) : Nat :=
  let x := s.quad q
  match x.scene x.gwSlot with
  | some sc => (x.slotCtr + slotWrap - (s.pw.cycle - at_)) % slotWrap % sc.period
  | none => 0

/-- The reply to a claim of n indices (R174). -/
def dispReply (d : Disp) (n slot : Nat) (poison : Bool) : Tok :=
  let k := min n (d.limit - d.next)
  if k = 0 then { data := 0xFFFFFFFF, pred := 0, tag := slot, poison := poison, last := true }
  else
    { data := ofLanes ((List.range k).map (fun i => BitVec.ofNat 32 (d.next + i))), pred := BitVec.ofNat 32 (2 ^ k - 1)
      tag := slot, poison := poison, last := decide (k = d.limit - d.next) }

/-- Another link of a dispenser holds a claim to be served before one that arrived at `at_` on `link` (R175). -/
def Quad.claimBefore (x : Quad) (d : Disp) (link at_ : Nat) : Bool :=
  d.links.any (fun l => match x.inbound l with | (_, a, _) :: _ => decide (a < at_) || (a == at_ && decide (l < link)) | [] => false)

/-- DISPENSER_CLAIM (R174, R175): the first token inbound on a bound link is served, after the array cycle in which it came, in which
a run may open the dispenser and a DSET may set it; claims that arrive together are served in ascending link order. -/
def execDispenserClaim (q link : Nat) (s : State) : Ans :=
  .next (
    let x := s.quad q
    match x.dispOf link, x.inbound link with
    | some (i, d), (t, at_, _) :: _ =>
      if !s.quadRuns q || s.dspn q == some i || decide (s.pw.cycle ≤ at_) || x.claimBefore d link at_ then s
      else
        let s := s.takeIn q link
        if t.tag ≠ x.gwSlot then s.bump 0x43 q (6 * i + 4) 1
        else
          let slot := s.arrivalSlot q at_
          if !(s.ownSlots x.gwSlot (.gw q link)).contains slot then s.bump 0x43 q (6 * i + 3) 1
          else
            let asked := (laneOf t.data 0).toNat % 64
            let bad := asked = 0 ∨ asked ≥ 33
            let n := if bad then 1 else asked
            let k := min n (d.limit - d.next)
            let s := if bad then s.bump 0x43 q (6 * i + 3) 1 else s
            let s := (s.bump 0x43 q (6 * i) 1).bump 0x43 q (6 * i + 1) k
            let s := if k = 0 then s.bump 0x43 q (6 * i + 2) 1 else s
            let s := s.updQuad q (fun x => { x with disps := x.disps.modify i (fun d => { d with next := d.next + k }) })
            s.gwQueue q link [{ tok := dispReply d n x.gwSlot t.poison, owner := none, lastOf := false, path := some slot
                                notBefore := at_ + 4 }]
    | _, _ => s)

end Sys2Proof.Machine
end

