-- ==== Sys2Proof/Machine/Routing.lean ====
section
/-! DEFINITION. The routing block's commands (R218 to R223, R226 to R231, R236): SCORE_TOKEN, ROUTED_CLAIM, FETCH_ROUND,
SHARD_COMPLETE, DONE_TOKEN and GENERATION_BUMP. -/

namespace Sys2Proof.Machine

open Config

/-! ### Selection and weights (R218 to R223) -/

/-- A row's score tokens as (expert, score) for the experts that can be chosen (R218). -/
def scoresOf (experts : Nat) (ts : List Tok) : List (Nat × BitVec 32) :=
  (List.zipIdx ts).flatMap (fun (t, i) => (List.range 32).filterMap (fun l =>
    if 32 * i + l < experts ∧ t.pred.getLsbD l then some (32 * i + l, laneOf t.data l) else none))

/-- The choices of a live row, best key first (R219): expert and unbiased score. -/
def chooseTop (k : Nat) (bias : Nat → BitVec 32) (scores : List (Nat × BitVec 32)) : List (Nat × BitVec 32) :=
  let keyed := (scores.map (fun e => (ofF32 (fadd e.2 (bias e.1)), e))).filter (fun e => !e.1.isNan)
  let order := sortBy (fun (a b : FVal × Nat × BitVec 32) =>
    let c := a.1.cmp b.1
    decide (c > 0) || (decide (c = 0) && decide (a.2.1 ≤ b.2.1))) keyed
  (order.take k).map (·.2)

/-- A sum in rank order, every addition rounded. -/
def fsum : List (BitVec 32) → BitVec 32
  | [] => 0
  | x :: xs => xs.foldl fadd x

/-- Pre-capacity weights (R220), and whether normalisation failed. -/
def preWeights (topknorm : Bool) (gs : List (BitVec 32)) : List (BitVec 32) × Bool :=
  if !topknorm then (gs, false)
  else
    let t := fsum gs
    match ofF32 t with
    | .fin false (m + 1) e => (gs.map (fun g => fdiv g (toF32 (.fin false (m + 1) e))), false)
    | _ => (gs, true)

/-- How a rank fared against capacity (R222). -/
inductive Fate where
  | kept | full | noSlot
  deriving DecidableEq, Repr, Inhabited

/-- Process the choices of a row in rank order: counts, answer slots taken, and each rank's fate and answer slot. -/
def capacity (cap dmax : Nat) (isDisp : Nat → Bool) : List Nat → List Nat → Nat → List (Fate × Option Nat) × List Nat × Nat
  | [], counts, ans => ([], counts, ans)
  | e :: es, counts, ans =>
    if counts.getD e 0 ≥ cap then
      (let r := capacity cap dmax isDisp es counts ans; ((.full, none) :: r.1, r.2))
    else if isDisp e then
      if ans ≥ dmax then (let r := capacity cap dmax isDisp es counts ans; ((.noSlot, none) :: r.1, r.2))
      else (let r := capacity cap dmax isDisp es (counts.modify e (· + 1)) (ans + 1); ((.kept, some ans) :: r.1, r.2))
    else (let r := capacity cap dmax isDisp es (counts.modify e (· + 1)) ans; ((.kept, none) :: r.1, r.2))

/-- Final weights (R223). -/
def finalWeights (renorm : Bool) (rscale : BitVec 32) (gs : List (BitVec 32)) (kept : List Bool) : List (BitVec 32) :=
  let both := kept.any id && kept.any (!·)
  let keptG := (gs.zip kept).filterMap (fun e => if e.2 then some e.1 else none)
  let factor := fdiv (fsum gs) (fsum keptG)
  (gs.zip kept).map (fun (g, k) =>
    if !k then 0 else fmul (if renorm && both then fmul g factor else g) rscale)

/-- An empty choice line. -/
def noChoice (skipNow poison : Bool) : Choice :=
  { experts := [], weights := [], kept := [], slots := [], skipNow := skipNow, skipNext := false, poison := poison }

/-- Route the row whose tokens have all arrived (R218 to R223, R240); those of a row that skips the pass are ignored. -/
def State.routeRow (s : State) (q : Nat) (j : Job) (p : Sys2Proof.Machine.Prod) (ts : List Tok) : State :=
  let rt := (s.quad q).rt
  let r := p.man.rp
  let row := rt.choices.length
  let poison := ts.any (·.poison)
  let s := s.bump 0x62 q 1 1
  if rt.skipThis.getD row false then
    (s.bump 0x62 q 2 1).updRt q (fun x => { x with part := [], choices := x.choices ++ [noChoice true false] })
  else if (ts.headD default).pred = 0 then
    s.updRt q (fun x => { x with part := [], choices := x.choices ++ [noChoice false poison] })
  else
    let nScore := ceilDiv r.experts 32
    let top := chooseTop r.choices (fun e => j.biases.getD (rt.pass * r.experts + e) 0) (scoresOf r.experts (ts.take nScore))
    let (gs, bad) := preWeights r.topknorm (top.map (·.2))
    let es := top.map (·.1)
    let (fates, counts, ans) := capacity rt.cap r.dmax (fun e => expDispatch (s.expEntry q p rt.pass e)) es rt.counts rt.ansSlots
    let kept := fates.map (fun f => f.1 == .kept)
    let skipScore := laneOf ((ts.getD nScore default).data) 0
    let skipNext := r.skip && flt r.skipth skipScore && decide (rt.pass + 1 < r.epasses) && decide (rt.skips.getD row 0 < r.skipmax)
    let c : Choice := { experts := es.map some, weights := finalWeights r.renorm r.rscale gs kept, kept := kept
                        slots := fates.map (·.2), skipNow := false, skipNext := skipNext, poison := poison }
    let s := if bad then s.bump 0x62 q 4 1 else s
    let s := if kept.any id then s else s.bump 0x62 q 3 1
    let s := (es.zip fates).foldl (fun s (e, f) =>
      let s := s.expCount q e 0 1
      match f.1 with
      | .kept => s.expCount q e 1 1
      | .full => s.expCount q e 2 1
      | .noSlot => s.expCount q e 3 1) s
    s.updRt q (fun x => { x with
      part := [], choices := x.choices ++ [c], counts := counts, ansSlots := ans
      loads := es.foldl (fun l e => modAt 0 l (rt.pass * r.experts + e) (· + 1)) x.loads })

/-- SCORE_TOKEN (R218): the next token on SCORELINK; the last one of a row routes the row, and the last row publishes the pass.
Tokens beyond the row count are dropped and counted. -/
def execScoreToken (q : Nat) (s : State) : Ans :=
  .next (
    match s.passOf q with
    | none => s
    | some (j, p) =>
      let r := p.man.rp
      match (s.quad q).inbound r.scorelink with
      | [] => s
      | (t, _, _) :: _ =>
        if !s.quadRuns q then s
        else
          let s := s.takeIn q r.scorelink
          let rt := (s.quad q).rt
          if rt.published || rt.expect.isNone || decide (rt.choices.length ≥ rt.rows) then s.bump 0x62 q 8 1
          else
            -- the first score token of a pass closes the dispenser of the pass before (R227)
            let s := if rt.dspOpen then s.updRt q (fun x => { x with dspOpen := false, works := [] }) else s
            let ts := rt.part ++ [t]
            if ts.length < ceilDiv r.experts 32 + (if r.skip then 1 else 0) then s.updRt q (fun x => { x with part := ts })
            else
              let s := s.routeRow q j p ts
              if rt.choices.length + 1 = rt.rows then (s.publish q).goOn else s)

/-! ### Claims (R227) -/

/-- The claim of another bound link that comes before this one. -/
def Quad.earlierClaim (x : Quad) (links : List Nat) (link at_ : Nat) : Bool :=
  links.any (fun l => match x.inbound l with
    | (_, a, _) :: _ => decide (a < at_) || (decide (a = at_) && decide (l < link))
    | [] => false)

/-- ROUTED_CLAIM (R227): the first claim waiting on a link of DSPN takes the next work entry once its weights are posted. -/
def execRoutedClaim (q link : Nat) (s : State) : Ans :=
  .next (
    let x := s.quad q
    match s.passOf q, x.inbound link with
    | some (_, p), (t, at_, _) :: _ =>
      let r := p.man.rp
      let d := x.disps.getD r.dspn Disp.reset
      let rt := x.rt
      let i := r.dspn
      if !s.quadRuns q || !d.links.contains link || x.earlierClaim d.links link at_ then s
      else if t.tag ≠ x.gwSlot then (s.takeIn q link).bump 0x43 q (6 * i + 4) 1
      else
        let slot := s.arrivalSlot q at_
        if !(s.ownSlots x.gwSlot (.gw q link)).contains slot then (s.takeIn q link).bump 0x43 q (6 * i + 3) 1
        else
          let posted := (x.cues.getD r.fcue default).posted
          let reply (s : State) (ts : List Tok) : State :=
            ((s.takeIn q link).updRt q (fun x => { x with held := x.held.filter (· ≠ (link, at_)) })).gwQueue q link (ts.map (fun t => { tok := t, owner := none, lastOf := false, path := some slot, notBefore := at_ + 4 }))
          let wait (s : State) : State :=
            if rt.held.contains (link, at_) then s
            else (s.bump 0x62 q 6 1).updRt q (fun x => { x with held := x.held ++ [(link, at_)] })
          if !rt.dspOpen then wait s
          else match rt.works[d.next]? with
          | some w =>
            if posted ≥ d.next + 1 then
              let (a, b) := w.lines d.next
              let s := (s.bump 0x43 q (6 * i) 1).bump 0x43 q (6 * i + 1) 1
              let s := s.updQuad q (fun x => { x with disps := x.disps.modify i (fun d => { d with next := d.next + 1 }) })
              (reply s [mkTok a x.gwSlot t.poison false,
                { data := b, pred := BitVec.ofNat 32 (2 ^ w.rows.length - 1), tag := x.gwSlot, poison := t.poison, last := true }]).goOn
            else wait s
          | none =>
            -- once the next pass has begun, the dispenser is still open and every entry has been taken
            if !rt.built && rt.published then wait s
            else reply ((s.bump 0x43 q (6 * i) 1).bump 0x43 q (6 * i + 2) 1)
              [{ data := 0xFFFFFFFF, pred := 0, tag := x.gwSlot, poison := t.poison, last := true }]
    | _, _ => s)

/-! ### Fetching (R228, R230) -/

/-- The fetch-map entry of a fetch's shard (R228). -/
def State.mapEntry (s : State) (q : Nat) (r : RoutePar) (f : Fetch) (shard : Nat) : Nat :=
  let ix := match f.toCache with | some c => 2 * r.slots + c | none => f.half * r.slots + f.slot
  memNat s.mem (stagingBase q + r.fmap + 4 * (ix * r.nshard + shard)) 4

/-- Set down lines of a shard from a byte offset of it, as a MOVE into the map entry's MU (R166, R230). -/
def State.setShard (s : State) (q : Nat) (r : RoutePar) (f : Fetch) (shard off : Nat) (ls : List Line) : State :=
  let m := s.mapEntry q r f shard
  let link := bits m 25 6
  let line := bits m 0 17 + off / 128
  let dst := lineAddr q (bits m 17 8) line
  let n := ((s.quad q).queues.getD 8 default).nextN
  let raw := setRaw (setRaw (setRaw (setRaw (setRaw 0 0 1 1) 2 1 63) 3 1 link) 0x20 8 dst) 0x28 4 (128 * ls.length)
  let e : TeEnt := { teEnt raw none (s.quad q).rt.job with n := n, started := true, dst := f.expert }
  let e : TeEnt := { e with held := e.opsAll }
  let slot := (s.quad q).gwSlot
  let s := s.updTq q 8 (fun k => { k with ents := k.ents ++ [e], nextN := n + 1 })
  s.gwQueue q link (gwTokens 8 n e.opLines [setDownHeader line ls.length slot] (ls.map (fun l => mkTok l.1 slot l.2 false)))

/-- The copy that a fetch reads on this device: none reads as a hole (R217, R242). -/
def State.fetchCopy (s : State) (q oid src : Nat) : Option Rec :=
  let (tier, copy) := if src = 0 then (1, q) else if src = 6 then (2, q) else (1, src - 1)
  match s.pool.readable tier oid with
  | some _ => (s.pool.copies tier oid).find? (·.copy == copy)
  | none => none

/-- Issue the next shard of a fetch (R230): it is read on this device and set down, or asked of a member by gets. -/
def State.fetchShard (s : State) (q : Nat) (j : Job) (p : Sys2Proof.Machine.Prod) (f : Fetch) : State :=
  let r := p.man.rp
  let rt := (s.quad q).rt
  let w := s.expEntry q p rt.pass f.expert
  let oid := (p.alias? (bits w 0 8)).getD 0
  let i := f.shards
  let at_ := expOff w + i * r.shard
  let s := s.updRt q (fun x => { x with fetches := x.fetches.map (fun g =>
    if g.expert == f.expert then { g with shards := i + 1, started := decide (r.nshard ≤ i + 1) } else g) })
  let s := if i = 0 then s.expCount q f.expert 4 1 else s
  if expSrc w = 5 then
    let tag := tagOf rt.batch f.half rt.gen
    (List.range (ceilDiv r.shard 65536)).foldl (fun s c =>
      let off := 65536 * c
      let m : Msg := { msg0 0x02 with
        dq := expHome w, rtag := tag, a0 := arg oid, a1 := arg (at_ + off), a2 := arg (1 + 4 * expHome w), a3 := arg (min 65536 (r.shard - off)) }
      let (ok, s) := s.issue { xop0 0x02 (peerOf (expMember w)) m with job := j.id, te := some (q, f.expert, i), off := off }
      if ok then s else (s.bump 0x72 0 9 1).endJob j.id LOST) s
  else
    match s.fetchCopy q oid (expSrc w) with
    | none => (s.noteReads q [.hole r.shard]).setShard q r f i 0 (List.replicate (r.shard / 128) holeLine)
    | some c =>
      if s.dark c.copy then s.endJob j.id NOTREADY
      else (s.noteReads q (c.pieces at_ r.shard)).setShard q r f i 0 ((List.range (r.shard / 128)).map (fun k => s.objLine c (at_ + 128 * k)))

/-- Operations that the fetch sequencer may still start: the tracker's room behind the tier engine's own queues, and no more than 512
of the tier engine's operations while entries of cue sheets wait on the tracker (R169, R230). -/
def State.fetchRoom (s : State) (q : Nat) : Nat :=
  let mine := (((s.quad q).queues.getD 8 default).ents.map (·.held)).foldl (· + ·) 0
  if (List.range 8).any (fun tq => decide (0 < s.teAsk q tq)) then min (512 - mine) (s.teRoom q 8) else s.teRoom q 8

/-- Issue the shards of a round in order, experts first, as long as the tracker has room for a whole shard. -/
def State.fetchShards (q round : Nat) (j : Job) (p : Sys2Proof.Machine.Prod) : Nat → State → State
  | 0, s => s
  | fuel + 1, s =>
    match (s.quad q).rt.fetches.find? (fun f => !f.started && f.round == round) with
    | none => s
    | some f =>
      if (s.passOf q).isNone || decide (s.fetchRoom q < ceilDiv p.man.rp.shard 65536) then s
      else State.fetchShards q round j p fuel (s.fetchShard q j p f)

/-- FETCH_ROUND (R230): rounds 0 and 1 start once the lists are published, round j once every entry of round j − 2 has been
reported done; a round that the tracker has held back goes on. -/
def execFetchRound (q : Nat) (s : State) : Ans :=
  .next (
    match s.passOf q with
    | none => s
    | some (j, p) =>
      let rt := (s.quad q).rt
      match rt.fetches.filter (fun f => !f.started) with
      | [] => s
      | f0 :: fs =>
        let round := fs.foldl (fun n f => min n f.round) f0.round
        let free := decide (round < 2) || rt.works.all (fun w => w.round != round - 2 || w.done)
        if s.quadRuns q && rt.published && free then
          State.fetchShards q round j p (rt.fetches.length * p.man.rp.nshard) s
        else s)

/-- SHARD_COMPLETE (R230): the first expert whose shards have all been set down; FCUE is posted in work-list order, and a
filled cache slot becomes valid. -/
def execShardComplete (q : Nat) (s : State) : Ans :=
  .next (
    match s.passOf q with
    | none => s
    | some (j, p) =>
      let x := s.quad q
      let busy (f : Fetch) : Bool :=
        (x.queues.getD 8 default).ents.any (fun e => e.dst == f.expert && e.job == j.id && !e.done) ||
        s.fab.ops.any (fun o => match o.te with
          | some (a, e, _) => a == q && e == f.expert && o.kind == 2 && o.job == j.id && x.rt.expects o.msg.rtag f.half
          | none => false)
      match x.rt.fetches.find? (fun f => f.started && !f.done && !busy f) with
      | none => s
      | some f =>
        if !s.quadRuns q then s
        else
          let s := s.updRt q (fun rt => { rt with
            fetches := rt.fetches.map (fun g => if g.expert == f.expert then { g with done := true } else g)
            cache := match f.toCache with | some c => rt.cache.modify c (fun y => { y with valid := true }) | none => rt.cache })
          (s.postWorks q p.man.rp.fcue).goOn)

/-- DONE_TOKEN (R231): the next token on DONELINK reports a finished work entry, or is dropped and counted. -/
def execDoneToken (q : Nat) (s : State) : Ans :=
  .next (
    match s.passOf q with
    | none => s
    | some (_, p) =>
      let link := p.man.rp.donelink
      match (s.quad q).inbound link with
      | [] => s
      | (t, _, _) :: _ =>
        if !s.quadRuns q then s
        else
          let ix := (laneOf t.data 0).toNat
          let s := s.takeIn q link
          match (s.quad q).rt.works[ix]? with
          | some w =>
            if w.done then s.bump 0x62 q 7 1
            else (s.updRt q (fun x => { x with works := x.works.modify ix (fun w => { w with done := true }) })).goOn
          | none => s.bump 0x62 q 7 1)

/-- GENERATION_BUMP (R236): a waiting bump is taken once no operation tagged with the new value is outstanding. -/
def execGenerationBump (s : State) : Ans := .next (if s.isOn then State.takeBumps s.sv.bumps s else s)

end Sys2Proof.Machine
end

