-- ==== Sys2Proof/Machine/SessionOps.lean ====
section
/-! DEFINITION. Sessions as operations (R298 to R306): closing with its treatment of jobs and placements, opening, the
held-job list, and the commands that wait for a close to be complete. -/

namespace Sys2Proof.Machine

open Config

/-! ### Closing (R305) -/

/-- A job of a session: submitted at the function's callboard (a member's troupe-wide job is not). -/
def Job.ofSession (j : Job) (f : Nat) : Bool := j.f == f && decide (j.slot < 256)

/-- What the close of its session does to a job, with a hold reason of R300. -/
def State.closeJob (s : State) (reason : Nat) (j : Job) : State :=
  match j.st with
  | .running =>
    let s := s.updJob j.id (fun j => { j with reason := reason })
    if j.inStep then s else s.holdJob j.id reason
  | .queued => s.holdJob j.id reason
  | .preempting => s.updJob j.id (fun j => { j with preKeep := true, reason := reason })
  | .struck => (s.jobTo j.id .struck).updJob j.id (fun j => { j with kept := true, reason := reason })
  | .setting => s.updJob j.id (fun j => { j with reason := reason })
  | .held => s

/-- A placement that reads the host window stops, and what waits on it completes with CANCELLED (R133, R305). -/
def State.cancelPlacing (s : State) (p : Placing) : State :=
  let s := s.dropPlacing p
  match p.for_ with
  | .slot f n => s.complete f n CANCELLED 0
  | .borrow f n => s.complete f n CANCELLED 0
  | .load num => s.failProdLoad num CANCELLED
  | .stage num => s.failStage num CANCELLED 0
  | .entry _ _ _ => s
  | .seal _ _ _ => s
  | .park _ => s
  | .resume _ => s
  | .stall _ => s
  | .lendSide _ _ _ _ => s

/-- A placement's source lies in the host window of function f. -/
def Placing.fromHost (p : Placing) (f : Nat) : Bool := match p.src with | .addr a => p.f == f && isHost a | .obj _ _ => false | .bytes _ _ => false

/-- The session closes: its jobs hold, or with `ending` end as under JOB_END; placements from the host window are cancelled;
the device cache is emptied (R304, R305). -/
def State.closeSession (s : State) (f reason : Nat) (ending : Bool) : State :=
  let s := s.updFn f (fun x => { x with opened := false, dcache := [] })
  let s := (s.sv.jobs.filter (·.ofSession f)).foldl (fun s j =>
    if ending && (j.st == .running || j.st == .held || j.st == .queued) then
      -- a running step is delivered first; no slot waits on this end, as place 256 says
      (if j.inStep then s.updJob j.id (fun j => { j with endSlots := j.endSlots ++ [(f, 256)], reason := reason })
       else s.endJob j.id CANCELLED)
    else s.closeJob reason j) s
  (s.pool.placing.filter (·.fromHost f)).foldl State.cancelPlacing s

/-- A job of a closed session still runs to its boundary. -/
def State.stillClosing (s : State) (f : Nat) : Bool := s.sv.jobs.any (fun j => j.ofSession f && j.st == .running && decide (j.reason ≠ 0))

/-! ### Opening (R298 to R300, R306) -/

/-- A map entry (R283). -/
def mapEntOf (hbase w : Nat) : MapEnt :=
  { hbase := hbase, wpage := bits w 0 35, pages := bits w 35 27, rd := w.testBit 62, wr := w.testBit 63 }

/-- The six entries of a HELLO packet, unused ones left out. -/
def Pkt.mapEnts (p : Pkt) : List MapEnt :=
  ((List.range 6).map (fun i => mapEntOf (p.at (0x58 + 16 * i) 8) (p.at (0x60 + 16 * i) 8))).filter (fun e => decide (0 < e.pages))

/-- One entry keeps the limits of R283. -/
def MapEnt.ok (e : MapEnt) : Bool := decide (e.hbase % 4096 = 0) && decide (e.wpage + e.pages ≤ 2 ^ 35)

/-- Two entries overlap in window pages. -/
def MapEnt.meets (a b : MapEnt) : Bool := decide (a.wpage < b.wpage + b.pages) && decide (b.wpage < a.wpage + a.pages)

/-- No two entries of a table overlap. -/
def mapApart : List MapEnt → Bool
  | [] => true
  | e :: es => es.all (fun d => !e.meets d) && mapApart es

/-- The 16 bytes of the HELD list for one job (R300). -/
def Job.heldEntry (j : Job) : List Byte :=
  leBytes 4 j.id ++ leBytes 2 j.prod ++ leBytes 1 j.reason ++ leBytes 1 (if j.started then 1 else 0) ++ leBytes 8 j.steps

/-- The held jobs of a function, which a HELLO reports: HELD ones, and struck ones kept by a close; a job held at a lost lead
belongs to function 0 (R273, R300). -/
def State.heldJobs (s : State) (f : Nat) : List Job :=
  s.sv.jobs.filter (fun j => j.f == f && (j.st == .held || (j.st == .struck && j.kept && j.reason != 0)))

/-- The epoch after e (R298). -/
def nextEpoch (e : Nat) : Nat := if (e + 1) % 65536 = 0 then 1 else (e + 1) % 65536

/-- Open a session for a HELLO packet: map, lease, list of held jobs, DONE, then the kept records (R300, R306). -/
def State.openSession (s : State) (p : Pkt) : State :=
  let f := p.f
  let old := (s.fn f).epoch
  let now := nextEpoch old
  let held := s.heldJobs f
  let due := (s.fn f).kept.length
  let s := (s.updFn f (fun x => { x with epoch := now, opened := true, map := p.mapEnts, leaseStart := p.goUs, leasePeriod := s.bt.sets.lease })).bump
    0x01 f 4 1
  let a := p.at 0x48 8
  let list := (held.flatMap Job.heldEntry).take (p.at 0x50 4 / 16 * 16)
  let s := if a = 0 then s else s.dmaWrite f a list
  let val := now + old * 2 ^ 16 + min held.length 0xFFFF * 2 ^ 32 + min due 0xFFFF * 2 ^ 48 + (s.fn f).leasePeriod * 2 ^ 64
  (s.complete f p.n DONE val).flushKept f

/-- A RELEASE completes, or a takeover's session opens, once every job of the closed session has reached its boundary. -/
def State.settleClose (s : State) (f : Nat) : State :=
  if s.stillClosing f then s
  else
    (s.fn f).closing.foldl (fun s n =>
      let p := s.pkt f n
      if p.op = 0x0101 then s.openSession p else s.complete f n DONE 0) (s.updFn f (fun x => { x with closing := [] }))

/-- Settle every function's close. -/
def State.settleCloses (s : State) : State := (List.range 4).foldl State.settleClose s

end Sys2Proof.Machine
end

