-- ==== Sys2Proof/Machine/Serve.lean ====
section
/-! DEFINITION. Serving (R191 to R212): the request commands, admission and composition of a step, its end, and the commits
of sealed pages, parked caches and resumes. -/

namespace Sys2Proof.Machine

open Config

/-! ### Finding requests -/

/-- The request that a command names: one of the job in its header, or a parked one (R192, R209). -/
def State.reqOf (s : State) (p : Pkt) : Option Req :=
  match s.req? (p.at 0x40 8) with
  | some r => if r.job = p.job ∨ r.st = .parked then some r else none
  | none => none

/-- Requests of a job that are neither PARKED nor ENDED (R191). -/
def State.liveReqs (s : State) (jid : Nat) : List Req := s.sv.reqs.filter (fun r => r.job == jid && r.st != .parked)

/-- PARKED requests, and those that wait to be (R191). -/
def State.parkedCount (s : State) : Nat := (s.sv.reqs.filter (fun r => r.st == .parked || r.st == .parking || r.parkSlot.isSome)).length

/-- A host-window range of a request command: aligned, in the host window, and without a hole (R118). -/
def State.hostRange (s : State) (f a n al : Nat) (wr : Bool) : Bool := isHost a && decide (a % al = 0) && s.reachable f a n wr

/-! ### REQUEST_OPEN (R191) -/

/-- TEMP is finite and not below zero. -/
def tempOk (t : Nat) : Bool :=
  match ofF32 (BitVec.ofNat 32 t) with
  | .fin neg m _ => !neg || decide (m = 0)
  | .inf _ => false
  | .nan => false

/-- The first parameter of REQUEST_OPEN found wrong: the fields in order, then the ranges that they name (R118). -/
def State.openBad (s : State) (p : Pkt) (m : Manifest) : Option Nat :=
  let plen := p.at 0x48 4
  let maxnew := p.at 0x4C 4
  let outcap := p.at 0x58 4
  let home := p.at 0x81 1
  if !isHost (p.at 0x40 8) ∨ p.at 0x40 8 % 4 ≠ 0 then some 0x40
  else if plen < 1 ∨ plen > m.maxctx - 1 then some 0x48
  else if maxnew < 1 ∨ maxnew > 1048576 then some 0x4C
  else if !isHost (p.at 0x50 8) ∨ p.at 0x50 8 % 64 ≠ 0 then some 0x50
  else if outcap < maxnew + 2 ∨ outcap > 16777216 then some 0x58
  else if !tempOk (p.at 0x5C 4) then some 0x5C
  else if p.at 0x60 2 > 1024 then some 0x60
  else if (List.range 4).any (fun i => decide (p.at (0x70 + 4 * i) 4 ≥ m.vocab) && decide (p.at (0x70 + 4 * i) 4 ≠ 0xFFFFFFFF)) then some 0x70
  else if home ≠ 0xFF ∧ (home > 3 ∨ !m.quads.testBit home) then some 0x81
  else if !s.reachable p.f (p.at 0x40 8) (4 * plen) false then some 0x40
  else if !s.reachable p.f (p.at 0x50 8) (16 * outcap) true then some 0x50
  else none

/-- A request as it is opened. -/
def State.newReq (s : State) (p : Pkt) (prod : Nat) : Req :=
  let fl := p.at 0x80 1
  { id := s.sv.nextReq, job := p.job, prod := prod, f := p.f, st := .queued, pstate := 0, since := s.sv.order
    prompt := p.at 0x40 8, plen := p.at 0x48 4, consumed := 0, maxnew := p.at 0x4C 4, outbuf := p.at 0x50 8, outcap := p.at 0x58 4
    temp := BitVec.ofNat 32 (p.at 0x5C 4), topk := p.at 0x60 2, topp := p.at 0x62 2, seed := BitVec.ofNat 64 (p.at 0x68 8)
    stop := (List.range 4).map (fun i => p.at (0x70 + 4 * i) 4), keep := fl.testBit 0, slotRep := fl.testBit 1
    slotReply := if fl.testBit 1 then some p.n else none, notify := fl.testBit 2, nospec := fl.testBit 3, home := p.at 0x81 1
    len := 0, pending := none, delivered := 0, recIx := 0, poisoned := 0, accepted := 0, tree := none, stepTree := [], keys := [], rows := 0
    promptRows := 0, badPrompt := false, pages := [], parkObj := 0, cancelSlots := [], parkSlot := none, parkTtl := 0
    resumeSlot := none, resumeTo := none, isAppend := false }

/-- REQUEST_OPEN's own rule. -/
def State.reqOpenRule (p : Pkt) (s : State) : State × Rep :=
  match s.job? p.job with
  | none => (s, .bad 0x0C)
  | some j =>
    match s.prod? j.prod with
    | none => (s, .bad 0x0C)
    | some x =>
      match s.openBad p x.man with
      | some off => (s, .bad off)
      | none =>
        if (s.liveReqs p.job).length ≥ 8192 then (s, .fin LIMIT 0)
        else
          let r := s.newReq p j.prod
          let s : State := { s with sv := { s.sv with reqs := s.sv.reqs ++ [r], nextReq := s.sv.nextReq + 1, order := s.sv.order + 1 } }
          (s, if r.slotReply.isSome then .first ACCEPTED r.id else .fin ACCEPTED r.id)

/-- REQUEST_OPEN (R191). -/
def execRequestOpen (f slot : Nat) (s : State) : Ans := .next (s.command f slot 0x0401 State.reqOpenRule)

/-! ### REQUEST_APPEND (R202, R206) -/

/-- A tree node list as (token, parent); none when it is broken. -/
def treeOf (vocab : Nat) (bs : List Byte) (count : Nat) : Option (List (Nat × Nat)) :=
  let ns := (List.range count).map (fun e => (leAt bs (8 * e) 4, bits (leAt bs (8 * e + 4) 4) 0 6))
  if (List.zipIdx ns).all (fun (n, e) => decide (n.1 < vocab) && decide (n.2 ≤ e)) then some ns else none

/-- KIND 1: a speculative tree. -/
def State.appendTree (s : State) (p : Pkt) (r : Req) (m : Manifest) : State × Rep :=
  let count := p.at 0x4C 4
  let src := p.at 0x50 8
  if r.nospec ∨ m.treemax = 0 ∨ m.draft = 1 ∨ r.st ≠ .decode then (s, .bad 0xFFFF)
  else if count < 1 ∨ count > m.treemax then (s, .bad 0x4C)
  else if !s.hostRange p.f src (8 * count) 8 false then (s, .bad 0x50)
  else if p.at 0x5C 4 ≠ 0 then (s, .bad 0x5C)
  else
    let (bs, s) := s.readNamed p.f src (8 * count)
    match treeOf m.vocab bs count with
    | none => (s, .bad 0x50)
    | some ns => (s.updReq r.id (fun r => { r with tree := some (p.at 0x58 4, ns) }), .fin DONE 0)

/-- KIND 0: a next turn of an IDLE request. -/
def State.appendTurn (s : State) (p : Pkt) (r : Req) (m : Manifest) : State × Rep :=
  let count := p.at 0x4C 4
  let maxnew := p.at 0x5C 4
  let outcap := p.at 0x68 4
  if count < 1 ∨ count + r.nextPos > m.maxctx - 1 then (s, .bad 0x4C)
  else if !isHost (p.at 0x50 8) ∨ p.at 0x50 8 % 4 ≠ 0 then (s, .bad 0x50)
  else if p.at 0x58 4 ≠ 0 then (s, .bad 0x58)
  else if maxnew < 1 ∨ maxnew > 1048576 then (s, .bad 0x5C)
  else if !isHost (p.at 0x60 8) ∨ p.at 0x60 8 % 64 ≠ 0 then (s, .bad 0x60)
  else if outcap < maxnew + 2 ∨ outcap > 16777216 then (s, .bad 0x68)
  else if !s.reachable p.f (p.at 0x50 8) (4 * count) false then (s, .bad 0x50)
  else if !s.reachable p.f (p.at 0x60 8) (16 * outcap) true then (s, .bad 0x60)
  else if r.st = .prefill ∨ r.st = .decode ∨ r.st = .parking ∨ r.st = .resuming ∨ (r.st = .idle ∧ r.isAppend) then (s, .fin BUSY 0)
  else if r.st ≠ .idle then (s, .bad 0x40)
  else
    let s := s.updReq r.id (fun r =>
      { r with isAppend := true, since := s.sv.order, prompt := p.at 0x50 8, plen := count, consumed := 0, maxnew := maxnew
               outbuf := p.at 0x60 8, outcap := outcap, recIx := 0, delivered := 0, poisoned := 0, accepted := 0 })
    ({ s with sv := { s.sv with order := s.sv.order + 1 } }, .fin ACCEPTED 0)

/-- REQUEST_APPEND's own rule. -/
def State.reqAppendRule (h : HostView) (p : Pkt) (s : State) : State × Rep :=
  let s := s.withHost h
  match s.reqOf p with
  | none => (s, .bad 0x40)
  | some r =>
    match s.prod? r.prod with
    | none => (s, .bad 0x40)
    | some x =>
      if p.at 0x48 1 = 1 then s.appendTree p r x.man
      else if p.at 0x48 1 = 0 then s.appendTurn p r x.man
      else (s, .bad 0x48)

/-- REQUEST_APPEND (R202, R206). -/
def execRequestAppend (f slot : Nat) (h : HostView) (s : State) : Ans := .next (s.command f slot 0x0402 (State.reqAppendRule h))

/-! ### REQUEST_CANCEL, REQUEST_PARK, REQUEST_RESUME (R207 to R210) -/

/-- The parked object is there and has not expired (R141). -/
def State.parkedAlive (s : State) (r : Req) : Bool :=
  match s.pool.readable 2 r.parkObj with
  | some c => decide (s.now < c.expiry)
  | none => false

/-- REQUEST_CANCEL's own rule: at once for a PARKED request, else at action 2. -/
def State.reqCancelRule (p : Pkt) (s : State) : State × Rep :=
  match s.reqOf p with
  | none => (s, if s.sv.endedReqs.contains (p.at 0x40 8, p.job) then .fin ALREADY 0 else .bad 0x40)
  | some r =>
    if r.st = .parked then
      -- one whose object has expired has ended (R192)
      (if s.parkedAlive r then (s.cancelReq r.id, .fin DONE 0) else (s.loseReq r.id, .fin ALREADY 0))
    else ((s.updReq r.id (fun r => { r with cancelSlots := r.cancelSlots ++ [(p.f, p.n)] })).boundaryIfIdle r.job, .later)

/-- REQUEST_CANCEL (R210). -/
def execRequestCancel (f slot : Nat) (s : State) : Ans := .next (s.command f slot 0x0403 State.reqCancelRule)

/-- REQUEST_PARK's own rule: it acts at action 3. -/
def State.reqParkRule (p : Pkt) (s : State) : State × Rep :=
  let ttl := p.at 0x48 8
  match s.reqOf p with
  | none => (s, .bad 0x40)
  | some r =>
    if ttl > 2 ^ 47 then (s, .bad 0x48)
    else if r.st = .parking ∨ r.st = .resuming ∨ r.parkSlot.isSome then (s, .fin BUSY 0)
    else if r.st = .queued ∨ r.st = .parked then (s, .bad 0x40)
    else if s.parkedCount ≥ 65536 then (s, .fin LIMIT 0)
    else ((s.updReq r.id (fun r => { r with parkSlot := some (p.f, p.n), parkTtl := if ttl = 0 then 600000000 else ttl })).boundaryIfIdle r.job,
          .later)

/-- REQUEST_PARK (R207). -/
def execRequestPark (f slot : Nat) (s : State) : Ans := .next (s.command f slot 0x0404 State.reqParkRule)

/-- A resume meets a request whose object has expired or been removed: it completes with EVICTED, and the request has ended without an
end record (R141, R142, R209). -/
def State.resumeEvicted (s : State) (p : Pkt) : State × Rep :=
  let rid := p.at 0x40 8
  let s := s.endReq rid EVICTED false
  let s : State := { s with sv := { s.sv with lost := s.sv.lost.erase rid } }
  (if (s.job? p.job).isSome then s.serve51 p.job 14 1 else s, .fin EVICTED 0)

/-- Resumes that wait for admission to a job (R200). -/
def State.resumesDue (s : State) (jid : Nat) : List Req :=
  s.sv.reqs.filter (fun r => r.st == .parked && (r.resumeTo.map (·.1)) == some jid && r.resumeSlot.isSome)

/-- REQUEST_RESUME's own rule: it waits for admission. -/
def State.reqResumeRule (p : Pkt) (s : State) : State × Rep :=
  let home := p.at 0x48 1
  match s.req? (p.at 0x40 8) with
  | none => if s.sv.lost.contains (p.at 0x40 8) then s.resumeEvicted p else (s, .bad 0x40)
  | some r =>
    if r.st ≠ .parked then (s, .bad 0x40)
    else if home > 3 ∧ home ≠ 0xFF then (s, .bad 0x48)
    else if r.resumeSlot.isSome then (s, .fin BUSY 0)
    else if !s.parkedAlive r then s.resumeEvicted p
    else
      match s.job? p.job with
      | none => (s, .bad 0x0C)
      | some j =>
        match s.prod? j.prod with
        | none => (s, .bad 0x0C)
        | some x =>
          let at_ (off n : Nat) : Nat :=
            match s.pool.copyFor 2 r.parkObj (r.home % 4) with | some c => leAt (s.readCopy c off n).1 0 n | none => 0
          if at_ 8 2 ≠ j.prod ∨ at_ 0x0B 1 ≠ x.man.layers ∨ at_ 0x0C 2 ≠ x.man.kvb ∨ at_ 0x0E 2 ≠ x.man.pagetok then (s, .bad 0x0C)
          else if home ≠ 0xFF ∧ !x.man.quads.testBit home then (s, .bad 0x48)
          else if (s.liveReqs j.id).length + (s.resumesDue j.id).length ≥ 8192 then (s, .fin LIMIT 0)
          else
            let s := s.updReq r.id (fun r => { r with resumeSlot := some (p.f, p.n), resumeTo := some (j.id, home), since := s.sv.order })
            ({ s with sv := { s.sv with order := s.sv.order + 1 } }, .later)

/-- REQUEST_RESUME (R209). -/
def execRequestResume (f slot : Nat) (s : State) : Ans := .next (s.command f slot 0x0405 State.reqResumeRule)

/-! ### Admission (R200) -/

/-- The home quadrant a request takes: the one it names, or that of QUADS with the most free frame sets. -/
def State.homeFor (s : State) (jid : Nat) (m : Manifest) (home : Nat) : Option Nat :=
  if home ≠ 0xFF then (if s.freeFrames jid home m > 0 then some home else none)
  else
    ((maskList m.quads 4).foldl (fun (acc : Option Nat) q =>
      let n := s.freeFrames jid q m
      match acc with
      | none => if n > 0 then some q else none
      | some b => if n > s.freeFrames jid b m then some q else some b) none)

/-- The job holds fewer than STEPROWS − PFMIN requests in PREFILL, DECODE and RESUMING. -/
def State.roomFor (s : State) (jid : Nat) (m : Manifest) : Bool :=
  decide ((s.sv.reqs.filter (fun r => r.job == jid && (r.st == .prefill || r.st == .decode || r.st == .resuming))).length < m.steprows - m.pfmin)

/-- Admit one request; `false` stops admission. -/
def State.admitOne (s : State) (jid : Nat) (m : Manifest) (r : Req) : Bool × State :=
  match r.st with
  | .parked =>
    if !s.parkedAlive r then (true, s.loseReq r.id)
    else if (s.liveReqs jid).length ≥ 8192 then (false, s)
    else if r.pstate ≠ 3 && !s.roomFor jid m then (false, s)
    else
      match s.homeFor jid m ((r.resumeTo.map (·.2)).getD 0xFF) with
      | none => (false, s)
      | some q => (true, s.startResume r.id jid q m)
  | .idle =>
    if !s.roomFor jid m || s.freeFrames jid r.home m == 0 then (false, s)
    else (true, (s.updReq r.id (fun r => { r with isAppend := false })).enter r.id .prefill)
  | .queued =>
    if !s.roomFor jid m then (false, s)
    else
      match s.homeFor jid m r.home with
      | none => (false, s)
      | some q => (true, (s.updReq r.id (fun r => { r with home := q })).enter r.id .prefill)
  | _ => (true, s)

/-- Admission in order: resumes, next turns, new requests, each by acceptance; it stops at the first that cannot be. What was accepted
after the boundary's action 1 began waits for the next boundary (R26). -/
def State.admission (s : State) (jid : Nat) (m : Manifest) : State :=
  let mark := (s.job? jid).bind (·.mark)
  let byAge (rs : List Req) : List Req :=
    sortBy (fun a b => decide (a.since ≤ b.since)) (rs.filter (fun r => match mark with | some n => decide (r.since < n) | none => true))
  let order := byAge (s.resumesDue jid) ++
    byAge (s.sv.reqs.filter (fun r => r.job == jid && r.st == .idle && r.isAppend)) ++
    byAge (s.sv.reqs.filter (fun r => r.job == jid && r.st == .queued))
  (order.foldl (fun (acc : Bool × State) r => if acc.1 then acc.2.admitOne jid m r else acc) (true, s)).2

/-! ### Composition (R198, R199, R201) -/

/-- Composition in progress: rows left of the budget, and the requests that frames held back. -/
structure Comp where
  s : State
  left : Nat
  lost : List Nat

/-- Give a request up to `want` rows, as many as the budget and its frame sets let it hold (R198). -/
def Comp.give (c : Comp) (m : Manifest) (rid want : Nat) : Nat × Comp :=
  match c.s.req? rid with
  | none => (0, c)
  | some r =>
    let want := min want c.left
    let frames := c.s.freeFrames r.job r.home m + r.needs m.pagetok r.rows
    let k := min want (frames * m.pagetok - r.len % m.pagetok - r.rows)
    (k, { s := c.s.updReq rid (fun r => { r with rows := r.rows + k }), left := c.left - k
          lost := if k < want && !c.lost.contains rid then rid :: c.lost else c.lost })

/-- Pass 1: a row for each DECODE request, and for the pending token of a PREFILL request. -/
def Comp.base (m : Manifest) (c : Comp) (rid : Nat) : Comp :=
  match c.s.req? rid with
  | none => c
  | some r => if r.st = .decode ∨ (r.st = .prefill ∧ r.pending.isSome) then (c.give m rid 1).2 else c

/-- Passes 2 and 4: prompt rows of a PREFILL request, out of `pf` rows of the pass. -/
def Comp.prompt (m : Manifest) (acc : Nat × Comp) (rid : Nat) : Nat × Comp :=
  let (pf, c) := acc
  match c.s.req? rid with
  | none => acc
  | some r =>
    if r.st ≠ .prefill ∨ (r.pending.isSome ∧ r.rows = 0) then acc
    else
      let (k, c) := c.give m rid (min (min (r.plen - r.consumed - r.promptRows) (m.chunkmax - r.promptRows)) pf)
      (pf - k, { c with s := c.s.updReq rid (fun r => { r with promptRows := r.promptRows + k }) })

/-- Pass 3: the tree of a DECODE request whose base row is composed; a stale tree is discarded and counted (R202). -/
def Comp.tree (m : Manifest) (c : Comp) (rid : Nat) : Comp :=
  match c.s.req? rid with
  | none => c
  | some r =>
    match r.tree with
    | none => c
    | some (pos, ns) =>
      if r.st ≠ .decode ∨ r.rows = 0 then c
      else if pos ≠ r.len then
        { c with s := (c.s.serve51 r.job 5 1).updReq rid (fun r => { r with tree := none }) }
      else
        -- the nodes that the budget drops; those that frame sets hold back are frame waits (R198)
        let cut := ns.length - c.left
        let (k, c) := c.give m rid ns.length
        { c with s := ((c.s.serve51 r.job 4 cut).serve51 r.job 3 k).updReq rid (fun r => { r with tree := none, stepTree := ns.take k }) }

/-- The ancestor masks of a tree, node 0 first (R203). -/
def ancestors (ns : List (Nat × Nat)) : List Nat :=
  ns.foldl (fun ms n => ms ++ [2 ^ ms.length ||| ms.getD n.2 0]) [1]

/-- The draw keys of a request's rows: a row at position n chooses the token of position n + 1 (R191, R203). -/
def Req.stepKeys (r : Req) : List (BitVec 64) :=
  if r.stepTree.isEmpty then (List.range r.rows).map (fun i => r.drawKey (r.len + i + 1))
  else (ancestors r.stepTree).map (fun a => r.drawKey (r.len + (maskList a 64).length))

/-- Write a request's ancestor masks into the step's tree table; the table's place is free (log 19). -/
def State.writeAncestors (s : State) (r : Req) : State :=
  if r.stepTree.isEmpty then s
  else
    let base := r.home % 4 * 0x80000000 + treeAt r.id % (0x80000000 - 512) / 8 * 8
    s.devWrite base ((ancestors r.stepTree).flatMap (leBytes 8)) false

/-- Read a request's prompt chunk by DMA: a hole, or a token at or above VOCAB, ends the request at the next boundary
(R195, R201). -/
def State.readPrompt (s : State) (m : Manifest) (r : Req) : State :=
  if r.promptRows = 0 then s
  else
    let a := r.prompt + 4 * r.consumed
    let n := 4 * r.promptRows
    let ((bs, _), s) := s.dmaRead r.f a n (decide (n ≤ 4096))
    let bad := !s.reachable r.f a n false || (List.range r.promptRows).any (fun i => decide (leAt bs (4 * i) 4 ≥ m.vocab))
    if bad then s.updReq r.id (fun r => { r with badPrompt := true }) else s

/-- Trees that the production's draft scene wrote (DRAFT = 1, R202): at most TREEMAX nodes, for the next position. -/
def State.takeDrafts (s : State) (jid : Nat) (m : Manifest) (drafts : List (Nat × List (Nat × Nat))) : State :=
  if m.draft ≠ 1 then s
  else drafts.foldl (fun s d =>
    match s.req? d.1 with
    | some r =>
      let ns := d.2.take m.treemax
      if r.job = jid && r.st == .decode && !r.nospec && !ns.isEmpty &&
         (List.zipIdx ns).all (fun (n, e) => decide (n.1 < m.vocab) && decide (n.2 ≤ e)) then
        s.updReq r.id (fun r => { r with tree := some (r.len, ns) })
      else s
    | none => s) s

/-- Compose the rows of a step (R199): the rows given to each quadrant, and the state. -/
def State.composeRows (s : State) (jid : Nat) (m : Manifest) : List Nat × State :=
  let ids := (sortBy (fun (a b : Req) => decide (a.since ≤ b.since))
    (s.sv.reqs.filter (fun r => r.job == jid && (r.st == .prefill || r.st == .decode)))).map (·.id)
  let c : Comp := { s := s, left := m.steprows, lost := [] }
  let c := ids.foldl (Comp.base m) c
  let base := m.steprows - c.left
  let (_, c) := ids.foldl (Comp.prompt m) (min m.pfmin c.left, c)
  let c := ids.foldl (Comp.tree m) c
  let (_, c) := ids.foldl (Comp.prompt m) (c.left, c)
  let mine := c.s.sv.reqs.filter (fun r => r.job == jid && decide (r.rows > 0))
  let rowsQ := (List.range 4).map (fun q => ((mine.filter (·.home == q)).map (·.rows)).foldl (· + ·) 0)
  let s := c.s.serve51 jid 8 c.lost.length
  let s := (s.serve51 jid 1 base).serve51 jid 2 ((mine.map (·.promptRows)).foldl (· + ·) 0)
  (rowsQ, mine.foldl (fun s r => ((s.readPrompt m r).writeAncestors r).updReq r.id (fun r => { r with keys := r.stepKeys })) s)

/-! ### Starting a step -/

/-- A link that the routing block claims is bound to a dispenser other than its own (R242). -/
def Quad.linkClash (x : Quad) (r : RoutePar) : Bool :=
  let ls := [r.scorelink, r.donelink] ++ (if r.alink = 255 then [] else [r.alink])
  x.disps.any (fun d => d.links.any (fun l => ls.contains l))

/-- A job of production n runs in quadrant q: the expert cache of another production is invalid (R232). -/
def State.ownCache (s : State) (n q : Nat) : State :=
  s.updRt q (fun x => if x.cacheProd = n then x else { x with cache := [], cacheProd := n })

/-- Begin a step with its rows in each quadrant: the sheets of the step and of the one after it are written into the engine queues
(R18), and routed passes begin at pass 0 (R161, R218, R257). -/
def State.beginStep (s : State) (jid : Nat) (rowsQ : List Nat) : State :=
  match s.job? jid with
  | none => s
  | some j =>
    match s.prod? j.prod with
    | none => s
    | some p =>
      let r := p.man.rp
      let qs := maskList p.man.quads 4
      let s := if (p.stale || p.st == .staged) && !p.resLoad then s.startResident p.num else s
      let s := s.writeSheets p jid (j.steps + 2)
      let s := s.updJob jid (fun j => { j with inStep := true, started := true, ends := [], mark := none })
      let s := if j.slot < 256 then s.sePut (.deliver jid) else s
      let s := qs.foldl (fun s q => (s.ownCache p.num q).updQuad q (fun x => { x with ran := false })) s
      if r.experts = 0 then qs.foldl (fun s q => s.updRt q (fun x => { x with active := false, expect := none })) s
      else if qs.any (fun q => (s.quad q).linkClash r) then s.endJob jid INTERNAL
      else
        (qs.foldl (fun s q =>
          let s := s.updRt q (fun x =>
            { Routing.reset with active := true, job := jid, gen := j.gen, rows := rowsQ.getD q 0
                                 cache := x.cache, cacheProd := p.num, age := x.age })
          s.startPass q 0 j.passes (List.replicate (rowsQ.getD q 0) 0) (List.replicate (rowsQ.getD q 0) false) r) s).goOn

/-- The STEP message to a member: the step number in A1 and the rows of the quadrants in A2 (log 15). -/
def stepMsg (jid step : Nat) (rowsQ : List Nat) : Msg :=
  troupeMsg 0x11 0 (jid % 2 ^ 32 + step * 2 ^ 32) ((List.range 4).foldl (fun n q => n + rowsQ.getD q 0 % 65536 * 2 ^ (16 * q)) 0) 0

/-- Action 6 (R25, R199, R200, R255): the counters are cleared, requests are admitted, and rows composed. No rows: no step, and what was
accepted since action 1 meets the next boundary at once (R26, R212). -/
def State.compose (s : State) (jid : Nat) (drafts : List (Nat × List (Nat × Nat))) : State :=
  match s.job? jid, s.manOf jid with
  | some j, some m =>
    let s : State := { s with fab := { s.fab with ctrs := List.replicate 64 0 } }
    let s := (s.admission jid m).takeDrafts jid m drafts
    let (rowsQ, s) := s.composeRows jid m
    let s := s.seDone (.compose jid)
    if rowsQ.all (· == 0) then (s.updJob jid (fun j => { j with mark := none })).boundary jid
    else
      let s := s.serve51 jid 0 1
      let s := if j.members ≠ 0 ∧ s.fab.role = .lead then s.tellMembers j (stepMsg jid (j.steps + 1) rowsQ) else s
      s.beginStep jid rowsQ
  | _, _ => s

/-- The exchange engine holds an operation of the job (R255). -/
def State.xheld (s : State) (jid : Nat) : Bool :=
  s.fab.ops.any (·.job == jid) || s.fab.queues.flatten.any (fun e => e.job == jid && e.started)

/-- COMPOSITION (R199): of a running job at its boundary, once the exchange engine holds no operation of it (R255). -/
def execComposition (jid : Nat) (h : HostView) (drafts : List (Nat × List (Nat × Nat))) (s : State) : Ans :=
  .next (
    match s.job? jid with
    | none => s
    | some j =>
      if s.isOn && j.st == .running && !j.inStep && !j.act4 && decide (j.slot < 256) && !s.xheld jid &&
         !s.sv.seBack.contains (.compose jid) then
        (s.withHost h).compose jid drafts
      else s)

/-! ### The end of a step (R24, R192 to R194, R204, R205) -/

/-- One delivered token: token, log-probability, poison, taken from a tree. -/
structure Deliver where
  tok : Nat
  lp : BitVec 32
  poison : Bool
  draft : Bool

/-- A token that ends a turn: EOS or a STOP entry. -/
def Req.stops (r : Req) (m : Manifest) (t : Nat) : Bool := decide (t = m.eos ∧ m.eos ≠ 0xFFFFFFFF) || r.stop.any (fun x => x == t && x != 0xFFFFFFFF)

/-- Tokens that R192 still allows in the turn. -/
def Req.allowed (r : Req) (m : Manifest) : Nat := min (r.maxnew - r.delivered) (m.maxctx - r.nextPos)

/-- The accepted path of R204: node numbers, and whether a stop token was taken. -/
def acceptPath (stop : Nat → Bool) (ns : List (Nat × Nat)) (target : Nat → Nat) : Nat → Nat → List Nat × Bool
  | 0, _ => ([], false)
  | fuel + 1, cur =>
    match (List.zipIdx ns).find? (fun (n, _) => n.2 == cur && n.1 == target cur) with
    | none => ([], false)
    | some (n, i) =>
      if stop n.1 then ([i + 1], true)
      else
        let (p, b) := acceptPath stop ns target fuel (i + 1)
        ((i + 1) :: p, b)

/-- Tier-0 address of a request's entry at a position of a layer. -/
def Req.entryAt (r : Req) (m : Manifest) (layer pos : Nat) : Nat := r.frame m layer (pos / m.pagetok) + pos % m.pagetok * m.kvb

/-- Compaction (R205): the entries of the accepted nodes move down to follow node 0's. -/
def State.compact (s : State) (r : Req) (m : Manifest) (path : List Nat) : State :=
  (List.zipIdx path).foldl (fun s (node, i) =>
    if node = i + 1 then s
    else (List.range m.layers).foldl (fun s l => s.devCopy (r.entryAt m l (r.len + node)) (r.entryAt m l (r.len + i + 1)) m.kvb) s) s

/-- A 16-byte output record (R193). -/
def outRecord (d : Deliver) (pos step : Nat) (last : Bool) : List Byte :=
  leBytes 4 d.tok ++ leBytes 4 pos ++
  leBytes 2 (0x8000 + (if d.poison then 1 else 0) + (if last then 2 else 0) + (if d.draft then 4 else 0)) ++ leBytes 2 step ++
  leBytes 4 d.lp.toNat

/-- The delivered tokens end the turn (R192). -/
def Req.turnEnd (r : Req) (m : Manifest) (ds : List Deliver) : Bool :=
  (match ds.getLast? with | some d => r.stops m d.tok | none => false) || decide (r.delivered + ds.length ≥ r.maxnew) ||
  decide (r.nextPos + ds.length ≥ m.maxctx)

/-- Post the records of a request's delivered tokens in position order, and count them. -/
def State.deliverOut (s : State) (r : Req) (m : Manifest) (step : Nat) (ds : List Deliver) : State :=
  let ends := r.turnEnd m ds
  let s := (List.zipIdx ds).foldl (fun s (d, i) =>
    s.dmaPost r.f (r.outbuf + 16 * (r.recIx + i)) (outRecord d (r.nextPos + i) step (ends && decide (i + 1 = ds.length)))) s
  let bad := (ds.filter (·.poison)).length
  let s := s.updJob r.job (fun j => { j with poisonRecs := j.poisonRecs + bad })
  s.updReq r.id (fun x => { x with delivered := x.delivered + ds.length, recIx := x.recIx + ds.length, poisoned := x.poisoned + bad
                                   accepted := x.accepted + (ds.filter (·.draft)).length })

/-- What a step brings one request: its rows' entries are committed, tokens are delivered, rejected nodes discarded. Answers
whether its turn ends. -/
def State.endRows (s : State) (r : Req) (m : Manifest) (step : Nat) (res : RowResult) : Bool × State :=
  let target (i : Nat) : Nat := res.targets.getD i 0
  let out (i : Nat) (draft : Bool) (t : Nat) : Deliver :=
    { tok := t, lp := res.logprobs.getD i 0, poison := res.poison.getD i false, draft := draft }
  let clear (x : Req) : Req := { x with rows := 0, promptRows := 0, stepTree := [], keys := [] }
  if r.st = .prefill then
    let whole := r.consumed + r.promptRows = r.plen
    let s := s.updReq r.id (fun x => clear { x with len := x.len + x.rows, consumed := x.consumed + x.promptRows
                                                    pending := if x.rows > 0 then none else x.pending })
    if whole then
      match s.req? r.id with
      | none => (false, s)
      | some r' =>
        let ds := [out 0 false (target 0)]
        let e := r'.turnEnd m ds
        let s := s.deliverOut r' m step ds
        let s := s.updReq r.id (fun x => { x with pending := some (target 0) })
        (e, (s.enter r.id .decode).sealFull r.id m)
    else (false, s.sealFull r.id m)
  else
    let (path, stopped) := acceptPath (r.stops m) r.stepTree target (r.allowed m - 1) 0
    let parents := 0 :: path
    let ds := (List.zipIdx path).map (fun (node, i) => out (parents.getD i 0) true ((r.stepTree.getD (node - 1) (0, 0)).1)) ++
      (if stopped then [] else [out (parents.getLastD 0) false (target (parents.getLastD 0))])
    let e := r.turnEnd m ds
    let s := s.compact r m path
    let s := s.deliverOut r m step ds
    let s := (s.serve51 r.job 6 path.length).serve51 r.job 7 (r.stepTree.length - path.length)
    let s := s.updReq r.id (fun x => clear { x with
      len := x.len + path.length + (if stopped then 0 else 1), pending := (ds.getLast?).map (·.tok) })
    (e, s.sealFull r.id m)

/-- The status with which a turn that has ended is over (R192, R195): a prompt token out of range, a last token that stops it, the
turn's tokens all delivered, or the next position at MAXCTX. -/
def Req.turnStatus (r : Req) (m : Manifest) : Nat :=
  if r.badPrompt then BAD
  else if (match r.pending with | some t => r.stops m t | none => false) || decide (r.delivered ≥ r.maxnew) then DONE
  else LIMIT

/-- A turn ends in action 1 (R192, R194, R206, R210): a KEEP request enters IDLE, another ends; one that a cancel waits on then
ends without a second record, and the cancel replies ALREADY_COMPLETE. -/
def State.completeTurn (s : State) (m : Manifest) (rid : Nat) : State :=
  match s.req? rid with
  | none => s
  | some r =>
    let status := r.turnStatus m
    if !r.keep || status == BAD then (s.endReq rid status true).completeAll r.cancelSlots ALREADY 0
    else
      let s := (s.writeEnd r status 3).enter rid .idle
      if r.cancelSlots.isEmpty then s else (s.endReq rid status false).completeAll r.cancelSlots ALREADY 0

/-- A row result serves a request: its targets cover the rows that choose a token. -/
def Req.served (r : Req) (res : Option RowResult) : Bool :=
  if r.badPrompt then true
  else
    let need := if r.st = .prefill then (if r.consumed + r.promptRows = r.plen then 1 else 0) else 1 + r.stepTree.length
    match res with
    | some x => decide (need ≤ x.targets.length)
    | none => decide (need = 0)

/-! ### The bias loop (R239) -/

/-- The update of one pass's biases from its loads. -/
def biasRow (r : RoutePar) (bs : List (BitVec 32)) (ls : List Nat) : List (BitVec 32) :=
  let sum := ls.foldl (· + ·) 0
  (bs.zip ls).map (fun (b, l) =>
    let d := if l * r.experts < sum then r.brate else if l * r.experts > sum then r.brate ^^^ 0x80000000#32 else 0
    fmin (fmax (fadd b d) (r.bmax ^^^ 0x80000000#32)) r.bmax)

/-- Add loads to a job's, position by position. -/
def addLoads (a b : List Nat) : List Nat := (List.range (max a.length b.length)).map (fun i => a.getD i 0 + b.getD i 0)

/-- The biases after a step, and whether they were updated. -/
def biasesAfter (r : RoutePar) (step : Nat) (bs : List (BitVec 32)) (ls : List Nat) : Option (List (BitVec 32)) :=
  if r.experts = 0 ∨ step < 64 ∨ (step - 64) % (max 1 r.updint) ≠ 0 then none
  else some ((List.range r.epasses).flatMap (fun p =>
    biasRow r ((bs.drop (p * r.experts)).take r.experts) ((List.range r.experts).map (fun e => ls.getD (p * r.experts + e) 0))))

/-- The loads that this device's quadrants counted in a step. -/
def State.stepLoads (s : State) (j : Job) : List Nat :=
  (maskList (s.jobQuads j) 4).foldl (fun acc q => addLoads acc (s.quad q).rt.loads) []

/-- Add engine time to the ledger (R328, R336, R337). -/
def State.addTimes (s : State) (cid : Nat) (t : EngineTimes) : State :=
  s.updClient cid (fun c =>
    let c := { c with ae := c.ae + t.ae, te := c.te + t.te, xe := c.xe + t.xe, se := c.se + t.se }
    if c.latency then c else c.accrue t.ae)

/-- Every array engine of the job has retired the step's last run, and no routed pass is in flight (R19, R24, R236). -/
def State.stepDone (s : State) (j : Job) : Bool :=
  (maskList (s.jobQuads j) 4).all (fun q => (s.quad q).runsOver && !((s.quad q).rt.active && (s.quad q).rt.expect.isSome))

/-- Close the step at this device: routed passes count, the routing blocks rest (R235). -/
def State.closeStep (s : State) (j : Job) (r : RoutePar) : State :=
  let s := s.updJob j.id (fun x => { x with eloads := addLoads x.eloads (s.stepLoads j), passes := x.passes + (if r.experts = 0 then 0 else r.epasses) })
  (maskList (s.jobQuads j) 4).foldl (fun s q => s.updRt q (fun x => { x with active := false, expect := none, loads := [] })) s

/-- Bytes of a BIAS or STEPEND payload: 4 B to a value (log 15). -/
def words4 (ns : List Nat) : List Byte := ns.flatMap (leBytes 4)

/-- Action 1 (R25): the requests whose turn ended in the step complete. -/
def State.act1 (s : State) (jid : Nat) (m : Manifest) : State :=
  match s.job? jid with
  | none => s
  | some j => (j.fin.foldl (State.completeTurn · m ·) s).updJob jid (fun j => { j with fin := [] })

/-- The boundary of a step that has ended everywhere: the step counts, biases are updated, changeovers take effect, and actions
1 to 5 follow (R25, R26, R179, R239). -/
def State.finishStep (s : State) (jid : Nat) (m : Manifest) : State :=
  match s.job? jid with
  | none => s
  | some j =>
    let r := m.rp
    let step := j.steps + 1
    let s := (s.updJob jid (fun x => { x with steps := step, inStep := false, ends := [] })).markBoundary jid
    let s := s.act1 jid m
    let s : State := match biasesAfter r step j.biases j.eloads with
      | none => s
      | some bs =>
        let s := s.updJob jid (fun x => { x with biases := bs, eloads := [] })
        if j.members ≠ 0 ∧ s.fab.role = .lead then
          s.tellMembers j { troupeMsg 0x13 0 jid 0 0 with payload := words4 (bs.map (·.toNat)) }
        else s
    ((s.endStepChanges jid (step + 1)).boundary jid).settleCloses

/-- STEP_END (R24): of the step in flight of a running job. A member reports it to the lead; the lead takes the boundary once
every member has reported. A member's exchange operations have drained before it reports, since the lead's next STEP clears its
counters (R255). -/
def execStepEnd (jid : Nat) (results : List RowResult) (times : EngineTimes) (s : State) : Ans :=
  .next (
    match s.job? jid, s.manOf jid with
    | some j, some m =>
      let mine := s.sv.reqs.filter (fun r => r.job == jid && decide (r.rows > 0))
      let res (r : Req) : Option RowResult := results.find? (·.req == r.id)
      let own := j.members ≠ 0 && j.ends.contains s.bt.strap
      if !s.isOn || j.st != .running || !j.inStep || own || !s.stepDone j || (decide (j.slot ≥ 256) && s.xheld jid) || !mine.all (fun r => r.served (res r)) then s
      else
        let s := (s.addTimes j.client times).seDone (.deliver jid)
        let s := mine.foldl (fun s r =>
          let (e, s) := if r.badPrompt then (true, s) else s.endRows r m (j.steps + 1) ((res r).getD default)
          if e then s.updJob jid (fun j => { j with fin := j.fin ++ [r.id] }) else s) s
        let loads := s.stepLoads j
        let s := s.closeStep j m.rp
        if j.members = 0 then s.finishStep jid m
        else if s.fab.role = .lead then
          let s := s.updJob jid (fun x => { x with ends := x.ends ++ [s.bt.strap] })
          if (maskList j.members 8).all (fun p => p == s.bt.strap || j.ends.contains p) then s.finishStep jid m else s
        else
          let bad := (results.flatMap (·.poison)).filter id
          let s := s.updJob jid (fun x => { x with steps := x.steps + 1, inStep := false, eloads := [] })
          let s := s.endStepChanges jid (j.steps + 2)
          s.tell (peerOf s.fab.lead) { troupeMsg 0x12 0 (jid % 2 ^ 32 + (j.steps + 1) * 2 ^ 32) bad.length 0 with payload := words4 loads }
    | _, _ => s)

/-! ### Commits of the serving engine's placements (R196, R207, R209) -/

/-- PAGE_SEAL_COMMIT (R196): the page is SEALED and held, and its frame is free. -/
def execPageSealCommit (req layer page : Nat) (s : State) : Ans :=
  .next (
    match s.pool.placing.find? (fun p => p.for_ == .seal req layer page) with
    | none => s
    | some p =>
      if !s.isOn || !s.placeFree p then s
      else
        let s := (s.moveCommit p).2
        let s := (s.hold 1 p.oid (.req req)).seDone (.sealPage req layer page)
        let s := s.updReq req (fun r => { r with pages := r.pages.map (fun g =>
          if g.layer == layer && g.page == page then { g with sealing := false, oid := p.oid } else g) })
        match s.req? req with
        | some r => s.serve51 r.job 9 1
        | none => s)

/-- PARK_COMMIT (R207): the parked object gets its EXPIRY, the request's pages are released, and it is PARKED. -/
def execParkCommit (req : Nat) (s : State) : Ans :=
  .next (
    match s.pool.placing.find? (fun p => p.for_ == .park req), s.req? req with
    | some p, some r =>
      if !s.isOn then s
      else
        let s := (s.commitPlacing p).2
        let exp := s.now + r.parkTtl
        let s : State := { s with pool := { s.pool with
          recs := s.pool.recs.map (fun (c : Rec) => if c.tier == 2 && c.oid == p.oid then { c with expiry := exp } else c) } }
        let s := (s.unhold 2 p.oid (.req req)).releasePages r
        let s := (s.updReq req (fun r => { r with parkSlot := none })).enter req .parked
        (s.completeOpt r.parkSlot DONE p.oid).serve51 r.job 11 1
    | _, _ => s)

/-- RESUME_COMMIT (R209): the sealed pages commit, the tail is copied into a frame set, the parked object is evicted, and the
request takes part again in the state it had. -/
def execResumeCommit (req : Nat) (s : State) : Ans :=
  .next (
    match s.req? req with
    | none => s
    | some r =>
      match r.st, s.manOf r.job with
      | .resuming, some m =>
        if !s.isOn then s
        else
          let s := (s.pool.placing.filter (fun p => p.for_ == .resume req)).foldl (fun s p =>
            ((s.commitPlacing p).2).hold 1 p.oid (.req req)) s
          let s := s.copyTail r m
          let s := (s.unhold 2 r.parkObj (.req req))
          let s : State := { s with pool := s.pool.clear 2 r.parkObj }
          let s := (s.updReq req (fun r => { r with parkObj := 0, resumeSlot := none, resumeTo := none })).enter req (reqStOf r.pstate)
          s.completeOpt r.resumeSlot DONE 0
      | _, _ => s)

end Sys2Proof.Machine
end

