-- ==== Sys2Proof/Machine/Jobs.lean ====
section
/-! DEFINITION. Jobs, classes and the box office (R319 to R338): the job commands, the choice of the next job, its start,
pre-emption and setting. -/

namespace Sys2Proof.Machine

open Config

/-! ### Checks of a routed job (R216, R217, R228) -/

/-- One expert-table entry keeps R217, and a dispatch home is in the job (R242). -/
def expEntryOk (m : Manifest) (members w : Nat) : Bool :=
  let disp := expDispatch w
  (if disp then !expCache w && decide (expSrc w = 0) && decide (expOff w = 0) else true) &&
  decide (expSrc w ≠ 7) && decide (expOff w % 128 = 0) && decide (expOff w < 2 ^ 40) &&
  (decide (members ≠ 0) || decide (expMember w = 0)) &&
  (!disp || (m.quads.testBit (expHome w) && (decide (members = 0) || members.testBit (expMember w))))

/-- Byte ranges that do not meet. -/
def rangesApart : List (Nat × Nat) → Bool
  | [] => true
  | (a, n) :: rs => rs.all (fun (b, m) => decide (a + n ≤ b) || decide (b + m ≤ a)) && rangesApart rs

/-- The staging areas of R216 as offset and size, with the number of sources. -/
def RoutePar.areas (r : RoutePar) (sources : Nat) : List (Nat × Nat) :=
  [(r.rarea, 1064960), (r.fmap, (2 * r.slots + r.cslots) * r.nshard * 4), (r.actoff, 4096 * r.rowbytes),
   (r.ansoff, r.dmax * r.rowbytes), (r.inbox, sources * r.dmax * (128 + r.rowbytes))].filter (fun e => decide (0 < e.2))

/-- The fetch map of a quadrant keeps R228, and no two entries cover the same lines. -/
def State.fetchMapOk (s : State) (q : Nat) (r : RoutePar) : Bool :=
  let n := (2 * r.slots + r.cslots) * r.nshard
  let es := (List.range n).map (fun i => memNat s.mem (stagingBase q + r.fmap + 4 * i) 4)
  let lines := r.shard / 128
  es.all (fun e => decide (bits e 0 17 + lines ≤ 98304) && decide (bits e 17 8 < 160) && decide (bits e 25 6 ≤ 37)) &&
  rangesApart (es.map (fun e => (bits e 17 8 * 98304 + bits e 0 17, lines)))

/-- The checks of R216 for a job of a production with the given members. -/
def State.routedOk (s : State) (p : Sys2Proof.Machine.Prod) (members : Nat) : Bool :=
  let r := p.man.rp
  let qs := maskList p.man.quads 4
  let n := (if members = 0 then 1 else popCount members 8) * qs.length
  decide (r.experts = 0) ||
  ((r.areas n).all (fun e => decide (e.1 + e.2 ≤ 0x8000000)) && rangesApart (r.areas n) &&
   qs.all (fun q => s.fetchMapOk q r &&
     (List.range (r.epasses * r.experts)).all (fun i => expEntryOk p.man members (s.expEntry q p (i / r.experts) (i % r.experts)))))

/-! ### Choosing (R329, R330) -/

/-- The function whose callboard schedules a job: its own under Azgen, else one for the device. -/
def State.sameScope (s : State) (a b : Job) : Bool := !s.azgen || a.f == b.f

/-- The scope that a job wants is free, and a session is open to it. -/
def State.scopeFree (s : State) (j : Job) : Bool :=
  (s.fn j.f).opened && !s.sv.jobs.any (fun k => k.id != j.id && s.sameScope j k && k.owns)

/-- The job is a candidate: QUEUED, or STRUCK and not kept. -/
def Job.waits (j : Job) : Bool := j.st == .queued || (j.st == .struck && !j.kept)

/-- Candidate a comes before b: latency-critical first, then the lower charge, the lower client, the older job. -/
def State.before (s : State) (a b : Job) : Bool :=
  if a.latency then !b.latency || decide (a.id ≤ b.id)
  else if b.latency then false
  else if a.client = b.client then decide (a.id ≤ b.id)
  else
    let x := s.client a.client
    let y := s.client b.client
    x.below y || (!y.below x && decide (a.client < b.client))

/-- The stage manager chooses this job next (R329). -/
def State.chosen (s : State) (j : Job) : Bool :=
  s.isOn && s.bt.act == .idle && j.waits && s.scopeFree j && !s.fab.fenced && s.fab.role != .member &&
  s.sv.jobs.all (fun k => !(k.waits && s.sameScope j k) || s.before j k)

/-- A latency-critical job is QUEUED: a best-effort owner that stands at a boundary is pre-empted at once (R330). -/
def State.latencyArrives (s : State) : State :=
  (s.sv.jobs.filter (fun j => s.latencyDue j && ((j.st == .running && !j.inStep && j.mark.isNone) || (j.st == .held && j.started)))).foldl
    (fun s j => if s.bt.act == .idle then s.beginPreempt j.id else s) s

/-! ### JOB_SUBMIT (R322 to R324) -/

/-- A job as it is accepted. -/
def State.newJob (s : State) (p : Pkt) (id prod shape members : Nat) : Job :=
  { id := id, f := p.f, slot := p.n, prod := prod, client := p.client, latency := (s.client p.client).latency, shape := shape, members := members
    st := .queued, started := false, kept := false, reason := 0, steps := 0, inStep := false, poisonRecs := 0, reqsEnded := 0, discards := 0
    since := s.now, ranFrom := s.now, endSlots := [], preSlot := none, preKeep := false, preHold := 0, preAsked := false, preAt := 0
    abandoned := 0, resumeSlot := none, images := [0, 0, 0, 0], record := 0, unstarted := [], xpend := [], quadImg := [], xctrs := []
    biases := [], eloads := [], passes := 0, gen := 0, ends := [], sheets := 0, mark := none, fin := [], toldEnd := none }

/-- A new job, in the order of R323. `lacking`: troupe positions without the production on stage. -/
def State.submitNew (s : State) (p : Pkt) (lacking : List Nat) : State × Rep :=
  let prod := p.at 0x40 2
  let shape := p.at 0x42 1
  let members := p.at 0x44 1
  if p.job ≠ 0 then (s, .bad 0x0C)
  else
    match s.prod? prod with
    | none => (s, .bad 0x40)
    | some x =>
      if x.st ≠ .staged ∧ x.st ≠ .onStage then (s, .bad 0x40)
      else if shape > 3 then (s, .bad 0x42)
      else if (if shape = 0 then decide (members ≠ 0) else decide (popCount members 8 < 2)) then (s, .bad 0x44)
      else if s.azgen && decide (x.man.quads ≠ 2 ^ p.f) then (s, .bad 0x40)
      else if !s.routedOk x members then (s, .bad 0x40)
      else if shape ≠ 0 ∧ s.fab.role ≠ .lead then (s, .bad 0x42)
      else if shape ≠ 0 && (!members.testBit s.bt.strap || decide (members &&& (255 - s.fab.mask) ≠ 0)) then (s, .bad 0x44)
      else if shape ≠ 0 ∧ (!s.rdy 44 ∨ (maskList members 8).any (fun q => lacking.contains q)) then
        (if s.fab.fenced then (s, .fin FENCED 0) else (s, .fin NOTREADY 0))
      else if s.fab.fenced then (s, .fin FENCED 0)
      else if s.sv.jobs.length ≥ 256 then (s, .fin LIMIT 0)
      else
        let j := s.newJob p s.sv.nextJob prod shape members
        let s : State := { s with sv := { s.sv with jobs := s.sv.jobs ++ [j], nextJob := s.sv.nextJob + 1 } }
        let s := if j.latency then s else s.joinLedger j.client j.id
        (s.latencyArrives, .first ACCEPTED (j.id + (if j.latency then 2 ^ 32 else 0)))

/-- A RESUME, by the job's state (R324). -/
def State.submitResume (s : State) (p : Pkt) : State × Rep :=
  if p.at 0x40 2 ≠ 0 then (s, .bad 0x40)
  else if p.at 0x42 1 ≠ 0 then (s, .bad 0x42)
  else if p.at 0x44 1 ≠ 0 then (s, .bad 0x44)
  else
    match s.job? p.job with
    | none => (s, .bad 0x0C)
    | some j =>
      if s.fab.fenced then (s, .fin FENCED 0)
      else if s.azgen ∧ j.f ≠ p.f then (s, .bad 0x0C)
      else
        let s1 := s.firstReply p.f p.n ACCEPTED 0
        match j.st with
        | .held =>
          if j.reason = 3 then ((s1.endJob j.id LOST).complete p.f p.n LOST 0, .later)
          else if j.started then
            let s := (s1.jobTo j.id .running).updJob j.id (fun j => { j with reason := 0 })
            ((s.complete p.f p.n DONE 0).act5 j.id, .later)
          else
            let s := (s1.jobTo j.id .queued).updJob j.id (fun j => { j with reason := 0 })
            ((s.complete p.f p.n DONE 0).latencyArrives, .later)
        | .struck =>
          if j.kept && j.resumeSlot.isNone then
            let c := j.competes
            let s := s1.updJob j.id (fun j => { j with kept := false, reason := 0, since := s.now, resumeSlot := some (p.f, p.n) })
            let s := if c || j.latency then s else s.joinLedger j.client j.id
            (s, .later)
          else (s, .bad 0x0C)
        | .queued => (s, .bad 0x0C)
        | .running => (s, .bad 0x0C)
        | .preempting => (s, .bad 0x0C)
        | .setting => (s, .bad 0x0C)

/-- JOB_SUBMIT's own rule. -/
def State.jobSubmitRule (lacking : List Nat) (p : Pkt) (s : State) : State × Rep :=
  if (p.at 0x43 1).testBit 0 then s.submitResume p else s.submitNew p lacking

/-- JOB_SUBMIT (R322 to R324). -/
def execJobSubmit (f slot : Nat) (lacking : List Nat) (s : State) : Ans := .next (s.command f slot 0x0501 (State.jobSubmitRule lacking))

/-! ### JOB_END, JOB_PREEMPT, JOB_QUERY, CLASS_SET, BOX_OFFICE_READ -/

/-- JOB_END's own rule (R325). -/
def State.jobEndRule (p : Pkt) (s : State) : State × Rep :=
  match s.job? p.job with
  | none => (s, .fin ALREADY 0)
  | some j =>
    match j.st with
    | .running =>
      if (p.at 0x40 1).testBit 0 then (s.endJob j.id CANCELLED, .fin DONE 0)
      else
        let s := s.updJob j.id (fun j => { j with endSlots := j.endSlots ++ [(p.f, p.n)] })
        (s.boundaryIfIdle j.id, .later)
    | .preempting => (s.updJob j.id (fun j => { j with endSlots := j.endSlots ++ [(p.f, p.n)] }), .later)
    | .setting => (s.updJob j.id (fun j => { j with endSlots := j.endSlots ++ [(p.f, p.n)] }), .later)
    | .queued => (s.endJob j.id CANCELLED, .fin DONE 0)
    | .held => (s.endJob j.id CANCELLED, .fin DONE 0)
    | .struck => (s.endJob j.id CANCELLED, .fin DONE 0)

/-- JOB_END (R325). -/
def execJobEnd (f slot : Nat) (s : State) : Ans := .next (s.command f slot 0x0502 State.jobEndRule)

/-- JOB_PREEMPT's own rule (R331). -/
def State.jobPreemptRule (p : Pkt) (s : State) : State × Rep :=
  match s.job? p.job with
  | none => (s, .bad 0x0C)
  | some j =>
    let hold := p.at 0x40 4
    if hold > 1000000 then (s, .bad 0x40)
    else
      let ask (s : State) : State := s.updJob j.id (fun j =>
        { j with preSlot := some (p.f, p.n), preKeep := (p.at 0x44 1).testBit 0, preHold := if hold = 0 then 2000 else hold, preAsked := true })
      match j.st with
      | .struck => (s, .fin ALREADY 0)
      | .queued => (s, .fin BUSY 0)
      | .preempting => (s, .fin BUSY 0)
      | .setting => (s, .fin BUSY 0)
      | .held => if j.started then ((ask s).beginPreempt j.id, .later) else (s, .fin BUSY 0)
      | .running =>
        if j.preSlot.isSome then (s, .fin BUSY 0)
        -- one accepted between a boundary's action 1 and its composition waits for the next boundary (R26)
        else (if j.inStep || j.mark.isSome then ask s else (ask s).beginPreempt j.id, .later)

/-- JOB_PREEMPT (R331). -/
def execJobPreempt (f slot : Nat) (s : State) : Ans := .next (s.command f slot 0x0503 State.jobPreemptRule)

/-- State codes (R321). -/
def JobSt.code : JobSt → Nat
  | .queued => 0
  | .running => 1
  | .held => 2
  | .preempting => 3
  | .struck => 4
  | .setting => 5

/-- VAL of JOB_QUERY for a job in a state, with an end status (R326). -/
def Job.queryVal (j : Job) (code live ended : Nat) : Nat :=
  let b (x : Bool) : Nat := if x then 1 else 0
  code + b j.started * 2 ^ 4 + b j.kept * 2 ^ 5 + (if code = 2 ∨ (code = 4 ∧ j.kept) then j.reason % 8 else 0) * 2 ^ 6 + b j.latency * 2 ^ 9 +
  j.prod * 2 ^ 16 + j.steps % 2 ^ 32 * 2 ^ 32 + live * 2 ^ 64 + j.client * 2 ^ 96 + j.members * 2 ^ 112 + ended * 2 ^ 120

/-- JOB_QUERY's own rule. -/
def State.jobQueryRule (p : Pkt) (s : State) : State × Rep :=
  match s.job? p.job with
  | some j => (s, .fin DONE (j.queryVal j.st.code (s.liveReqs j.id).length 0))
  | none =>
    match s.sv.endedJobs.find? (fun e => e.1.id == p.job) with
    | some (j, st) => (s, .fin DONE (j.queryVal 6 0 st))
    | none => (s, .bad 0x0C)

/-- JOB_QUERY (R326). -/
def execJobQuery (f slot : Nat) (s : State) : Ans := .next (s.command f slot 0x0504 State.jobQueryRule)

/-- CLASS_SET's own rule (R327). -/
def State.classSetRule (p : Pkt) (s : State) : State × Rep :=
  let t := p.at 0x40 2
  let cls := p.at 0x42 1
  let share := p.at 0x44 4
  let slice := p.at 0x48 8
  let old := s.client t
  let val := (if old.latency then 1 else 0) + old.share * 2 ^ 32
  if t > 1023 then (s, .bad 0x40)
  else if t = 0 then
    if cls ≠ 0 then (s, .bad 0x42)
    else if share ≠ 0 then (s, .bad 0x44)
    else if slice ≠ 0 ∧ (slice < 100000 ∨ slice > 600000000) then (s, .bad 0x48)
    else ({ s with sv := { s.sv with slice := if slice = 0 then s.sv.slice else slice } }, .fin DONE (val + s.sv.slice * 2 ^ 64))
  else if cls > 1 then (s, .bad 0x42)
  else if share < 1 ∨ share > 10000 then (s, .bad 0x44)
  else if slice ≠ 0 then (s, .bad 0x48)
  else (s.updClient t (fun c => { c with latency := cls == 1, share := share }), .fin DONE val)

/-- CLASS_SET (R327). -/
def execClassSet (f slot : Nat) (s : State) : Ans := .next (s.command f slot 0x0506 State.classSetRule)

/-- A client's 64-byte record (R336). -/
def Client.bytes (c : Client) : List Byte :=
  leBytes 2 c.id ++ leBytes 1 (if c.latency then 1 else 0) ++ leBytes 1 0 ++ leBytes 4 c.share ++ leBytes 8 c.waitUs ++
  leBytes 4 c.preempted ++ leBytes 4 c.ended ++ leBytes 8 c.ae ++ leBytes 8 c.te ++ leBytes 8 c.xe ++ leBytes 8 c.se ++
  leBytes 8 (if c.latency then 0 else c.reported)

/-- BOX_OFFICE_READ's own rule (R338). -/
def State.boxOfficeRule (p : Pkt) (s : State) : State × Rep :=
  let first := p.at 0x40 2
  let count := p.at 0x42 2
  let len := p.at 0x50 4
  if first > 1023 then (s, .bad 0x40)
  else if count < 1 ∨ first + count > 1024 then (s, .bad 0x42)
  else if p.at 0x48 8 % 64 ≠ 0 then (s, .bad 0x48)
  else if len < 64 ∨ len > 65536 then (s, .bad 0x50)
  else
    let ids := (List.range count).map (first + ·)
    let bs := ids.flatMap (fun i => (s.client i).bytes)
    match s.report p 0x48 (p.at 0x48 8) (len / 64 * 64) bs 0 with
    | (s, .fin st v) =>
      let written := ids.take (len / 64)
      (if (p.at 0x44 1).testBit 0 then
        written.foldl (fun s i =>
          if s.sv.clients.any (·.id == i) then
            s.updClient i (fun c => { c with waitUs := 0, preempted := 0, ended := 0, ae := 0, te := 0, xe := 0, se := 0 })
          else s) s
       else s, .fin st v)
    | r => r

/-- BOX_OFFICE_READ (R338). -/
def execBoxOfficeRead (f slot : Nat) (s : State) : Ans := .next (s.command f slot 0x0505 State.boxOfficeRule)

/-! ### Starting a job (R188, R236, R238, R323) -/

/-- Bring a job's production on stage: productions that share a quadrant return to STAGED, and a staged one's resident load
runs (R188). -/
def State.takeStage (s : State) (j : Job) : State :=
  match s.prod? j.prod with
  | none => s
  | some p =>
    let s : State := { s with sv := { s.sv with prods := s.sv.prods.map (fun (x : Sys2Proof.Machine.Prod) =>
      if x.num != p.num && x.st == .onStage && decide (x.man.quads &&& p.man.quads ≠ 0) then { x with st := .staged } else x) } }
    if (p.st == .staged || p.stale) && !p.resLoad then s.startResident p.num else s

/-- The biases a job begins with: its seed clamped to ±BMAX, else zero (R238). -/
def State.seedBiases (s : State) (p : Sys2Proof.Machine.Prod) : List (BitVec 32) :=
  let r := p.man.rp
  let n := r.epasses * r.experts
  let seed := if r.biasseed = 0xFFFF then [] else
    match p.alias? r.biasseed with
    | some o => s.objBytes o (((maskList p.man.quads 4).head?).getD 0) (4 * n)
    | none => []
  (List.range n).map (fun i =>
    if seed.isEmpty then 0 else fmin (fmax (BitVec.ofNat 32 (leAt seed (4 * i) 4)) (r.bmax ^^^ 0x80000000#32)) r.bmax)

/-- What every device of a job does at its start: production, biases and load counts. -/
def State.startLocal (s : State) (jid : Nat) : State :=
  match s.job? jid with
  | none => s
  | some j =>
    let s := s.takeStage j
    let bs := match s.prod? j.prod with | some p => s.seedBiases p | none => []
    let s : State := { s with fab := { s.fab with ctrs := List.replicate 64 0 } }
    let s := (maskList (s.jobQuads j) 4).foldl (fun s q => s.ownCache j.prod q) s
    s.updJob jid (fun j => { j with biases := bs, eloads := [], passes := 0, ranFrom := s.now })

/-- The JOBSTART message: PROD, members and shape in A2, the expert generation in A3 (log 15). -/
def jobstartMsg (j : Job) (gen : Nat) : Msg := troupeMsg 0x10 0 j.id (j.prod + j.members * 2 ^ 16 + j.shape * 2 ^ 24) gen

/-- JOB_START (R323, R329): the chosen QUEUED job starts and its first step is composed; while a quadrant it needs is dark, the choice
wakes it and the start waits (R359). -/
def execJobStart (jid : Nat) (h : HostView) (s : State) : Ans :=
  .next (
    match s.job? jid with
    | none => s
    | some j =>
      let cold := (maskList (s.jobQuads j) 4).filter s.dark
      if j.st != .queued || !s.chosen j then s
      else if !cold.isEmpty then cold.foldl State.wake s
      else
        let s := s.withHost h
        let s := (s.jobTo jid .running).bumpGen
        let gen := s.genNext
        let s := (s.updJob jid (fun j => { j with gen := gen })).startLocal jid
        let s := if j.members ≠ 0 then s.tellMembers j (jobstartMsg j gen) else s
        s.compose jid [])

/-! ### Pre-emption (R332, R333) -/

/-- What is still to do of an exchange-sheet entry: LOCAL, REMOTE or ROFF, and LEN, advanced past the first `off` bytes. -/
def advanced (raw : BitVec 512) (off : Nat) : BitVec 512 :=
  let raw := setRaw raw 0x08 8 (rawField raw 0x08 8 + off)
  let raw := if rawField raw 0 1 = 2 then setRaw raw 0x18 8 (rawField raw 0x18 8 + off) else setRaw raw 0x10 8 (rawField raw 0x10 8 + off)
  setRaw raw 0x20 4 (rawField raw 0x20 4 - off)

/-- Abandon a job's outstanding exchange operations: each completes at once, and what is left of it is recorded (R332 step 5). -/
def State.abandonOps (s : State) (jid : Nat) : State :=
  let mine := s.fab.ops.filter (fun o => o.job == jid)
  if !s.xheld jid then s
  else
    let left := (s.fab.queues.flatten.filter (fun e => e.job == jid && e.started)).map (fun (e : XEnt) =>
      { e with raw := advanced e.raw ((mine.filter (·.parent == e.parent)).foldl (fun n k => min n k.off) e.issued) })
    let s : State := { s with fab := { s.fab with
      ops := s.fab.ops.filter (fun o => o.job != jid)
      queues := s.fab.queues.map (fun k => k.filter (fun e => !(e.job == jid && e.started))) } }
    let s := s.updJob jid (fun j => { j with abandoned := j.abandoned + left.length, xpend := j.xpend ++ left })
    s.bumpGen

/-- PREEMPT_HOLD_EXPIRY (R332 steps 4 and 5): at the hold limit the remaining operations are abandoned. -/
def execPreemptHoldExpiry (jid : Nat) (s : State) : Ans :=
  .next (
    match s.job? jid with
    | none => s
    | some j => if s.isOn && j.st == .preempting && decide (j.preAt + j.preHold ≤ s.now) then s.abandonOps jid else s)

/-- Steps 3 to 5 are done at this device: started entries and sealing placements have drained, no operation is outstanding. -/
def State.drained (s : State) (j : Job) : Bool :=
  !s.xheld j.id && s.quads.all (fun x => x.queues.all (fun k => k.ents.all (fun e => e.job != j.id || !e.started || e.done || e.op == 0x0C))) &&
  !s.pool.placing.any (fun p => match p.for_ with
    | .seal r _ _ => s.sv.reqs.any (fun x => x.id == r && x.job == j.id)
    | .slot _ _ => false | .load _ => false | .stage _ => false | .entry _ _ _ => false | .park _ => false | .resume _ => false
    | .stall _ => false | .lendSide _ _ _ _ => false | .borrow _ _ => false)

/-- The job record (R333). Unstarted exchange-sheet entries follow the remote-pending ones. -/
def State.jobRecord (s : State) (j : Job) : Mem :=
  let cnt := (List.range 4).flatMap (fun q => (List.range 8).map (fun k => (j.unstarted.filter (fun e => e.1 == q && e.2.1 == k)).length))
  let pend := cellsOf 0x1000 (j.xpend.flatMap (fun e => leBytes 64 e.raw.toNat))
  let e0 := 0x1000 + 64 * j.xpend.length
  let ents := cellsOf e0 (j.unstarted.flatMap (fun e => leBytes 64 e.2.2.raw.toNat))
  let b0 := e0 + 64 * j.unstarted.length
  cellsOf 0 (leBytes 4 j.id ++ leBytes 2 j.prod ++ leBytes 1 j.shape ++ leBytes 1 (s.jobQuads j) ++ leBytes 8 j.steps ++ leBytes 8 s.now ++
    j.images.flatMap (leBytes 8) ++ j.xctrs.flatMap (leBytes 4) ++ cnt.flatMap (leBytes 2) ++ leBytes 2 j.xpend.length ++
    leBytes 2 j.abandoned ++ leBytes 4 j.biases.length) ++ pend ++ ents ++
  cellsOf b0 ((List.zipIdx j.biases).flatMap (fun (b, i) => leBytes 4 b.toNat ++ leBytes 4 (j.eloads.getD i 0)))

/-- The entries of a queue that have not started, those included that wait for room in it. -/
def TeQueue.waiting (k : TeQueue) : List TeEnt := k.ents.filter (fun e => !e.started) ++ k.back

/-- Commit bytes into a reserved device-pinned object of tier 1. -/
def State.commitBytes (s : State) (oid : Nat) (cells : Mem) (pois : List (Nat × Nat)) : State :=
  match s.pool.copies 1 oid with
  | r :: _ => (s.commitPlacing { pid := 0, oid := oid, tier := 1, qmask := r.qmask, len := r.len, src := .bytes cells pois, pinAt := false
                                 for_ := .stall 4, f := 0 }).2
  | [] => s

/-- Strike a job at this device: what it has not started leaves the queues, its quadrants' images and then its record commit
(R332 steps 6 and 7). -/
def State.strikeLocal (s : State) (jid : Nat) : State :=
  match s.job? jid with
  | none => s
  | some j =>
    let qs := maskList (s.jobQuads j) 4
    let ents := qs.flatMap (fun q => (List.range 8).flatMap (fun k =>
      (((s.quad q).queues.getD k default).waiting.filter (fun e => e.job == jid)).map (fun e => (q, k, e))))
    let xs := (s.fab.queues.flatten ++ s.fab.xback).filter (fun e => e.job == jid && !e.done)
    let s := s.updJob jid (fun j => { j with unstarted := ents, xpend := j.xpend ++ xs, xctrs := s.fab.ctrs, quadImg := qs.map (fun q => (q, s.quad q)) })
    let s : State := { s with
      quads := s.quads.map (fun (x : Quad) => { x with queues := x.queues.map (fun k =>
        { k with ents := k.ents.filter (fun e => e.job != jid), back := k.back.filter (fun e => e.job != jid) }) })
      fab := { s.fab with queues := s.fab.queues.map (fun k => k.filter (fun e => e.job != jid)), xback := s.fab.xback.filter (fun e => e.job != jid) } }
    let s := qs.foldl (fun s q =>
      let (cells, pois) := s.strikeCells q 1 jid (List.replicate 64 0)
      s.commitBytes (j.images.getD q 0) cells pois) s
    match s.job? jid with
    | some j => s.commitBytes j.record (s.jobRecord j) []
    | none => s

/-- Every other member has reported the end of its strike. -/
def State.membersStruck (s : State) (j : Job) : Bool := j.members = 0 || (s.jobPeers j).all (fun p => j.ends.contains (p + 8))

/-- JOB_RECORD_COMMIT (R332 step 7): the job becomes STRUCK, and a JOB_PREEMPT or a pending JOB_END completes. A member
reports its strike to the lead. -/
def execJobRecordCommit (jid : Nat) (s : State) : Ans :=
  .next (
    match s.job? jid with
    | none => s
    | some j =>
      let atLead := s.fab.role != .member
      if !s.isOn || j.st != .preempting || !s.drained j || (atLead && !s.membersStruck j) then s
      else
        let s := (s.strikeLocal jid).jobTo jid .struck
        let s := s.updJob jid (fun j => { j with kept := j.preKeep, preKeep := false, preSlot := none, ends := [] })
        let s := s.updClient j.client (fun c => { c with preempted := c.preempted + 1 })
        if !atLead then s.tell (peerOf s.fab.lead) (troupeMsg 0x02 DONE 0 jid j.abandoned)
        else
          let s := s.completeOpt j.preSlot DONE (j.abandoned % 2 ^ 32 + (s.now - j.preAt) % 2 ^ 32 * 2 ^ 32)
          let s := if !j.endSlots.isEmpty then s.endJob jid CANCELLED else s
          s.settleCloses)

/-! ### Setting (R87, R334) -/

/-- Write a quadrant's image back: its state, the MU SRAM and the staging buffer (R87). -/
def State.setQuad (s : State) (j : Job) (q : Nat) : State :=
  let s := match look j.quadImg q with
    | some img => s.updQuad q (fun x => x.setBack img)
    | none => s
  match s.pool.copyFor 1 (j.images.getD q 0) q with
  | none => s
  | some c =>
    let (ram, pois) := s.gather ((c.ranges 0x04C00000 0x78000000).map (fun (a, n) => Piece.dev a n)) 0
    let s := s.fill [(q * 0x80000000, 0x78000000)] 0 ram pois
    let (stg, pois) := s.gather ((c.ranges 0x7CC00000 0x8000000).map (fun (a, n) => Piece.dev a n)) 0
    s.fill [(stagingBase q, 0x8000000)] 0 stg pois

/-- What a device does to begin a set: images held, quadrants set, resident load started (R134, R334 steps 2 and 3). -/
def State.setLocal (s : State) (jid gen : Nat) : State :=
  match s.job? jid with
  | none => s
  | some j =>
    let s := (s.jobTo jid .setting).updJob jid (fun j => { j with gen := gen })
    let s := j.images.foldl (fun s o => if o = 0 then s else s.hold 1 o (.setting jid)) s
    let s := (maskList (s.jobQuads j) 4).foldl (fun s q => s.setQuad j q) s
    match s.prod? j.prod with
    | some p => if p.man.resident then s.startResident p.num else s
    | none => s

/-- SET (R329, R334 steps 1 to 3): a chosen STRUCK job becomes SETTING and its quadrants are set, once their bits are ready. -/
def execSet (jid : Nat) (s : State) : Ans :=
  .next (
    match s.job? jid with
    | none => s
    | some j =>
      if j.st != .struck || !s.chosen j then s
      else if decide (quadMask (s.jobQuads j) false &&& ~~~s.bt.rdy ≠ 0) then (maskList (s.jobQuads j) 4).foldl State.wake s
      else
        let s := s.bumpGen
        let gen := s.genNext
        let s := if j.members ≠ 0 then s.tellMembers j (troupeMsg 0x15 1 jid gen 0) else s
        s.setLocal jid gen)

/-- Put a job's struck tier-engine entries back into their queues, in order, with the loops they stood in (R334 step 4). -/
def State.requeue (s : State) (jid : Nat) (imgs : List (Nat × Quad)) : State :=
  imgs.foldl (fun s (q, img) => s.updQuad q (fun x =>
    { x with queues := (List.zipIdx x.queues).map (fun (k, i) =>
        let old := img.queues.getD i default
        let es := (old.ents.filter (·.job == jid)).map (fun (e : TeEnt) => { e with waitFrom := s.now })
        let bs := old.back.filter (·.job == jid)
        if es.isEmpty && bs.isEmpty then k
        else ({ ents := k.ents ++ es, nextN := max k.nextN old.nextN, loopIx := old.loopIx, back := k.back ++ bs } : TeQueue).refill s.now) })) s

/-- Put exchange-sheet entries back into the exchange engine's queues (R334 step 6). -/
def State.requeueX (s : State) (es : List XEnt) : State :=
  let s : State := es.foldl (fun (s : State) e =>
    { s with fab := { s.fab with
        xback := s.fab.xback ++ [{ e with n := s.fab.nextOp, started := false, issued := 0, parent := 0 }], nextOp := s.fab.nextOp + 1 } }) s
  { s with fab := s.fab.refillX }

/-- Steps 4 to 7 of a set at this device. -/
def State.finishSet (s : State) (j : Job) : State :=
  let s : State := { s with fab := { s.fab with ctrs := j.xctrs } }
  let s := (s.requeue j.id j.quadImg).requeueX j.xpend
  let s := (s.unholdAll (.setting j.id)).dropImages j
  let s := s.updJob j.id (fun j => { j with unstarted := [], xpend := [], quadImg := [], images := [0, 0, 0, 0], record := 0, resumeSlot := none, ranFrom := s.now })
  (s.jobTo j.id .running).toCompose j.id

/-- SET_COMPLETE (R334 steps 4 to 7): once the scenes that the set reloads and the resident load are in, the job runs again from
action 6; a pending JOB_END ends it, and with its session closed it holds (R325, R335). -/
def execSetComplete (jid : Nat) (s : State) : Ans :=
  .next (
    match s.job? jid with
    | none => s
    | some j =>
      let busy := ((s.prod? j.prod).map (·.resLoad)).getD false || (maskList (s.jobQuads j) 4).any (fun q => !(s.quad q).loads.isEmpty)
      if !s.isOn || j.st != .setting || busy || s.fab.role == .member then s
      else
        let s := s.finishSet j
        let s := s.completeOpt j.resumeSlot DONE 0
        let s := if j.members ≠ 0 then s.tellMembers j (troupeMsg 0x15 2 jid 0 0) else s
        if !j.endSlots.isEmpty then s.endJob jid CANCELLED
        else if j.act4 then s.holdJob jid j.reason
        else s)

end Sys2Proof.Machine
end

