-- ==== Sys2Proof/Machine/Ports.lean ====
section
/-! DEFINITION. Stage-link ports and the link layer (R244 to R251, R273): training, flits, retraining and the loss of a link. -/

namespace Sys2Proof.Machine

open Config

/-! ### Port states (R246) -/

/-- A port enters a state other than UP: its RDY_MAP bit clears (R246, R380). -/
def State.leaveUp (s : State) (p : Nat) (st : PortSt) : State :=
  (s.updPort p (fun x => { x with st := st, since := s.now })).setRdy (26 + p) false

/-- The port a lost port's message is sent again on: another port to its peer, if one is UP (R273). -/
def State.otherPort (s : State) (m : Msg) : Option Nat :=
  if m.bcast then s.upLinks.head?
  else if m.troupe then (s.portsTo (m.dst % 8)).head?
  else s.routePort m.dst m.opid

/-- Loans with the peers that a test names end: the borrower's at once, the lender's freed at its term (R146, R273). A loan
given that has ended has no peer. -/
def State.endLoans (s : State) (lost : Nat → Bool) : State :=
  { s with pool := { s.pool.endTaken (fun l => lost l.peer) with
      given := s.pool.given.map (fun (g : LoanGiven) => if lost g.peer then { g with peer := 0x20000 } else g) } }

/-- LINK_LOSS naming a port (R273, R311). -/
def State.lossEvent (s : State) (p : Nat) : State := s.raise 0x20 0xFF [BitVec.ofNat 8 p]

/-- A peer that no UP port reaches any more. -/
def State.unreached (s : State) (peer : Nat) : Bool :=
  if isPos peer then (s.portsTo (peer % 8)).isEmpty else s.upLinks.isEmpty

/-- A port goes DOWN (R246, R273): the host is told, unacknowledged messages leave once on another port that reaches the peer,
and with no such port loans with the peer end. -/
def State.portDown (s : State) (p : Nat) : State :=
  let old := (s.port p).replay
  let s := (s.leaveUp p .down).updPort p (fun x => { x with replay := [], openMsg := false, replays := 0, nak := false })
  let s := (s.lossEvent p).bump 0x71 0 (10 * p + 5) 1
  let s := old.foldl (fun s e => match s.otherPort e.2 with | some k => s.emit k e.2 | none => s) s
  s.endLoans s.unreached

/-- Send the operations that have waited for credits of a port, in the order in which they were issued (R250). -/
def State.sendWaiting (s : State) (p : Nat) : State :=
  (s.fab.ops.filter (·.waiting.isSome)).foldl (fun s o =>
    if s.routePort o.peer o.msg.opid == some p && decide (0 < (s.port p).credits.getD (vcOf o.msg.type) 0) then
      let s : State := { s with fab := { s.fab with ops := s.fab.ops.map (fun (x : XOp) =>
        if x.id == o.id then { x with waiting := none, sent := s.now } else x) } }
      -- credit-wait cycles are counted in memory-clock cycles, 1,650 to a local µs (R275)
      (s.bump 0x71 0 (10 * p + 6) ((s.now - o.waiting.getD s.now) * 1650)).emit p o.msg
    else s) s

/-- A port enters UP: after TRAINING afresh, after RETRAIN with its replay buffer sent again (R246, R250, R251). -/
def State.portUp (s : State) (p : Nat) (half : Bool) (peer : PeerId) : State :=
  let x := s.port p
  let again := x.st == .retrain
  let back := !again && x.peer.isSome && !s.isSibling p && s.fab.addr.isSome
  let s := s.updPort p (fun x =>
    if again then { x with st := .up, half := half, peer := some peer, since := s.now, lastFlit := s.now, replays := 0, nak := false }
    else { Port.reset with st := .up, half := half, peer := some peer, sent := x.sent, since := s.now, lastFlit := s.now })
  let s := if again then (s.bump 0x71 0 (10 * p + 3) ((x.replay.map (fun e => flitsOf e.2)).foldl (· + ·) 0)).lossEvent p else s
  let s := s.setRdy (26 + p) true
  let s := if back then s.broadcast (s.announceMsg false) else s
  s.sendWaiting p

/-- A peer of the wrong kind (R246): a switch at a sibling port, a module at an uplink. -/
def State.wiringFault (s : State) (p : Nat) (peer : PeerId) : Bool := s.isSibling p == peer.isSwitch

/-- The identity that this device sends at training (R246). -/
def State.identity (s : State) : PeerId :=
  { isSwitch := false, strap := s.bt.strap, serial := s.bt.serial, addr := s.fab.addr.map (fun a => (a, s.fab.epoch)) }

/-- Training ends without a link: a port that retrained has lost one. -/
def State.trainFail (s : State) (p : Nat) : State := if (s.port p).st == .retrain then s.portDown p else s.leaveUp p .down

/-- TRAINING_END (R245, R246): each side has sent its identity. -/
def execTrainingEnd (p : Nat) (r : TrainResult) (peer : PeerId) (s : State) : Ans :=
  .next (
    let x := s.port p
    if s.isOn && decide (p < 18) && (x.st == .training || x.st == .retrain) then
      let me := s.identity
      let s := s.updPort p (fun x => { x with sent := some me })
      match r with
      | .failed => s.trainFail p
      | _ => if s.wiringFault p peer then (s.trainFail p).bump 0x71 0 (10 * p + 8) 1 else s.portUp p (r != .full) peer
    else s)

/-- TRAINING_RETRY (R246): every 100,000 local µs a DOWN port trains again. -/
def execTrainingRetry (p : Nat) (s : State) : Ans :=
  .next (
    if s.isOn && decide (p < 18) && (s.port p).st == .down && decide ((s.port p).since + 100000 ≤ s.now) then
      s.updPort p (fun x => { x with st := .training, since := s.now })
    else s)

/-- A port is sent to RETRAIN (R250, R303). -/
def State.retrainPort (s : State) (p : Nat) : State :=
  if (s.port p).st == .up then (s.leaveUp p .retrain).bump 0x71 0 (10 * p + 4) 1 else s

/-- RETRAIN (R250): after eight replays without acknowledgement, or 10 local µs without a valid flit. -/
def execRetrain (p : Nat) (s : State) : Ans :=
  .next (
    if s.isOn && decide (p < 18) && (decide ((s.port p).replays ≥ 8) || decide ((s.port p).lastFlit + 10 ≤ s.now)) then s.retrainPort p
    else s)

/-- RETRAIN_TIMEOUT (R250): not UP again within 1,500 local µs, the port goes DOWN and its link is lost. -/
def execRetrainTimeout (p : Nat) (s : State) : Ans :=
  .next (
    if s.isOn && decide (p < 18) && (s.port p).st == .retrain && decide ((s.port p).since + 1500 ≤ s.now) then s.portDown p else s)

/-! ### Flits (R249 to R251) -/

/-- Drop from a replay buffer what an ACK covers; an ACK outside the buffer's window covers nothing. -/
def ackReplay (acked ack : Nat) (rs : List (Nat × Msg)) : List (Nat × Msg) :=
  rs.filter (fun e => decide ((e.1 + 4096 - acked) % 4096 > (ack + 4096 - acked) % 4096))

/-- ACK, NAK and returned credits of a good flit (R249, R250). -/
def State.flitControl (s : State) (p : Nat) (fl : Flit) : State :=
  let x := s.port p
  let known := decide ((fl.ack + 4096 - x.acked) % 4096 ≤ (x.txSeq + 4095 - x.acked) % 4096)
  let left := if known then ackReplay x.acked fl.ack x.replay else x.replay
  let s := s.updPort p (fun x =>
    { x with lastFlit := s.now, replay := left, acked := if known then fl.ack else x.acked
             replays := (if known && fl.ack != x.acked then 0 else x.replays) + (if fl.nak && !left.isEmpty then 1 else 0)
             credits := if fl.crvc < 3 then x.credits.modify fl.crvc (fun c => min 256 (c + fl.crcnt)) else x.credits })
  let s := if fl.nak then s.bump 0x71 0 (10 * p + 3) ((left.map (fun e => flitsOf e.2)).foldl (· + ·) 0) else s
  s.sendWaiting p

/-- A data flit in order, or a gap that is NAKed, or a repeat that is dropped; a message whose end never came is broken (R250). -/
def State.flitData (s : State) (p : Nat) (fl : Flit) : State :=
  let x := s.port p
  if fl.seq = (x.rxSeq + 1) % 4096 then
    let s := if fl.som && x.openMsg then s.bump 0x71 0 (10 * p + 7) 1 else s
    s.updPort p (fun x => { x with rxSeq := fl.seq, nak := false, openMsg := if fl.som then !fl.eom else x.openMsg && !fl.eom })
  else if (fl.seq + 4096 - x.rxSeq) % 4096 < 2048 ∧ fl.seq ≠ x.rxSeq then s.updPort p (fun x => { x with nak := true })
  else s

/-- FLIT_RECEIVE (R249, R250): a flit that fails its CRC is discarded and answered with NAK. -/
def execFlitReceive (p : Nat) (fl : Flit) (s : State) : Ans :=
  .next (
    if s.isOn && decide (p < 18) && (s.port p).st == .up then
      let s := s.bump 0x71 0 (10 * p + 1) 1
      if !fl.good then (s.updPort p (fun x => { x with nak := true })).bump 0x71 0 (10 * p + 2) 1
      else
        let s := s.flitControl p fl
        if fl.ftype = 1 && fl.vc < 3 then s.flitData p fl else s
    else s)

end Sys2Proof.Machine
end

