-- ==== Sys2Proof/Machine/XferOps.lean ====
section
/-! DEFINITION. Exchange operations at their end (R250, R254, R255), the loss of a peer (R273), fencing (R268 to R271), and what a
message must pass before it acts (R269). -/

namespace Sys2Proof.Machine

open Config

/-! ### Completion of operations -/

/-- Post an exchange completion counter by 1; past 0xFFFF_FFFF the job ends with INTERNAL (R255). -/
def State.xpost (s : State) (c jid : Nat) : State :=
  if c ≥ 64 then s
  else
    let v := s.fab.ctrs.getD c 0 + 1
    if v > 0xFFFFFFFF then s.endJob jid INTERNAL else { s with fab := { s.fab with ctrs := s.fab.ctrs.set c v } }

/-- The job whose counters a message from a peer posts: the one that owns the device. -/
def State.ownerJob (s : State) : Nat := ((s.sv.jobs.find? (·.owns)).map (·.id)).getD 0

/-- Operations other than the given ones stay. -/
def State.dropOps (s : State) (gone : XOp → Bool) : State :=
  { s with fab := { s.fab with ops := s.fab.ops.filter (fun o => !gone o) } }

/-- Entries leave a queue of the exchange engine, and waiting ones take the room (R15, R18). -/
def State.xdrop (s : State) (xq : Nat) (gone : XEnt → Bool) : State :=
  { s with fab := ({ s.fab with queues := s.fab.queues.modify xq (fun k => k.filter (fun e => !gone e)) } : Fabric).refillX }

/-- The messages of one operation (R254). -/
def XOp.sameOp (a b : XOp) : Bool := a.id == b.id || (a.parent != 0 && a.parent == b.parent)

/-- The borrower's object of a finished PLACE with TIER 3 (R145). -/
def State.loanPlaced (s : State) (o : XOp) (lines : Nat) : State :=
  let id := o.msg.a0.toNat
  match o.slot with
  | none => s
  | some (f, n) =>
    if s.pool.taken.any (·.id == id) then
      let oid := o.msg.a1.toNat
      let s := s.updTaken id (fun l => { l with objs := l.objs ++ [(oid, bits o.msg.a3.toNat 0 40, s.stampNow)] })
      ({ s with pool := { s.pool with ended := s.pool.ended.filter (· != (o.peer, oid)) } } : State).complete f n
        (if lines > 0 then POISONED else DONE) lines
    else s.complete f n EVICTED 0

/-- One message of an operation has its reply; the last one completes the operation, posting its counter (R254). `lines`: the
poisoned lines a commit acknowledgement reports. -/
def State.opDone (s : State) (o : XOp) (lines : Nat) : State :=
  let s := s.dropOps (·.id == o.id)
  let lines := max lines (if o.kind = 4 then o.dst else 0)
  if s.fab.ops.any (fun k => k.sameOp o) then
    if o.kind = 4 ∧ lines > 0 then
      { s with fab := { s.fab with ops := s.fab.ops.map (fun (k : XOp) => if k.sameOp o then { k with dst := max k.dst lines } else k) } }
    else s
  else if o.kind = 4 then s.loanPlaced o lines
  else
    match o.xq with
    | none => s
    | some (q, n) =>
      if (s.fab.queues.getD q []).any (fun e => e.n == n && e.job == o.job && decide (e.issued < rawField e.raw 0x20 4)) then s else
      (s.xdrop q (fun e => e.n == n && e.job == o.job)).xpost o.ectr o.job

/-- The status with which a job ends when an operation of it fails. -/
def failStatus (status : Nat) : Nat := if status = LOST ∨ status = NOTREADY ∨ status = FENCED then status else INTERNAL

/-- An operation ends with an error (R250, R253): its other messages are outstanding no more, a command that waits on it
completes, and a job whose operation it is ends. -/
def State.opFail (s : State) (o : XOp) (status : Nat) : State :=
  let s := s.dropOps (fun k => k.sameOp o)
  let s := if status = LOST then s.bump 0x72 0 9 1 else s
  match o.slot with
  | some w => s.completeAs (some w) status 0xFFFF
  | none => if o.job = 0 then s else s.endJob o.job (failStatus status)

/-! ### Lost peers (R273) -/

/-- The port that LINK_LOSS names when a troupe position is lost. -/
def State.portOfPos (s : State) (pos : Nat) : Nat :=
  ((List.range 18).find? (fun p => s.isSibling p && (match (s.port p).peer with | some i => !i.isSwitch && i.strap == pos | none => false))).getD 0

/-- Leave the troupe. -/
def State.leaveTroupe (s : State) : State :=
  { s with fab := { s.fab with role := .none, mask := 0, lead := 0, troupeEpoch := 0 } }

/-- A troupe-wide job as a member holds it: no slot of this device waits on it. -/
def Job.ofTroupe (j : Job) : Bool := decide (256 ≤ j.slot)

/-- The lead is lost, at a member: its troupe job's operations complete with REMOTE_LOST, its quadrants are cut, the job is held
with reason 3, and the member leaves the troupe. -/
def State.leadLost (s : State) : State :=
  let s := s.lossEvent (s.portOfPos s.fab.lead)
  let s := (s.sv.jobs.filter (·.ofTroupe)).foldl (fun s j =>
    let n := (s.fab.ops.filter (·.job == j.id)).length
    let s := ((s.dropOps (·.job == j.id)).bump 0x72 0 9 n).cutJob j
    (s.updJob j.id (fun j => { j with inStep := false })).holdJob j.id 3) s
  s.leaveTroupe

/-- A member is lost, at the lead: jobs that name it end with REMOTE_LOST, the generation is bumped (by the end of the job itself where
a pass was in flight, R236), and the troupe goes on without it. -/
def State.memberLost (s : State) (pos : Nat) : State :=
  let s := s.lossEvent (s.portOfPos pos)
  let s := (s.sv.jobs.filter (fun j => j.members.testBit pos)).foldl (fun s j =>
    (if s.passInFlight j.id then s else s.bumpGen).endJob j.id LOST) s
  { s with fab := { s.fab with mask := s.fab.mask - (if s.fab.mask.testBit pos then 2 ^ pos else 0) } }

/-- A position of the troupe that no UP port has reached for a link timeout (R273). -/
def State.posGone (s : State) (pos : Nat) : Bool :=
  s.fab.mask.testBit pos && decide (pos ≠ s.bt.strap) && (s.portsTo pos).isEmpty &&
  (List.range 18).all (fun p => match (s.port p).peer with
    | some i => i.strap != pos || i.isSwitch || decide ((s.port p).since + linkTimeout ≤ s.now)
    | none => true)

/-- Act on lost positions, as the role asks. -/
def State.lostPeers (s : State) : State :=
  match s.fab.role with
  | .none => s
  | .member => if s.posGone s.fab.lead then s.leadLost else s
  | .lead => ((List.range 8).filter s.posGone).foldl State.memberLost s

/-! ### Timeouts (R250, R256) -/

/-- LINK_TIMEOUT (R250): no reply within 2,000 local µs of its last flit. A peer that no port reaches is then lost. -/
def execLinkTimeout (op : Nat) (s : State) : Ans :=
  .next (
    match s.fab.ops.find? (·.id == op) with
    | some o =>
      if s.isOn && o.waiting.isNone && decide (o.sent + linkTimeout ≤ s.now) then (s.opFail o LOST).lostPeers else s
    | none => s)

/-- CREDIT_TIMEOUT (R250): a send that has waited 2,000 local µs for credits. -/
def execCreditTimeout (op : Nat) (s : State) : Ans :=
  .next (
    match s.fab.ops.find? (·.id == op) with
    | some o =>
      (match o.waiting with
       | some t => if s.isOn && decide (t + linkTimeout ≤ s.now) then s.opFail o LOST else s
       | none => s)
    | none => s)

/-- REDUCE_RESEND (R256): 10 local µs after it was refused BUSY a contribution is sent again. -/
def execReduceResend (op : Nat) (s : State) : Ans :=
  .next (
    match s.fab.ops.find? (·.id == op) with
    | some o =>
      (match o.resendAt with
       | some t =>
         if s.isOn && decide (t ≤ s.now) then
           let s : State := { s with fab := { s.fab with ops := s.fab.ops.map (fun (k : XOp) =>
             if k.id == op then { k with resendAt := none, sent := s.now } else k) } }
           match s.routePort o.peer o.msg.opid with
           | some p => s.emit p o.msg
           | none => (s.bump 0x72 0 7 1).opFail o LOST
         else s
       | none => s)
    | none => s)

/-! ### Epochs and fencing (R268 to R271) -/

/-- Epoch a is newer than epoch b (R268). -/
def newer (a b : Nat) : Bool :=
  let d := (a % 65536 + 65536 - b % 65536) % 65536
  decide (1 ≤ d) && decide (d ≤ 32767)

/-- The device fences itself (R271): operations complete with FENCED, jobs end, loans end, address and epoch go, bit 44 clears and
the host is told. -/
def State.fenceSelf (s : State) : State :=
  let a := s.fab.addr.getD 0
  let e := s.fab.epoch
  let s : State := { s with fab := { s.fab with fenced := true } }
  let ops := s.fab.ops
  let s := s.dropOps (fun _ => true)
  let s := ((ops.filterMap (·.slot)).eraseDups).foldl (fun s w => s.complete w.1 w.2 FENCED 0) s
  let s := s.bumpGen
  let s := (s.sv.jobs.filter (fun j => j.st != .struck)).foldl (fun s j => s.endJob j.id FENCED) s
  let s := s.endLoans (fun _ => true)
  let s : State := { s with fab := { s.fab with addr := none, epoch := 0 } }
  (s.setRdy 44 false).raise 0x21 0xFF (leBytes 2 a ++ leBytes 2 e)

/-- Fence a stale holder of address a and epoch e by broadcast, at most once in 10,000 local µs (R270). -/
def State.fenceStale (s : State) (a e : Nat) : State :=
  if s.fab.fenceAt.any (fun f => f.1 == a && f.2.1 == e && decide (s.now < f.2.2 + 10000)) then s
  else
    let s : State := { s with fab := { s.fab with fenceAt := (a, e, s.now) :: s.fab.fenceAt.filter (fun f => !(f.1 == a && f.2.1 == e)) } }
    (s.broadcast { msg0 0x12 with a0 := annArg a e }).bump 0x72 0 5 1

/-- Fence a stale troupe position, the FENCE naming position and epoch (R270). -/
def State.fencePos (s : State) (pos e : Nat) : State :=
  let a := peerOf pos
  if s.fab.fenceAt.any (fun f => f.1 == a && f.2.1 == e && decide (s.now < f.2.2 + 10000)) then s
  else
    let s : State := { s with fab := { s.fab with fenceAt := (a, e, s.now) :: s.fab.fenceAt.filter (fun f => !(f.1 == a && f.2.1 == e)) } }
    (s.tell a { msg0 0x12 with a0 := annArg pos e }).bump 0x72 0 5 1

/-- A directory entry takes an epoch; loans and operations held with the old one end (R264, R273). -/
def State.setDir (s : State) (a e : Nat) : State :=
  let had := (look s.fab.dir a).isSome
  let s : State := { s with fab := { s.fab with
    dir := sortBy (fun (x y : Nat × Nat) => decide (x.1 ≤ y.1)) ((a, e) :: s.fab.dir.filter (fun d => d.1 != a)) } }
  if had then
    ((s.fab.ops.filter (·.peer == a)).foldl (fun s o => if s.fab.ops.any (·.id == o.id) then s.opFail o LOST else s) s).endLoans (· == a)
  else s

/-- What R264 does with address a at epoch e, as an ANNOUNCE or a message's SRC and SEPOCH give them. `none`: the sender is
stale, or this device is. -/
def State.learn (s : State) (a e : Nat) : Option State :=
  if s.fab.addr = some a then none
  else
    match look s.fab.dir a with
    | none => some (s.setDir a e)
    | some old => if newer e old then some (s.setDir a e) else if e = old then some s else none

/-! ### The checks of a message (R269) -/

/-- Types that a device without an address takes on an uplink. -/
def fabricCtl (type : Nat) : Bool := type == 0x10 || type == 0x11 || type == 0x12

/-- TROUPE messages of a formation and FENCE carry their epoch as an argument and are not held to the troupe epoch (R260, R270). -/
def formation (m : Msg) : Bool := m.type == 0x12 || (m.type == 0x14 && decide (1 ≤ m.a0.toNat % 256) && decide (m.a0.toNat % 256 ≤ 5))

/-- A message that passes the checks of R269, or what a failed check does. -/
def State.screen (s : State) (p : Nat) (m : Msg) : Bool × State :=
  let s := s.bump 0x72 0 1 1
  if m.troupe then
    if !s.isSibling p || m.dst % 8 ≠ s.bt.strap then (false, s.bump 0x72 0 2 1)
    else if formation m then (true, s)
    else if newer s.fab.troupeEpoch m.sepoch then (false, (s.bump 0x72 0 4 1).fencePos (m.src % 8) m.sepoch)
    else if m.depoch ≠ s.fab.troupeEpoch then (false, s.bump 0x72 0 3 1)
    else (true, s)
  else
    match s.fab.addr with
    | none => if fabricCtl m.type && !s.isSibling p then (true, s) else (false, s.bump 0x72 0 2 1)
    | some a =>
      if !m.bcast && m.dst ≠ a then (false, s.bump 0x72 0 2 1)
      else if !m.bcast && m.depoch ≠ s.fab.epoch then (false, (s.bump 0x72 0 3 1).tell m.src (s.announceMsg false))
      else if fabricCtl m.type || m.src = a || m.sepoch = 0 then (true, s)
      else
        match s.learn m.src m.sepoch with
        | some s => (true, s)
        | none => (false, (s.bump 0x72 0 4 1).fenceStale m.src m.sepoch)

/-- Requests and replies are held by a trip, requests by an activation's copy (R356, R396). -/
def State.holdsBack (s : State) (m : Msg) : Bool :=
  ((s.pw.tripT || s.pw.tripI) && vcOf m.type != 2) || (s.bt.act == .loading && vcOf m.type == 0)

/-- The operation that a reply answers. -/
def State.opOf (s : State) (m : Msg) : Option XOp :=
  s.fab.ops.find? (fun o => decide (o.id % 2 ^ 32 = m.opid) && o.peer == peerFrom m && o.waiting.isNone)

/-- The port or the bank of an MU that a PUT, GET, REDUCE or the data of a GET needs is taken in this cycle (R424). -/
def State.portBusy (s : State) (m : Msg) : Bool :=
  let n := m.payload.length
  match m.type with
  | 0x01 => !s.engineFree m.a0.toNat n true
  | 0x02 => m.a0 == 0 && decide (m.a3.toNat ≤ 65536) && !s.engineFree m.a1.toNat m.a3.toNat false
  | 0x03 => !s.engineFree m.a0.toNat n true
  | 0x82 => (match s.opOf m with | some o => o.te.isNone && o.job != 0 && !s.engineFree o.dst n true | none => false)
  | _ => false

/-- A message of the same channel came before and still waits in the receive buffers of the port. -/
def State.behind (s : State) (p : Nat) (m : Msg) : Bool := s.fab.held.any (fun e => e.1 == p && vcOf e.2.type == vcOf m.type)

/-- Receive a message on a port: held back, dropped by a check, or acted on. One whose access to an MU finds no port waits in the
receive buffers, and the messages of its channel behind it (R424, log 55). -/
def State.receive (s : State) (p : Nat) (m : Msg) (act : State → State) : State :=
  if !s.isOn || (s.port p).st != .up then s
  else if s.holdsBack m || s.behind p m || s.portBusy m then { s with fab := { s.fab with held := s.fab.held ++ [(p, m)] } }
  else
    let (ok, s) := s.screen p m
    if ok then act s else s

end Sys2Proof.Machine
end

