-- ==== Sys2Proof/Machine/Messages.lean ====
section
/-! DEFINITION. The messages that are not TROUPE (R253, R256, R264, R270, R273): what each does at its receiver. -/

namespace Sys2Proof.Machine

open Config

/-! ### Requests to memory -/

/-- A range that a PUT, REDUCE or answer may write: tier 0, no hole (R123, R253). -/
def State.putOk (s : State) (a n : Nat) : Bool := decide (a + n ≤ 0x200000000) && s.inDevice a n

/-- The quadrant of a tier-0 address. -/
def quadOf (a : Nat) : Nat := a / 0x80000000

/-- The quadrant at which an access to a tier-0 range that is a hole counts: that of the range, or of the understudies' aperture above
tier 0 (R118). -/
def holeQuad (a : Nat) : Nat := if a < 0x200000000 then quadOf a else (a - 0x200000000) / 0x0C000000 % 4

/-- An engine reads a range of tier 0: its bytes and the poisoned ranges among them. A hole reads as poisoned zeros and is counted
(R118). -/
def State.readTier0 (s : State) (a n : Nat) : (List Byte × List (Nat × Nat)) × State :=
  if s.inDevice a n then ((memRead s.mem a n, s.badRanges a n), s.engineTake a n false)
  else ((List.replicate n 0, [(0, n)]), s.holeAccess (holeQuad a))

/-- An engine writes a range of tier 0; to a hole, nothing is written, and the access is counted (R118). -/
def State.writeTier0 (s : State) (a : Nat) (bs : List Byte) (pois : List (Nat × Nat)) : State :=
  if s.inDevice a bs.length then (s.engineTake a bs.length true).devPut a bs pois else s.holeAccess (holeQuad a)

/-- PUT (R253): write, post CTR, ACK. -/
def State.putMsg (s : State) (m : Msg) : State :=
  let a := m.a0.toNat
  if !s.putOk a m.payload.length then s.errMsg m BAD
  else if s.dark (quadOf a) then s.errMsg m NOTREADY
  else ((s.writeTier0 a m.payload (msgBad m)).xpost m.ctr s.ownerJob).ackMsg m DONE

/-- PUT (R253). -/
def execPut (p : Nat) (m : Msg) (s : State) : Ans := .next (s.receive p { m with type := 0x01 } (fun s => s.putMsg { m with type := 0x01 }))

/-- The lender's object for a borrower's object of a loan (R145): a class 5 object whose SOURCE is the borrower's ID. -/
def State.loanObj (s : State) (loan oid : Nat) : Option Rec :=
  s.pool.recs.find? (fun r => r.oid >>> 60 == 5 && r.owner / 65536 == loan && r.source == oid && r.committed)

/-- What a GET reads of a copy: its bytes and the poisoned ranges among them; what its reading counts is counted (R118, R155). -/
def State.readRec (s : State) (r : Rec) (off n : Nat) : (List Byte × List (Nat × Nat)) × State :=
  let ps := r.pieces off n
  let (cells, pois) := s.gather ps 0
  ((memRead cells 0 n, pois), s.noteReads r.copy ps)

/-- What a GET reads: its bytes and the poisoned ranges among them, and what that counts; or the status of an ERROR. -/
def State.getBytes (s : State) (m : Msg) : Except Nat ((List Byte × List (Nat × Nat)) × State) :=
  let oid := m.a0.toNat
  let off := m.a1.toNat
  let tier := bits m.a2.toNat 0 2
  let copy := bits m.a2.toNat 2 2
  let n := m.a3.toNat
  if n < 128 ∨ n > 65536 then .error BAD
  else if oid = 0 then
    if off + n ≤ 0x200000000 ∧ s.dark (quadOf off) then .error NOTREADY else .ok (s.readTier0 off n)
  else if m.a2.getLsbD 4 then
    match s.loanObj (bits m.a2.toNat 16 32) oid with
    | some r => if s.dark r.copy then .error NOTREADY else .ok (s.readRec r off n)
    | none => .error EVICTED
  else if tier = 0 ∨ tier > 2 then .error BAD
  else if (s.pool.readable tier oid).isNone then .error EVICTED
  else
    match (s.pool.copies tier oid).find? (·.copy == copy) with
    | some r => if s.dark r.copy then .error NOTREADY else .ok (s.readRec r off n)
    | none => .ok ((List.replicate n 0, [(0, n)]), s.holeAccess copy)

/-- GET (R253): GET_DATA; a hole gives data with POISON, a lost object EVICTED. -/
def State.getMsg (s : State) (m : Msg) : State :=
  match s.getBytes m with
  | .error st => s.errMsg m st
  | .ok ((bs, pois), s) => s.reply m { msg0 0x82 with a0 := arg DONE, payload := bs, poison := flitsBad bs.length pois }

/-- GET (R253). -/
def execGet (p : Nat) (m : Msg) (s : State) : Ans := .next (s.receive p { m with type := 0x02 } (fun s => s.getMsg { m with type := 0x02 }))

/-! ### Reductions (R256) -/

/-- Combine 4-byte elements. -/
def zip4 (f : BitVec 32 → BitVec 32 → BitVec 32) (d x : List Byte) : List Byte :=
  (List.range (d.length / 4)).flatMap (fun i => leBytes 4 (f (BitVec.ofNat 32 (leAt d (4 * i) 4)) (BitVec.ofNat 32 (leAt x (4 * i) 4))).toNat)

/-- BF16 addition, both operands exact (R256). -/
def bfAdd (a b : Nat) : Nat := bf16.enc 0x7FC0 ((bf16.ieee a).add (bf16.ieee b))

/-- The element rule of an operation code (R256). -/
def reduceBytes (op : Nat) (d x : List Byte) : List Byte :=
  match op with
  | 0 => zip4 fadd d x
  | 1 => (List.range (d.length / 2)).flatMap (fun i => leBytes 2 (bfAdd (leAt d (2 * i) 2) (leAt x (2 * i) 2)))
  | 2 => zip4 (· + ·) d x
  | _ => zip4 fmax d x

/-- Fields of a REDUCE message. -/
def redOp (m : Msg) : Nat := bits m.a1.toNat 0 4
def redIx (m : Msg) : Nat := bits m.a1.toNat 8 8
def redCount (m : Msg) : Nat := bits m.a1.toNat 16 8
def redId (m : Msg) : Nat := bits m.a2.toNat 0 32
def redStep (m : Msg) : Nat := bits m.a2.toNat 32 32

/-- A reduction that a message belongs to. -/
def Redn.is (r : Redn) (m : Msg) : Bool := r.src == m.a0.toNat && r.id == (redId m) && r.step == (redStep m)

def State.redn (s : State) (m : Msg) : Redn :=
  (s.fab.redns.find? (·.is m)).getD { src := m.a0.toNat, id := (redId m), step := (redStep m), count := (redCount m), applied := 0, early := [] }

/-- Keep a reduction's record; a new step replaces the record of an older one. -/
def State.setRedn (s : State) (r : Redn) : State :=
  { s with fab := { s.fab with redns := r :: s.fab.redns.filter (fun x => !(x.src == r.src && x.id == r.id)) } }

/-- Apply one contribution to the destination range and acknowledge it; the last one posts CTR. -/
def State.applyRed (s : State) (m : Msg) : State :=
  let a := m.a0.toNat
  let n := m.payload.length
  let out := reduceBytes (redOp m) (memRead s.mem a n) m.payload
  let s := s.engineTake a n true
  let s : State := { s with mem := memWrite s.mem a out, marks := markRanges s.marks a n (msgBad m) }
  let s := if (redIx m) + 1 = (redCount m) then s.xpost m.ctr s.ownerJob else s
  s.ackMsg m DONE

/-- Apply a contribution that is next, and those held early that follow it. -/
def State.runRed : Nat → Msg → State → State
  | 0, _, s => s
  | fuel + 1, m, s =>
    let r := s.redn m
    let s := (s.applyRed m).setRedn { r with applied := (redIx m) }
    match r.early.find? (fun e => e.1 == (redIx m) + 1) with
    | some (_, _, k) =>
      let r' := s.redn m
      State.runRed fuel k (s.setRedn { r' with early := r'.early.filter (fun e => e.1 != (redIx m) + 1) })
    | none => s

/-- Bytes in the reduce holding buffer. -/
def State.heldBytes (s : State) : Nat :=
  (s.fab.redns.flatMap (·.early)).foldl (fun n e => n + e.2.2.payload.length) 0

/-- REDUCE (R256): in contributor order, held early, refused BUSY with the buffer full, or acknowledged again. -/
def State.reduceMsg (s : State) (p : Nat) (m : Msg) : State :=
  let a := m.a0.toNat
  if (redOp m) > 3 ∨ (redIx m) = 0 ∨ (redIx m) ≥ (redCount m) ∨ (redCount m) < 2 ∨ m.payload.length % 4 ≠ 0 ∨ !s.putOk a m.payload.length then s.errMsg m BAD
  else if s.dark (quadOf a) then s.errMsg m NOTREADY
  else
    let r := s.redn m
    if (redIx m) ≤ r.applied then (s.bump 0x72 0 11 1).ackMsg m DONE
    else if (redIx m) = r.applied + 1 then State.runRed 256 m s
    else if r.early.any (fun e => e.1 == (redIx m)) then s.bump 0x72 0 11 1
    else if s.heldBytes + m.payload.length > 16777216 then (s.bump 0x72 0 10 1).errMsg m BUSY
    else s.setRedn { r with early := r.early ++ [((redIx m), p, m)] }

/-- REDUCE (R256). -/
def execReduce (p : Nat) (m : Msg) (s : State) : Ans := .next (s.receive p { m with type := 0x03 } (fun s => s.reduceMsg p { m with type := 0x03 }))

/-! ### Loans at the lender (R145, R146) -/

/-- Cut n blocks off a list of extents: the blocks taken, and those left. -/
def splitBlocks : List (Nat × Nat) → Nat → List (Nat × Nat) × List (Nat × Nat)
  | es, 0 => ([], es)
  | [], _ + 1 => ([], [])
  | (b, c) :: es, n + 1 =>
    if c ≤ n + 1 then (let r := splitBlocks es (n + 1 - c); ((b, c) :: r.1, r.2))
    else ([(b, n + 1)], (b + (n + 1), c - (n + 1)) :: es)

def State.updGiven (s : State) (id : Nat) (g : LoanGiven → LoanGiven) : State :=
  { s with pool := { s.pool with given := s.pool.given.map (fun (x : LoanGiven) => if x.id == id then g x else x) } }

/-- The reserved space of a loan gets blocks of a quadrant. -/
def State.reserveBlocks (s : State) (g : LoanGiven) (q : Nat) (ext : List (Nat × Nat)) : State :=
  { s with pool := { s.pool with recs := s.pool.recs.filter (fun r => !(r.oid == g.resv && r.copy == q)) ++
      [{ newRec g.resv g.tier (2 ^ q) 0 0 0 0 with copy := q, ext := ((s.pool.copies g.tier g.resv).filter (·.copy == q)).flatMap (·.ext) ++ ext }] } }

/-- Give the blocks of an object of a loan back to its reserved space. -/
def State.giveBack (s : State) (g : LoanGiven) (r : Rec) : State :=
  (({ s with pool := s.pool.clear r.tier r.oid } : State).reserveBlocks g r.copy r.ext).updGiven g.id (fun x => { x with used := x.used - r.len })

/-- Take n blocks out of the reserved space of a loan, in the order of its records. -/
def shrinkResv (resv : Nat) : List Rec → Nat → List Rec
  | [], _ => []
  | r :: rs, n =>
    if r.oid = resv then
      let k := min n (recBlocks [r])
      { r with ext := (splitBlocks r.ext k).2 } :: shrinkResv resv rs (n - k)
    else r :: shrinkResv resv rs n

/-- The quadrant that a borrower's object goes to: the ready one in which its loan has most space reserved, the lowest among equals
(DESIGN CHOICE, log 52). -/
def State.loanQuad (s : State) (g : LoanGiven) : Option Nat :=
  ((List.range 4).filter (fun q => s.quadReady q (g.tier == 1) && (g.tier == 1 || s.rdy 25))).foldl (fun acc q =>
    let n (q : Nat) : Nat := recBlocks ((s.pool.copies g.tier g.resv).filter (·.copy == q))
    match acc with
    | none => some q
    | some b => if n b < n q then some q else some b) none

/-- Space for a borrower's object in a quadrant: allocated as any object's is (R127, R132), in place of as many blocks of the loan's
reserved space (log 52). -/
def State.loanSpace (s : State) (g : LoanGiven) (q len : Nat) : Option (List (Nat × Nat)) × State :=
  let own := (s.pool.copies g.tier g.resv).filter (·.copy == q)
  let need := ceilDiv len blockBytes
  let s1 : State := { s with pool := { s.pool with recs := s.pool.recs.filter (fun r => !(r.oid == g.resv && r.copy == q)) } }
  match State.allocEvict g.tier q 0 len false s.pool.recs.length s1 with
  | (none, s2) => (none, s2.reserveBlocks g q (own.flatMap (·.ext)))
  | (some ext, s2) =>
    (some ext, { s2 with pool := { s2.pool with recs := shrinkResv g.resv s2.pool.recs (need - recBlocks own) } })

/-- The lender's placement of a borrower's object (R132, R145). -/
def State.loanPlace (s : State) (p : Nat) (g : LoanGiven) (m : Msg) : State :=
  let oid := m.a1.toNat
  let len := bits m.a3.toNat 0 40
  let base := oid * 2 ^ 40
  let cells := memSlice g.staged base len 0
  let pois := (g.bad.filter (fun e => decide (base ≤ e.1) && decide (e.1 < base + len))).map (fun e => (e.1 - base, e.2))
  let s := s.updGiven g.id (fun x =>
    { x with staged := memZero x.staged base (2 ^ 40), bad := x.bad.filter (fun e => !(decide (base ≤ e.1) && decide (e.1 < base + 2 ^ 40))) })
  let s := match s.loanObj g.id oid with | some r => s.giveBack g r | none => s
  if recBlocks (s.pool.copies g.tier g.resv) < ceilDiv len blockBytes then s.errMsg m NOSPACE
  else
    match s.loanQuad g with
    | none => s.errMsg m NOTREADY
    | some q =>
      let kept := recBlocks ((s.pool.copies g.tier g.resv).filter (·.copy == q)) - ceilDiv len blockBytes
      match s.loanSpace g q len with
      | (none, s) => (s.bump 0x33 q 6 1).errMsg m NOSPACE
      | (some ext, s) =>
        let (id, s) := s.newOid 5
        let rec_ : Rec := { newRec id g.tier (2 ^ q) len (peerFrom m % 16384 + g.id * 65536) oid 0 with copy := q, ext := ext }
        let s : State := { s with pool := { s.pool with recs := s.pool.recs ++ [rec_] } }
        let s := s.reserveBlocks g q ((takeRuns (s.pool.runsDown g.tier q) kept).getD [])
        s.startPlacing { pid := 0, oid := id, tier := g.tier, qmask := 2 ^ q, len := len, src := .bytes cells pois, pinAt := false
                         for_ := .lendSide g.id (peerFrom m) m.opid p, f := 0 }

/-- LOAN_PUT (R253): the segment is staged; the last one places the object, whose commit is acknowledged later. One of length 0 says
that the borrower has evicted the object (log 52). -/
def State.loanPutMsg (s : State) (p : Nat) (m : Msg) : State :=
  let id := m.a0.toNat
  match s.pool.given.find? (fun g => g.id == id && g.peer == peerFrom m) with
  | none => s.errMsg m EVICTED
  | some _ =>
    let at_ := m.a1.toNat * 2 ^ 40 + m.a2.toNat
    let s := s.updGiven id (fun x =>
      { x with staged := memWrite x.staged at_ m.payload, bad := x.bad ++ (msgBad m).map (fun e => (at_ + e.1, e.2)) })
    match s.pool.given.find? (·.id == id), m.a3.getLsbD 40 with
    | some g, true =>
      if bits m.a3.toNat 0 40 = 0 then
        (match s.loanObj id m.a1.toNat with | some r => s.giveBack g r | none => s).ackMsg m DONE
      else s.loanPlace p g m
    | _, _ => s.ackMsg m DONE

/-- LOAN_PUT (R253). -/
def execLoanPut (p : Nat) (m : Msg) (s : State) : Ans := .next (s.receive p { m with type := 0x04 } (fun s => s.loanPutMsg p { m with type := 0x04 }))

/-- BORROW (R144, R253): a covering offer to the sender becomes a loan; without one the answer is NO_SPACE. -/
def State.borrowMsg (s : State) (m : Msg) : State :=
  let tier := bits m.a0.toNat 0 2
  let size := bits m.a0.toNat 16 10
  match s.pool.offers.find? (fun o => o.peer == peerFrom m && o.tier == tier && decide (size ≤ o.size)) with
  | none => s.errMsg m NOSPACE
  | some o =>
    let id := s.pool.nextLoan
    let g : LoanGiven := { id := id, peer := o.peer, tier := tier, size := size, term := o.term, start := s.now, used := 0
                           recalled := none, resv := o.resv, staged := [], bad := [] }
    let s : State := { s with pool := { s.pool with offers := s.pool.offers.filter (·.resv != o.resv), given := s.pool.given ++ [g], nextLoan := id + 1 } }
    s.reply m { msg0 0x84 with a0 := arg id, a1 := arg size, a2 := arg o.term }

/-- BORROW, received (R253). -/
def execBorrowRequest (p : Nat) (m : Msg) (s : State) : Ans := .next (s.receive p { m with type := 0x08 } (fun s => s.borrowMsg { m with type := 0x08 }))

/-- RENEW (R144, R146): the term counts from this grant. -/
def State.renewMsg (s : State) (m : Msg) : State :=
  let id := m.a0.toNat
  match s.pool.given.find? (fun g => g.id == id && g.peer == peerFrom m && g.recalled.isNone) with
  | none => s.errMsg m EVICTED
  | some g =>
    let s : State := { s with pool := { s.pool with given := s.pool.given.map (fun (x : LoanGiven) => if x.id == id then { x with start := s.now } else x) } }
    s.reply m { msg0 0x84 with a0 := arg id, a1 := arg g.size, a2 := arg g.term }

/-- RENEW (R253). -/
def execRenew (p : Nat) (m : Msg) (s : State) : Ans := .next (s.receive p { m with type := 0x09 } (fun s => s.renewMsg { m with type := 0x09 }))

/-! ### Dispatch traffic (R233, R237, R258) -/

/-- DISPATCH_REC: the record goes to the inbox of its quadrant, or is dropped as stale; acknowledged either way. -/
def State.dispatchRecMsg (s : State) (m : Msg) : State :=
  let q := m.dq % 4
  if s.dark q then s.errMsg m NOTREADY
  else
    -- the header is control; what flits with POISON carry of the row is poisoned
    let pois := (msgBad m).filterMap (fun e => if 128 < e.1 + e.2 then some (e.1 - 128, e.1 + e.2 - max e.1 128) else none)
    ((s.recordIn q (m.payload.take 128) (m.payload.drop 128) pois).ackMsg m DONE).goOn

/-- DISPATCH_REC (R233). -/
def execDispatchRec (p : Nat) (m : Msg) (s : State) : Ans := .next (s.receive p { m with type := 0x05 } (fun s => s.dispatchRecMsg { m with type := 0x05 }))

/-- DISPATCH_END: one for each source; senders are told apart by device and operation. -/
def State.dispatchEndMsg (s : State) (m : Msg) : State :=
  let q := m.dq % 4
  if s.dark q then s.errMsg m NOTREADY
  else ((s.endIn q m.rtag (peerFrom m * 2 ^ 32 + m.opid) m.a0.toNat).ackMsg m DONE).goOn

/-- DISPATCH_END (R233 step 5). -/
def execDispatchEnd (p : Nat) (m : Msg) (s : State) : Ans := .next (s.receive p { m with type := 0x06 } (fun s => s.dispatchEndMsg { m with type := 0x06 }))

/-- An answer is expected in a quadrant (R237). -/
def State.answerDue (s : State) (q tag d : Nat) : Bool :=
  match s.passOf q with
  | some (_, p) => (s.quad q).rt.expects tag 0 && decide (d < p.man.rp.dmax)
  | none => false

/-- DISPATCH_ANS: the answer is written at its source, which posts DCUE once all are in; a stale one posts nothing (R237). -/
def State.dispatchAnsMsg (s : State) (m : Msg) : State :=
  let q := m.dq % 4
  if s.dark q then s.errMsg m NOTREADY
  else
    let due := s.answerDue q m.rtag m.a0.toNat
    let s := s.answerIn q m.rtag m.a0.toNat m.payload (msgBad m)
    ((if due then s.xpost m.ctr s.ownerJob else s).ackMsg m DONE).goOn

/-- DISPATCH_ANS (R233 step 7). -/
def execDispatchAns (p : Nat) (m : Msg) (s : State) : Ans := .next (s.receive p { m with type := 0x07 } (fun s => s.dispatchAnsMsg { m with type := 0x07 }))

/-! ### Replies (R250, R254) -/


/-- Act on the operation that a reply answers; with none the reply is late, dropped and counted (R250). -/
def State.onReply (s : State) (m : Msg) (act : XOp → State → State) : State :=
  match s.opOf m with
  | some o => act o s
  | none => s.bump 0x72 0 8 1

/-- ACK: a status of DONE completes the message; POISONED_OUTPUT of a commit too, with its count of poisoned lines. -/
def State.ackReply (s : State) (m : Msg) : State :=
  s.onReply m (fun o s =>
    let st := m.a0.toNat % 256
    if st = DONE ∨ st = POISONED then s.opDone o m.a1.toNat else s.opFail o st)

/-- ACK (R254). -/
def execAck (p : Nat) (m : Msg) (s : State) : Ans := .next (s.receive p { m with type := 0x81 } (fun s => s.ackReply { m with type := 0x81 }))

/-- Payload as 128-byte lines, each poisoned where a flit with POISON carries a byte of it (R249). -/
def msgLines (m : Msg) : List (BitVec 1024 × Bool) :=
  (List.range (m.payload.length / 128)).map (fun i =>
    (BitVec.ofNat 1024 (leAt m.payload (128 * i) 128), (msgBad m).any (fun e => decide (e.1 < 128 * i + 128) && decide (128 * i < e.1 + e.2))))

/-- The data of one get of a routed fetch: its shard is set down if its tag is expected; otherwise it is stale (R237). -/
def State.fetchReply (s : State) (o : XOp) (f : Nat × Nat × Nat) (m : Msg) (ls : List Line) : State :=
  let (q, e, shard) := f
  let rt := (s.quad q).rt
  let s' := s.dropOps (·.id == o.id)
  match s.passOf q, rt.fetches.find? (fun f => f.expert == e && decide (shard < f.shards) && !f.done) with
  | some (j, p), some f =>
    if j.id = o.job ∧ rt.expects m.rtag f.half then s'.setShard q p.man.rp f shard o.off ls else s'.staleReply q
  | _, _ => s'.staleReply q

/-- GET_DATA: an exchange-sheet GET writes its destination; a routed fetch sets its shard down if its tag is expected, and is
otherwise stale (R237). -/
def State.getDataReply (s : State) (m : Msg) : State :=
  s.onReply m (fun o s =>
    let st := m.a0.toNat % 256
    if st ≠ DONE then s.opFail o st
    else
      match o.te with
      | some f => s.fetchReply o f m (msgLines m)
      | none => if o.job = 0 then s.opDone o 0 else (s.writeTier0 o.dst m.payload (msgBad m)).opDone o 0)

/-- GET_DATA (R253). -/
def execGetData (p : Nat) (m : Msg) (s : State) : Ans := .next (s.receive p { m with type := 0x82 } (fun s => s.getDataReply { m with type := 0x82 }))

/-- LEND_GRANT: BORROW or RENEW completes (R144); the borrower counts the term from the sending of its request (R146). -/
def State.grantReply (s : State) (m : Msg) : State :=
  s.onReply m (fun o s =>
    let id := m.a0.toNat
    let val := id % 2 ^ 32 + m.a1.toNat % 2 ^ 32 * 2 ^ 32 + m.a2.toNat % 2 ^ 64 * 2 ^ 64
    let s := s.dropOps (·.id == o.id)
    let l : LoanTaken := { id := id, peer := o.peer, tier := bits o.msg.a0.toNat 0 2, size := m.a1.toNat, term := m.a2.toNat, sent := o.sent
                           objs := [], pins := [] }
    if o.kind = 0x08 then
      if s.pool.taken.length ≥ 16 then s.completeOpt o.slot LIMIT 0
      else ({ s with pool := { s.pool with taken := s.pool.taken ++ [l] } } : State).completeOpt o.slot DONE val
    else if s.pool.taken.any (·.id == id) then
      (s.updTaken id (fun x => { x with term := m.a2.toNat, sent := o.sent })).completeOpt o.slot DONE val
    else s.completeOpt o.slot EVICTED 0)

/-- LEND_GRANT (R253). -/
def execLendGrant (p : Nat) (m : Msg) (s : State) : Ans := .next (s.receive p { m with type := 0x84 } (fun s => s.grantReply { m with type := 0x84 }))

/-- ERROR: the operation completes with the status; a contribution refused BUSY is sent again after 10 local µs (R256). -/
def State.errorReply (s : State) (m : Msg) : State :=
  s.onReply m (fun o s =>
    let st := m.a0.toNat % 256
    if o.kind = 0x03 ∧ st = BUSY then
      { s with fab := { s.fab with ops := s.fab.ops.map (fun (k : XOp) => if k.id == o.id then { k with resendAt := some (s.now + 10) } else k) } }
    else
      match o.te with
      -- the object of a routed fetch is not committed at the member: zero data with POISON (R242)
      | some f =>
        if st = EVICTED then s.fetchReply o f m (List.replicate (o.msg.a3.toNat / 128) holeLine) else s.opFail o st
      | none => s.opFail o st)

/-- ERROR (R253). -/
def execError (p : Nat) (m : Msg) (s : State) : Ans := .next (s.receive p { m with type := 0x8F } (fun s => s.errorReply { m with type := 0x8F }))

/-! ### Control (R264, R270, R273) -/

/-- Answer an ANNOUNCE with REQANN, at most once per sender in 10,000 local µs (R264). -/
def State.answerAnn (s : State) (a : Nat) : State :=
  if s.fab.addr.isNone || s.fab.annAt.any (fun e => e.1 == a && decide (s.now < e.2 + 10000)) then s
  else
    let s : State := { s with fab := { s.fab with annAt := (a, s.now) :: s.fab.annAt.filter (·.1 != a) } }
    s.tell a (s.announceMsg false)

/-- ANNOUNCE (R264). -/
def State.announced (s : State) (m : Msg) : State :=
  let a := bits m.a0.toNat 0 14
  let e := bits m.a0.toNat 16 16
  let s :=
    if s.fab.addr = some a then
      if e = s.fab.epoch then
        if m.a1.toNat = s.bt.serial then s
        else (s.bump 0x72 0 6 1).raise 0x22 0xFF (leBytes 2 a ++ leBytes 2 e ++ leBytes 4 0 ++ leBytes 8 m.a1.toNat)
      else if newer e s.fab.epoch then s.fenceSelf
      else (s.bump 0x72 0 4 1).fenceStale a e
    else
      match s.learn a e with
      | some s => s
      | none => (s.bump 0x72 0 4 1).fenceStale a e
  if m.reqann then s.answerAnn a else s

/-- ANNOUNCE (R264). -/
def execAnnounce (p : Nat) (m : Msg) (s : State) : Ans := .next (s.receive p { m with type := 0x10 } (fun s => s.announced { m with type := 0x10 }))

/-- WITHDRAW (R273): the entry goes, operations to it complete with REMOTE_LOST, loans with it end. -/
def State.withdrawn (s : State) (p : Nat) (m : Msg) : State :=
  let a := bits m.a0.toNat 0 14
  let e := bits m.a0.toNat 16 16
  if look s.fab.dir a = some e then
    let s := s.lossEvent p
    let s : State := { s with fab := { s.fab with dir := s.fab.dir.filter (·.1 != a) } }
    ((s.fab.ops.filter (·.peer == a)).foldl (fun s o => if s.fab.ops.any (·.id == o.id) then s.opFail o LOST else s) s).endLoans (· == a)
  else s

/-- WITHDRAW (R273). -/
def execWithdraw (p : Nat) (m : Msg) (s : State) : Ans := .next (s.receive p { m with type := 0x11 } (fun s => s.withdrawn p { m with type := 0x11 }))

/-- FENCE (R270, R271): acted on only when it names this device and its current epoch; in troupe mode the device leaves the
troupe, its troupe job held as for a lost lead. -/
def State.fenced (s : State) (m : Msg) : State :=
  let a := bits m.a0.toNat 0 14
  let e := bits m.a0.toNat 16 16
  if m.troupe then
    if a = s.bt.strap ∧ e = s.fab.troupeEpoch ∧ s.fab.role ≠ .none then s.leadLost else s
  else if s.fab.addr = some a ∧ e = s.fab.epoch then s.fenceSelf
  else s

/-- FENCE (R270). -/
def execFence (p : Nat) (m : Msg) (s : State) : Ans := .next (s.receive p { m with type := 0x12 } (fun s => s.fenced { m with type := 0x12 }))

/-- RECALL (R146): the borrower ends the loan. -/
def State.recalled (s : State) (m : Msg) : State :=
  if s.pool.taken.any (fun l => l.id == m.a0.toNat && l.peer == peerFrom m) then s.endTaken m.a0.toNat else s

/-- RECALL (R146). -/
def execRecall (p : Nat) (m : Msg) (s : State) : Ans := .next (s.receive p { m with type := 0x13 } (fun s => s.recalled { m with type := 0x13 }))

end Sys2Proof.Machine
end

