-- ==== Sys2Proof/Machine/Shake.lean ====
section
/-! DEFINITION. SHAKE256 (FIPS 202), which the calibration page, the settings page and the firmware image carry as their
DIGEST (R343, R385, R387, R403; log 11). -/

namespace Sys2Proof.Machine

/-- Rotation of lane x + 5y. -/
def keccakRot : List Nat :=
  [0, 1, 62, 28, 27, 36, 44, 6, 55, 20, 3, 10, 43, 25, 39, 41, 45, 15, 21, 8, 18, 2, 61, 56, 14]

/-- Round constants. -/
def keccakRc : List (BitVec 64) :=
  [0x0000000000000001#64, 0x0000000000008082#64, 0x800000000000808A#64, 0x8000000080008000#64, 0x000000000000808B#64, 0x0000000080000001#64,
   0x8000000080008081#64, 0x8000000000008009#64, 0x000000000000008A#64, 0x0000000000000088#64, 0x0000000080008009#64, 0x000000008000000A#64,
   0x000000008000808B#64, 0x800000000000008B#64, 0x8000000000008089#64, 0x8000000000008003#64, 0x8000000000008002#64, 0x8000000000000080#64,
   0x000000000000800A#64, 0x800000008000000A#64, 0x8000000080008081#64, 0x8000000000008080#64, 0x0000000080000001#64, 0x8000000080008008#64]

/-- One round on 25 lanes. -/
def keccakRound (a : List (BitVec 64)) (rc : BitVec 64) : List (BitVec 64) :=
  let at_ (l : List (BitVec 64)) (i : Nat) : BitVec 64 := l.getD i 0
  let c := (List.range 5).map (fun x => at_ a x ^^^ at_ a (x + 5) ^^^ at_ a (x + 10) ^^^ at_ a (x + 15) ^^^ at_ a (x + 20))
  let d := (List.range 5).map (fun x => at_ c ((x + 4) % 5) ^^^ (at_ c ((x + 1) % 5)).rotateLeft 1)
  let a := (List.range 25).map (fun i => at_ a i ^^^ at_ d (i % 5))
  let b := (List.range 25).map (fun i =>
    let j := (i % 5 + 3 * (i / 5)) % 5 + 5 * (i % 5)
    (at_ a j).rotateLeft (keccakRot.getD j 0))
  (List.range 25).map (fun i =>
    let y := i / 5 * 5
    let v := at_ b i ^^^ (~~~ at_ b (y + (i + 1) % 5) &&& at_ b (y + (i + 2) % 5))
    if i = 0 then v ^^^ rc else v)

/-- Keccak-f[1600]. -/
def keccakF (a : List (BitVec 64)) : List (BitVec 64) := keccakRc.foldl keccakRound a

/-- XOR a block of 136 bytes into the state. -/
def keccakXor (a : List (BitVec 64)) (block : List Byte) : List (BitVec 64) :=
  (List.zipIdx a).map (fun (v, i) => if i < 17 then v ^^^ BitVec.ofNat 64 (leAt block (8 * i) 8) else v)

/-- Absorb a message; the last block is padded. -/
def keccakAbsorb : Nat → List (BitVec 64) → List Byte → List (BitVec 64)
  | 0, a, _ => a
  | fuel + 1, a, m =>
    if m.length < 136 then
      let pad := if m.length = 135 then [0x9F#8] else [0x1F#8] ++ List.replicate (134 - m.length) 0 ++ [0x80#8]
      keccakF (keccakXor a (m ++ pad))
    else keccakAbsorb fuel (keccakF (keccakXor a (m.take 136))) (m.drop 136)

/-- The first n bytes of SHAKE256, n at most 136. -/
def shake256 (m : List Byte) (n : Nat) : List Byte :=
  ((keccakAbsorb (m.length / 136 + 1) (List.replicate 25 0) m).flatMap (fun v => leBytes 8 v.toNat)).take n

end Sys2Proof.Machine
end

