-- ==== Sys2Proof/Machine/Flash.lean ====
section
/-! DEFINITION. Module flash (R343 to R346, R384 to R386): the calibration page, the settings page, and their programming. -/

namespace Sys2Proof.Machine

open Config

/-- Bytes of a flash region of n bytes; what is not written is erased and reads 0xFF (log 20). -/
def flashBytes (bs : List Byte) (n : Nat) : List Byte := (bs ++ List.replicate (n - bs.length) 0xFF#8).take n

/-- A run of zero bytes. -/
def zeroAt (bs : List Byte) (off n : Nat) : Bool := ((bs.drop off).take n).all (· == 0)

/-! ### The settings page (R385, R386) -/

/-- The fields of a page. -/
def settingsOf (bs : List Byte) : Settings :=
  { format := leAt bs 4 2, pers := leAt bs 8 1, plan := leAt bs 9 1, lease := leAt bs 0x0C 4, up := leAt bs 0x10 2, down := leAt bs 0x12 2
    emerg := leAt bs 0x14 2, floor := leAt bs 0x16 2, darkWait := leAt bs 0x18 4, closed := leAt bs 0x1C 4, mgmtCap := leAt bs 0x20 2 }

/-- A value lies in a range. -/
def within (v lo hi : Nat) : Bool := decide (lo ≤ v) && decide (v ≤ hi)

/-- Every field lies within the table of R385. -/
def Settings.ok (x : Settings) : Bool :=
  decide (x.pers ≤ 1) && decide (x.plan ≤ 5) && within x.lease 10000 60000000 && within x.up 10 100 && within x.down 10 100 &&
  within x.emerg 50 250 && decide (x.floor ≤ 500) && (within x.darkWait 1 (2 ^ 31) || x.darkWait == 0xFFFFFFFF) &&
  decide (x.closed < 2 ^ 18) && (x.mgmtCap == 0 || within x.mgmtCap 1000 3600)

/-- A page is valid (R386). -/
def settingsOk (bs : List Byte) : Bool :=
  decide (bs.length = 4096) && leAt bs 0 4 == 0x54455353 && zeroAt bs 6 2 && zeroAt bs 0x0A 2 && zeroAt bs 0x22 4030 &&
  (settingsOf bs).ok && bs.drop 0xFE0 == shake256 (bs.take 0xFE0) 32

/-- The 4,096 bytes of a page. -/
def Settings.bytes (x : Settings) : List Byte :=
  let body := leBytes 4 0x54455353 ++ leBytes 2 x.format ++ leBytes 2 0 ++ leBytes 1 x.pers ++ leBytes 1 x.plan ++ leBytes 2 0 ++
    leBytes 4 x.lease ++ leBytes 2 x.up ++ leBytes 2 x.down ++ leBytes 2 x.emerg ++ leBytes 2 x.floor ++ leBytes 4 x.darkWait ++
    leBytes 4 x.closed ++ leBytes 2 x.mgmtCap ++ List.replicate 4030 0#8
  body ++ shake256 body 32

/-- The settings a page gives: its own when it is valid, else every default (R386). -/
def settingsIn (bs : List Byte) : Settings := if settingsOk bs then settingsOf bs else Settings.defaults

/-- The settings page as it will stand once the programming asked for so far is done. -/
def Boot.nextSettings (b : Boot) : Settings :=
  match (b.flashOps.filter (fun o => !o.calib)).getLast? with
  | some o => settingsIn o.page
  | none => settingsIn b.setPage

/-- A flash programming is in progress. -/
def Boot.programming (b : Boot) : Bool := b.flashOps.any (·.began)

/-- Ask for a settings page to be programmed; it begins at once unless another programming is in progress. -/
def State.queuePage (s : State) (page : List Byte) (slot : Option (Nat × Nat)) (val : Nat) : State :=
  { s with bt := { s.bt with flashOps := s.bt.flashOps ++
      [{ calib := false, page := page, slot := slot, began := !s.bt.programming, val := val }] } }

/-- Ask for a change of settings to be programmed. -/
def State.queueSettings (s : State) (slot : Option (Nat × Nat)) (val : Nat) (g : Settings → Settings) : State :=
  s.queuePage (g s.bt.nextSettings).bytes slot val

/-! ### The calibration page (R343, R344) -/

/-- Entry i of row q of the voltage table: VDD_ARRAY and VDD_SRAM in mV, and the reserved byte. -/
def vtab (bs : List Byte) (q i : Nat) : Nat × Nat × Nat :=
  let w := leAt bs (0x10 + 100 * q + 4 * i) 4
  (bits w 0 12, bits w 12 12, bits w 24 8)

/-- One entry keeps R344. -/
def vtabOk (bs : List Byte) (q i : Nat) : Bool :=
  let (a, r, z) := vtab bs q i
  let before := if i = 0 then (900, 900, 0) else vtab bs q (i - 1)
  within a 550 900 && within r 550 900 && z == 0 && decide (a ≤ before.1) && decide (r ≤ before.2.1)

/-- The page offset of the first field found wrong under R344, in page order. -/
def calBad (bs : List Byte) (serial : Nat) : Option Nat :=
  if leAt bs 0 4 ≠ 0x4C414353 then some 0
  else if leAt bs 4 2 ≠ 1 then some 4
  else if !zeroAt bs 6 2 then some 6
  else if leAt bs 8 8 ≠ serial then some 8
  else
    match (List.range 100).find? (fun k => !vtabOk bs (k / 25) (k % 25)) with
    | some k => some (0x10 + 4 * k)
    | none =>
      if !zeroAt bs 0x1A0 96 then some 0x1A0
      else
        match (List.range 80).find? (fun k => let v := sext (leAt bs (0x200 + 2 * k) 2) 16; !(decide (-256 ≤ v) && decide (v ≤ 256))) with
        | some k => some (0x200 + 2 * k)
        | none =>
          if !zeroAt bs 0x2A0 352 then some 0x2A0
          else if !zeroAt bs 0x6200 40416 then some 0x6200
          else if (bs.drop 0xFFE0).take 32 ≠ shake256 (bs.take 0xFFE0) 32 then some 0xFFE0
          else none

/-- A calibration page is valid for a module serial. -/
def calOk (bs : List Byte) (serial : Nat) : Bool := decide (bs.length = 65536) && (calBad bs serial).isNone

/-- The voltages of quadrant q at ADIV (twice its value): the table's, or the house default (R342, R344). -/
def Boot.volts (b : Boot) (q adiv2 : Nat) : Nat × Nat :=
  if b.calValid then (let v := vtab b.calAtBoot q (adiv2 - 8); (v.1, v.2.1)) else (850, 850)

/-! ### Commands (R345, R346) -/

/-- CALIBRATION_READ's own rule. -/
def State.calReadRule (p : Pkt) (s : State) : State × Rep :=
  let len := p.at 0x48 4
  let bs := flashBytes s.bt.calPage 65536
  if p.at 0x40 8 % 8 ≠ 0 then (s, .bad 0x40)
  else if len < 8 ∨ len > 65536 then (s, .bad 0x48)
  else s.report p 0x40 (p.at 0x40 8) len bs ((if s.bt.calValid then 2 ^ 64 else 0) + (if calOk bs s.bt.serial then 2 ^ 65 else 0))

/-- CALIBRATION_READ (R345). -/
def execCalibrationRead (f slot : Nat) (s : State) : Ans := .next (s.command f slot 0x0703 State.calReadRule)

/-- A calibration page that has passed its check waits to be programmed (R346 step 2). -/
def State.queueCal (s : State) (page : List Byte) (slot : Option (Nat × Nat)) : State :=
  { s with bt := { s.bt with flashOps := s.bt.flashOps ++ [{ calib := true, page := page, slot := slot, began := false, val := 0 }] } }

/-- CALIBRATION_WRITE's own rule. -/
def State.calWriteRule (h : HostView) (p : Pkt) (s : State) : State × Rep :=
  let s := s.withHost h
  let a := p.at 0x40 8
  if a % 128 ≠ 0 ∨ !isHost a then (s, .bad 0x40)
  else if !s.reachable p.f a 65536 false then (s.bump 0x01 p.f 9 1, .bad 0x40)
  else if s.bt.flashOps.any (·.calib) then (s, .fin BUSY 0)
  else
    let ((bs, _), s) := s.dmaRead p.f a 65536 false
    match calBad bs s.bt.serial with
    | some off => (s, .bad (0xFFFF + off * 65536))
    | none => (s.queueCal bs (some (p.f, p.n)), .later)

/-- CALIBRATION_WRITE (R346). -/
def execCalibrationWrite (f slot : Nat) (h : HostView) (s : State) : Ans := .next (s.command f slot 0x0704 (State.calWriteRule h))

/-- CALIBRATION_PROGRAM (R346 steps 2 and 3): once the power state has been normal for 1,000 local µs the page is erased. -/
def execCalibrationProgram (s : State) : Ans :=
  .next (
    if s.isOn && s.normal1000 && !s.bt.programming && s.bt.act != .loading && s.bt.flashOps.any (·.calib) then
      { s with bt := { s.bt with
          flashOps := s.bt.flashOps.map (fun (o : FlashOp) => if o.calib then { o with began := true } else o)
          calPage := [] } }
    else s)

/-- The first programming in progress. -/
def Boot.current (b : Boot) : Option FlashOp := b.flashOps.find? (·.began)

/-- FLASH_OPERATION_COMPLETE (R346 step 4, R384): the page is in flash and the command that started it completes; the next
settings page begins. -/
def execFlashOperationComplete (s : State) : Ans :=
  .next (
    match s.bt.current with
    | none => s
    | some o =>
      if !s.isOn then s
      else
        let rest := s.bt.flashOps.erase o
        let next := rest.findIdx (fun k => !k.calib)
        let s : State := { s with bt := { s.bt with
          calPage := if o.calib then o.page else s.bt.calPage
          setPage := if o.calib then s.bt.setPage else o.page
          flashOps := rest.modify next (fun (k : FlashOp) => { k with began := true }) } }
        s.completeOpt o.slot DONE o.val)

end Sys2Proof.Machine
end

