-- ==== Sys2Proof/Machine/Troupe.lean ====
section
/-! DEFINITION. Fabric commands and troupes (R248, R259 to R267, R272): the plan, formation, the lead's control messages and what a
member does with them. -/

namespace Sys2Proof.Machine

open Config

/-! ### LINK_PLAN, DISCOVER, SLICE_SET, ROUTE_SET, EPOCH_QUERY -/

/-- LINK_PLAN's own rule. -/
def State.linkPlanRule (p : Pkt) (s : State) : State × Rep :=
  let plan := p.at 0x40 1
  if plan > 5 then (s, .bad 0x40)
  else (s.queueSettings (some (p.f, p.n)) (s.fab.plan + plan * 2 ^ 8) (fun x => { x with plan := plan }), .later)

/-- LINK_PLAN (R248). -/
def execLinkPlan (f slot : Nat) (s : State) : Ans := .next (s.command f slot 0x0601 State.linkPlanRule)

/-- DISCOVER's own rule (R263): address and epoch, an empty directory, no fence, and an ANNOUNCE with REQANN. -/
def State.discoverRule (p : Pkt) (s : State) : State × Rep :=
  let a := p.at 0x40 2
  let e := p.at 0x42 2
  if a > 16383 then (s, .bad 0x40)
  else if e = 0 then (s, .bad 0x42)
  else if siblings s.fab.plan = 18 then (s, .bad 0xFFFF)
  else if s.upLinks.isEmpty then (s, .fin NOTREADY 0)
  else
    let was := s.fab.fenced
    let s := s.endLoans (fun peer => !isPos peer)
    let s : State := { s with fab := { s.fab with addr := some a, epoch := e, dir := [], fenced := false } }
    let s := if was then s.setRdy 44 true else s
    (s.broadcast (s.announceMsg true), .fin DONE 0)

/-- DISCOVER (R263). -/
def execDiscover (f slot : Nat) (s : State) : Ans := .next (s.command f slot 0x0603 State.discoverRule)

/-- Close a port at once (R272): its link is dropped, and what it had not delivered leaves by another port if one serves. -/
def State.closePort (s : State) (p : Nat) : State :=
  if (s.port p).st == .closed then s
  else
    let old := (s.port p).replay
    let s := (s.leaveUp p .closed).updPort p (fun x => { x with replay := [], openMsg := false, replays := 0, nak := false })
    old.foldl (fun s e => match s.otherPort e.2 with | some k => s.emit k e.2 | none => s) s

/-- Open a closed port: it trains (R272). -/
def State.openPort (s : State) (p : Nat) : State :=
  if (s.port p).st == .closed then s.updPort p (fun x => { x with st := .training, since := s.now }) else s

/-- A job that keeps a device from changing its slice or its troupe: running, held or queued, or between those. -/
def State.busyJobs (s : State) : Bool := s.sv.jobs.any (fun j => j.st != .struck)

/-- SLICE_SET's own rule. -/
def State.sliceSetRule (p : Pkt) (s : State) : State × Rep :=
  let ports := maskList (bits (p.at 0x40 4) 0 18) 18
  let act := p.at 0x44 1
  if act > 1 then (s, .bad 0x44)
  else if s.busyJobs || !s.pool.given.isEmpty || !s.pool.taken.isEmpty ||
      (s.fab.role != .none && ports.any (fun q => s.isSibling q)) then (s, .fin BUSY 0)
  else
    let s := ports.foldl (fun s q => if act = 0 then s.closePort q else s.openPort q) s
    let mask := (List.range 18).foldl (fun n q => if (if ports.contains q then act == 0 else s.fab.closed.testBit q) then n + 2 ^ q else n) 0
    let s : State := { s with fab := { s.fab with closed := mask } }
    if (p.at 0x45 1).testBit 0 then (s.queueSettings (some (p.f, p.n)) 0 (fun x => { x with closed := mask }), .later)
    else (s, .fin DONE 0)

/-- SLICE_SET (R272). -/
def execSliceSet (f slot : Nat) (s : State) : Ans := .next (s.command f slot 0x0604 State.sliceSetRule)

/-- A routing-table entry that R265 allows under the plan in force. -/
def State.routeOk (s : State) (e : BitVec 64) : Bool :=
  decide (bits e.toNat 14 4 ≤ 14) && (List.range 18).all (fun p => !e.getLsbD (18 + p) || !s.isSibling p)

/-- ROUTE_SET's own rule: the named entries are replaced together; reserved bits read as 0. -/
def State.routeSetRule (h : HostView) (p : Pkt) (s : State) : State × Rep :=
  let s := s.withHost h
  let first := p.at 0x40 1
  let count := p.at 0x42 2
  let a := p.at 0x48 8
  if count < 1 ∨ first + count > 256 then (s, .bad 0x42)
  else if a % 8 ≠ 0 ∨ !isHost a then (s, .bad 0x48)
  else if !s.reachable p.f a (8 * count) false then (s.bump 0x01 p.f 9 1, .bad 0x48)
  else
    let ((bs, _), s) := s.dmaRead p.f a (8 * count) false
    let es := (List.range count).map (fun i => BitVec.ofNat 64 (leAt bs (8 * i) 8 % 2 ^ 37))
    if es.all s.routeOk then
      ({ s with fab := { s.fab with routes := s.fab.routes.take first ++ es ++ s.fab.routes.drop (first + count) } }, .fin DONE 0)
    else (s, .bad 0x48)

/-- ROUTE_SET (R265). -/
def execRouteSet (f slot : Nat) (h : HostView) (s : State) : Ans := .next (s.command f slot 0x0605 (State.routeSetRule h))

/-- Role codes of R267. -/
def Role.code : Role → Nat
  | .none => 0
  | .lead => 1
  | .member => 2

/-- VAL of EPOCH_QUERY (R267). -/
def State.epochVal (s : State) : Nat :=
  let m (g : Port → Bool) : Nat := (List.range 18).foldl (fun n p => if g (s.port p) then n + 2 ^ p else n) 0
  s.fab.addr.getD 0 % 2 ^ 14 + (if s.fab.addr.isSome then 2 ^ 14 else 0) + (if s.fab.fenced then 2 ^ 15 else 0) + s.fab.epoch % 2 ^ 16 * 2 ^ 16 +
  s.fab.troupeEpoch % 2 ^ 16 * 2 ^ 32 + s.bt.strap % 8 * 2 ^ 48 + s.fab.lead % 8 * 2 ^ 51 + s.fab.role.code * 2 ^ 54 +
  m (fun x => x.st == .up) * 2 ^ 56 + m (fun x => x.st == .up && x.half) * 2 ^ 74

/-- The directory as EPOCH_QUERY writes it. -/
def State.dirBytes (s : State) : List Byte := s.fab.dir.flatMap (fun (a, e) => leBytes 4 (a % 2 ^ 14 + e % 2 ^ 16 * 2 ^ 14))

/-- EPOCH_QUERY's own rule. -/
def State.epochQueryRule (p : Pkt) (s : State) : State × Rep :=
  let a := p.at 0x40 8
  if a = 0 then (s, .fin DONE s.epochVal)
  else
    match s.report p 0x40 a (p.at 0x48 4 / 4 * 4) s.dirBytes 0 with
    | (s, .fin _ _) => (s, .fin DONE s.epochVal)
    | r => r

/-- EPOCH_QUERY (R267). -/
def execEpochQuery (f slot : Nat) (s : State) : Ans := .next (s.command f slot 0x0606 State.epochQueryRule)

/-! ### Formation (R260) -/

/-- The epoch to propose: one above the highest seen, skipping 0. -/
def State.nextTroupeEpoch (s : State) : Nat := nextEpoch s.fab.seenEpoch

/-- Remember the highest troupe epoch seen. -/
def State.sawEpoch (s : State) (e : Nat) : State :=
  if newer e s.fab.seenEpoch then { s with fab := { s.fab with seenEpoch := e } } else s

/-- A formation message: the epoch in A1, MASK or a status beside the subtype. -/
def formMsg (sub a0 epoch : Nat) : Msg := troupeMsg sub a0 epoch 0 0

/-- Take a troupe: epoch, mask, lead and role. -/
def State.joinTroupe (s : State) (mask epoch : Nat) : State :=
  let lead := ((maskList mask 8).head?).getD 0
  let s := s.sawEpoch epoch
  { s with fab := { s.fab with troupeEpoch := epoch, mask := mask, lead := lead, role := if lead = s.bt.strap then .lead else .member } }

/-- The proposal ends: its own command completes with a status and VAL. -/
def State.endForming (s : State) (status val : Nat) : State :=
  match s.fab.forming with
  | none => s
  | some g => ({ s with fab := { s.fab with forming := none } } : State).completeOpt g.slot status val

/-- VAL of a formation's DONE. -/
def State.formVal (s : State) : Nat := s.fab.lead + s.fab.troupeEpoch * 2 ^ 16

/-- Every other member of the formation has answered, or of a dissolving troupe has left or been lost. -/
def State.settleForming (s : State) : State :=
  match s.fab.forming with
  | none => s
  | some g =>
    let others := (maskList g.mask 8).filter (· ≠ s.bt.strap)
    if g.proposer.isSome then s
    else if g.dissolve then
      if others.all (fun q => g.answered.testBit q || !s.fab.mask.testBit q) then s.leaveTroupe.endForming DONE 0 else s
    else if others.all (fun q => g.answered.testBit q) then
      let s := others.foldl (fun s q => s.tell (peerOf q) (formMsg 0x04 g.mask g.epoch)) s
      let s := s.joinTroupe g.mask g.epoch
      s.endForming DONE s.formVal
    else s

/-- TROUPE_FORM's own rule. -/
def State.troupeFormRule (p : Pkt) (s : State) : State × Rep :=
  let mask := p.at 0x40 1
  let others := (maskList mask 8).filter (· ≠ s.bt.strap)
  if s.fab.fenced then (s, .fin FENCED 0)
  else if mask = 0 then
    match s.fab.role with
    | .none => (s, .fin DONE 0)
    | .member => if s.busyJobs then (s, .fin BUSY 0) else (s.leaveTroupe, .fin DONE 0)
    | .lead =>
      if s.busyJobs || s.fab.forming.isSome then (s, .fin BUSY 0)
      else
        let gone := (maskList s.fab.mask 8).filter (· ≠ s.bt.strap)
        let s := gone.foldl (fun s q => s.tell (peerOf q) (formMsg 0x05 0 s.fab.troupeEpoch)) s
        let s : State := { s with fab := { s.fab with forming := some {
          mask := s.fab.mask, epoch := s.fab.troupeEpoch, since := s.now, answered := 0, proposer := none, slot := some (p.f, p.n), dissolve := true } } }
        (s.settleForming, .later)
  else if !mask.testBit s.bt.strap || decide (popCount mask 8 < 2) || !(s.portsTo s.bt.strap).isEmpty then (s, .bad 0x40)
  else if others.any (fun q => (s.portsTo q).isEmpty) then (s, .fin NOTREADY 0)
  else if !s.sv.jobs.isEmpty || s.fab.forming.isSome then (s, .fin BUSY 0)
  else
    let e := s.nextTroupeEpoch
    let s := s.sawEpoch e
    let s := others.foldl (fun s q => s.tell (peerOf q) (formMsg 0x01 mask e)) s
    ({ s with fab := { s.fab with forming := some {
        mask := mask, epoch := e, since := s.now, answered := 0, proposer := none, slot := some (p.f, p.n), dissolve := false } } }, .later)

/-- TROUPE_FORM (R260). -/
def execTroupeForm (f slot : Nat) (s : State) : Ans := .next (s.command f slot 0x0602 State.troupeFormRule)

/-- A TROUPE message with its subtype, as a row receives it. -/
def asTroupe (m : Msg) (sub : Nat) : Msg := { m with type := 0x14, troupe := true, a0 := arg (m.a0.toNat / 256 * 256 + sub) }

/-- The value beside the subtype. -/
def tval (m : Msg) : Nat := m.a0.toNat / 256

/-- Receive a TROUPE message of a subtype. -/
def State.onTroupe (s : State) (p : Nat) (m : Msg) (sub : Nat) (act : Msg → State → State) : State :=
  s.receive p (asTroupe m sub) (act (asTroupe m sub))

/-- FORM at a member (R260 step 3): ACCEPT, or REFUSE with BUSY. Of two proposals with the same MASK the lower position's wins. -/
def State.formed (s : State) (m : Msg) : State :=
  let src := m.src % 8
  let mask := tval m % 256
  let e := m.a1.toNat % 65536
  let s := s.sawEpoch e
  let yes (s : State) (g : Forming) : State := ({ s with fab := { s.fab with forming := some g } } : State).tell (peerOf src) (formMsg 0x02 DONE e)
  let no (s : State) : State := s.tell (peerOf src) (formMsg 0x03 BUSY e)
  let fresh : Forming := { mask := mask, epoch := e, since := s.now, answered := 0, proposer := some src, slot := none, dissolve := false }
  if !s.sv.jobs.isEmpty then no s
  else
    match s.fab.forming with
    | none => yes s fresh
    | some g =>
      if g.mask ≠ mask ∨ g.dissolve then s.tell (peerOf src) (formMsg 0x02 DONE e)
      else
        match g.proposer with
        | some q => if q = src then yes s { fresh with slot := g.slot } else no s
        | none => if src < s.bt.strap then yes s { fresh with slot := g.slot } else no s

/-- FORM (R260, R262). -/
def execForm (p : Nat) (m : Msg) (s : State) : Ans := .next (s.onTroupe p m 0x01 (fun m s => s.formed m))

/-- COMMIT (R260 step 4). -/
def State.committed (s : State) (m : Msg) : State :=
  let mask := tval m % 256
  if mask.testBit s.bt.strap && mask.testBit (m.src % 8) then
    let s := s.joinTroupe mask (m.a1.toNat % 65536)
    match s.fab.forming with
    | some g => if g.proposer = some (m.src % 8) then s.endForming DONE s.formVal else s
    | none => s
  else s

/-- COMMIT (R260, R262). -/
def execCommit (p : Nat) (m : Msg) (s : State) : Ans := .next (s.onTroupe p m 0x04 (fun m s => s.committed m))

/-- TROUPE_FORM_TIMEOUT (R260): 10,000 local µs without every answer, or at a device that has accepted, without the COMMIT. -/
def execTroupeFormTimeout (s : State) : Ans :=
  .next (
    match s.fab.forming with
    | none => s
    | some g => if s.isOn && !g.dissolve && decide (g.since + 10000 ≤ s.now) then s.endForming LOST 0 else s)

/-- DISSOLVE at a member: it leaves unless it holds a job (R260). -/
def State.dissolved (s : State) (m : Msg) : State :=
  let src := m.src % 8
  if s.fab.role != .member || s.fab.lead ≠ src then s
  else if s.busyJobs then s.tell (peerOf src) (formMsg 0x03 BUSY s.fab.troupeEpoch)
  else (s.tell (peerOf src) (formMsg 0x02 DONE s.fab.troupeEpoch)).leaveTroupe

/-- DISSOLVE (R260, R262). -/
def execDissolve (p : Nat) (m : Msg) (s : State) : Ans := .next (s.onTroupe p m 0x05 (fun m s => s.dissolved m))

/-! ### Answers (R260, R332) -/

/-- The lead gives a troupe-wide pre-emption up: a member had no space (R332 step 1). -/
def State.giveUpPreempt (s : State) (j : Job) : State :=
  let s := s.tellMembers j (troupeMsg 0x15 2 j.id 0 0)
  let s := s.completeOpt j.preSlot NOSPACE 0
  let s := s.dropImages j
  let s := s.updJob j.id (fun j => { j with preSlot := none, preAsked := false, preKeep := false, images := [0, 0, 0, 0], record := 0, ends := [] })
  (s.jobTo j.id .running).toCompose j.id

/-- ACCEPT: of a formation or dissolution (A1 its epoch), or of a pre-emption (A2 the job): first its reservation, then its strike. -/
def State.accepted (s : State) (m : Msg) : State :=
  let src := m.src % 8
  match s.job? m.a2.toNat with
  | some j =>
    if j.st != .preempting || s.fab.role != .lead then s
    else if j.ends.contains src then
      s.updJob j.id (fun j => { j with ends := j.ends ++ [src + 8], abandoned := j.abandoned + m.a3.toNat })
    else s.updJob j.id (fun j => { j with ends := j.ends ++ [src] })
  | none =>
    match s.fab.forming with
    | some g =>
      if g.proposer.isNone && g.epoch == m.a1.toNat % 65536 && g.mask.testBit src then
        ({ s with fab := { s.fab with forming := some { g with answered := g.answered ||| 2 ^ src } } } : State).settleForming
      else s
    | none => s

/-- ACCEPT (R260, R262). -/
def execAccept (p : Nat) (m : Msg) (s : State) : Ans := .next (s.onTroupe p m 0x02 (fun m s => s.accepted m))

/-- REFUSE: a formation completes with BUSY; a pre-emption is given up. -/
def State.refused (s : State) (m : Msg) : State :=
  match s.job? m.a2.toNat with
  | some j => if j.st == .preempting && s.fab.role == .lead then s.giveUpPreempt j else s
  | none =>
    match s.fab.forming with
    | some g => if g.proposer.isNone && g.epoch == m.a1.toNat % 65536 && g.mask.testBit (m.src % 8) then s.endForming BUSY 0 else s
    | none => s

/-- REFUSE (R260, R262). -/
def execRefuse (p : Nat) (m : Msg) (s : State) : Ans := .next (s.onTroupe p m 0x03 (fun m s => s.refused m))

/-! ### The lead's control of a job (R262) -/

/-- Members obey only their lead. -/
def State.fromLead (s : State) (m : Msg) : Bool := s.fab.role == .member && decide (s.fab.lead = m.src % 8)

/-- A member adopts the lead's expert generation (R236); a new value is a bump seen (R243). -/
def State.adoptGen (s : State) (g : Nat) : State :=
  let s' : State := { s with sv := { s.sv with gen := g % 65536, bumps := 0 } }
  if g % 65536 = s.sv.gen then s' else (List.range 4).foldl (fun s q => s.bump 0x62 q 9 1) s'

/-- A troupe-wide job as JOBSTART describes it, at a member (log 15). -/
def State.memberJob (s : State) (m : Msg) : Job :=
  let w := m.a2.toNat
  { id := m.a1.toNat % 2 ^ 32, f := 0, slot := 256, prod := bits w 0 16, client := 0, latency := false, shape := bits w 24 8, members := bits w 16 8
    st := .running, started := true, kept := false, reason := 0, steps := 0, inStep := false, poisonRecs := 0, reqsEnded := 0, discards := 0
    since := s.now, ranFrom := s.now, endSlots := [], preSlot := none, preKeep := false, preHold := 0, preAsked := false, preAt := 0
    abandoned := 0, resumeSlot := none, images := [0, 0, 0, 0], record := 0, unstarted := [], xpend := [], quadImg := [], xctrs := []
    biases := [], eloads := [], passes := 0, gen := m.a3.toNat % 65536, ends := [], sheets := 0, mark := none, fin := [], toldEnd := none }

/-- JOBSTART at a member: the job runs here too. -/
def State.jobStarted (s : State) (m : Msg) : State :=
  let j := s.memberJob m
  if !s.fromLead m || s.sv.jobs.any (·.id == j.id) then s
  else
    let s : State := { s with sv := { s.sv with jobs := s.sv.jobs ++ [j], nextJob := max s.sv.nextJob (j.id + 1) } }
    (s.adoptGen j.gen).startLocal j.id

/-- JOBSTART (R262). -/
def execJobstart (p : Nat) (m : Msg) (s : State) : Ans := .next (s.onTroupe p m 0x10 (fun m s => s.jobStarted m))

/-- STEP at a member: exchange counters are cleared and the step begins with the rows sent (R255, R262). -/
def State.stepSent (s : State) (m : Msg) : State :=
  let jid := bits m.a1.toNat 0 32
  let step := bits m.a1.toNat 32 32
  match s.job? jid with
  | none => s
  | some j =>
    if !s.fromLead m || j.st != .running || j.inStep then s
    else
      let s : State := { s with fab := { s.fab with ctrs := List.replicate 64 0 } }
      let s := s.updJob jid (fun j => { j with steps := step - 1 })
      s.beginStep jid ((List.range 4).map (fun q => bits m.a2.toNat (16 * q) 16))

/-- STEP (R262). -/
def execStep (p : Nat) (m : Msg) (s : State) : Ans := .next (s.onTroupe p m 0x11 (fun m s => s.stepSent m))

/-- The 4-byte values of a payload. -/
def payloadWords (m : Msg) : List Nat := (List.range (m.payload.length / 4)).map (fun i => leAt m.payload (4 * i) 4)

/-- STEPEND at the lead: loads and poison counts are added, and the boundary comes when every member has reported (R24, R239). -/
def State.stepReported (s : State) (m : Msg) : State :=
  let jid := bits m.a1.toNat 0 32
  let src := m.src % 8
  match s.job? jid, s.manOf jid with
  | some j, some man =>
    if s.fab.role != .lead || j.st != .running || !j.inStep || !j.members.testBit src || j.ends.contains src ||
        decide (bits m.a1.toNat 32 32 ≠ j.steps + 1) then s
    else
      let s := s.updJob jid (fun x => { x with ends := x.ends ++ [src], eloads := addLoads x.eloads (payloadWords m)
                                               poisonRecs := x.poisonRecs + m.a2.toNat })
      if (maskList j.members 8).all (fun q => q == src || j.ends.contains q) then s.finishStep jid man else s
  | _, _ => s

/-- STEPEND (R262). -/
def execStepend (p : Nat) (m : Msg) (s : State) : Ans := .next (s.onTroupe p m 0x12 (fun m s => s.stepReported m))

/-- BIAS at a member: every quadrant and member of a job uses the same biases (R238, R239). -/
def State.biasSent (s : State) (m : Msg) : State :=
  if s.fromLead m then s.updJob (m.a1.toNat % 2 ^ 32) (fun j => { j with biases := (payloadWords m).map (BitVec.ofNat 32), eloads := [] }) else s

/-- BIAS (R262). -/
def execBias (p : Nat) (m : Msg) (s : State) : Ans := .next (s.onTroupe p m 0x13 (fun m s => s.biasSent m))

/-- JOBEND at a member: the job ends with the lead's status and generation. -/
def State.jobEnded (s : State) (m : Msg) : State :=
  if s.fromLead m then (s.endJob (m.a1.toNat % 2 ^ 32) (tval m % 256)).adoptGen m.a2.toNat else s

/-- JOBEND (R262). -/
def execJobend (p : Nat) (m : Msg) (s : State) : Ans := .next (s.onTroupe p m 0x14 (fun m s => s.jobEnded m))

/-- PREEMPT at a member: strike (0), set (1), or run on (2), with the lead's generation (R332, R334). -/
def State.preemptSent (s : State) (m : Msg) : State :=
  let jid := m.a1.toNat % 2 ^ 32
  match s.job? jid with
  | none => s
  | some j =>
    if !s.fromLead m then s
    else
      match tval m % 256, j.st with
      | 0, .running =>
        let s := (s.adoptGen m.a2.toNat).beginPreempt jid
        let went : Bool := match s.job? jid with | some k => k.st == .preempting | none => false
        s.tell (peerOf s.fab.lead) (troupeMsg (if went then 0x02 else 0x03) (if went then DONE else NOSPACE) 0 jid 0)
      | 1, .struck => (s.adoptGen m.a2.toNat).setLocal jid (m.a2.toNat % 65536)
      | 2, .setting => s.finishSet j
      | 2, .struck =>
        let s := s.setLocal jid s.sv.gen
        (match s.job? jid with | some k => s.finishSet k | none => s)
      | 2, .preempting =>
        ((s.dropImages j).updJob jid (fun j => { j with images := [0, 0, 0, 0], record := 0 })).jobTo jid .running
      | _, _ => s

/-- PREEMPT (R262). -/
def execPreempt (p : Nat) (m : Msg) (s : State) : Ans := .next (s.onTroupe p m 0x15 (fun m s => s.preemptSent m))

end Sys2Proof.Machine
end

