-- ==== Sys2Proof/Machine/Exchange.lean ====
section
/-! DEFINITION. The exchange engine (R17, R22, R254, R255, R257): exchange-sheet entries, messages held back, and its reset. -/

namespace Sys2Proof.Machine

open Config

/-! ### Entries (R257) -/

def XEnt.op (e : XEnt) : Nat := e.field 0x00 1
def XEnt.len (e : XEnt) : Nat := e.field 0x20 4
def XEnt.loc (e : XEnt) : Nat := e.field 0x08 8
def XEnt.remote (e : XEnt) : Nat := e.field 0x10 8
def XEnt.roff (e : XEnt) : Nat := bits (e.field 0x18 8) 0 48
def XEnt.rtier (e : XEnt) : Nat := bits (e.field 0x18 8) 48 2
def XEnt.rcopy (e : XEnt) : Nat := bits (e.field 0x18 8) 50 2

/-- The wait before an entry holds. -/
def State.xwaits (s : State) (e : XEnt) : Bool :=
  let v : Int := sext (e.field 0x30 8) 64
  if e.field 0x26 1 = 1 then decide (v ≤ (((s.quad (e.field 0x28 1)).cues.getD (e.field 0x27 1) default).posted : Int))
  else if e.field 0x26 1 = 2 then decide (v ≤ (s.fab.ctrs.getD (e.field 0x27 1) 0 : Int))
  else true

/-- The peer an entry names: ranks number the job's members in ascending troupe position. `none`: outside the job, or a fabric
address outside fabric mode. -/
def State.xpeer (s : State) (j : Job) (e : XEnt) : Option Nat :=
  let ms := maskList j.members 8
  let k := e.field 0x04 2
  match e.field 0x02 1 with
  | 0 => (ms[k]?).map peerOf
  | 1 => if ms.contains s.bt.strap then (ms[(ms.findIdx (· == s.bt.strap) + k) % ms.length]?).map peerOf else none
  | _ => if s.fab.addr.isSome && decide (k < 16384) then some k else none

/-- The entry that a queue starts or goes on with: the first whose messages are not all issued. -/
def State.xhead (s : State) (xq : Nat) : Option XEnt := (s.fab.queues.getD xq []).find? (fun e => !e.started || decide (e.issued < e.len))

/-- The entry may start, or has started: its job runs, its step has begun (a reissued operation's has ended already, R334), its wait
holds, and nothing holds the engine. -/
def State.xready (s : State) (e : XEnt) : Bool :=
  match s.job? e.job with
  | none => false
  | some j =>
    s.isOn && !s.pw.tripT && !s.pw.tripI && s.bt.act != .loading && !s.fab.fenced &&
    (e.started || (j.st == .running && s.stepReached e.job e.step && s.xwaits e))

/-- Change one entry of a queue. -/
def State.updXEnt (s : State) (xq n : Nat) (g : XEnt → XEnt) : State :=
  { s with fab := { s.fab with queues := s.fab.queues.modify xq (fun k => k.map (fun e => if e.n == n then g e else e)) } }

/-- Bytes of an entry's message from `off` on (R254). -/
def XEnt.part (e : XEnt) (off : Nat) : Nat := min 65536 (e.len - off)

/-- The loan that holds the object a GET names at a peer. -/
def State.loanOf (s : State) (peer : Nat) (e : XEnt) : Option LoanTaken :=
  if e.rtier = 0 then none else s.pool.taken.find? (fun l => l.peer == peer && l.objs.any (fun o => o.1 == e.remote))

/-- A GET names an object of a loan that has ended, by the borrower's own count too (R146). -/
def State.loanGone (s : State) (peer : Nat) (e : XEnt) : Bool :=
  match s.loanOf peer e with
  | some l => !l.live s.now
  | none => decide (e.rtier ≠ 0) && s.pool.ended.contains (peer, e.remote)

/-- The GET message of an entry's bytes from `off` on. -/
def State.xget (s : State) (peer : Nat) (e : XEnt) (off : Nat) : Msg :=
  let a2 := e.rtier + e.rcopy * 4 + (match s.loanOf peer e with | some l => 16 + l.id % 2 ^ 32 * 2 ^ 16 | none => 0)
  { msg0 0x02 with
    ctr := e.field 0x06 1, a0 := arg (if e.rtier = 0 then 0 else e.remote)
    a1 := arg (if e.rtier = 0 then e.remote + e.roff + off else e.roff + off), a2 := arg a2, a3 := arg (e.part off) }

/-- The PUT or REDUCE message of an entry that carries the given bytes from `off` on. -/
def XEnt.put (e : XEnt) (off : Nat) (data : List Byte × List (Nat × Nat)) : Msg :=
  let m : Msg := { msg0 (if e.op = 3 then 0x03 else 0x01) with
    ctr := e.field 0x06 1, a0 := arg (e.remote + off), payload := data.1, poison := flitsBad data.1.length data.2 }
  if e.op = 3 then
    { m with a1 := arg (e.field 0x07 1 + e.field 0x24 1 * 2 ^ 8 + e.field 0x25 1 * 2 ^ 16), a2 := arg (e.field 0x2C 4 + e.step % 2 ^ 32 * 2 ^ 32) }
  else m

/-- The message of an entry's bytes from `off` on; those of a PUT or a REDUCE are read here. -/
def State.xmsg (s : State) (peer : Nat) (e : XEnt) (off : Nat) : Msg × State :=
  if e.op = 2 then (s.xget peer e off, s)
  else
    let (data, s) := s.readTier0 (e.loc + off) (e.part off)
    (e.put off data, s)

/-- The engine may read the MU lines that a PUT's or a REDUCE's next message carries (R424). -/
def State.xfree (s : State) (e : XEnt) : Bool := e.op == 2 || s.engineFree (e.loc + e.issued) (e.part e.issued) false

/-- Issue an entry's messages in address order while the device holds fewer than 4,096 operations (R169, R254). A message that no
route carries completes the operation with REMOTE_LOST (R265). -/
def State.xissue (j : Job) (peer xq n : Nat) : Nat → State → State
  | 0, s => s
  | fuel + 1, s =>
    match (s.fab.queues.getD xq []).find? (fun e => e.n == n) with
    | none => s
    | some e =>
      if e.issued ≥ e.len ∨ s.trackers ≥ 4096 ∨ !s.xfree e then s
      else
        let (m, s) := s.xmsg peer e e.issued
        let o : XOp := { xop0 e.op peer m with
          parent := e.parent, ectr := e.field 0x03 1, job := j.id, dst := e.loc + e.issued, raw := e.raw, off := e.issued, xq := some (xq, n) }
        match s.issue o with
        | (true, s) => State.xissue j peer xq n fuel (s.updXEnt xq n (fun e => { e with issued := e.issued + e.part e.issued }))
        | (false, s) => (s.bump 0x72 0 9 1).endJob j.id LOST

/-- Start a queue's head entry, or go on with it: a PUT, GET or REDUCE of the given operation code. -/
def State.xstart (s : State) (xq op : Nat) : State :=
  match s.xhead xq with
  | none => s
  | some e =>
    if e.op ≠ op || !s.xready e || decide (s.trackers ≥ 4096) || !s.xfree e then s
    else
      match s.job? e.job with
      | none => s
      | some j =>
        match s.xpeer j e with
        | none => s.endJob j.id INTERNAL
        | some peer =>
          if s.dark (quadOf e.loc) then s.endJob j.id NOTREADY
          else if e.op = 2 && s.loanGone peer e then s.endJob j.id (failStatus EVICTED)
          else
            let s := if e.started then s
              else
                let (par, s) := s.newParent
                s.updXEnt xq e.n (fun e => { e with started := true, parent := par })
            State.xissue j peer xq e.n 4096 s

/-- PUT_ENTRY (R257). -/
def execPutEntry (xq : Nat) (s : State) : Ans := .next (s.xstart xq 1)

/-- GET_ENTRY (R257). -/
def execGetEntry (xq : Nat) (s : State) : Ans := .next (s.xstart xq 2)

/-- REDUCE_ENTRY (R256, R257). -/
def execReduceEntry (xq : Nat) (s : State) : Ans := .next (s.xstart xq 3)

/-- WAIT_ENTRY (R257): it moves nothing, completes when its wait holds, and posts its counter. -/
def execWaitEntry (xq : Nat) (s : State) : Ans :=
  .next (
    match s.xhead xq with
    | none => s
    | some e =>
      if e.op ≠ 4 || !s.xready e then s
      else
        (s.xdrop xq (fun x => x.n == e.n)).xpost (e.field 0x03 1) e.job)

/-! ### Messages held back (R356, R396) -/

/-- What a request or reply does once it has passed its checks. -/
def State.actOn (s : State) (p : Nat) (m : Msg) : State :=
  match m.type with
  | 0x01 => s.putMsg m
  | 0x02 => s.getMsg m
  | 0x03 => s.reduceMsg p m
  | 0x04 => s.loanPutMsg p m
  | 0x05 => s.dispatchRecMsg m
  | 0x06 => s.dispatchEndMsg m
  | 0x07 => s.dispatchAnsMsg m
  | 0x08 => s.borrowMsg m
  | 0x09 => s.renewMsg m
  | 0x81 => s.ackReply m
  | 0x82 => s.getDataReply m
  | 0x84 => s.grantReply m
  | 0x8F => s.errorReply m
  | _ => s

/-- Take the messages that wait in the receive buffers, in the order in which they came: those that a trip or an activation held, and
those that waited for a port of an MU. -/
def State.releaseHeld (s : State) : State :=
  let ms := s.fab.held
  ms.foldl (fun s e => s.receive e.1 e.2 (fun s => s.actOn e.1 e.2)) { s with fab := { s.fab with held := [] } }

/-! ### Reset (R303) -/

/-- A job uses the exchange engine: one that owns the device and is troupe-wide or has entries or operations there. -/
def State.xbusy (s : State) : Bool :=
  s.sv.jobs.any (fun j => j.owns && (decide (j.members ≠ 0) || s.fab.ops.any (·.job == j.id) || s.fab.queues.flatten.any (·.job == j.id)))

/-- The exchange engine is reset: its queues, operations and counters empty, and its loans end. -/
def State.xreset (s : State) : State :=
  let ops := s.fab.ops
  let s : State := { s with fab := { s.fab with queues := List.replicate 16 [], xback := [], ops := [], ctrs := List.replicate 64 0, redns := [] } }
  let s := ((ops.filterMap (·.slot)).eraseDups).foldl (fun s w => s.complete w.1 w.2 LOST 0) s
  (s.endLoans (fun _ => true)).setRdy 44 false

end Sys2Proof.Machine
end

