-- ==== Sys2Proof/Machine/Session.lean ====
section
/-! DEFINITION. The session commands (R298 to R305): HELLO, LEASE_SET, READINESS, RESET_FUNCTION, RELEASE, and the lease's end. -/

namespace Sys2Proof.Machine

open Config

/-! ### HELLO (R300) -/

/-- The first map entry that is wrong: outside the limits of R283, not zero at or beyond NMAP, or overlapping an earlier one. -/
def Pkt.badMap (p : Pkt) : Option Nat :=
  let nmap := p.at 0x43 1
  let ent (i : Nat) : MapEnt := mapEntOf (p.at (0x58 + 16 * i) 8) (p.at (0x60 + 16 * i) 8)
  (List.range 6).find? (fun i =>
    if i < nmap then
      !(ent i).ok || (List.range i).any (fun k => decide (0 < (ent i).pages) && decide (0 < (ent k).pages) && (ent i).meets (ent k))
    else decide (p.at (0x58 + 16 * i) 16 ≠ 0))

/-- The HELD list's place is 0, or a host-window range under the new map, 16-byte aligned. -/
def State.heldOk (s : State) (p : Pkt) : Bool :=
  let a := p.at 0x48 8
  let s' := s.updFn p.f (fun x => { x with map := p.mapEnts, opened := true })
  decide (a = 0) || (decide (a % 16 = 0) && isHost a && s'.reachable p.f a (p.at 0x50 4 / 16 * 16) true)

/-- A takeover waits for the old session's actions. -/
def State.takeoverWaits (s : State) (f : Nat) : Bool := (s.fn f).closing.any (fun n => (s.pkt f n).op == 0x0101)

/-- VAL of a HELLO that replaces the map: as on an opening, with the epoch unchanged (log 21). -/
def State.helloVal (s : State) (f : Nat) : Nat :=
  let x := s.fn f
  x.epoch + x.epoch * 2 ^ 16 + min (s.heldJobs f).length 0xFFFF * 2 ^ 32 + min x.kept.length 0xFFFF * 2 ^ 48 + x.leasePeriod * 2 ^ 64

/-- HELLO's own rule. -/
def State.helloRule (p : Pkt) (s : State) : State × Rep :=
  let f := p.f
  let pe := p.at 0x40 2
  if p.at 0x43 1 > 6 then (s, .bad 0x43)
  else
    match p.badMap with
    | some i => (s, .bad (0x58 + 16 * i))
    | none =>
      if pe = 0 then
        if !s.heldOk p then (s, .bad 0x48)
        else if s.takeoverWaits f then (s, .fin BUSY 0)
        else if !(s.fn f).opened then (s.openSession p, .later)
        else if (p.at 0x42 1).testBit 0 then
          let s := (s.closeSession f 4 false).bump 0x01 f 7 1
          let s := s.updFn f (fun x => { x with closing := x.closing ++ [p.n] })
          (s.settleClose f, .later)
        else (s, .fin BUSY 0)
      else if (s.fn f).opened ∧ pe = (s.fn f).epoch then
        let s := s.updFn f (fun x => { x with map := p.mapEnts, leaseStart := p.goUs })
        (s, .fin DONE (s.helloVal f))
      else (s, .bad 0x40)

/-- HELLO (R298 to R300, R306). -/
def execHello (f slot : Nat) (s : State) : Ans := .next (s.command f slot 0x0101 State.helloRule)

/-! ### LEASE_SET, LEASE_EXPIRY (R299, R301, R305) -/

/-- LEASE_SET's own rule. -/
def State.leaseSetRule (p : Pkt) (s : State) : State × Rep :=
  let t := p.at 0x40 8
  if t ≠ 0 ∧ (t < 10000 ∨ t > 60000000) then (s, .bad 0x40)
  else
    let period := if t = 0 then (s.fn p.f).leasePeriod else t
    (s.updFn p.f (fun x => { x with leaseStart := p.goUs, leasePeriod := period }), .fin DONE period)

/-- LEASE_SET (R301). -/
def execLeaseSet (f slot : Nat) (s : State) : Ans := .next (s.command f slot 0x0102 State.leaseSetRule)

/-- The lease's last local µs. -/
def Fn.leaseEnd (x : Fn) : Nat := x.leaseStart + x.leasePeriod

/-- A packet that renews the lease waits to be taken, its GO having come before the lease's end (R299). -/
def State.renewalWaits (s : State) (f : Nat) : Bool :=
  (s.fn f).arrivals.any (fun n =>
    let p := s.pkt f n
    decide (p.goUs < (s.fn f).leaseEnd) &&
    ((p.op == 0x0102 && p.session == (s.fn f).epoch) || (p.op == 0x0101 && p.at 0x40 2 == (s.fn f).epoch)))

/-- LEASE_EXPIRY (R299, R305): the session closes, its jobs held with reason 1. An activation suspends it (R396). -/
def execLeaseExpiry (f : Nat) (s : State) : Ans :=
  .next (
    let x := s.fn f
    if s.isOn && s.functions.contains f && x.opened && s.bt.act != .loading && decide (x.leaseEnd ≤ s.now) && !s.renewalWaits f then
      let s := (s.closeSession f 1 false).bump 0x01 f 5 1
      (s.raiseAt f 0x04 (if s.azgen then f else 0xFF) (leBytes 2 x.epoch)).settleClose f
    else s)

/-! ### READINESS (R302) -/

/-- VAL of READINESS. -/
def State.readyVal (s : State) (f : Nat) : Nat :=
  let x := s.fn f
  s.bt.rdy.toNat + x.epoch * 2 ^ 64 + (if x.opened then 2 ^ 80 + (x.leaseEnd - s.now) % 2 ^ 32 * 2 ^ 96 else 0)

/-- Complete the READINESS commands of a function whose mask is set, or whose wait has passed. -/
def State.settleReadyF (s : State) (f : Nat) : State :=
  (s.fn f).ready.foldl (fun s (n, due) =>
    let mask := BitVec.ofNat 47 ((s.pkt f n).at 0x40 8)
    let ok := decide (mask &&& ~~~s.bt.rdy = 0)
    if ok || decide (due ≤ s.now) then
      (s.updFn f (fun x => { x with ready := x.ready.filter (fun e => e.1 != n) })).complete f n (if ok then DONE else NOTREADY) (s.readyVal f)
    else s) s

/-- Complete every READINESS command that is due. -/
def State.settleReady (s : State) : State := (List.range 4).foldl State.settleReadyF s

/-- READINESS's own rule. -/
def State.readinessRule (p : Pkt) (s : State) : State × Rep :=
  let w := p.at 0x48 4
  if w > 10000000 then (s, .bad 0x48)
  else ((s.updFn p.f (fun x => { x with ready := x.ready ++ [(p.n, s.now + w)] })).settleReadyF p.f, .later)

/-- READINESS (R302). -/
def execReadiness (f slot : Nat) (s : State) : Ans := .next (s.command f slot 0x0103 State.readinessRule)

/-! ### RESET_FUNCTION, RELEASE (R303, R304) -/

/-- RESET_FUNCTION's own rule. -/
def State.resetRule (p : Pkt) (s : State) : State × Rep :=
  let kind := p.at 0x40 1
  let ix := p.at 0x41 1
  match kind with
  | 1 =>
    if ix > 3 ∨ (s.azgen ∧ ix ≠ p.f) then (s, .bad 0x41)
    else if (s.jobAt ix).isSome then (s, .fin BUSY 0)
    else (s.quadReset ix false, .fin DONE 0)
  | 2 =>
    if ix > 17 then (s, .bad 0x41)
    else if (s.port ix).st != .up then (s, .fin NOTREADY 0)
    else (s.retrainPort ix, .fin DONE 0)
  | 3 =>
    if ix ≠ 0 then (s, .bad 0x41)
    else if s.xbusy then (s, .fin BUSY 0)
    else (s.xreset, .fin DONE 0)
  | 4 =>
    if ix ≠ 0 then (s, .bad 0x41)
    else (s.updFn p.f (fun x => { x with resetAt := some (s.now + 100) }), .fin DONE 0)
  | _ => (s, .bad 0x40)

/-- RESET_FUNCTION (R303). -/
def execResetFunction (f slot : Nat) (s : State) : Ans := .next (s.command f slot 0x0104 State.resetRule)

/-- RELEASE's own rule. -/
def State.releaseRule (p : Pkt) (s : State) : State × Rep :=
  let s := (s.closeSession p.f 2 ((p.at 0x40 1).testBit 0)).bump 0x01 p.f 6 1
  let s := s.updFn p.f (fun x => { x with closing := x.closing ++ [p.n] })
  (s.settleClose p.f, .later)

/-- RELEASE (R304). -/
def execRelease (f slot : Nat) (s : State) : Ans := .next (s.command f slot 0x0105 State.releaseRule)

end Sys2Proof.Machine
end

