-- ==== Sys2Proof/Machine/Image.lean ====
section
/-! DEFINITION. Firmware images (R387, R388, R397): the header, its checks, the boot check, and the measurements of R403. -/

namespace Sys2Proof.Machine

open Config

/-! ### The header (R387) -/

def imgVersion (h : List Byte) : Nat := leAt h 0x08 4
def imgSvn (h : List Byte) : Nat := leAt h 0x0C 2
def imgSetfmt (h : List Byte) : Nat := leAt h 0x0E 2
def imgLength (h : List Byte) : Nat := leAt h 0x14 4
def imgSlot (h : List Byte) : Nat := leAt h 0x18 1
def imgDigest (h : List Byte) : List Byte := (h.drop 0x20).take 64
def imgKey (h : List Byte) : List Byte := (h.drop 0x100).take 1952
def imgSig (h : List Byte) : List Byte := (h.drop 0x900).take 3309

/-- Check 1 of R388: MAGIC, FORMAT, TYPE and the reserved bytes. -/
def imgForm (h : List Byte) : Bool :=
  leAt h 0 4 == 0x4D494B53 && leAt h 4 2 == 1 && leAt h 6 2 == 1 && zeroAt h 0x19 7 && zeroAt h 0x60 160 && zeroAt h 0x8A0 96 &&
  zeroAt h 0x15ED 2579

/-- Check 3: LENGTH within R387. -/
def imgLengthOk (h : List Byte) : Bool :=
  decide (4096 ≤ imgLength h) && decide (imgLength h ≤ 33546240) && decide (imgLength h % 4096 = 0)

/-- The checks of R388 in order, with the lowest SVN that check 4 accepts: DONE, IMAGE_REJECTED or AUTH_FAIL. -/
def Boot.checkHeader (b : Boot) (h : List Byte) (svnMin : Nat) : Nat :=
  if !imgForm h then REJECTED
  else if leAt h 0x10 2 ≠ 0x0640 ∨ !(leAt h 0x12 2).testBit b.stepping then REJECTED
  else if !imgLengthOk h then REJECTED
  else if imgSvn h < svnMin then REJECTED
  else if imgSlot h > 3 || b.fuses.revoked.testBit (imgSlot h) || shake256 (imgKey h) 32 != b.fuses.keyHash.getD (imgSlot h) [] then AUTHFAIL
  else if !mlDsaVerify (imgKey h) (h.take 0x900) (imgSig h) then AUTHFAIL
  else DONE

/-- The lowest SVN that IMAGE_BEGIN accepts: the fused floor and the running image's. -/
def Boot.svnMin (b : Boot) : Nat := max b.fuses.svnFloor (imgSvn b.runHdr)

/-- The body in flash of a header's length. -/
def Boot.bodyOf (b : Boot) (h : List Byte) : List Byte := flashBytes b.fwBody (imgLength h)

/-- The boot check of the image in flash (R397). -/
def Boot.imageOk (b : Boot) : Bool :=
  let h := flashBytes b.fwHdr 8192
  b.checkHeader h b.fuses.svnFloor == DONE && shake256 (b.bodyOf h) 64 == imgDigest h

/-! ### Measurements (R403) -/

/-- Measurement i, 1 to 7. -/
def Boot.measure (b : Boot) (i : Nat) : List Byte :=
  match i with
  | 1 => shake256 romBytes 64
  | 2 => shake256 (fuseImage b.fuses.keyHash b.fuses.revoked b.fuses.svnFloor) 64
  | 3 => shake256 (b.runHdr.take 0x900) 64
  | 4 => imgDigest b.runHdr
  | 5 => (match b.armed with | some a => imgDigest a.hdr | none => List.replicate 64 0#8)
  | 6 => shake256 b.calAtBoot 64
  | _ => shake256 b.sets.bytes 64

/-! ### Staging objects (R389) -/

/-- Evict a staging object with its device pin. -/
def State.dropStaging (s : State) (g : Option Staging) : State :=
  match g with | some g => { s with pool := s.pool.clear 2 g.oid } | none => s

end Sys2Proof.Machine
end

