-- ==== Sys2Proof/Machine/Resets.lean ====
section
/-! DEFINITION. Power-up, resets and readiness (R378 to R383, R398, R412 to R416): POWER_UP, FUNCTION_RESET, RDY_MAP_BIT_SET, POWER_OFF
and the standby events. -/

namespace Sys2Proof.Machine

open Config

/-! ### What survives a loss of power (R357, R382) -/

/-- The device with every powered block at its reset value: flash, fuses, the identity of the module, the pins, the management
endpoint on VSTBY, and the host's own memory stay. A page whose programming was cut short is erased (R346, R383). -/
def State.blank (s : State) : State :=
  let cut := s.bt.flashOps.any (fun o => o.began && !o.calib)
  { State.reset with
    pw := { Power.reset with phase := s.pw.phase, enable := s.pw.enable, coolantOk := s.pw.coolantOk, pwrAlert := s.pw.pwrAlert, vinMv := s.pw.vinMv
                             thermTripPin := s.pw.thermTripPin
                             sensors := List.replicate 132 0x8000#16 ++ s.pw.sensors.drop 132 }
    bt := { Boot.reset with stepping := s.bt.stepping, serial := s.bt.serial, strap := s.bt.strap, fuses := s.bt.fuses, fwHdr := s.bt.fwHdr
                            fwBody := s.bt.fwBody, calPage := s.bt.calPage, setPage := if cut then [] else s.bt.setPage, chain := s.bt.chain }
    hostMem := s.hostMem, hostMarks := s.hostMarks, free := s.free, pending := s.pending
    mg := { s.mg with pldm := .idle, pldmOff := 0, calParts := [] } }

/-! ### Power-up (R379) -/

/-- A site whose fuse marks it failed (R54, R57). -/
def State.fuseOut (s : State) (k : Site) : State :=
  match s.fence k.q k.row k.col 4 1 with
  | (some m, s) => s.remap k.q m.1 m.2
  | (none, s) => s

/-- The dimmer's settings (R350, R382). -/
def Power.useSettings (p : Power) (g : Settings) : Power :=
  { p with dimUp := g.up, dimDown := g.down, dimEmerg := g.emerg, dimFloor := g.floor, darkWait := g.darkWait, mgmtCap := g.mgmtCap }

/-- A quadrant's rails and level as it comes up (R342, R348). -/
def litDim (lit : Bool) (floor : Nat) (v : Nat × Nat) : QDim :=
  { level := if lit then floor else 0, demand := 0, filler := 0, lit := lit, waking := false, idleSince := 0
    vArray := if lit then v.1 else 0, vSram := if lit then v.2 else 0 }

/-- Boot from blank: strap and fuses, the calibration and settings pages, the boot check, and the stage manager or ROM recovery.
`failed`: the sites that fail the self-test (R54). -/
def State.bootUp (s : State) (strap : Nat) (failed : List Site) : State :=
  let s := s.blank
  let cal := calOk s.bt.calPage s.bt.serial
  let sets := settingsIn s.bt.setPage
  let ok := s.bt.imageOk
  let hdr := if ok then flashBytes s.bt.fwHdr 8192 else []
  let b : Boot := { s.bt with boot := if ok then 2 else 3, pers := if ok then sets.pers else 0, strap := strap % 8, runHdr := hdr
                              calAtBoot := flashBytes s.bt.calPage 65536, calValid := cal, sets := sets }
  let adiv := if cal then 8 else 11
  let closed (p : Nat) : Bool := sets.closed.testBit p || !ok || sets.pers == 1
  let pw : Power := { s.pw.useSettings sets with
    phase := .on, enable := true, coolantOk := true, thermTripPin := false, adiv2 := adiv, adivMin2 := adiv, emPwr := s.pw.pwrAlert
    qd := (List.range 4).map (fun q => litDim ok sets.floor (b.volts q adiv)) }
  let s : State := { s with
    bt := b, pw := pw
    fns := s.fns.map (fun (x : Fn) => { x with leasePeriod := sets.lease })
    fab := { s.fab with plan := sets.plan, closed := sets.closed
                        ports := (List.range 18).map (fun p => { Port.reset with st := if closed p then .closed else .training }) } }
  let s := s.bt.fuses.fusedOut.foldl State.fuseOut s
  let s := if ok then failed.foldl (fun s k => s.declareDead k.q k.row k.col 2) s else s
  let s := s.setRdyMap ((if cal then 1#47 <<< 45 else 0) ||| (if ok then 1#47 <<< 46 else 0))
  let s := if ok && !cal then s.power 7 else s
  let s := if s.pw.pwrAlert then (s.bump 0x81 0 5 1).power 1 else s
  let s :=
    if ok && settingsOk s.bt.setPage && sets.format != imgSetfmt hdr then
      (s.queuePage { Settings.defaults with format := imgSetfmt hdr }.bytes none 0).firmware 7 0 (imgVersion hdr)
    else s
  s.trackNormal

/-- POWER_UP (R378, R379, R416): from standby, or from a power-off once ENABLE has been deasserted and asserted again, with the
input from 40.0 V to 54.0 V. -/
def execPowerUp (strap : Nat) (failed : List Site) (s : State) : Ans :=
  .next (
    if (s.pw.phase == .standby || s.pw.phase == .off) && decide (40000 ≤ s.pw.vinMv) && decide (s.pw.vinMv ≤ 54000) then s.bootUp strap failed
    else s)

/-- Restart into ROM recovery (R383, R398): nothing runs but the ROM. Local time and the event log's SEQ restart only at a
power-up. -/
def State.enterRecovery (s : State) : State :=
  let n := s.blank
  let pw : Power := { n.pw.useSettings s.bt.sets with
    localUs := s.pw.localUs, sub := s.pw.sub, powerW := s.pw.powerW, adiv2 := s.pw.adivMin2, adivMin2 := s.pw.adivMin2
    emPwr := s.pw.emPwr, emExc := s.pw.emExc, emCool := s.pw.emCool, qd := (List.range 4).map (fun _ => litDim false 0 (0, 0)) }
  let s : State := { n with
    pw := pw
    bt := { n.bt with boot := 3, calAtBoot := s.bt.calAtBoot, calValid := s.bt.calValid, sets := s.bt.sets, rdy := s.bt.rdy }
    fns := (List.zipIdx s.fns).map (fun ((x : Fn), _) => { Fn.reset with epoch := x.epoch, evSeq := x.evSeq, evLog := x.evLog, leasePeriod := x.leasePeriod })
    ctr := s.ctr.filter (fun e => e.1.grp == 0x81 || e.1.grp == 0x01) }
  (s.setRdyMap (if s.bt.calValid then 1#47 <<< 45 else 0)).trackNormal

/-! ### The function reset (R382, R383) -/

/-- A RESUMING request returns to PARKED (R382). -/
def State.backToParked (s : State) (r : Req) : State :=
  let s := (s.pool.placing.filter (fun p => p.for_ == .resume r.id)).foldl (fun s p => s.dropPlacing p) s
  s.updReq r.id (fun r => { r with st := .parked, resumeSlot := none, resumeTo := none })

/-- The pool as R130 rebuilds it: reserved records and objects without all their copies are freed, the others take the rebuild's
stamp, with their pins and no holds. Strike images, job records, staging objects and loans' objects do not outlive the reset. -/
def State.rebuildPool (s : State) : State :=
  let keep (r : Rec) : Bool :=
    r.committed && !([2, 3, 5].contains (r.oid >>> 60)) &&
    (maskList r.qmask 4).all (fun q => s.pool.recs.any (fun c => c.tier == r.tier && c.oid == r.oid && c.committed && c.copy == q))
  let recs := s.pool.recs.filter keep
  let objs := (recs.map (fun r => (r.tier, r.oid))).eraseDups
  { s with pool := { s.pool.endTaken (fun _ => true) with
      recs := recs, stamps := objs.map (fun o => (o.1, o.2, s.stampNow)), holds := [], pins := s.pool.pins.filter (fun p => objs.contains p)
      placing := [], given := [], offers := [], taken := [] } }

/-- Productions after a rebuild (R185). -/
def State.rebuildProds (s : State) : State :=
  { s with sv := { s.sv with
      changes := []
      prods := (s.sv.prods.filter (fun (p : Sys2Proof.Machine.Prod) =>
        s.pool.recs.any (fun r => r.tier == 2 && r.oid == p.man.manId && r.committed) && p.st != .loading)).map
          (fun (p : Sys2Proof.Machine.Prod) => { p with st := .stored, slot := none, todo := [], bindings := [], stale := false, resLoad := false }) } }

/-- A reset that comes over PCIe, and one that also retrains the CXL link and resets the HDM decoder (R381). -/
def overPcie (c : ResetCause) : Bool := c != .kind4
def retrains (c : ResetCause) : Bool := c != .kind4 && c != .flr

/-- A function's interface after a reset: every slot is FREE, its bytes as they were (R287); the session's epoch, the event log and
its SEQ stay (R298, R382). A reset that comes over PCIe also returns Bus Master Enable and the MSI-X table to their reset values
(log 23); KIND 4 leaves them, and no reset keeps a pending message. -/
def State.resetFn (s : State) (c : ResetCause) (x : Fn) : Fn :=
  { Fn.reset with
    slots := x.slots.map (fun c => { c with st := .free })
    epoch := x.epoch, evSeq := x.evSeq, evLog := x.evLog, leasePeriod := s.bt.sets.lease
    bme := x.bme && !overPcie c, fmask := x.fmask && !overPcie c, vecs := if overPcie c then Fn.reset.vecs else x.vecs
    cxl := if retrains c then [] else x.cxl }

/-- RDY_MAP bits that a function reset clears: callboard, quadrants, stacks, repertory, exchange engine (R380). -/
def resetBits : BitVec 47 := 0x3FFFFFF#47 ||| (1#47 <<< 44)

/-- Zero tier 0 and empty a quadrant at a function reset; fences stay, the stall image does not. -/
def State.wipeQuad (s : State) (q : Nat) : State :=
  let s := s.zeroTier0 q
  let s := s.updQuad q (fun x => { x.cleared s.now with stall := none, stallImg := 0, test := [], testSlot := none, testRes := (0, 0), testOne := false })
  s.clearCtr unitGroups q

/-- The reset of the whole device's functions. -/
def State.wholeReset (c : ResetCause) (s : State) : State :=
  let cap := s.pw.cap
  let s : State := { s with fns := s.fns.map (fun (x : Fn) => { x with opened := false }) }
  let s := (s.sv.reqs.filter (·.st == .resuming)).foldl State.backToParked s
  let s := s.sv.jobs.foldl (fun s j => s.endJob j.id INTERNAL) s
  let lost := s.bt.staging.isSome || s.bt.armed.isSome
  let s : State := { s with
    fns := s.fns.map (s.resetFn c)
    shared := []
    bt := { s.bt with staging := none, armed := none, act := .idle, flashOps := [] }
    mg := { s.mg with pldm := .idle, pldmOff := 0 }
    fab := { s.fab with queues := List.replicate 16 [], ops := [], ctrs := List.replicate 64 0, redns := [], forming := none, xback := [] }
    pw := { s.pw with hostCap := 0 }
    -- every slot is FREE: no command waits on a request any more
    sv := { s.sv with reqs := s.sv.reqs.map (fun (r : Req) => { r with parkSlot := none, resumeSlot := none, resumeTo := none, cancelSlots := [] }) } }
  let s := s.setRdyMap (s.bt.rdy &&& ~~~resetBits)
  let s := (List.range 4).foldl State.wipeQuad s
  let s := s.rebuildPool.loseGone.rebuildProds
  let s := if lost then s.firmware 3 INTERNAL 0 else s
  if s.pw.cap = cap then s else s.power 8

/-- Under Azgen a function's own reset is a quadrant reset that closes its session (R318); its quadrant's job ends as at any
function reset (R382). -/
def State.azgenReset (c : ResetCause) (f : Nat) (s : State) : State :=
  let s := s.updFn f (fun x => { x with opened := false, dcache := [], resetAt := none })
  let s := (s.sv.jobs.filter (·.f == f)).foldl (fun s j => s.endJob j.id INTERNAL) s
  let s := s.updFn f (fun x =>
    { x with kept := [], map := [], tgt := Target.hostReset
             bme := x.bme && !overPcie c, fmask := x.fmask && !overPcie c, vecs := if overPcie c then Fn.reset.vecs else x.vecs, pba := 0
             cxl := if retrains c then [] else x.cxl })
  s.quadReset f false

/-- FUNCTION_RESET (R303, R381 to R383). A KIND 4 reset begins 100 local µs after its reply. Programming of a flash page
completes first; the loader's copy refuses KIND 4 and FLR, and the others restart the ROM. -/
def execFunctionReset (f : Nat) (cause : ResetCause) (s : State) : Ans :=
  .next (
    let own := cause == .kind4 || cause == .flr
    let due := match (s.fn f).resetAt with | some t => decide (t ≤ s.now) | none => false
    if !s.isOn || !s.functions.contains f || (cause == .kind4 && !due) then s
    else if s.bt.act == .loading then (if own then s else s.enterRecovery)
    else if s.bt.boot = 3 then { s with bt := { s.bt with rc := Recovery.reset }, fns := s.fns.map (s.resetFn cause) }
    else if s.bt.programming then s.updFn f (fun x => { x with resetAt := some s.now })
    else if own && s.azgen then State.azgenReset cause f s
    else State.wholeReset cause s)

/-! ### RDY_MAP_BIT_SET (R379, R380) -/

/-- The function of a bit can be ready: the stage manager runs, a quadrant's and its stacks' quadrant is lit, the device is not
fenced. Port bits and bits 45 and 46 set by their own rules. -/
def State.canSet (s : State) (bit : Nat) : Bool :=
  s.isOn && s.bt.boot == 2 && s.bt.act != .loading &&
  (bit == 0 || bit == 25 || (bit == 44 && !s.fab.fenced) ||
   (decide (1 ≤ bit) && decide (bit ≤ 4) && (s.qdim (bit - 1)).lit && !(s.qdim (bit - 1)).waking) ||
   (decide (5 ≤ bit) && decide (bit ≤ 24) && (s.qdim ((bit - 5) / 5)).lit && !(s.qdim ((bit - 5) / 5)).waking))

/-- RDY_MAP_BIT_SET (R379, R380). A quadrant's bit sets before the remaps that its reset left waiting are applied (R56). -/
def execRdyMapBitSet (bit : Nat) (s : State) : Ans :=
  .next (
    if !s.canSet bit then s
    else
      let s := s.setRdy bit true
      (if 1 ≤ bit ∧ bit ≤ 4 then s.remapDue (bit - 1) else s).settleReady)

/-! ### Losing power (R357, R378, R411 to R416) -/

/-- A junction sensor reads at least t sixteenths of a degree. -/
def Power.anyAt (p : Power) (t : Int) : Bool :=
  (List.range 80).any (fun i => match reading (p.sensors.getD i 0x8000#16) with | some v => decide (t ≤ v) | none => false)

/-- The cause of a power-off holds (R357, R378). A loss of ENABLE is the event itself. -/
def State.offDue (s : State) (c : OffCause) : Bool :=
  match c with
  | .thermal => s.pw.tripT && s.pw.anyAt 1680 && decide (s.pw.tripTAt + 5000 ≤ s.now)
  | .inputTrip => s.pw.tripI && decide (s.pw.tripIAt + 5000 ≤ s.now)
  | .dropout => decide (s.pw.vinMv < 36000)
  | .enableLost => true

/-- POWER_OFF (R357, R378, R413): the event, then every rail but VSTBY. THERM_TRIP# stays as it was until ENABLE is deasserted. -/
def execPowerOff (cause : OffCause) (s : State) : Ans :=
  .next (
    if !s.isOn || !s.offDue cause then s
    else
      let s := if cause == .thermal then s.thermal 5 else s.power 6
      let s := s.blank
      let gone := cause == .enableLost
      { s with pw := { s.pw with phase := if gone then .standby else .off, enable := !gone
                                 thermTripPin := (s.pw.thermTripPin || cause == .thermal) && !gone } })

/-- INPUT_POWER_APPLIED (R415): the module enters standby, and the management endpoint answers. -/
def execInputPowerApplied (mv : Nat) (s : State) : Ans :=
  .next (
    if s.pw.phase == .unpowered then
      let s := s.blank
      { s with pw := { s.pw with phase := .standby, vinMv := mv, enable := false, thermTripPin := false }, mg := Mgmt.reset }
    else s)

/-- RAIL_SEQUENCE_STOP (R412): ENABLE or COOLANT_OK goes between the end of qualification and the release of control-domain
reset; the rails fall and qualification starts afresh. -/
def execRailSequenceStop (enableLost : Bool) (s : State) : Ans :=
  .next (
    if s.pw.phase == .standby || s.pw.phase == .off then
      { s with pw := { s.pw with phase := .standby, enable := !enableLost, coolantOk := enableLost, thermTripPin := false } }
    else s)

end Sys2Proof.Machine
end

