-- ==== Sys2Proof/Machine/Power.lean ====
section
/-! DEFINITION. Power and clocks (R339 to R363): the dimmer, the cap loop, the throttle, trips, dark quadrants, and the commands
POWER_CAP_SET, DIMMER_SET and THERMAL_QUERY. -/

namespace Sys2Proof.Machine

open Config

/-! ### Sensors (R344, R353, R361) -/

/-- The offset of a junction sensor: the calibration page's, or the house default of 4 °C. -/
def Boot.toff (b : Boot) (i : Nat) : BitVec 16 := if b.calValid then BitVec.ofNat 16 (leAt b.calAtBoot (0x200 + 2 * i) 2) else 64

/-- A raw reading as the device uses it: junction sensors are corrected. -/
def Boot.corrected (b : Boot) (i : Nat) (t : BitVec 16) : BitVec 16 := if i < 80 ∧ t ≠ 0x8000#16 then t + b.toff i else t

/-- Every junction sensor that has a reading reads below t sixteenths of a degree. -/
def Power.allBelow (p : Power) (t : Int) : Bool := !p.anyAt t

/-- The comparators' samples (R353): readings are taken, and what depends on how long they have stood is kept up to date. -/
def State.readTemps (s : State) (temps : List (Nat × BitVec 16)) : State :=
  let pw : Power := { s.pw with sensors := temps.foldl (fun (ss : List (BitVec 16)) e => ss.set e.1 (s.bt.corrected e.1 e.2)) s.pw.sensors }
  let pw : Power := { pw with
    coolSince := if pw.allBelow 1440 then some (pw.coolSince.getD s.now) else none
    lowSince := if pw.allBelow 1472 then some (pw.lowSince.getD s.now) else none
    -- the 5,000 local µs of R357 count without a break
    tripTAt := if pw.tripT && pw.allBelow 1680 then s.now else pw.tripTAt }
  let s : State := { s with pw := pw }
  match reading pw.hottest.2 with
  | some v => s.setCtr 0x81 0 11 (max (s.counter 0x81 0 11) v.toNat)
  | none => s

/-- The outputs THERM_WARN# and THERM_TRIP# are driven low (R413): neither in standby nor during an input trip. -/
def Power.thermWarn (p : Power) : Bool := p.phase == .on && !p.tripI && decide (p.adiv2 > p.adivMin2)
def Power.thermTrip (p : Power) : Bool := p.thermTripPin && p.phase != .standby && !p.tripI

/-! ### The array clock (R342, R355) -/

/-- Every lit quadrant's rails follow ADIV. -/
def State.setAdiv (s : State) (a : Nat) : State :=
  { s with pw := { s.pw with
      adiv2 := a
      qd := (List.zipIdx s.pw.qd).map (fun ((d : QDim), q) =>
        if d.lit then { d with vArray := (s.bt.volts q a).1, vSram := (s.bt.volts q a).2 } else d) } }

/-- THROTTLE_STEP (R355). -/
def execThrottleStep (temps : List (Nat × BitVec 16)) (s : State) : Ans :=
  .next (
    if !s.isOn then s
    else
      let s := s.readTemps temps
      if s.pw.tripT || s.pw.tripI then s
      else if s.pw.anyAt 1520 then
        let due := match s.pw.lastStep with | none => true | some t => decide (t + 100 ≤ s.now)
        if due && decide (s.pw.adiv2 < 32) then
          let first := s.pw.adiv2 == s.pw.adivMin2
          let s := (s.setAdiv (s.pw.adiv2 + 1)).bump 0x81 0 9 1
          let s : State := { s with pw := { s.pw with lastStep := some s.now } }
          (if first then s.thermal 1 else s).trackNormal
        else s
      else
        let s : State := { s with pw := { s.pw with lastStep := none } }
        match s.pw.lowSince with
        | none => s
        | some t =>
          if s.pw.adiv2 > s.pw.adivMin2 && decide (t + 1000 ≤ s.now) then
            let s := s.setAdiv (s.pw.adiv2 - 1)
            let s : State := { s with pw := { s.pw with lowSince := some s.now } }
            (if s.pw.adiv2 = s.pw.adivMin2 then s.thermal 2 else s).trackNormal
          else s)

/-! ### Trips (R353, R356) -/

/-- The clocks stop: every level is 0. -/
def State.stopClocks (s : State) (was : Bool) : State :=
  { s with pw := { s.pw with tripFrom := if was then s.pw.tripFrom else s.now, qd := s.pw.qd.map (fun (d : QDim) => { d with level := 0 }) } }

/-- The clocks restart once no trip is left: levels at the floor, the waits of R83 and R180 go on where they stood, and held
messages are taken. -/
def State.restartClocks (s : State) : State :=
  if s.pw.tripT || s.pw.tripI then s
  else
    let d := s.now - s.pw.tripFrom
    let s : State := { s with
      pw := { s.pw with qd := s.pw.qd.map (fun (x : QDim) => if x.lit then { x with level := s.pw.dimFloor } else x) }
      quads := s.quads.map (fun (x : Quad) =>
        { x with progress := x.progress + d
                 queues := x.queues.map (fun (k : TeQueue) => { k with ents := k.ents.map (fun (e : TeEnt) => { e with waitFrom := e.waitFrom + d }) }) }) }
    s.trackNormal.releaseHeld

/-- THERMAL_TRIP (R356): a junction at 105.0 °C. -/
def execThermalTrip (sensor : Nat) (temp : BitVec 16) (s : State) : Ans :=
  .next (
    if !s.isOn then s
    else
      let s := s.readTemps [(sensor, temp)]
      if s.pw.anyAt 1680 && !s.pw.tripT then
        let s := s.stopClocks s.pw.tripI
        let s : State := { s with pw := { s.pw with tripT := true, tripTAt := s.now, thermTripPin := true } }
        ((s.bump 0x81 0 8 1).thermal 3).trackNormal
      else s)

/-- THERMAL_TRIP_CLEAR (R356): every sensor below 90.0 °C for 1,000 local µs; the clock restarts at ADIV 8.0 or ADIV_MIN. -/
def execThermalTripClear (temps : List (Nat × BitVec 16)) (s : State) : Ans :=
  .next (
    if !s.isOn then s
    else
      let s := s.readTemps temps
      match s.pw.coolSince with
      | none => s
      | some t =>
        if s.pw.tripT && decide (t + 1000 ≤ s.now) then
          let s := s.setAdiv (max 16 s.pw.adivMin2)
          let s : State := { s with pw := { s.pw with tripT := false, thermTripPin := false, lowSince := some s.now, lastStep := none } }
          ((s.thermal 4).trackNormal).restartClocks
        else s)

/-- An input voltage that trips (R353). -/
def badInput (mv : Nat) : Bool := decide (mv < 40000) || decide (56000 < mv)

/-- The input voltage as measured (R356). -/
def State.readInput (s : State) (mv : Nat) : State :=
  { s with pw := { s.pw with
      vinMv := mv, vinOkSince := if 41000 ≤ mv ∧ mv ≤ 54000 then some (s.pw.vinOkSince.getD s.now) else none } }

/-- INPUT_TRIP (R353, R356). -/
def execInputTrip (mv : Nat) (s : State) : Ans :=
  .next (
    if s.pw.phase == .unpowered then s
    else
      let s := s.readInput mv
      if s.isOn && badInput mv && !s.pw.tripI then
        let s := s.stopClocks s.pw.tripT
        let s : State := { s with pw := { s.pw with tripI := true, tripIAt := s.now } }
        ((s.bump 0x81 0 7 1).power 4).trackNormal
      else s)

/-- INPUT_TRIP_CLEAR (R356): the input has stayed from 41.0 V to 54.0 V for 1,000 local µs. -/
def execInputTripClear (mv : Nat) (s : State) : Ans :=
  .next (
    if s.pw.phase == .unpowered then s
    else
      let s := s.readInput mv
      match s.pw.vinOkSince with
      | none => s
      | some t =>
        if s.isOn && s.pw.tripI && decide (t + 1000 ≤ s.now) then
          let s : State := { s with pw := { s.pw with tripI := false } }
          ((s.power 5).trackNormal).restartClocks
        else s)

/-! ### The dimmer and the cap (R347 to R352) -/

/-- The next level of a lit quadrant (R348). -/
def Power.nextLevel (p : Power) (level d : Nat) : Nat :=
  let ceil := if p.emergency then p.dimFloor else p.dimCeil
  let dn := if p.emergency then p.dimEmerg else p.dimDown
  let target := min d ceil
  max p.dimFloor (max (min target (level + p.dimUp)) (level - dn))

/-- Filler of the local µs just ended (R349). -/
def Power.fillerOf (p : Power) (level d : Nat) : Nat := if level > p.dimFloor then level - d else 0

/-- Filler cell-steps that make up an activity of `f` in one local µs: 0.8 of the activity is the matrix array's, 160 CUs of 1,024
cells a quadrant (R347; log 24). -/
def Power.fillerSteps (p : Power) (f : Nat) : Nat := f * 1024 * 160 * (26400 / max 8 p.adiv2) / 800

/-- One quadrant's update: its level, demand and filler, and its counters. How many CU-cycles the dimmer withheld when demand was
above the level is a free value (log 9). -/
def State.dimQuad (s : State) (q d : Nat) : State :=
  let x := s.qdim q
  if !x.lit || x.waking then s
  else
    let fill := s.pw.fillerOf x.level d
    let s' := s.updQd q (fun x => { x with level := s.pw.nextLevel x.level d, demand := d, filler := fill })
    let s' := if fill = 0 then s' else s'.bump 0x82 q 1 (s.pw.fillerSteps fill)
    if d > x.level then
      let (n, s') := s'.freeVal
      s'.bump 0x82 q 0 n
    else s'

/-- DIMMER_UPDATE (R347, R348): D of each quadrant in the local µs just ended is its activity and, as an operand, the activity of the
ready work that the dimmer withheld. While a trip holds, L is 0. -/
def execDimmerUpdate (withheld : List Nat) (s : State) : Ans :=
  .next (
    if !s.isOn || s.pw.tripT || s.pw.tripI then s
    else (List.range 4).foldl (fun s q => s.dimQuad q (min 1000 ((s.quad q).lastAct + withheld.getD q 0))) s)

/-- CAP_LOOP_TICK (R352): the mean input power of the last 100 local µs against the effective cap. -/
def execCapLoopTick (power : Nat) (s : State) : Ans :=
  .next (
    if !s.isOn then s
    else
      let cap := s.pw.cap
      let ceil := if power > cap then max s.pw.dimFloor (s.pw.dimCeil - 20) else if power + 100 < cap then min 1000 (s.pw.dimCeil + 10) else s.pw.dimCeil
      let s : State := { s with pw := { s.pw with powerW := power, dimCeil := ceil } }
      (s.setCtr 0x81 0 10 (max (s.counter 0x81 0 10) power)).trackNormal)

/-! ### Emergencies (R353, R360) -/

/-- INPUT_POWER_EXCURSION (R353): a 20 µs mean above 4,000 W. -/
def execInputPowerExcursion (power : Nat) (s : State) : Ans :=
  .next (
    if s.isOn && decide (4000 < power) && !s.pw.emExc then
      let s : State := { s with pw := { s.pw with emExc := true } }
      (((s.bump 0x81 0 6 1).setCtr 0x81 0 10 (max (s.counter 0x81 0 10) power)).power 3).trackNormal
    else s)

/-- INPUT_POWER_EXCURSION_END (R353): the 20 µs mean is 3,800 W or below. -/
def execInputPowerExcursionEnd (power : Nat) (s : State) : Ans :=
  .next (
    if s.isOn && decide (power ≤ 3800) && s.pw.emExc then ({ s with pw := { s.pw with emExc := false } } : State).trackNormal else s)

/-- PWR_ALERT_ASSERT (R360, R412): EMERGENCY; ignored in standby but for the pin. -/
def execPwrAlertAssert (s : State) : Ans :=
  .next (
    if s.isOn && !s.pw.emPwr then
      let s : State := { s with pw := { s.pw with pwrAlert := true, emPwr := true } }
      ((s.bump 0x81 0 5 1).power 1).trackNormal
    else { s with pw := { s.pw with pwrAlert := true } })

/-- PWR_ALERT_DEASSERT (R360). -/
def execPwrAlertDeassert (s : State) : Ans :=
  .next (
    if s.isOn && s.pw.emPwr then
      let s : State := { s with pw := { s.pw with pwrAlert := false, emPwr := false } }
      (s.power 2).trackNormal
    else { s with pw := { s.pw with pwrAlert := false } })

/-- COOLANT_OK_LOSS (R360, R412). -/
def execCoolantOkLoss (s : State) : Ans :=
  .next (
    if s.isOn && !s.pw.emCool then
      let s : State := { s with pw := { s.pw with coolantOk := false, emCool := true } }
      (s.thermal 6).trackNormal
    else { s with pw := { s.pw with coolantOk := false } })

/-- COOLANT_OK_RESTORE (R360). -/
def execCoolantOkRestore (s : State) : Ans :=
  .next (
    if s.isOn && s.pw.emCool then
      let s : State := { s with pw := { s.pw with coolantOk := true, emCool := false } }
      (s.thermal 7).trackNormal
    else { s with pw := { s.pw with coolantOk := true } })

/-! ### Dark quadrants (R358, R359) -/

/-- A placement reads or writes quadrant q. -/
def State.placingIn (s : State) (q : Nat) (p : Placing) : Bool :=
  p.qmask.testBit q ||
  (match p.src with
   | .addr a => decide (a / 0x80000000 = q)
   | .obj oid _ => s.pool.recs.any (fun r => r.tier == 3 - p.tier && r.oid == oid && r.copy == q)
   | .bytes _ _ => false)

/-- The quadrant is idle (R358). -/
def State.idleQuad (s : State) (q : Nat) : Bool :=
  !s.sv.jobs.any (fun j => (s.jobQuads j).testBit q &&
    (j.st == .running || j.st == .held || j.st == .preempting || j.st == .setting)) &&
  !s.pool.placing.any (s.placingIn q) && (s.quad q).queues.all (fun k => k.ents.isEmpty) &&
  !s.sv.reqs.any (fun r => r.home == q && (r.st == .parking || r.st == .resuming))

/-- QUADRANT_DARK (R358): idle for DARKWAIT and not kept lit. Memories keep their data. -/
def execQuadrantDark (q : Nat) (s : State) : Ans :=
  .next (
    let x := s.qdim q
    if s.isOn && s.bt.boot == 2 && decide (q < 4) && x.lit && s.pw.darkWait != 0xFFFFFFFF && !s.pw.litMask.testBit q && s.idleQuad q &&
        decide (x.idleSince + s.pw.darkWait ≤ s.now) then
      (s.updQd q (fun x => { x with lit := false, level := 0, demand := 0, filler := 0, vArray := 0, vSram := 550 })).setRdyMap
        (s.bt.rdy &&& ~~~quadBits q)
    else s)

/-- WAKE_COMPLETE (R359): rails, clocks, slot counter and level are up, then the RDY_MAP bits set. A dark quadrant stays dark
through a trip. -/
def execWakeComplete (q : Nat) (s : State) : Ans :=
  .next (
    if s.clocked && decide (q < 4) && (s.qdim q).waking then
      let v := s.bt.volts q s.pw.adiv2
      let s := s.updQd q (fun x => { x with lit := true, waking := false, level := s.pw.dimFloor, vArray := v.1, vSram := v.2, idleSince := s.now })
      let s := (s.updQuad q (fun x => { x with slotCtr := s.pw.cycle % slotWrap })).bump 0x82 q 3 1
      (s.setRdyMap (s.bt.rdy ||| quadBits q)).cxlDrain.settleReady
    else s)

/-! ### Commands (R351, R352, R361) -/

/-- DIM_CFG as it reads (R350). -/
def Power.dimCfg (p : Power) : Nat :=
  p.dimUp + p.dimDown * 2 ^ 10 + p.dimEmerg * 2 ^ 20 + p.dimFloor * 2 ^ 30 + p.dimCeil * 2 ^ 40 + (if p.emergency then 2 ^ 50 else 0)

/-- DIM_QSTAT of a quadrant as it reads (R350). -/
def QDim.stat (d : QDim) : Nat := d.level + d.demand * 2 ^ 10 + d.filler * 2 ^ 20 + (if d.lit then 2 ^ 30 else 0)

/-- POWER_CAP_SET's own rule. -/
def State.capRule (p : Pkt) (s : State) : State × Rep :=
  let c := p.at 0x40 2
  if c ≠ 0 ∧ (c < 1000 ∨ c > 3600) then (s, .bad 0x40)
  else
    let old := s.pw.cap
    let s : State := { s with pw := { s.pw with hostCap := c } }
    (if s.pw.cap = old then s else s.power 8, .fin DONE (s.pw.cap + s.pw.hostCap * 2 ^ 16 + s.pw.mgmtCap * 2 ^ 32))

/-- POWER_CAP_SET (R352). -/
def execPowerCapSet (f slot : Nat) (s : State) : Ans := .next (s.command f slot 0x0701 State.capRule)

/-- DIMMER_SET's own rule. -/
def State.dimmerRule (p : Pkt) (s : State) : State × Rep :=
  let keep (v old : Nat) : Nat := if v = 0 then old else v
  let up := p.at 0x40 2
  let dn := p.at 0x42 2
  let em := p.at 0x44 2
  let fl := p.at 0x46 2
  let dw := p.at 0x4C 4
  if up ≠ 0 ∧ !within up 10 100 then (s, .bad 0x40)
  else if dn ≠ 0 ∧ !within dn 10 100 then (s, .bad 0x42)
  else if em ≠ 0 ∧ !within em 50 250 then (s, .bad 0x44)
  else if fl > 500 ∨ keep fl s.pw.dimFloor > s.pw.dimCeil then (s, .bad 0x46)
  else if dw > 2 ^ 31 ∧ dw ≠ 0xFFFFFFFF then (s, .bad 0x4C)
  else
    let pw : Power := { s.pw with
      dimUp := keep up s.pw.dimUp, dimDown := keep dn s.pw.dimDown, dimEmerg := keep em s.pw.dimEmerg, dimFloor := keep fl s.pw.dimFloor
      darkWait := keep dw s.pw.darkWait
      litMask := if (p.at 0x48 1).testBit 1 then bits (p.at 0x49 1) 0 4 else s.pw.litMask }
    let s : State := { s with pw := pw }
    let s := (maskList pw.litMask 4).foldl State.wake s
    let val := pw.dimCfg + pw.litMask * 2 ^ 64 + pw.darkWait * 2 ^ 96
    if (p.at 0x48 1).testBit 0 then
      (s.queueSettings (some (p.f, p.n)) val (fun x =>
        { x with up := pw.dimUp, down := pw.dimDown, emerg := pw.dimEmerg, floor := pw.dimFloor, darkWait := pw.darkWait }), .later)
    else (s, .fin DONE val)

/-- DIMMER_SET (R351). -/
def execDimmerSet (f slot : Nat) (s : State) : Ans := .next (s.command f slot 0x0702 State.dimmerRule)

/-- VAL of THERMAL_QUERY (R361). -/
def State.thermalVal (s : State) : Nat :=
  let p := s.pw
  let h := p.hottest
  let sensor (i : Nat) : Nat := (p.sensors.getD i 0x8000#16).toNat
  let dark := (List.range 4).foldl (fun n q => if s.dark q then n + 2 ^ q else n) 0
  h.2.toNat + h.1 * 2 ^ 16 + p.adiv2 * 2 ^ 24 + p.code * 2 ^ 32 + (if p.pwrAlert then 2 ^ 35 else 0) + (if p.coolantOk then 2 ^ 36 else 0) +
  p.powerW % 2 ^ 16 * 2 ^ 48 + p.vinMv / 10 % 2 ^ 16 * 2 ^ 64 + p.dimCeil * 2 ^ 80 + dark * 2 ^ 90 + sensor 132 * 2 ^ 96 + sensor 133 * 2 ^ 112 +
  p.cap * 2 ^ 128

/-- The report of THERMAL_QUERY: 138 entries of 2 bytes. -/
def State.thermalBytes (s : State) : List Byte :=
  (s.pw.sensors.flatMap (fun t => leBytes 2 t.toNat)) ++ (List.range 4).flatMap (fun q => leBytes 2 (s.qdim q).level)

/-- THERMAL_QUERY's own rule. -/
def State.thermalRule (p : Pkt) (s : State) : State × Rep :=
  let a := p.at 0x40 8
  let len := p.at 0x48 4
  if a % 8 ≠ 0 then (s, .bad 0x40)
  else if (if a = 0 then decide (len ≠ 0) else !within len 8 276) then (s, .bad 0x48)
  else if a = 0 then (s, .fin DONE s.thermalVal)
  else
    match s.report p 0x40 a (len / 2 * 2) s.thermalBytes 0 with
    | (s, .fin _ _) => (s, .fin DONE s.thermalVal)
    | r => r

/-- THERMAL_QUERY (R361). -/
def execThermalQuery (f slot : Nat) (s : State) : Ans := .next (s.command f slot 0x0705 State.thermalRule)

end Sys2Proof.Machine
end

