-- ==== Sys2Proof/Machine/Firmware.lean ====
section
/-! DEFINITION. Firmware update, activation, ROM recovery and attestation (R387 to R403). -/

namespace Sys2Proof.Machine

open Config

/-! ### Staging (R389 to R392) -/

/-- The staging's copy in the repertory. -/
def State.stagingRec (s : State) (g : Staging) : Option Rec := (s.pool.copies 2 g.oid).head?

/-- Check a header as IMAGE_BEGIN does and reserve its staging: DONE with the object's ID, or the failure's status. -/
def State.beginStaging (s : State) (h : List Byte) (pldm : Bool) : Nat × Nat × State :=
  let st := s.bt.checkHeader h s.bt.svnMin
  if st ≠ DONE then (st, 0, s.firmware 3 st (imgVersion h))
  else
    let s := s.dropStaging s.bt.staging
    let s : State := { s with bt := { s.bt with staging := none } }
    let oid := s.nextOid 3
    match s.reserveNew 3 (newRec oid 2 1 (imgLength h) 0 0 0) false with
    | (none, s) => (NOSPACE, 0, s.loseGone)
    | (some s, _) =>
      let s := s.loseGone
      let g : Staging := { oid := oid, hdr := h, len := imgLength h, pages := [], pldm := pldm }
      let s : State := { s with bt := { s.bt with staging := some g }, pool := { s.pool with pins := s.pool.pins ++ [(2, oid)] } }
      (DONE, oid, s.firmware 1 DONE (imgVersion h))

/-- Write a block, laid out as cells with its poison, into the staging and mark its pages. -/
def State.stageBlock (s : State) (g : Staging) (off n : Nat) (cells : Mem) (pois : List (Nat × Nat)) : State :=
  match s.stagingRec g with
  | none => s
  | some r =>
    let s := s.fill (r.ranges off n) 0 cells pois
    let pages := ((List.range (n / 4096)).map (off / 4096 + ·)).filter (fun k => !g.pages.contains k)
    { s with bt := { s.bt with staging := some { g with pages := g.pages ++ pages } } }

/-- The lowest body offset whose page has not been received. -/
def Staging.missing (g : Staging) : Option Nat := ((List.range (g.len / 4096)).find? (fun k => !g.pages.contains k)).map (4096 * ·)

/-- Arm a whole staging: its digest decides. DONE, or IMAGE_REJECTED with the staging evicted. -/
def State.armStaging (s : State) (g : Staging) : Nat × State :=
  let (bs, bad) := match s.stagingRec g with
    | some r => s.readCopy r 0 g.len
    | none => ([], true)
  if bad || shake256 bs 64 != imgDigest g.hdr then
    let s := s.dropStaging (some g)
    let s : State := { s with bt := { s.bt with staging := none } }
    (REJECTED, s.firmware 3 REJECTED (imgVersion g.hdr))
  else
    let s := s.dropStaging s.bt.armed
    let s : State := { s with
      bt := { s.bt with staging := none, armed := some g }
      pool := { s.pool with recs := s.pool.recs.map (fun (r : Rec) => if r.tier == 2 && r.oid == g.oid then { r with committed := true } else r) } }
    let s : State := { s with pool := s.pool.stamp 2 g.oid s.stampNow }
    (DONE, s.firmware 2 DONE (imgVersion g.hdr))

/-- A PLDM update owns the staging. -/
def State.pldmOwns (s : State) : Bool := s.mg.pldm != .idle

/-- A host-window or staging-window range, 128-byte aligned; `none` when it is neither, or a byte of it is a hole. -/
def State.imgSource (s : State) (f a n : Nat) : Option (Mem × List (Nat × Nat)) :=
  if a % 128 ≠ 0 then none
  else if isHost a then (if s.reachable f a n false then some (s.gather ((s.fn f).pieces 7 a n) 0) else none)
  else if inWindow a n then some (s.gather [.dev a n] 0)
  else none

/-- IMAGE_BEGIN's own rule. -/
def State.imageBeginRule (h : HostView) (p : Pkt) (s : State) : State × Rep :=
  let s := s.withHost h
  if s.pldmOwns then (s, .fin BUSY 0)
  else
    match s.imgSource p.f (p.at 0x40 8) 8192 with
    | none => (s, .bad 0x40)
    | some (cells, pois) =>
      if !s.rdy 25 then (s, .fin NOTREADY 0)
      else if !pois.isEmpty then (s.firmware 3 REJECTED 0, .fin REJECTED 0)
      else
        let (st, oid, s) := s.beginStaging (memRead cells 0 8192) false
        (s, .fin st oid)

/-- IMAGE_BEGIN (R390). -/
def execImageBegin (f slot : Nat) (h : HostView) (s : State) : Ans := .next (s.command f slot 0x0801 (State.imageBeginRule h))

/-- IMAGE_DATA's own rule. -/
def State.imageDataRule (h : HostView) (p : Pkt) (s : State) : State × Rep :=
  let s := s.withHost h
  let off := p.at 0x48 4
  let len := p.at 0x4C 4
  if s.pldmOwns then (s, .fin BUSY 0)
  else
    match s.bt.staging with
    | none => (s, .bad 0xFFFF)
    | some g =>
      if off % 4096 ≠ 0 then (s, .bad 0x48)
      else if len < 4096 ∨ len > 16777216 ∨ len % 4096 ≠ 0 ∨ off + len > g.len then (s, .bad 0x4C)
      else
        match s.imgSource p.f (p.at 0x40 8) len with
        | none => (s, .bad 0x40)
        | some (cells, pois) =>
          if isHost (p.at 0x40 8) && !pois.isEmpty then (s, .fin REJECTED 0)
          else (s.stageBlock g off len cells pois, .fin DONE 0)

/-- IMAGE_DATA (R391). -/
def execImageData (f slot : Nat) (h : HostView) (s : State) : Ans := .next (s.command f slot 0x0802 (State.imageDataRule h))

/-- IMAGE_ARM's own rule. -/
def State.imageArmRule (_ : Pkt) (s : State) : State × Rep :=
  if s.pldmOwns then (s, .fin BUSY 0)
  else
    match s.bt.staging with
    | none => (s, .bad 0xFFFF)
    | some g =>
      match g.missing with
      | some off => (s, .bad off)
      | none => let (st, s) := s.armStaging g; (s, .fin st 0)

/-- IMAGE_ARM (R392). -/
def execImageArm (f slot : Nat) (s : State) : Ans := .next (s.command f slot 0x0803 State.imageArmRule)

/-! ### Activation (R393 to R396) -/

/-- VERSION of the armed image. -/
def Boot.armedVersion (b : Boot) : Nat := match b.armed with | some g => imgVersion g.hdr | none => 0

/-- An activation is asked for: it becomes pending, once. -/
def State.askActivation (s : State) : State :=
  if s.bt.act == .idle then ({ s with bt := { s.bt with act := .waiting } } : State).firmware 4 DONE s.bt.armedVersion else s

/-- ACTIVATE's own rule. -/
def State.activateRule (p : Pkt) (s : State) : State × Rep :=
  match p.at 0x40 1 with
  | 0 => if s.bt.armed.isNone then (s, .bad 0x40) else (s.askActivation, .fin DEFERRED 0)
  | 1 =>
    match s.bt.act with
    | .loading => (s, .fin ALREADY 0)
    | .waiting => (({ s with bt := { s.bt with act := .idle } } : State).firmware 8 DONE s.bt.armedVersion, .fin DONE 0)
    | .idle => (s, .fin DONE 0)
  | _ => (s, .bad 0x40)

/-- ACTIVATE (R393). -/
def execActivate (f slot : Nat) (s : State) : Ans := .next (s.command f slot 0x0804 State.activateRule)

/-- A pending activation starts (R394). -/
def State.activates (s : State) : Bool :=
  s.isOn && s.bt.boot == 2 && s.bt.act == .waiting && s.bt.armed.isSome && s.sv.jobs.all (fun j => j.st == .queued) && s.normal1000 && !s.bt.programming

/-- ACTIVATION_START (R394, R395 steps 1 and 2): loans are recalled and end, bits 0 and 46 clear, and the region is erased. What the
handover record holds stays in the state. -/
def execActivationStart (s : State) : Ans :=
  .next (
    if !s.activates then s
    else
      let s := (s.pool.given.filter (fun g => g.recalled.isNone && decide (g.peer < 0x20000))).foldl
        (fun s g => s.tell g.peer { msg0 0x13 with a0 := arg g.id }) s
      let s := s.endLoans (fun _ => true)
      let v := s.bt.armedVersion
      let s := s.setRdyMap (s.bt.rdy &&& ~~~(1#47 ||| (1#47 <<< 46)))
      let s : State := { s with bt := { s.bt with boot := 0, act := .loading, fwHdr := [], fwBody := [] } }
      s.firmware 5 DONE v)

/-- What an activation restart empties (R382). -/
def Quad.restarted (x : Quad) : Quad :=
  { x with scenes := Quad.reset.scenes, detours := Quad.reset.detours, hops := [], loads := [], aeq := Quad.reset.aeq, cues := Quad.reset.cues, disps := Quad.reset.disps
           queues := Quad.reset.queues, rt := Routing.reset }

/-- ACTIVATION_RESTART (R395 steps 3 to 5, R397): the image is in flash, the boot check passes, and the stage manager goes on from
the handover record. `readback`: every sector read back right within three attempts. Else, or on a failed check, ROM recovery. -/
def execActivationRestart (readback : Bool) (s : State) : Ans :=
  .next (
    if !s.isOn || s.bt.act != .loading then s
    else
      match s.bt.armed with
      | none => s.enterRecovery
      | some g =>
        let body := match s.stagingRec g with | some r => (s.readCopy r 0 g.len).1 | none => []
        let s := s.dropStaging (some g)
        let s : State := { s with bt := { s.bt with fwHdr := if readback then g.hdr else [], fwBody := body, armed := none, act := .idle } }
        if !readback || !s.bt.imageOk then s.enterRecovery
        else
          let s : State := { s with
            bt := { s.bt with boot := 2, runHdr := g.hdr }
            quads := s.quads.map Quad.restarted
            fab := { s.fab with queues := List.replicate 16 [], xback := [], ctrs := List.replicate 64 0 }
            fns := s.fns.map (fun (x : Fn) => { x with leaseStart := s.now }) }
          let s := s.setRdyMap (s.bt.rdy ||| 1#47 ||| (1#47 <<< 46))
          let s := s.firmware 6 DONE (imgVersion g.hdr)
          let s :=
            if settingsOk s.bt.setPage && (settingsOf s.bt.setPage).format != imgSetfmt g.hdr then
              (s.queuePage { Settings.defaults with format := imgSetfmt g.hdr }.bytes none 0).firmware 7 DONE (imgVersion g.hdr)
            else s
          (s.releaseHeld).settleReady)

/-! ### ROM recovery (R398, R399) -/

/-- Set the recovery window's result registers. -/
def State.rcSet (s : State) (state status : Nat) : State :=
  { s with bt := { s.bt with rc := { s.bt.rc with state := state, status := status } } }

/-- The recovery window answers. -/
def State.rcOn (s : State) : Bool := s.isOn && s.bt.boot == 3

/-- Accept a header in recovery and erase the region; nothing is erased when a check fails. -/
def State.rcBegin (s : State) (h : List Byte) : State :=
  let st := s.bt.checkHeader h 0
  if st ≠ DONE then s.rcSet 4 st
  else { s with bt := { s.bt with fwHdr := h, fwBody := [], rc := { s.bt.rc with state := 2, status := DONE, done := 0, hdr := some h } } }

/-- Write bytes into a flash region at an offset; what lies between stays erased. -/
def flashWrite (old : List Byte) (off : Nat) (bs : List Byte) : List Byte :=
  flashBytes old off ++ bs ++ old.drop (off + bs.length)

/-- RC_BEGIN (R398, R399). -/
def execRcBegin (s : State) : Ans := .next (if s.rcOn then s.rcBegin (memRead s.bt.rc.buf 0 8192) else s)

/-- RC_CHUNK (R399). -/
def execRcChunk (s : State) : Ans :=
  .next (
    if !s.rcOn then s
    else
      let r := s.bt.rc
      match r.hdr with
      | none => s.rcSet r.state BAD
      | some h =>
        if r.off % 65536 ≠ 0 ∨ r.len < 4096 ∨ r.len > 65536 ∨ r.len % 4096 ≠ 0 ∨ r.off + r.len > imgLength h then s.rcSet r.state BAD
        else
          { s with bt := { s.bt with
              fwBody := flashWrite s.bt.fwBody r.off (memRead r.buf 0 r.len)
              rc := { r with state := 2, status := DONE, done := (r.done + 1) % 65536 } } })

/-- RC_FINISH (R398, R399): the digest from flash decides. -/
def execRcFinish (s : State) : Ans :=
  .next (
    if !s.rcOn then s
    else
      match s.bt.rc.hdr with
      | none => s.rcSet s.bt.rc.state BAD
      | some h => if shake256 (s.bt.bodyOf h) 64 == imgDigest h then s.rcSet 3 DONE else s.rcSet 4 REJECTED)

/-- RC_REBOOT (R399): the device restarts as at power-up. `failed`: the sites that fail the self-test. -/
def execRcReboot (failed : List Site) (s : State) : Ans := .next (if s.rcOn then s.bootUp s.bt.strap failed else s)

/-! ### Identity and attestation (R401 to R403) -/

/-- The public key of the identity key pair: 1,952 bytes. -/
def identityKey : List Byte := (List.range 1952).map (fun i => identityPub.getD i 0#8)

/-- IDENTITY's own rule. -/
def State.identityRule (p : Pkt) (s : State) : State × Rep :=
  let len := p.at 0x50 4
  if p.at 0x40 1 > 1 then (s, .bad 0x40)
  else if p.at 0x48 8 % 8 ≠ 0 then (s, .bad 0x48)
  else if !within len 8 262144 then (s, .bad 0x50)
  else s.report p 0x48 (p.at 0x48 8) len (if p.at 0x40 1 = 0 then s.bt.chain else identityKey) (s.bt.serial % 2 ^ 64 * 2 ^ 64)

/-- IDENTITY (R401). -/
def execIdentity (f slot : Nat) (s : State) : Ans := .next (s.command f slot 0x0805 State.identityRule)

/-- A signature by the identity key: 3,309 bytes. -/
def signature (m : List Byte) : List Byte := (List.range 3309).map (fun i => (identitySign m).getD i 0#8)

/-- The signed part of an ATTEST report (R402). -/
def State.attestBody (s : State) (nonce : List Byte) (epoch : Nat) (ms : List Nat) : List Byte :=
  leBytes 8 s.bt.serial ++ nonce ++ leBytes 8 s.now ++ leBytes 2 epoch ++ leBytes 2 ms.length ++ List.replicate 12 0#8 ++
  ms.flatMap (fun i => leBytes 16 i ++ s.bt.measure i)

/-- ATTEST's own rule. -/
def State.attestRule (p : Pkt) (s : State) : State × Rep :=
  let ms := (List.range 8).filter (fun i => i ≠ 0 && (p.at 0x60 1).testBit i)
  let len := p.at 0x70 4
  if len < 0x40 + 80 * ms.length + 3309 then (s, .bad 0x70)
  else
    let body := s.attestBody (p.bytesAt 0x40 32) (s.fn p.f).epoch ms
    s.report p 0x68 (p.at 0x68 8) len (body ++ signature body) 0

/-- ATTEST (R402). -/
def execAttest (f slot : Nat) (s : State) : Ans := .next (s.command f slot 0x0806 State.attestRule)

end Sys2Proof.Machine
end

