-- ==== Sys2Proof/Machine/Mgmt.lean ====
section
/-! DEFINITION. The management endpoint (R404 to R406, R419): I3C addresses, MCTP control, SPDM, PLDM and the Drigrim vendor messages.
Answers go to `mg.out`, newest first. The spec names the messages and their effect; numbers of the DMTF standards behind them
(completion codes, command codes, capability flags) are PRESUMED (log 25). -/

namespace Sys2Proof.Machine

open Config

/-- Answer a message: its name, completion code and content. -/
def State.say (s : State) (name : String) (code : Nat) (body : List Byte) : State :=
  { s with mg := { s.mg with out := { name := name, code := code, body := body } :: s.mg.out } }

/-- The endpoint has its supply (R415, R419). -/
def State.mgOn (s : State) : Bool := s.pw.phase != .unpowered

/-! ### I3C and MCTP (R404, R419) -/

/-- ENTDAA (R419): an endpoint without a dynamic address takes one. -/
def execEntdaa (addr : Nat) (s : State) : Ans :=
  .next (if s.mgOn && s.mg.dyn.isNone then { s with mg := { s.mg with dyn := some addr } } else s)

/-- SETDASA (R419): at the static address 0x48 + STRAP. -/
def execSetdasa (static addr : Nat) (s : State) : Ans :=
  .next (if s.mgOn && s.mg.dyn.isNone && decide (static = 0x48 + s.bt.strap) then { s with mg := { s.mg with dyn := some addr } } else s)

/-- MCTP_CONTROL (R404): Set and Get Endpoint ID, Get Version, and Get Message Types, which are PLDM, SPDM and the vendor's; others
are unsupported. -/
def execMctpControl (code : Nat) (body : List Byte) (s : State) : Ans :=
  .next (
    if !s.mgOn then s
    else
      match code with
      | 1 =>
        let e := (body.getD 1 0).toNat
        ({ s with mg := { s.mg with eid := e } } : State).say "SetEndpointID" 0 (leBytes 1 e)
      | 2 => s.say "GetEndpointID" 0 (leBytes 1 s.mg.eid)
      | 4 => s.say "GetMCTPVersion" 0 [0xF1, 0xF3, 0xF1, 0x00]
      | 5 => s.say "GetMessageTypeSupport" 0 [3, 0x01, 0x05, 0x7F]
      | _ => s.say "MCTPControl" 5 [])

/-! ### SPDM (R405) -/

/-- SPDM answers from BOOT = 1 onward and in ROM recovery, not in standby. -/
def State.spdmOn (s : State) : Bool := s.isOn && s.bt.boot != 0

/-- An SPDM ERROR. -/
def State.spdmErr (s : State) (code : Nat) : State := s.say "ERROR" code []

/-- An SPDM response, which CHUNK_GET may read again in parts. -/
def State.spdmSay (s : State) (name : String) (body : List Byte) : State :=
  let s : State := { s with mg := { s.mg with large := body } }
  s.say name 0 body

/-- A signed response: whether the device answers at once or asks the requester to come back is free (log 9). -/
def State.spdmSigned (s : State) (name : String) (body : List Byte) : State :=
  let (n, s) := s.freeVal
  let bs := body ++ signature body
  if n % 2 = 0 then s.spdmSay name bs
  else ({ s with mg := { s.mg with deferred := some bs } } : State).spdmErr 0x42

/-- The certificate chain's digest. -/
def Boot.chainDigest (b : Boot) : List Byte := shake256 b.chain 64

/-- GET_VERSION (R405): only version 1.3. -/
def execGetVersion (s : State) : Ans :=
  .next (
    if s.spdmOn then ({ s with mg := { s.mg with versioned := true, negotiated := false } } : State).spdmSay "VERSION" [0x13] else s)

/-- GET_CAPABILITIES (R405): CERT_CAP, CHAL_CAP, MEAS_CAP with signature, CHUNK_CAP. -/
def execGetCapabilities (s : State) : Ans :=
  .next (
    if !s.spdmOn then s
    else if s.mg.versioned then s.spdmSay "CAPABILITIES" (leBytes 4 0x20016) else s.spdmErr 0x04)

/-- NEGOTIATE_ALGORITHMS (R405): `asym` and `hash` tell whether the requester offers ML-DSA-65 and SHAKE256. -/
def execNegotiateAlgorithms (asym hash : Bool) (s : State) : Ans :=
  .next (
    if !s.spdmOn then s
    else if s.mg.versioned then
      let s : State := { s with mg := { s.mg with negotiated := asym && hash } }
      s.spdmSay "ALGORITHMS" [if asym then 1 else 0, if hash then 1 else 0]
    else s.spdmErr 0x04)

/-- GET_DIGESTS (R405): certificate slot 0 only. -/
def execGetDigests (s : State) : Ans :=
  .next (
    if !s.spdmOn then s
    else if s.mg.negotiated then s.spdmSay "DIGESTS" (1 :: s.bt.chainDigest) else s.spdmErr 0x04)

/-- GET_CERTIFICATE (R405): a portion of slot 0's chain and the length of what is left. -/
def execGetCertificate (slot off len : Nat) (s : State) : Ans :=
  .next (
    if !s.spdmOn then s
    else if !s.mg.negotiated then s.spdmErr 0x04
    else if slot ≠ 0 ∨ off > s.bt.chain.length then s.spdmErr 0x01
    else
      let part := (s.bt.chain.drop off).take len
      s.spdmSay "CERTIFICATE" (leBytes 2 part.length ++ leBytes 2 (min 0xFFFF (s.bt.chain.length - off - part.length)) ++ part))

/-- CHALLENGE (R405): signed over the chain's digest and the nonce. -/
def execChallenge (slot : Nat) (nonce : List Byte) (s : State) : Ans :=
  .next (
    if !s.spdmOn then s
    else if !s.mg.negotiated then s.spdmErr 0x04
    else if slot ≠ 0 then s.spdmErr 0x01
    else s.spdmSigned "CHALLENGE_AUTH" (s.bt.chainDigest ++ nonce))

/-- The measurement blocks an index asks for: one, or with 0xFF all seven (R403). -/
def State.measBlocks (s : State) (index : Nat) : List Byte :=
  if index = 0 then [7]
  else
    let ms := if index = 0xFF then (List.range 7).map (· + 1) else [index]
    leBytes 1 ms.length ++ ms.flatMap (fun i => leBytes 1 i ++ s.bt.measure i)

/-- GET_MEASUREMENTS (R403, R405): indices 1 to 7, signed; index 0 asks for their number. -/
def execGetMeasurements (index : Nat) (nonce : List Byte) (s : State) : Ans :=
  .next (
    if !s.spdmOn then s
    else if !s.mg.negotiated then s.spdmErr 0x04
    else if index > 7 ∧ index ≠ 0xFF then s.spdmErr 0x01
    else s.spdmSigned "MEASUREMENTS" (s.measBlocks index ++ nonce))

/-- CHUNK_GET (R405): a part of 1,024 bytes of the last response. -/
def execChunkGet (handle seq : Nat) (s : State) : Ans :=
  .next (
    if !s.spdmOn then s
    else if 1024 * seq < s.mg.large.length then
      s.say "CHUNK_RESPONSE" 0 (leBytes 1 handle ++ leBytes 2 seq ++ (s.mg.large.drop (1024 * seq)).take 1024)
    else s.spdmErr 0x01)

/-- RESPOND_IF_READY (R405): the deferred response. -/
def execRespondIfReady (token : Nat) (s : State) : Ans :=
  .next (
    if !s.spdmOn then s
    else
      match s.mg.deferred with
      | some bs => ({ s with mg := { s.mg with deferred := none } } : State).spdmSay "RESPOND_IF_READY" (leBytes 1 token ++ bs)
      | none => s.spdmErr 0x04)

/-! ### PLDM base and monitoring (R405) -/

/-- GetTID. -/
def execGetTid (s : State) : Ans := .next (if s.mgOn then s.say "GetTID" 0 (leBytes 1 s.mg.tid) else s)

/-- SetTID: 0 and 255 are reserved. -/
def execSetTid (tid : Nat) (s : State) : Ans :=
  .next (
    if !s.mgOn then s
    else if 1 ≤ tid ∧ tid ≤ 254 then ({ s with mg := { s.mg with tid := tid } } : State).say "SetTID" 0 []
    else s.say "SetTID" 2 [])

/-- The version of a PLDM type (R405). -/
def pldmVersion (type : Nat) : Option (List Byte) :=
  match type with
  | 0 => some [0xF1, 0xF1, 0xF0, 0x00]
  | 2 => some [0xF1, 0xF2, 0xF0, 0x00]
  | 5 => some [0xF1, 0xF1, 0xF0, 0x00]
  | _ => none

/-- GetPLDMVersion (R405). -/
def execGetPldmVersion (type : Nat) (s : State) : Ans :=
  .next (
    if !s.mgOn then s
    else match pldmVersion type with
      | some v => s.say "GetPLDMVersion" 0 v
      | none => s.say "GetPLDMVersion" 0x83 [])

/-- GetPLDMTypes: 0, 2 and 5 (R405). -/
def execGetPldmTypes (s : State) : Ans := .next (if s.mgOn then s.say "GetPLDMTypes" 0 (leBytes 8 0x25) else s)

/-- The commands of a PLDM type (R405). -/
def pldmCommands (type : Nat) : Option (List Nat) :=
  match type with
  | 0 => some [0x01, 0x02, 0x03, 0x04, 0x05]
  | 2 => some [0x04, 0x0A, 0x0C, 0x0D, 0x11, 0x21, 0x50, 0x51]
  | 5 => some [0x01, 0x02, 0x10, 0x13, 0x14, 0x15, 0x16, 0x17, 0x18, 0x1A, 0x1B, 0x1C, 0x1D]
  | _ => none

/-- GetPLDMCommands (R405). -/
def execGetPldmCommands (type : Nat) (s : State) : Ans :=
  .next (
    if !s.mgOn then s
    else match pldmCommands type with
      | some cs => s.say "GetPLDMCommands" 0 (leBytes 32 (cs.foldl (fun n c => n + 2 ^ c) 0))
      | none => s.say "GetPLDMCommands" 0x83 [])

/-- Sensors of the endpoint: those of R361, then input power and input voltage. -/
def sensorCount : Nat := 136

/-- A sensor that answers: in standby only input voltage and the coolant's (R405). -/
def State.sensorOn (s : State) (k : Nat) : Bool := decide (k < sensorCount) && (s.isOn || k == 132 || k == 133 || k == 135)

/-- A sensor's reading: sixteenths of a degree, watts, or units of 10 mV. -/
def State.sensorReading (s : State) (k : Nat) : Nat :=
  if k < 134 then (s.pw.sensors.getD k 0x8000#16).toNat else if k = 134 then s.pw.powerW else s.pw.vinMv / 10

/-- GetPDRRepositoryInfo: one record for each sensor. -/
def execGetPdrRepositoryInfo (s : State) : Ans := .next (if s.mgOn then s.say "GetPDRRepositoryInfo" 0 (leBytes 4 sensorCount) else s)

/-- GetPDR: record handle n is sensor n − 1's. -/
def execGetPdr (handle : Nat) (s : State) : Ans :=
  .next (
    if !s.mgOn then s
    else if 1 ≤ handle ∧ handle ≤ sensorCount then s.say "GetPDR" 0 (leBytes 4 handle ++ leBytes 2 (handle - 1))
    else s.say "GetPDR" 0x82 [])

/-- GetSensorReading (R361, R405). -/
def execGetSensorReading (sensor : Nat) (s : State) : Ans :=
  .next (
    if !s.mgOn then s
    else if s.sensorOn sensor then s.say "GetSensorReading" 0 (leBytes 2 (s.sensorReading sensor))
    else s.say "GetSensorReading" 0x80 [])

/-- GetStateSensorReadings: R405 gives no state sensor, so every ID is invalid. -/
def execGetStateSensorReadings (sensor : Nat) (s : State) : Ans :=
  .next (if s.mgOn then s.say "GetStateSensorReadings" 0x80 (leBytes 2 sensor) else s)

/-- SetEventReceiver (R405). -/
def execSetEventReceiver (enable : Nat) (addr : Nat) (s : State) : Ans :=
  .next (
    if s.mgOn then ({ s with mg := { s.mg with rcvEnable := enable, rcvAddr := addr } } : State).say "SetEventReceiver" 0 [] else s)

/-- EventMessageSupported: THERMAL, POWER, FIRMWARE, LINK_LOSS and FENCE_NOTICE (R405). -/
def execEventMessageSupported (s : State) : Ans :=
  .next (if s.mgOn then s.say "EventMessageSupported" 0 [0x30, 0x31, 0x40, 0x20, 0x21] else s)

/-- EventMessageBufferSize. -/
def execEventMessageBufferSize (size : Nat) (s : State) : Ans :=
  .next (
    if s.mgOn then ({ s with mg := { s.mg with bufSize := size } } : State).say "EventMessageBufferSize" 0 (leBytes 2 size) else s)

/-- PLATFORM_EVENT_RETRY (R405): an event without acknowledgement is sent again every 100,000 local µs, three times, then dropped. -/
def execPlatformEventRetry (n : Nat) (s : State) : Ans :=
  .next (
    match s.mg.evs.find? (·.n == n) with
    | none => s
    | some e =>
      if !s.mgOn || decide (s.now < e.lastUs + 100000) then s
      else if e.tries ≥ 3 then { s with mg := { s.mg with evs := s.mg.evs.filter (·.n != n) } }
      else
        let s : State := { s with mg := { s.mg with evs := s.mg.evs.map (fun (x : MgEv) => if x.n == n then { x with tries := x.tries + 1, lastUs := s.now } else x) } }
        s.say "PlatformEventMessage" 0 (leBytes 2 e.code ++ e.detail))

/-- EVENT_ACK (R406). -/
def execEventAck (n : Nat) (s : State) : Ans :=
  .next (
    if s.mgOn && s.bt.boot == 2 && s.isOn then
      ({ s with mg := { s.mg with evs := s.mg.evs.filter (·.n != n) } } : State).say "EVENT_ACK" 0 []
    else s)

/-! ### PLDM firmware update (R389, R398, R405) -/

/-- Type 5 answers while the stage manager or the ROM's recovery runs. -/
def State.fwOn (s : State) : Bool := s.isOn && (s.bt.boot == 2 || s.bt.boot == 3)

def State.setPldm (s : State) (st : Pldm) : State := { s with mg := { s.mg with pldm := st } }

/-- ALREADY_IN_UPDATE_MODE, NOT_IN_UPDATE_MODE, INVALID_STATE_FOR_COMMAND and ERROR_INVALID_DATA. -/
def codeBusy : Nat := 0x81
def codeNotUpdating : Nat := 0x80
def codeState : Nat := 0x84
def codeData : Nat := 0x02

/-- QueryDeviceIdentifiers (R423). -/
def execQueryDeviceIdentifiers (s : State) : Ans :=
  .next (if s.fwOn then s.say "QueryDeviceIdentifiers" 0 (leBytes 2 0x1E7A ++ leBytes 2 0x0640 ++ leBytes 2 0x1E7A ++ leBytes 2 0x0001) else s)

/-- GetFirmwareParameters: the running and the armed version. -/
def execGetFirmwareParameters (s : State) : Ans :=
  .next (if s.fwOn then s.say "GetFirmwareParameters" 0 (leBytes 4 (imgVersion s.bt.runHdr) ++ leBytes 4 s.bt.armedVersion) else s)

/-- RequestUpdate (R389, R405): refused while an update is open or a callboard staging exists; transfers are of 4,096 B. -/
def execRequestUpdate (maxTransfer : Nat) (s : State) : Ans :=
  .next (
    if !s.fwOn then s
    else if s.mg.pldm != .idle || s.bt.staging.isSome then s.say "RequestUpdate" codeBusy []
    else if maxTransfer < 4096 then s.say "RequestUpdate" codeData []
    else (s.setPldm .learn).say "RequestUpdate" 0 [])

/-- PassComponentTable: the single component. -/
def execPassComponentTable (comp : Nat) (s : State) : Ans :=
  .next (
    if !s.fwOn then s
    else if s.mg.pldm != .learn then s.say "PassComponentTable" (if s.mg.pldm == .idle then codeNotUpdating else codeState) []
    else (s.setPldm .ready).say "PassComponentTable" 0 (leBytes 2 comp))

/-- UpdateComponent (R398, R405): the checks of IMAGE_BEGIN, or in recovery those of the recovery window. -/
def execUpdateComponent (header : List Byte) (s : State) : Ans :=
  .next (
    if !s.fwOn then s
    else if s.mg.pldm != .ready then s.say "UpdateComponent" (if s.mg.pldm == .idle then codeNotUpdating else codeState) []
    else if s.bt.boot = 3 then
      let s := s.rcBegin header
      if s.bt.rc.state = 2 then
        ({ s.setPldm .download with mg := { (s.setPldm .download).mg with pldmOff := 0 } } : State).say "UpdateComponent" 0 []
      else s.say "UpdateComponent" s.bt.rc.status []
    else if !s.rdy 25 then s.say "UpdateComponent" NOTREADY []
    else
      let (st, _, s) := s.beginStaging header true
      if st = DONE then
        ({ s.setPldm .download with mg := { (s.setPldm .download).mg with pldmOff := 0 } } : State).say "UpdateComponent" 0 []
      else s.say "UpdateComponent" st [])

/-- A block of the body pulled by PLDM (R391, R398). -/
def State.pullBody (s : State) (off : Nat) (data : List Byte) : State :=
  if s.bt.boot = 3 then
    { s with bt := { s.bt with fwBody := flashWrite s.bt.fwBody off data
                               rc := { s.bt.rc with done := (off + data.length) / 65536 % 65536 } } }
  else
    match s.bt.staging with
    | some g => if off + data.length ≤ g.len then s.stageBlock g off data.length (memWrite [] 0 data) [] else s
    | none => s

/-- REQUEST_FIRMWARE_DATA (R405): the next 4,096 B of the component, which is the header and then the body. -/
def execRequestFirmwareData (off : Nat) (data : List Byte) (s : State) : Ans :=
  .next (
    if !s.fwOn || s.mg.pldm != .download || decide (off ≠ s.mg.pldmOff) || decide (data.length ≠ 4096) then s
    else
      let s : State := { s with mg := { s.mg with pldmOff := off + 4096 } }
      if off < 8192 then s else s.pullBody (off - 8192) data)

/-- Drop a PLDM staging, telling the host why. -/
def State.dropPldm (s : State) (status : Nat) : State :=
  match s.bt.staging with
  | some g => if g.pldm then ({ s.dropStaging (some g) with bt := { s.bt with staging := none } } : State).firmware 3 status (imgVersion g.hdr) else s
  | none => s

/-- TransferComplete: on success the image is verified next. -/
def execTransferComplete (result : Nat) (s : State) : Ans :=
  .next (
    if !s.fwOn || s.mg.pldm != .download then s
    else if result = 0 then (s.setPldm .verify).say "TransferComplete" 0 []
    else ((s.dropPldm CANCELLED).setPldm .ready).say "TransferComplete" 0 (leBytes 1 result))

/-- VerifyComplete (R392, R398, R405): follows IMAGE_ARM; in recovery the digest is computed from flash, and a match restarts the
device through the ROM (`failed`: the sites that then fail the self-test). -/
def execVerifyComplete (failed : List Site) (s : State) : Ans :=
  .next (
    if !s.fwOn || s.mg.pldm != .verify then s
    else if s.bt.boot = 3 then
      match s.bt.rc.hdr with
      | none => s.setPldm .ready
      | some h =>
        if shake256 (s.bt.bodyOf h) 64 == imgDigest h then (s.say "VerifyComplete" 0 []).bootUp s.bt.strap failed
        else ((s.rcSet 4 REJECTED).setPldm .ready).say "VerifyComplete" REJECTED []
    else
      match s.bt.staging with
      | none => s.setPldm .ready
      | some g =>
        if g.missing.isSome then ((s.dropPldm REJECTED).setPldm .ready).say "VerifyComplete" REJECTED []
        else
          let (st, s) := s.armStaging g
          (s.setPldm (if st = DONE then .apply else .ready)).say "VerifyComplete" st [])

/-- ApplyComplete: the image is armed already. -/
def execApplyComplete (s : State) : Ans :=
  .next (if s.fwOn && s.mg.pldm == .apply then (s.setPldm .ready).say "ApplyComplete" 0 [] else s)

/-- ActivateFirmware (R393, R405): as ACTIVATE with ACTION 0; it closes an open update. -/
def execActivateFirmware (selfContained : Bool) (s : State) : Ans :=
  .next (
    if !s.fwOn || s.bt.boot != 2 then s
    else if !selfContained then s.say "ActivateFirmware" codeData []
    else if s.bt.armed.isNone || !(s.mg.pldm == .idle || s.mg.pldm == .ready) then s.say "ActivateFirmware" codeState []
    else (s.askActivation.setPldm .idle).say "ActivateFirmware" 0 [])

/-- The state GetStatus reports. -/
def Pldm.code : Pldm → Nat
  | .idle => 0
  | .learn => 1
  | .ready => 2
  | .download => 3
  | .verify => 4
  | .apply => 5

/-- GetStatus. -/
def execGetStatus (s : State) : Ans :=
  .next (if s.fwOn then s.say "GetStatus" 0 (leBytes 1 (if s.bt.act == .idle then s.mg.pldm.code else 6)) else s)

/-- CancelUpdateComponent: the transfer is given up. -/
def execCancelUpdateComponent (s : State) : Ans :=
  .next (
    if !s.fwOn then s
    else if s.mg.pldm == .download || s.mg.pldm == .verify || s.mg.pldm == .apply then
      ((s.dropPldm CANCELLED).setPldm .ready).say "CancelUpdateComponent" 0 []
    else s.say "CancelUpdateComponent" (if s.mg.pldm == .idle then codeNotUpdating else codeState) [])

/-- CancelUpdate: the update is closed. -/
def execCancelUpdate (s : State) : Ans :=
  .next (
    if !s.fwOn then s
    else if s.mg.pldm == .idle then s.say "CancelUpdate" codeNotUpdating []
    else ((s.dropPldm CANCELLED).setPldm .idle).say "CancelUpdate" 0 [])

/-! ### Vendor messages (R406) -/

/-- The vendor messages answer from BOOT = 2. -/
def State.vendorOn (s : State) : Bool := s.isOn && s.bt.boot == 2

/-- SETTINGS_READ: the page as stored, also in standby and in recovery. -/
def execSettingsRead (s : State) : Ans :=
  .next (
    if s.mgOn && (!s.isOn || s.bt.boot == 2 || s.bt.boot == 3) then s.say "SETTINGS_READ" 0 (flashBytes s.bt.setPage 4096) else s)

/-- SETTINGS_WRITE: a page that passes R386 is programmed; another is refused. -/
def execSettingsWrite (page : List Byte) (s : State) : Ans :=
  .next (
    if !s.vendorOn then s
    else if settingsOk page then (s.queuePage page none 0).say "SETTINGS_WRITE" DONE []
    else s.say "SETTINGS_WRITE" BAD [])

/-- CAP_SET (R352): the management cap; with the persist flag MGMTCAP too. -/
def execCapSet (cap : Nat) (persist : Bool) (s : State) : Ans :=
  .next (
    if !s.vendorOn then s
    else if cap ≠ 0 ∧ (cap < 1000 ∨ cap > 3600) then s.say "CAP_SET" BAD []
    else
      let old := s.pw.cap
      let s : State := { s with pw := { s.pw with mgmtCap := cap } }
      let s := if s.pw.cap = old then s else s.power 8
      let s := if persist then s.queueSettings none 0 (fun x => { x with mgmtCap := cap }) else s
      s.say "CAP_SET" DONE [])

/-- CALIBRATION_TRANSFER (R346, R406): sixteen parts of 4,096 B; once whole the page is checked and waits to be programmed. -/
def execCalibrationTransfer (part : Nat) (data : List Byte) (s : State) : Ans :=
  .next (
    if !s.vendorOn then s
    else if part > 15 ∨ data.length ≠ 4096 then s.say "CALIBRATION_TRANSFER" BAD []
    else
      let parts := put s.mg.calParts part data
      let whole := (List.range 16).all (fun i => (look parts i).isSome)
      if !whole then ({ s with mg := { s.mg with calParts := parts } } : State).say "CALIBRATION_TRANSFER" DONE []
      else
        let page := (List.range 16).flatMap (fun i => (look parts i).getD [])
        let s : State := { s with mg := { s.mg with calParts := [] } }
        if s.bt.flashOps.any (·.calib) then s.say "CALIBRATION_TRANSFER" BUSY []
        else if (calBad page s.bt.serial).isSome then s.say "CALIBRATION_TRANSFER" BAD []
        else (s.queueCal page none).say "CALIBRATION_TRANSFER" DONE [])

end Sys2Proof.Machine
end

