-- ==== Sys2Proof/Machine/Reports.lean ====
section
/-! DEFINITION. The diagnostic commands COUNTERS_READ, STRIKE_READ, UNIT_TEST and UNDERSTUDY_MAP (R307 to R310, R59 to
R62, R86), and the end of one site's test. -/

namespace Sys2Proof.Machine

open Config

/-! ### COUNTERS_READ (R307) -/

/-- `n` counters of a group and scope from place `ix`. -/
def State.ctrs (s : State) (g scope ix n : Nat) : List Nat := (List.range n).map (fun k => s.counter g scope (ix + k))

/-- The experts of the routed production on stage in a quadrant (R243). -/
def State.stageExperts (s : State) (q : Nat) : Nat :=
  ((s.sv.prods.find? (fun (p : Sys2Proof.Machine.Prod) => p.st == .onStage && p.man.quads.testBit q)).map (·.man.rp.experts)).getD 0

/-- The entries of a group in the order its own rule gives; none for a group the manual does not define. -/
def State.groupEntries (s : State) (f grp q job : Nat) : Option (List Nat) :=
  match grp with
  | 0x01 => some (s.ctrs 0x01 f 0 11)                                             -- R307
  | 0x11 => some (s.ctrs 0x11 q 0 1760)                                           -- R62, R115: 176 CU sites
  | 0x12 => some (s.ctrs 0x12 q 0 880)                                            -- R62: 176 MU sites
  | 0x13 => some (s.ctrs 0x13 q 0 1408)                                           -- R62: 352 switches
  | 0x21 => some (s.ctrs 0x21 q 0 21120)                                          -- R88
  | 0x22 => some (s.ctrs 0x22 q 0 2112)
  | 0x23 => some (s.ctrs 0x23 q 0 2112)
  | 0x24 => some (s.ctrs 0x24 q 0 1056)
  | 0x25 => some (s.ctrs 0x25 q 0 13)
  | 0x31 => some (s.ctrs 0x31 q 0 25)                                             -- R155
  | 0x32 => some (s.ctrs 0x32 q 0 40)
  | 0x33 => some (s.ctrs 0x33 q 0 8)
  | 0x34 => some (s.ctrs 0x34 q 0 30)
  | 0x41 => some (s.ctrs 0x41 q 0 40)                                             -- R181
  | 0x42 => some ((s.quad q).cues.flatMap (fun (c : Cue) => [c.posted, c.retired]))
  | 0x43 => some (s.ctrs 0x43 q 0 384)
  | 0x44 => some (s.ctrs 0x44 q 0 4)
  | 0x51 => some (s.ctrs 0x51 job 0 24)                                           -- R213
  | 0x61 => some (s.ctrs 0x61 q 0 (8 * s.stageExperts q))                         -- R243
  | 0x62 => some (s.ctrs 0x62 q 0 10)
  | 0x63 => some (((s.job? job).map (fun j => j.biases.map (·.toNat))).getD [])
  | 0x71 => some (s.ctrs 0x71 0 0 180)                                            -- R275
  | 0x72 => some (s.ctrs 0x72 0 0 13)
  | 0x73 => some s.fab.ctrs
  | 0x81 => some (s.ctrs 0x81 0 0 12)                                             -- R363
  | 0x82 => some (s.ctrs 0x82 q 0 4)
  | 0x91 => some (s.ctrs 0x91 0 0 48 ++ s.ctrs 0x91 (if s.azgen then f else 0) 48 6)   -- R377
  | _ => none

/-- The groups that name a job (R307). -/
def jobGroup (grp : Nat) : Bool := grp == 0x51 || grp == 0x63

/-- A job that CJOB may name: one that exists, and under Azgen one of the function's own (R318). -/
def State.countsJob (s : State) (f id : Nat) : Bool :=
  s.jobKnown id && (!s.azgen || (match s.job? id with | some j => j.f == f | none => true))

/-- COUNTERS_READ's own rule. -/
def State.countersRule (p : Pkt) (s : State) : State × Rep :=
  let q := p.at 0x40 1
  let grp := p.at 0x41 1
  let job := p.at 0x44 4
  let buf := p.at 0x48 8
  let len := p.at 0x50 4
  if quadGroups.contains grp && (decide (q > 3) || !s.ownQuad p (2 ^ q)) then (s, .bad 0x40)
  else match s.groupEntries p.f grp q job with
    | none => (s, .bad 0x41)
    | some es =>
      if (if jobGroup grp then !s.countsJob p.f job else job != 0) then (s, .bad 0x44)
      else if buf % 8 ≠ 0 then (s, .bad 0x48)
      else if len < 8 ∨ len > 2 ^ 31 then (s, .bad 0x50)
      else s.report p 0x48 buf (len / 8 * 8) (es.flatMap (leBytes 8)) 0

/-- COUNTERS_READ (R307). -/
def execCountersRead (f slot : Nat) (s : State) : Ans := .next (s.command f slot 0x0F01 State.countersRule)

/-! ### STRIKE_READ (R308) -/

/-- A byte of a quadrant's stall image: as R86 lays it out, or free where R86 gives no inner layout (log 14). -/
def State.imageBytes (s : State) (oid off n : Nat) : List Byte :=
  match s.pool.copies 1 oid with
  | r :: _ => (List.zipIdx (s.readCopy r off n).1).map (fun (b, i) => if strikeGiven (off + i) then b else imageByte oid (off + i))
  | [] => List.replicate n 0

/-- Unpin and evict the stall image, and forget the stall record. -/
def State.releaseImage (s : State) (q : Nat) : State :=
  let s : State := if (s.quad q).stallImg = 0 then s else { s with pool := s.pool.clear 1 (s.quad q).stallImg }
  s.updQuad q (fun (x : Quad) => { x with stall := none, stallImg := 0 })

/-- STRIKE_READ's own rule. -/
def State.strikeReadRule (p : Pkt) (s : State) : State × Rep :=
  let q := p.at 0x40 1
  let off := p.at 0x48 8
  let len := p.at 0x50 4
  let buf := p.at 0x58 8
  if q > 3 then (s, .bad 0x40)
  else if !s.ownQuad p (2 ^ q) then (s, .bad 0x40)
  else match (s.quad q).stall with
    | none => (s, .bad 0x40)
    | some r =>
      if (s.quad q).halted then (s, .bad 0x40)
      else
        let img := (s.quad q).stallImg
        let (bs, avail, extra) :=
          if img = 0 then (r.bytes, 64, 2 ^ 64)
          else (s.imageBytes img off (min len (strikeBytes - off)), strikeBytes - off, 0)
        if isHost buf && s.reachable p.f buf bs.length true then
          let s := s.dmaWrite p.f buf bs
          let s := if (p.at 0x41 1).testBit 0 then s.releaseImage q else s
          (s, .fin DONE (bs.length + avail * 2 ^ 32 + extra))
        else (s.bump 0x01 p.f 9 1, .bad 0x58)

/-- STRIKE_READ (R308). -/
def execStrikeRead (f slot : Nat) (s : State) : Ans := .next (s.command f slot 0x0F02 State.strikeReadRule)

/-! ### UNIT_TEST (R60, R309) -/

/-- A fenced site whose declaration no quadrant reset has followed (R59). -/
def Quad.notReset (x : Quad) (row col : Nat) : Bool :=
  let e := x.site row col
  e.st == 3 && decide (x.resets ≤ e.seen)

/-- UNIT_TEST's own rule: the sites go under test in row, then column, order. -/
def State.unitTestRule (p : Pkt) (s : State) : State × Rep :=
  let q := p.at 0x40 1
  let scope := p.at 0x41 1
  let row := p.at 0x42 1
  let col := p.at 0x43 1
  if q > 3 then (s, .bad 0x40)
  else if !s.ownQuad p (2 ^ q) then (s, .bad 0x40)
  else if scope > 1 then (s, .bad 0x41)
  else if (if scope = 1 then row ≠ 0 else row > 15) then (s, .bad 0x42)
  else if (if scope = 1 then col ≠ 0 else col > 21) then (s, .bad 0x43)
  else
    let x := s.quad q
    if scope = 0 ∧ (x.site row col).st = 4 then (s, .bad 0x42)
    else
      let sites := if scope = 1 then allSites.filter (fun k => (x.site k.1 k.2).st != 4) else [(row, col)]
      if (s.jobAt q).isSome || !x.test.isEmpty then (s, .fin BUSY 0)
      else if sites.any (fun k => x.notReset k.1 k.2) then (s, .fin BUSY 0)
      else if sites.isEmpty then (s, .fin DONE 0)
      else (s.updQuad q (fun (x : Quad) =>
        { x with test := sites, testSlot := some (p.f, p.n), testRes := (0, 0), testOne := scope == 0 }), .later)

/-- UNIT_TEST (R60, R309). -/
def execUnitTest (f slot : Nat) (s : State) : Ans := .next (s.command f slot 0x0F03 State.unitTestRule)

/-- Take a fenced site back (R59): it becomes ACTIVE, or STANDBY at the spine; its understudy returns to STANDBY with lines
cleared if it is an MU; the quadrant's scenes are discarded and its production reloads before the next job. -/
def State.readmit (s : State) (q row col : Nat) : State :=
  let x := s.quad q
  let e := x.site row col
  let s := s.updQuad q (fun (x : Quad) =>
    let x := x.setSite { e with st := (if isSpine col then 1 else 0), reason := 0, partner := none, detour := 0, due := false }
    let x := match e.partner with
      | some (r, c) => x.setSite { x.site r c with st := 1, partner := none, detour := 0 }
      | none => x
    { x with scenes := [none, none, none, none], loads := [], detours := [0, 0, 0, 0], hops := []
             sites := x.sites.map (fun (k : SiteSt) => { k with detour := 0 }) })
  let s := (List.range 4).foldl (fun s i => s.setCtr 0x25 q (6 + 2 * i) 0) s
  let s : State := { s with sv := { s.sv with prods := s.sv.prods.map (fun (p : Sys2Proof.Machine.Prod) =>
    if p.st == .onStage && p.man.quads.testBit q then { p with stale := true } else p) } }
  match e.partner, muIndex row col with
  | some _, some m =>
    { s.mend (lineAddr q m 0) 0xC00000 with
      mem := memZero s.mem (lineAddr q m 0) 0xC00000
      marks := s.marks.filter (fun k => ¬ (lineAddr q m 0 ≤ k ∧ k < lineAddr q m 0 + 0xC00000)) }
  | _, _ => s

/-- UNIT_TEST_DONE (R60): the site under test passes or fails; after the last the waiting command completes. -/
def execUnitTestDone (q : Nat) (pass : Bool) (s : State) : Ans :=
  .next (
    let x := s.quad q
    match x.test with
    | [] => s
    | k :: rest =>
      if !s.isOn then s
      else
        let s :=
          if pass then (if (x.site k.1 k.2).st = 3 then s.readmit q k.1 k.2 else s)
          else s.declareDead q k.1 k.2 3
        let res := (x.testRes.1 + 1, x.testRes.2 + (if pass then 0 else 1))
        let s := s.updQuad q (fun (x : Quad) => { x with test := rest, testRes := res })
        if rest.isEmpty then
          let s := s.completeOpt x.testSlot DONE
            (if x.testOne then (if pass then 1 else 0) else res.1 + res.2 * 2 ^ 16)
          s.updQuad q (fun (x : Quad) => { x with testSlot := none })
        else s)

/-! ### UNDERSTUDY_MAP (R61, R310) -/

/-- The entry of a site (R61). PROW and PCOL of 0x1FF stand for no partner. -/
def understudyEntry (q : Nat) (e : SiteSt) : Nat :=
  let pair := match e.partner with | some (r, c) => r % 16 + 16 * (c % 32) + 512 | none => 511
  q % 4 + e.row % 16 * 2 ^ 2 + e.col % 32 * 2 ^ 6 + e.st % 8 * 2 ^ 11 + e.reason % 8 * 2 ^ 14 + pair * 2 ^ 17 +
  e.detour % 65536 * 2 ^ 27

/-- Entries for every site that is not ACTIVE and for every understudy site, by quadrant, row and column. -/
def State.mapEntries (s : State) (qs : List Nat) : List Nat :=
  qs.flatMap (fun q => (allSites.filter (fun k => isSpine k.2 || ((s.quad q).site k.1 k.2).st != 0)).map
    (fun k => understudyEntry q ((s.quad q).site k.1 k.2)))

/-- UNDERSTUDY_MAP's own rule: whole entries that fit. -/
def State.understudyRule (p : Pkt) (s : State) : State × Rep :=
  s.report p 0x40 (p.at 0x40 8) (p.at 0x48 4 / 8 * 8)
    ((s.mapEntries (if s.azgen then [p.f] else [0, 1, 2, 3])).flatMap (leBytes 8)) 0

/-- UNDERSTUDY_MAP (R61, R310). -/
def execUnderstudyMap (f slot : Nat) (s : State) : Ans := .next (s.command f slot 0x0F04 State.understudyRule)

end Sys2Proof.Machine
end

