-- ==== Sys2Proof/Machine/Dispatch.lean ====
section
/-! DEFINITION. exec: one arm per command (the rows of spec/opcode_table.json), each one call of its meaning. -/

namespace Sys2Proof.Machine

/-- The effect of a command on everything but the queue. -/
def exec (i : Instr) (s : State) : Host.Outcome State Fault Refusal :=
  match i with
  | .callboardWrite f off data => Sys2Proof.Machine.execCallboardWrite f off data s
  | .goWrite f slot w => Sys2Proof.Machine.execGoWrite f slot w s
  | .registerWrite r v => Sys2Proof.Machine.execRegisterWrite r v s
  | .hello f slot => Sys2Proof.Machine.execHello f slot s
  | .leaseSet f slot => Sys2Proof.Machine.execLeaseSet f slot s
  | .readiness f slot => Sys2Proof.Machine.execReadiness f slot s
  | .resetFunction f slot => Sys2Proof.Machine.execResetFunction f slot s
  | .release f slot => Sys2Proof.Machine.execRelease f slot s
  | .place f slot => Sys2Proof.Machine.execPlace f slot s
  | .evict f slot => Sys2Proof.Machine.execEvict f slot s
  | .pin f slot => Sys2Proof.Machine.execPin f slot s
  | .poolQuery f slot => Sys2Proof.Machine.execPoolQuery f slot s
  | .lend f slot => Sys2Proof.Machine.execLend f slot s
  | .borrow f slot => Sys2Proof.Machine.execBorrow f slot s
  | .productionLoad f slot h => Sys2Proof.Machine.execProductionLoad f slot h s
  | .onStage f slot => Sys2Proof.Machine.execOnStage f slot s
  | .offStage f slot => Sys2Proof.Machine.execOffStage f slot s
  | .changeover f slot => Sys2Proof.Machine.execChangeover f slot s
  | .productionDrop f slot => Sys2Proof.Machine.execProductionDrop f slot s
  | .requestOpen f slot => Sys2Proof.Machine.execRequestOpen f slot s
  | .requestAppend f slot h => Sys2Proof.Machine.execRequestAppend f slot h s
  | .requestCancel f slot => Sys2Proof.Machine.execRequestCancel f slot s
  | .requestPark f slot => Sys2Proof.Machine.execRequestPark f slot s
  | .requestResume f slot => Sys2Proof.Machine.execRequestResume f slot s
  | .jobSubmit f slot lacking => Sys2Proof.Machine.execJobSubmit f slot lacking s
  | .jobEnd f slot => Sys2Proof.Machine.execJobEnd f slot s
  | .jobPreempt f slot => Sys2Proof.Machine.execJobPreempt f slot s
  | .jobQuery f slot => Sys2Proof.Machine.execJobQuery f slot s
  | .boxOfficeRead f slot => Sys2Proof.Machine.execBoxOfficeRead f slot s
  | .classSet f slot => Sys2Proof.Machine.execClassSet f slot s
  | .linkPlan f slot => Sys2Proof.Machine.execLinkPlan f slot s
  | .troupeForm f slot => Sys2Proof.Machine.execTroupeForm f slot s
  | .discover f slot => Sys2Proof.Machine.execDiscover f slot s
  | .sliceSet f slot => Sys2Proof.Machine.execSliceSet f slot s
  | .routeSet f slot h => Sys2Proof.Machine.execRouteSet f slot h s
  | .epochQuery f slot => Sys2Proof.Machine.execEpochQuery f slot s
  | .powerCapSet f slot => Sys2Proof.Machine.execPowerCapSet f slot s
  | .dimmerSet f slot => Sys2Proof.Machine.execDimmerSet f slot s
  | .calibrationRead f slot => Sys2Proof.Machine.execCalibrationRead f slot s
  | .calibrationWrite f slot h => Sys2Proof.Machine.execCalibrationWrite f slot h s
  | .calibrationProgram => Sys2Proof.Machine.execCalibrationProgram s
  | .flashOperationComplete => Sys2Proof.Machine.execFlashOperationComplete s
  | .thermalQuery f slot => Sys2Proof.Machine.execThermalQuery f slot s
  | .imageBegin f slot h => Sys2Proof.Machine.execImageBegin f slot h s
  | .imageData f slot h => Sys2Proof.Machine.execImageData f slot h s
  | .imageArm f slot => Sys2Proof.Machine.execImageArm f slot s
  | .activate f slot => Sys2Proof.Machine.execActivate f slot s
  | .identity f slot => Sys2Proof.Machine.execIdentity f slot s
  | .attest f slot => Sys2Proof.Machine.execAttest f slot s
  | .countersRead f slot => Sys2Proof.Machine.execCountersRead f slot s
  | .strikeRead f slot => Sys2Proof.Machine.execStrikeRead f slot s
  | .unitTest f slot => Sys2Proof.Machine.execUnitTest f slot s
  | .understudyMap f slot => Sys2Proof.Machine.execUnderstudyMap f slot s
  | .leaseExpiry f => Sys2Proof.Machine.execLeaseExpiry f s
  | .claim t => Sys2Proof.Machine.execClaim t s
  | .eoi t src => Sys2Proof.Machine.execEoi t src s
  | .swset t mask => Sys2Proof.Machine.execSwset t mask s
  | .sourceEdge src high => Sys2Proof.Machine.execSourceEdge src high s
  | .msixUnmask f vec => Sys2Proof.Machine.execMsixUnmask f vec s
  | .rcBegin => Sys2Proof.Machine.execRcBegin s
  | .rcChunk => Sys2Proof.Machine.execRcChunk s
  | .rcFinish => Sys2Proof.Machine.execRcFinish s
  | .rcReboot failed => Sys2Proof.Machine.execRcReboot failed s
  | .powerUp strap failed => Sys2Proof.Machine.execPowerUp strap failed s
  | .functionReset f cause => Sys2Proof.Machine.execFunctionReset f cause s
  | .dimmerUpdate withheld => Sys2Proof.Machine.execDimmerUpdate withheld s
  | .capLoopTick power => Sys2Proof.Machine.execCapLoopTick power s
  | .throttleStep temps => Sys2Proof.Machine.execThrottleStep temps s
  | .thermalTrip sensor temp => Sys2Proof.Machine.execThermalTrip sensor temp s
  | .thermalTripClear temps => Sys2Proof.Machine.execThermalTripClear temps s
  | .inputTrip mv => Sys2Proof.Machine.execInputTrip mv s
  | .inputTripClear mv => Sys2Proof.Machine.execInputTripClear mv s
  | .inputPowerExcursion power => Sys2Proof.Machine.execInputPowerExcursion power s
  | .pwrAlertAssert => Sys2Proof.Machine.execPwrAlertAssert s
  | .pwrAlertDeassert => Sys2Proof.Machine.execPwrAlertDeassert s
  | .coolantOkLoss => Sys2Proof.Machine.execCoolantOkLoss s
  | .coolantOkRestore => Sys2Proof.Machine.execCoolantOkRestore s
  | .powerOff cause => Sys2Proof.Machine.execPowerOff cause s
  | .quadrantDark q => Sys2Proof.Machine.execQuadrantDark q s
  | .wakeComplete q => Sys2Proof.Machine.execWakeComplete q s
  | .load q aq slot addr len => Sys2Proof.Machine.execLoad q aq slot addr len s
  | .loadComplete q slot reroute => Sys2Proof.Machine.execLoadComplete q slot reroute s
  | .run q aq slot first => Sys2Proof.Machine.execRun q aq slot first s
  | .runRetire q => Sys2Proof.Machine.execRunRetire q s
  | .change q aq slot cut => Sys2Proof.Machine.execChange q aq slot cut s
  | .cut q => Sys2Proof.Machine.execCut q s
  | .siteSwitch site => Sys2Proof.Machine.execSiteSwitch site s
  | .pathEnable src => Sys2Proof.Machine.execPathEnable src s
  | .vectorFiring site => Sys2Proof.Machine.execVectorFiring site s
  | .operandFill site => Sys2Proof.Machine.execOperandFill site s
  | .sideToken site sideB => Sys2Proof.Machine.execSideToken site sideB s
  | .matrixStep site => Sys2Proof.Machine.execMatrixStep site s
  | .tileDrain site => Sys2Proof.Machine.execTileDrain site s
  | .agIssue site ag => Sys2Proof.Machine.execAgIssue site ag s
  | .gatherIndex site ag => Sys2Proof.Machine.execGatherIndex site ag s
  | .setDown site ag => Sys2Proof.Machine.execSetDown site ag s
  | .pickUp site ag => Sys2Proof.Machine.execPickUp site ag s
  | .bankAccess site port => Sys2Proof.Machine.execBankAccess site port s
  | .engineMuAccess site line acc => Sys2Proof.Machine.execEngineMuAccess site line acc s
  | .tokenInject src => Sys2Proof.Machine.execTokenInject src s
  | .tokenHop q n => Sys2Proof.Machine.execTokenHop q n s
  | .creditReturn q n => Sys2Proof.Machine.execCreditReturn q n s
  | .queueEccError site queue pos kind => Sys2Proof.Machine.execQueueEccError site queue pos kind s
  | .statusPoll q missed => Sys2Proof.Machine.execStatusPoll q missed s
  | .stallWatchdogTrip q => Sys2Proof.Machine.execStallWatchdogTrip q s
  | .stallStrikeCommit q => Sys2Proof.Machine.execStallStrikeCommit q s
  | .move q tq h => Sys2Proof.Machine.execMove q tq h s
  | .stream q tq h => Sys2Proof.Machine.execStream q tq h s
  | .collect q tq => Sys2Proof.Machine.execCollect q tq s
  | .placeEntry q tq => Sys2Proof.Machine.execPlaceEntry q tq s
  | .post q tq => Sys2Proof.Machine.execPost q tq s
  | .wait q tq => Sys2Proof.Machine.execWait q tq s
  | .dset q tq => Sys2Proof.Machine.execDset q tq s
  | .creset q tq => Sys2Proof.Machine.execCreset q tq s
  | .loop q tq => Sys2Proof.Machine.execLoop q tq s
  | .loopIteration q tq => Sys2Proof.Machine.execLoopIteration q tq s
  | .trackerRetry q tq => Sys2Proof.Machine.execTrackerRetry q tq s
  | .entryComplete q tq n => Sys2Proof.Machine.execEntryComplete q tq n s
  | .teWaitTrip q tq => Sys2Proof.Machine.execTeWaitTrip q tq s
  | .dispenserClaim q link => Sys2Proof.Machine.execDispenserClaim q link s
  | .scoreToken q => Sys2Proof.Machine.execScoreToken q s
  | .routedClaim q link => Sys2Proof.Machine.execRoutedClaim q link s
  | .fetchRound q => Sys2Proof.Machine.execFetchRound q s
  | .shardComplete q => Sys2Proof.Machine.execShardComplete q s
  | .doneToken q => Sys2Proof.Machine.execDoneToken q s
  | .generationBump => Sys2Proof.Machine.execGenerationBump s
  | .composition job h drafts => Sys2Proof.Machine.execComposition job h drafts s
  | .stepEnd job results times => Sys2Proof.Machine.execStepEnd job results times s
  | .pageSealCommit req layer page => Sys2Proof.Machine.execPageSealCommit req layer page s
  | .parkCommit req => Sys2Proof.Machine.execParkCommit req s
  | .resumeCommit req => Sys2Proof.Machine.execResumeCommit req s
  | .wingsSweep => Sys2Proof.Machine.execWingsSweep s
  | .placementCommit pid h => Sys2Proof.Machine.execPlacementCommit pid h s
  | .patrolScrub addr kind => Sys2Proof.Machine.execPatrolScrub addr kind s
  | .cxlMemRead off len => Sys2Proof.Machine.execCxlMemRead off len s
  | .cxlMemWrite off data => Sys2Proof.Machine.execCxlMemWrite off data s
  | .hostSnoop addr => Sys2Proof.Machine.execHostSnoop addr s
  | .loanTermExpiry loan lender => Sys2Proof.Machine.execLoanTermExpiry loan lender s
  | .loanRecallFree loan => Sys2Proof.Machine.execLoanRecallFree loan s
  | .jobStart job h => Sys2Proof.Machine.execJobStart job h s
  | .preemptHoldExpiry job => Sys2Proof.Machine.execPreemptHoldExpiry job s
  | .jobRecordCommit job => Sys2Proof.Machine.execJobRecordCommit job s
  | .set job => Sys2Proof.Machine.execSet job s
  | .setComplete job => Sys2Proof.Machine.execSetComplete job s
  | .trainingEnd p r peer => Sys2Proof.Machine.execTrainingEnd p r peer s
  | .trainingRetry p => Sys2Proof.Machine.execTrainingRetry p s
  | .retrain p => Sys2Proof.Machine.execRetrain p s
  | .retrainTimeout p => Sys2Proof.Machine.execRetrainTimeout p s
  | .flitReceive p fl => Sys2Proof.Machine.execFlitReceive p fl s
  | .linkTimeout op => Sys2Proof.Machine.execLinkTimeout op s
  | .creditTimeout op => Sys2Proof.Machine.execCreditTimeout op s
  | .put p m => Sys2Proof.Machine.execPut p m s
  | .get p m => Sys2Proof.Machine.execGet p m s
  | .reduce p m => Sys2Proof.Machine.execReduce p m s
  | .reduceResend op => Sys2Proof.Machine.execReduceResend op s
  | .loanPut p m => Sys2Proof.Machine.execLoanPut p m s
  | .dispatchRec p m => Sys2Proof.Machine.execDispatchRec p m s
  | .dispatchEnd p m => Sys2Proof.Machine.execDispatchEnd p m s
  | .dispatchAns p m => Sys2Proof.Machine.execDispatchAns p m s
  | .borrowRequest p m => Sys2Proof.Machine.execBorrowRequest p m s
  | .renew p m => Sys2Proof.Machine.execRenew p m s
  | .ack p m => Sys2Proof.Machine.execAck p m s
  | .getData p m => Sys2Proof.Machine.execGetData p m s
  | .lendGrant p m => Sys2Proof.Machine.execLendGrant p m s
  | .error p m => Sys2Proof.Machine.execError p m s
  | .announce p m => Sys2Proof.Machine.execAnnounce p m s
  | .withdraw p m => Sys2Proof.Machine.execWithdraw p m s
  | .fence p m => Sys2Proof.Machine.execFence p m s
  | .recall p m => Sys2Proof.Machine.execRecall p m s
  | .form p m => Sys2Proof.Machine.execForm p m s
  | .accept p m => Sys2Proof.Machine.execAccept p m s
  | .refuse p m => Sys2Proof.Machine.execRefuse p m s
  | .commit p m => Sys2Proof.Machine.execCommit p m s
  | .troupeFormTimeout => Sys2Proof.Machine.execTroupeFormTimeout s
  | .dissolve p m => Sys2Proof.Machine.execDissolve p m s
  | .jobstart p m => Sys2Proof.Machine.execJobstart p m s
  | .step p m => Sys2Proof.Machine.execStep p m s
  | .stepend p m => Sys2Proof.Machine.execStepend p m s
  | .bias p m => Sys2Proof.Machine.execBias p m s
  | .jobend p m => Sys2Proof.Machine.execJobend p m s
  | .preempt p m => Sys2Proof.Machine.execPreempt p m s
  | .putEntry xq => Sys2Proof.Machine.execPutEntry xq s
  | .getEntry xq => Sys2Proof.Machine.execGetEntry xq s
  | .reduceEntry xq => Sys2Proof.Machine.execReduceEntry xq s
  | .waitEntry xq => Sys2Proof.Machine.execWaitEntry xq s
  | .activationStart => Sys2Proof.Machine.execActivationStart s
  | .activationRestart readback => Sys2Proof.Machine.execActivationRestart readback s
  | .mctpControl code body => Sys2Proof.Machine.execMctpControl code body s
  | .entdaa addr => Sys2Proof.Machine.execEntdaa addr s
  | .setdasa static addr => Sys2Proof.Machine.execSetdasa static addr s
  | .getVersion => Sys2Proof.Machine.execGetVersion s
  | .getCapabilities => Sys2Proof.Machine.execGetCapabilities s
  | .negotiateAlgorithms asym hash => Sys2Proof.Machine.execNegotiateAlgorithms asym hash s
  | .getDigests => Sys2Proof.Machine.execGetDigests s
  | .getCertificate slot off len => Sys2Proof.Machine.execGetCertificate slot off len s
  | .challenge slot nonce => Sys2Proof.Machine.execChallenge slot nonce s
  | .getMeasurements index nonce => Sys2Proof.Machine.execGetMeasurements index nonce s
  | .chunkGet handle seq => Sys2Proof.Machine.execChunkGet handle seq s
  | .respondIfReady token => Sys2Proof.Machine.execRespondIfReady token s
  | .getTid => Sys2Proof.Machine.execGetTid s
  | .setTid tid => Sys2Proof.Machine.execSetTid tid s
  | .getPldmVersion type => Sys2Proof.Machine.execGetPldmVersion type s
  | .getPldmTypes => Sys2Proof.Machine.execGetPldmTypes s
  | .getPldmCommands type => Sys2Proof.Machine.execGetPldmCommands type s
  | .getPdrRepositoryInfo => Sys2Proof.Machine.execGetPdrRepositoryInfo s
  | .getPdr handle => Sys2Proof.Machine.execGetPdr handle s
  | .getSensorReading sensor => Sys2Proof.Machine.execGetSensorReading sensor s
  | .getStateSensorReadings sensor => Sys2Proof.Machine.execGetStateSensorReadings sensor s
  | .setEventReceiver enable addr => Sys2Proof.Machine.execSetEventReceiver enable addr s
  | .eventMessageSupported => Sys2Proof.Machine.execEventMessageSupported s
  | .eventMessageBufferSize size => Sys2Proof.Machine.execEventMessageBufferSize size s
  | .platformEventRetry n => Sys2Proof.Machine.execPlatformEventRetry n s
  | .queryDeviceIdentifiers => Sys2Proof.Machine.execQueryDeviceIdentifiers s
  | .getFirmwareParameters => Sys2Proof.Machine.execGetFirmwareParameters s
  | .requestUpdate maxTransfer => Sys2Proof.Machine.execRequestUpdate maxTransfer s
  | .passComponentTable comp => Sys2Proof.Machine.execPassComponentTable comp s
  | .updateComponent header => Sys2Proof.Machine.execUpdateComponent header s
  | .requestFirmwareData off data => Sys2Proof.Machine.execRequestFirmwareData off data s
  | .transferComplete result => Sys2Proof.Machine.execTransferComplete result s
  | .verifyComplete failed => Sys2Proof.Machine.execVerifyComplete failed s
  | .applyComplete => Sys2Proof.Machine.execApplyComplete s
  | .activateFirmware selfContained => Sys2Proof.Machine.execActivateFirmware selfContained s
  | .getStatus => Sys2Proof.Machine.execGetStatus s
  | .cancelUpdateComponent => Sys2Proof.Machine.execCancelUpdateComponent s
  | .cancelUpdate => Sys2Proof.Machine.execCancelUpdate s
  | .settingsRead => Sys2Proof.Machine.execSettingsRead s
  | .settingsWrite page => Sys2Proof.Machine.execSettingsWrite page s
  | .capSet cap persist => Sys2Proof.Machine.execCapSet cap persist s
  | .calibrationTransfer part data => Sys2Proof.Machine.execCalibrationTransfer part data s
  | .eventAck n => Sys2Proof.Machine.execEventAck n s
  | .rdyMapBitSet bit => Sys2Proof.Machine.execRdyMapBitSet bit s
  | .unitTestDone q pass => Sys2Proof.Machine.execUnitTestDone q pass s
  | .inputPowerExcursionEnd power => Sys2Proof.Machine.execInputPowerExcursionEnd power s
  | .inputPowerApplied mv => Sys2Proof.Machine.execInputPowerApplied mv s
  | .railSequenceStop enableLost => Sys2Proof.Machine.execRailSequenceStop enableLost s

end Sys2Proof.Machine
end

