-- ==== Sys2Proof/Machine/Registers.lean ====
section
/-! DEFINITION. What a read of a register or of the callboard answers (R7, R8, R280 to R287, R312, R316, R350, R374, R375, R399). No
command of the table is such a read but CLAIM; a read of a field that is WO, of a reserved field and of an offset that no table names
answers 0. -/

namespace Sys2Proof.Machine

/-! ### BAR0 (R280, R281) -/

/-- The status registers (R281). -/
def State.statusAt (s : State) (f off : Nat) : Nat :=
  match off with
  | 0x000 => 0x0640 + s.bt.stepping % 256 * 2 ^ 16 + s.bt.pers % 4 * 2 ^ 24 + (if s.azgen then f % 4 else 0) * 2 ^ 26
  | 0x008 => s.bt.rdy.toNat
  | 0x010 => (s.fn f).epoch % 2 ^ 16 + (if (s.fn f).opened then 2 ^ 16 else 0)
  | 0x018 => s.bt.boot % 16
  | _ => 0

/-- The MSI-X table (R280). -/
def State.vecAt (s : State) (f off : Nat) : Nat :=
  match (s.fn f).vecs[off / 16]? with
  | none => 0
  | some e =>
    if off / 16 ≥ s.vectors then 0
    else match off % 16 with
      | 0 => e.addr % 2 ^ 32
      | 4 => e.addr / 2 ^ 32 % 2 ^ 32
      | 8 => e.data % 2 ^ 32
      | 12 => if e.masked then 1 else 0
      | _ => 0

/-- A mask of the private sources that have a flag. -/
def Target.mask (x : Target) (g : Priv → Bool) : Nat :=
  (List.zipIdx x.priv).foldl (fun n ((p : Priv), i) => if g p then n + 2 ^ i else n) 0

/-- A target register block but its CLAIM (R374). EOI is WO. SWSET sets pending flags and reads them. -/
def State.targetAt (s : State) (t off : Nat) : Nat :=
  let x := s.target t
  if off = 0x010 then
    (match x.stack with
     | (src, pri) :: _ => pri % 64 + x.stack.length * 2 ^ 6 + src % 1024 * 2 ^ 16
     | [] => 32 + 0x3FF * 2 ^ 16)
  else if off = 0x018 then x.threshold
  else if off = 0x020 ∨ off = 0x030 then x.mask (·.pend)
  else if off = 0x028 then x.mask (·.insvc)
  else if off = 0x038 then x.eoiErr + x.fullCnt * 2 ^ 16
  else if 0x100 ≤ off ∧ off < 0x200 ∧ off % 8 = 0 then
    let p := x.priv.getD ((off - 0x100) / 8) default
    p.vec + p.pri * 2 ^ 6 + (if p.en then 2 ^ 11 else 0)
  else if 0x200 ≤ off ∧ off < 0x280 ∧ off % 8 = 0 then
    (match x.stack.reverse[(off - 0x200) / 8]? with
     | some (src, pri) => src % 1024 + pri % 32 * 2 ^ 10 + 2 ^ 15
     | none => 0)
  else 0

/-- A register of BAR0. -/
def State.bar0At (s : State) (f off : Nat) : Nat :=
  if off < 0x10000 then s.statusAt f off
  else if off < 0x11000 then s.targetAt (8 + f) (off - 0x10000)
  else if 0x20000 ≤ off ∧ off < 0x20400 then s.vecAt f (off - 0x20000)
  else if off = 0x21000 then (s.fn f).pba.toNat
  else if f = 0 ∧ 0x80000 ≤ off ∧ off < 0x90000 then (s.cxlAt off).toNat
  else 0

/-- A shared source's configuration word (R365, R375): reserved sources read zero. A level source is pending while its line is
high. -/
def State.sharedWord (s : State) (src : Nat) : Nat :=
  if sharedAssigned src then
    let c := s.sharedAt src
    c.target + c.pri * 2 ^ 4 + (if c.en then 2 ^ 9 else 0) + c.sense * 2 ^ 10 +
    (if (if c.sense = 0 then c.line else c.pend) then 2 ^ 12 else 0) + (if c.insvc then 2 ^ 13 else 0) + (if c.latched then 2 ^ 14 else 0)
  else 0

/-- A register of the recovery window (R399): RC_CMD is WO. -/
def Recovery.at (r : Recovery) (off : Nat) : Nat :=
  if off = 0x008 then r.off
  else if off = 0x010 then r.len
  else if off = 0x018 then r.state % 8 + r.status % 256 * 2 ^ 8 + r.done % 65536 * 2 ^ 16
  else if 0x10000 ≤ off ∧ off < 0x20000 then ofLe (memRead r.buf (off - 0x10000) (min 8 (0x20000 - off)))
  else 0

/-- What a read of a register answers (R7); none where nothing answers: the device is off, or the function or the window is not there.
A read of a CLAIM register makes the claim first, as CLAIM does (R370). -/
def State.regRead (s : State) (r : Reg) : Option (BitVec 64) :=
  if !s.isOn then none
  else match r with
    | .bar0 f off => if s.functions.contains f then
        some (if off = 0x10000 then (s.target (8 + f)).lastClaim.setWidth 64 else BitVec.ofNat 64 (s.bar0At f off)) else none
    | .config f off => if s.functions.contains f then some ((s.configAt f off).setWidth 64) else none
    | .bme f => if s.functions.contains f then some (if (s.fn f).bme then 1 else 0) else none
    | .functionMask f => if s.functions.contains f then some (if (s.fn f).fmask then 1 else 0) else none
    | .target t off => if t < 8 then some (if off = 0 then (s.target t).lastClaim.setWidth 64 else BitVec.ofNat 64 (s.targetAt t off)) else none
    | .shared src => some (BitVec.ofNat 64 (s.sharedWord src))
    | .dimCfg => some (BitVec.ofNat 64 s.pw.dimCfg)
    | .dimQstat q => if q < 4 then some (BitVec.ofNat 64 (s.qdim q).stat) else none
    | .recovery off => if s.bt.boot = 3 then some (BitVec.ofNat 64 (s.bt.rc.at off)) else none

/-! ### BAR2 (R282, R285 to R287, R312, R314, R316, R317) -/

/-- The CUE word of a slot (R286): STATE is 0xF while bit 0 of RDY_MAP is clear, and GO reads 0. -/
def State.cueWord (s : State) (f n : Nat) : Nat :=
  let c := (s.fn f).slot n
  let st := match c.st with | .free => 0 | .cued => 1 | .working => 2 | .opened => 3 | .done => 4
  (if s.rdy 0 then st else 0xF) + c.seq % 256 * 2 ^ 8

/-- A byte of a slot of the callboard (R285, R317). -/
def State.slotByte (s : State) (f n o : Nat) : Byte :=
  let c := (s.fn f).slot n
  if s.inCommand (256 * n + o) then memGet c.cmd o
  else if s.inCue (256 * n + o) then BitVec.ofNat 8 (s.cueWord f n / 2 ^ (8 * (o - s.cueOff)))
  else if s.azgen then (if c.rep1.isEmpty then c.rep0 else c.rep1).getD o 0
  else if o < 0xE0 then c.rep0.getD (o - 0xC0) 0
  else c.rep1.getD (o - 0xE0) 0

/-- An event record as it lies in the log (R312). -/
def EvRec.bytes (e : EvRec) : List Byte :=
  leBytes 4 e.seq ++ leBytes 2 e.code ++ [BitVec.ofNat 8 e.quad, 0] ++ leBytes 8 e.us ++
  (List.range 16).map (fun i => e.detail.getD i 0)

/-- Where the event log lies in BAR2, and its entries (R280, R316). -/
def State.logBase (s : State) : Nat := if s.azgen then 0x4000 else 0x10000
def State.logSize (s : State) : Nat := if s.azgen then 128 else 512

/-- EV_HEAD: the SEQ of the newest record, 0 when there is none (R312). -/
def State.evHead (s : State) (f : Nat) : Nat := (((s.fn f).evLog.head?).map (·.seq)).getD 0

/-- A byte of a function's BAR2. An entry of the log that no record has filled reads as zero. -/
def State.bar2Byte (s : State) (f o : Nat) : Byte :=
  let b := s.logBase
  let n := s.logSize
  if o < 256 * s.slotCount then s.slotByte f (o / 256) (o % 256)
  else if b ≤ o ∧ o < b + 32 * n then
    (match (s.fn f).evLog.find? (fun e => e.seq % n == (o - b) / 32) with
     | some e => e.bytes.getD ((o - b) % 32) 0
     | none => 0)
  else if b + 32 * n ≤ o ∧ o < b + 32 * n + 4 then BitVec.ofNat 8 (s.evHead f / 2 ^ (8 * (o - b - 32 * n)))
  else 0

/-- What a read of BAR2 answers (R282, R398). -/
def State.bar2Read (s : State) (f off len : Nat) : Option (List Byte) :=
  if s.hasCallboard f then some ((List.range len).map (fun i => s.bar2Byte f (off + i)))
  else if s.isOn && s.bt.boot == 3 && f == 0 then
    some ((List.range len).map (fun i => BitVec.ofNat 8 (s.bt.rc.at ((off + i) / 8 * 8) / 2 ^ (8 * ((off + i) % 8)))))
  else none

end Sys2Proof.Machine
end

