-- ==== Sys2Proof/Machine/Tick.lean ====
section
/-! DEFINITION. What an array cycle does when no command waits (log 2): results and reads reach their queues (R35, R47), the
wait counters of R88 and R181 count, the array-cycle and slot counters advance (R63), and local time runs (R10, R341). -/

namespace Sys2Proof.Machine

open Config

/-! ### Results and reads that are due -/

/-- A CU's results whose 28 array cycles have passed enter their reserved entries (R35). Answers how many named no queue. -/
def Cu.deliver (c : Cu) (cycle : Nat) : Cu × Nat × Bool :=
  let due := c.vf.filter (fun v => decide (v.due ≤ cycle))
  let c := due.foldl (fun (c : Cu) v =>
    { c with outq := (List.zipIdx c.outq).map (fun (ts, o) => if v.mask.testBit o then ts ++ [v.tok] else ts)
             resv := (List.zipIdx c.resv).map (fun (n, o) => if v.mask.testBit o then n - 1 else n) }) c
  ({ c with vf := c.vf.filter (fun v => decide (cycle < v.due)) },
   (due.filter (fun v => v.mask % 16 == 0)).length, !due.isEmpty)

/-- An MU's reads whose tokens are due enter their output queues (R47). -/
def Mu.deliver (m : Mu) (cycle : Nat) : Mu × Bool :=
  let due := m.rets.filter (fun r => decide (r.due ≤ cycle))
  (due.foldl (fun (m : Mu) r => { m with outq := m.outq.modify r.dq (· ++ [r.tok]) })
    { m with rets := m.rets.filter (fun r => decide (cycle < r.due)) }, !due.isEmpty)

/-- Tokens that each output queue has gained. -/
def outAdded (a b : List (List Tok)) : List Nat := (List.range 4).map (fun o => (b.getD o []).length - (a.getD o []).length)

/-- Note the tokens that entered output queues in this cycle. -/
def Quad.entered (x : Quad) (k : Nat × Nat) (ns : List Nat) : Quad :=
  (List.zipIdx ns).foldl (fun x (n, o) => (List.range n).foldl (fun (x : Quad) _ => x.act k.1 k.2 (10 + o)) x) x

/-- Deliver everything due in a quadrant. -/
def State.deliverDue (s : State) (q : Nat) : State :=
  if !s.quadRuns q then s
  else
    let x := s.quad q
    let s := x.cus.foldl (fun s (k, c) =>
      let (c', lost, any) := c.deliver s.pw.cycle
      if any then
        let s := (s.updQuad q (fun x => (x.setCu k.1 k.2 c').entered k (outAdded c.outq c'.outq))).progress q
        if lost = 0 then s else s.cuCount q k.1 k.2 7 lost
      else s) s
    x.mus.foldl (fun s (k, m) =>
      let (m', any) := m.deliver s.pw.cycle
      if any then (s.updQuad q (fun x => (x.setMu k.1 k.2 m').entered k (outAdded m.outq m'.outq))).progress q else s) s

/-! ### Wait counters of the array (R88) -/

/-- The head of a queue is of another slot than the unit's. -/
def otherTag (ts : List Tok) (slot : Nat) : Bool := match ts with | t :: _ => t.tag != slot | [] => false

/-- Everything but input queue n holds for what pops it at a CU: the vector pipeline, or the matrix datapath's fill. -/
def State.cuWants (s : State) (k : Site) (g : SiteCfg) (n : Nat) : Bool :=
  let x := s.quad k.q
  let c := x.cu k.row k.col
  let need := if c.rowWaits g s.pw.cycle (x.did k.row k.col 25) then 2 else 1
  let room := (maskList g.outmask 4).all (fun o => decide ((c.outq.getD o []).length + c.resv.getD o 0 + need ≤ 64))
  let has (i : Nat) : Bool := i == n || i == 7 || (if i = 6 then !c.drainq.isEmpty else (s.headIn k.q k.row k.col i).isSome)
  ((g.in0 == n || g.in1 == n) && room && has g.in0 && has g.in1) ||
  (match s.matrixAt k with
   | some (_, m) => (g.aq == n && (c.sideNext m false).isSome) || (g.bq == n && (c.sideNext m true).isSome)
   | none => false)

/-- An AG that would pop input queue n if it held a token. -/
def State.agWants (s : State) (k : Site) (g : SiteCfg) (n : Nat) : Bool :=
  let x := s.quad k.q
  let m := x.mu k.row k.col
  (List.range 4).any (fun i =>
    let d := agDescOf (g.ags.getD i 0)
    let a := m.ags.getD i AgSt.idle
    let idle := (if d.mode = 5 ∨ d.mode = 6 then a.left == 0 else a.idx.isEmpty) && a.hold.isNone
    (decide (3 ≤ d.mode ∧ d.mode ≤ 6) && d.iq == n && idle) ||
    (!d.isRead && d.mode != 0 && d.dq == n && a.hold.isNone &&
      (match a.next d (x.rstartAt k.row k.col) with
       | some nx => x.cueMet nx.wait
       | none => false)))

/-- Full, empty-wait and tag-wait cycles of the input queues of a unit; `base` is the first queue's number. -/
def State.countIn (s : State) (k : Site) (g : Option SiteCfg) (n : Nat) : State :=
  let x := s.quad k.q
  let ts := x.inq k.row k.col n
  let s := if ts.length ≥ 64 then s.queueCount k.q k.row k.col n 0 1 else s
  let empty := decide (ts.length ≤ x.fresh k.row k.col n) && !x.did k.row k.col (90 + n)
  let wants := match g with
    | some g => if isCu k.row k.col then s.cuWants k g n else s.agWants k g n
    | none => false
  let s := if empty && wants then s.queueCount k.q k.row k.col n 1 1 else s
  if otherTag ts (x.slotAt k.row k.col) then s.queueCount k.q k.row k.col n 2 1 else s

/-- Full, tag-wait and credit-wait cycles of output queue n, and trap-full cycles of the trap its path has (R81); a token is held
back for a credit in any slot of the period. -/
def State.countOut (s : State) (k : Site) (n : Nat) : State :=
  let x := s.quad k.q
  let slot := x.slotAt k.row k.col
  let src := Src.out k n
  let ts := x.outq k.row k.col n
  let ix := n + (if isCu k.row k.col then 6 else 4)
  let s := if ts.length ≥ 64 then s.queueCount k.q k.row k.col ix 0 1 else s
  let s := if otherTag ts slot then s.queueCount k.q k.row k.col ix 2 1 else s
  if otherTag ts slot || !x.paths.contains src || x.did k.row k.col (30 + n) || decide (ts.length ≤ x.fresh k.row k.col (10 + n)) then s
  else
    match s.trapOf slot src with
    | some (d, t) =>
      let e := (s.quad d.q).trap d.row d.col t
      if e.load ≥ trapCap (s.trapDesc slot d.q d.row d.col t) then
        let s := s.bump 0x22 d.q (6 * siteOrd d.row d.col + 3 * t + 2) 1
        if s.credit src d = 0 then s.queueCount k.q k.row k.col ix 3 1 else s
      else s
    | none =>
      if (((s.ownSlots slot src).flatMap (s.dests slot src)).eraseDups).any (fun d => s.credit src d == 0) then
        s.queueCount k.q k.row k.col ix 3 1
      else s

/-- Cue-wait, port-wait and queue-wait cycles of an AG that neither issued nor took a token in this cycle: its cue is not met, its
queue is full or empty, or its port is granted elsewhere. -/
def State.countAg (s : State) (k : Site) (g : SiteCfg) (i : Nat) : State :=
  let x := s.quad k.q
  let m := x.mu k.row k.col
  let d := agDescOf (g.ags.getD i 0)
  let a := m.ags.getD i AgSt.idle
  let ix := 12 * unitOrd k.row k.col + 3 * i
  if x.did k.row k.col (100 + i) || x.did k.row k.col (104 + i) then s
  else match a.next d (x.rstartAt k.row k.col) with
    | none => s
    | some nx =>
      if a.hold.isSome then s.bump 0x23 k.q (ix + 1) 1
      else if !x.cueMet nx.wait then s.bump 0x23 k.q ix 1
      else if !(if d.isRead then decide (m.outLoad d.dq < 64) else (s.headIn k.q k.row k.col d.dq).isSome) then s.bump 0x23 k.q (ix + 2) 1
      else if d.isRead then s.bump 0x23 k.q (ix + 1) 1
      else s

/-- The wait cycles of one site. One that the present scene leaves out still holds tokens of another. -/
def State.countSite (s : State) (k : Site) : State :=
  if !s.siteRuns k.q k.row k.col then s
  else
    let g := (s.quad k.q).cfg k.row k.col
    let s := (List.range (if isCu k.row k.col then 6 else 4)).foldl (fun s n => s.countIn k g n) s
    let s := (List.range 4).foldl (fun s n => s.countOut k n) s
    match g with
    | some g => if isCu k.row k.col then s else (List.range 4).foldl (fun s i => s.countAg k g i) s
    | none => s

/-- The wait cycles of a quadrant: of the sites that its scenes configure or that hold anything. -/
def State.countWaits (s : State) (q : Nat) : State :=
  if !s.quadRuns q then s
  else
    let x := s.quad q
    let scs := (x.scene x.gwSlot).toList ++ (match x.chg with | some c => (x.scene c.old).toList | none => [])
    ((scs.flatMap (fun sc => sc.sites.map (fun g => (g.row, g.col))) ++ x.cus.map (·.1) ++ x.mus.map (·.1)).eraseDups).foldl (fun s k =>
      s.countSite { q := q, row := k.1, col := k.2 }) s

/-! ### Wait and starvation counters of the engines (R18, R181) -/

/-- A queue's wait, tracker-wait and starvation cycles over n memory-clock cycles. -/
def State.countQueue (s : State) (q tq n : Nat) : State :=
  let k := (s.quad q).queues.getD tq default
  if k.granting.isSome || !k.starved.isEmpty then (if s.teRoom q tq = 0 then s.bump 0x41 q (5 * tq + 2) n else s)
  else match k.next with
  | none =>
    if k.ents.all (·.started) && (match s.jobAt q with | some j => j.inStep | none => false) then s.bump 0x41 q (5 * tq + 3) n else s
  | some e =>
    if !s.jobStarts e then s
    else if e.started then (if s.teWait q e e.wval then s else s.bump 0x41 q (5 * tq + 1) n)
    else match s.teDue q tq e.op with
      | none => s.bump 0x41 q (5 * tq + 1) n
      | some _ => if e.tracked && decide (s.teRoom q tq = 0) then s.bump 0x41 q (5 * tq + 2) n else s

/-- The queues of an engine from which it could take its next entry while a step runs, and finds none: one starvation cycle each (R18).
`grp` is the model's own group for the engine's starvation counters, which no group of the manual returns. -/
def State.starve (s : State) (grp q n : Nat) (empty : List Bool) : State :=
  (List.zipIdx empty).foldl (fun s (b, i) => if b then s.bump grp q i n else s) s

/-- A step of a job runs. -/
def State.stepping (s : State) : Bool := s.sv.jobs.any (·.inStep)

def State.countQueues (s : State) (q n : Nat) : State :=
  if !s.quadRuns q then s
  else
    let s := if ((s.jobAt q).map (·.inStep)).getD false then s.starve 0x100 q 1 ((s.quad q).aeq.map (fun es => es.all (·.started))) else s
    if n = 0 then s else (List.range 8).foldl (fun s tq => s.countQueue q tq n) s

/-- The exchange engine's and the serving engine's starvation cycles. -/
def State.countShared (s : State) (n : Nat) : State :=
  if n = 0 || !s.stepping || !s.clocked then s
  else (s.starve 0x101 0 n (s.fab.queues.map (fun es => es.all (·.started)))).starve 0x102 0 n (s.sv.seq.map (·.isEmpty))

/-! ### A local µs (R10) -/

/-- The counters that count local µs (R275, R363). -/
def State.countUs (s : State) : State :=
  let s := s.bump 0x81 0 s.pw.code 1
  let s := (List.range 4).foldl (fun s q => if s.dark q then s.bump 0x82 q 2 1 else s) s
  let s := (List.range 18).foldl (fun s p =>
    let x := s.fab.ports.getD p Port.reset
    if x.half && x.st == .up then s.bump 0x71 0 (10 * p + 9) 1 else s) s
  if s.sv.jobs.any (fun j => j.st == .running && j.started && !j.inStep && s.fab.ops.any (fun o => o.job == j.id)) then s.bump 0x72 0 12 1 else s

/-- A quadrant that is not idle has not been idle up to now (R358). -/
def State.markIdle (s : State) (q : Nat) : State := if s.idleQuad q then s else s.updQd q (fun d => { d with idleSince := s.now })

/-- What falls due as local time advances: READINESS waits, closes, lost troupe members. -/
def State.settleDue (s : State) : State := ((s.settleReady).settleCloses.lostPeers).settleForming

/-- The activity of a local µs that ends, in units of 1/1,000 of full activity, rounded down: 160 CUs, 1,024 cells, 32 lanes (R347). -/
def Quad.endUs (x : Quad) : Quad :=
  { x with lastAct := if x.cycs = 0 then 0 else min 1000 (1000 * (x.cells + 8 * x.lanes) / (1280 * 160 * x.cycs))
           cells := 0, lanes := 0, cycs := 0 }

/-- Local time advances by one local µs. -/
def State.usTick (s : State) : State :=
  let s : State := { s with pw := { s.pw with localUs := s.pw.localUs + 1 }, quads := s.quads.map Quad.endUs }
  ((List.range 4).foldl State.markIdle s.countUs).settleDue

/-! ### An array cycle -/

/-- What a cut still does in the new cycle: each queue of a quadrant that it switched loses an old head, until its bound has passed
(R78). -/
def State.cutGoes (s : State) (q : Nat) : State :=
  match (s.quad q).cutAt with
  | none => s
  | some c =>
    if !s.quadRuns q then s
    else if s.pw.cycle < c + cutBound then s.cutHeads q
    else s.updQuad q (fun x => { x with cutAt := none })

/-- The array-cycle counter and the slot counters of lit quadrants count (R63); a new cycle has seen no action yet. -/
def State.countCycle (s : State) : State :=
  if !s.clocked then s
  else
    let s : State := { s with pw := { s.pw with cycle := s.pw.cycle + 1 } }
    (List.range 4).foldl (fun s q =>
      let s := s.updQuad q (fun x => { x with acts := [], cycs := x.cycs + 1 })
      (if s.dark q then s else s.updQuad q (fun (x : Quad) => { x with slotCtr := (x.slotCtr + 1) % slotWrap })).cutGoes q) s

/-- The root clock runs on by one array cycle, ADIV root cycles; 13,200 root cycles are a local µs (R341). -/
def State.countTime (s : State) : State :=
  if s.pw.sub + s.pw.adiv2 < 26400 then { s with pw := { s.pw with sub := s.pw.sub + s.pw.adiv2 } }
  else ({ s with pw := { s.pw with sub := s.pw.sub + s.pw.adiv2 - 26400 } } : State).usTick

/-- What the engines take up by themselves in the new cycle: array-engine entries that wait no longer, units with too many errors, and
messages that waited for a port or a clock. -/
def State.engines (s : State) : State :=
  let s := (List.range 4).foldl (fun s q => (s.reap q).aeStart q) s
  if s.fab.held.isEmpty then s else s.releaseHeld

/-- One array cycle passes. In standby or off nothing does. -/
def State.tick (s : State) : State :=
  if !s.isOn then s
  else
    let mem := (s.pw.sub + s.pw.adiv2) / 16 - s.pw.sub / 16
    let s := ((List.range 4).foldl (fun s q => (s.countWaits q).countQueues q mem) s).countShared mem
    let s := (List.range 4).foldl State.deliverDue s.countCycle
    s.engines.countTime

end Sys2Proof.Machine
end

