-- ==== Sys2Proof/Safety.lean ====
section
/-! DEFINITION. What the statements call a good state, what a command may change, and what it is for a command to complete. -/

namespace Sys2Proof.Machine

open Config

/-- Every memory is in its canonical form: the device's tiers and the host's memory. -/
def State.memOk (s : State) : Prop := memWf s.mem = true ∧ memWf s.hostMem = true

/-- The device has its four functions, four quadrants and their dimmers, eight control cores and eighteen ports. -/
def State.shape (s : State) : Prop :=
  s.fns.length = 4 ∧ s.quads.length = 4 ∧ s.pw.qd.length = 4 ∧ s.cores.length = 8 ∧ s.fab.ports.length = 18

/-- A command answers a next state of which `P` holds. -/
def completes (c : Instr) (s : State) (P : State → Prop) : Prop := ∃ t, exec c s = .next t ∧ P t

/-! ### Commands of the callboard -/

/-- The slot holds the packet that the stage manager takes next, its opcode is the row's own, and it passes every check of
R290 but its own rule's. -/
def State.hears (s : State) (f n op : Nat) : Prop :=
  s.takes f n op = true ∧ (s.take f n).refuse (s.pkt f n) = none

/-- The bytes of a slot's final reply (R292, R317). -/
def State.finalReply (s : State) (f n : Nat) : List Byte :=
  if s.azgen then ((s.fn f).slot n).rep0 else ((s.fn f).slot n).rep1

/-- The slot is DONE and its final reply carries the status. -/
def State.replied (s : State) (f n status : Nat) : Prop :=
  ((s.fn f).slot n).st = .done ∧ (s.finalReply f n).head? = some (BitVec.ofNat 8 status)

/-- VAL of a slot's final reply (R292). -/
def State.replyVal (s : State) (f n : Nat) : Nat := leAt (s.finalReply f n) 8 20

/-- A report of a command has gone to the host's buffer by DMA, and the slot is DONE (R293). -/
def State.reported (s t : State) (f n buf : Nat) (out : List Byte) : Prop :=
  t.replied f n DONE ∧ t.hostMem = (s.dmaWrite f buf out).hostMem ∧
  (t.fab = s.fab ∧ t.pool = s.pool ∧ t.sv = s.sv ∧ t.quads = s.quads ∧ t.mem = s.mem ∧ t.pw = s.pw ∧ t.bt = s.bt)

/-! ### Placements -/

/-- Every quadrant of a mask has, without an eviction, a free record and the blocks of a copy of the length (R127, R128). -/
def Pool.room (p : Pool) (tier qmask len : Nat) : Prop := ∀ q ∈ maskList qmask 4, (p.place tier q 0 len).isSome = true

/-- Nothing keeps a placement of a host object from being started but want of room: no copy of the object is in the tier, its source is
committed and reaches no hole, and the quadrants of its copies and of its source are ready (R23, R132 step 1). -/
structure State.canPlace (s : State) (pl : Placing) : Prop where
  host : pl.oid < 2 ^ 60
  absent : s.pool.present pl.tier pl.oid = false
  source : s.srcOk pl = true
  ready : s.placeReady pl = true

/-- The placement that a PLACE packet of TIER 1 or 2 asks for (R131). -/
def Pkt.placing (p : Pkt) : Placing :=
  { pid := 0, oid := p.at 0x40 8, tier := p.at 0x68 1, qmask := bits (p.at 0x69 1) 0 4, len := p.at 0x50 8
    src := if p.at 0x58 8 = 0 then .addr (bits (p.at 0x48 8) 0 48) else .obj (p.at 0x58 8) (p.at 0x60 8)
    pinAt := (p.at 0x6A 1).testBit 0, for_ := .slot p.f p.n, f := p.f }

/-- A PLACE packet names a source that R131 allows, with the tier `k` that a source object is read from: a 128-byte-aligned range of
tier 0, a range of the staging window (under Azgen of the function's own quarter), a mapped range of the host window, or a stretch of an
object committed in that tier. -/
def State.sourceNamed (s : State) (p : Pkt) (k : Nat) : Prop :=
  let src := bits (p.at 0x48 8) 0 48
  let len := p.at 0x50 8
  (p.at 0x58 8 = 0 ∧
    ((src < 0x200000000 ∧ src % 128 = 0 ∧ s.inDevice src len = true) ∨
     (inWindow src len = true ∧ (s.azgen = true → (src - 0x040000000000) / 0x10000000000 = p.f)) ∨
     (isHost src = true ∧ s.reachable p.f src len false = true))) ∨
  (p.at 0x58 8 ≠ 0 ∧ src = 0 ∧ ∃ r, s.pool.readable k (p.at 0x58 8) = some r ∧ p.at 0x60 8 + len ≤ r.len)

/-! ### Messages -/

/-- A message that an UP port takes: no trip and no activation holds it back, none of its channel waits before it, and the port of the MU
that it needs is free in this cycle (R356, R396, R424). -/
structure State.looksAt (s : State) (p : Nat) (m : Msg) : Prop where
  on : s.isOn = true
  up : (s.port p).st = .up
  free : s.holdsBack m = false
  first : s.behind p m = false
  mu : s.portBusy m = false

/-- A message that the port takes and that passes the checks of R269. -/
def State.gets (s : State) (p : Nat) (m : Msg) : Prop := s.looksAt p m ∧ (s.screen p m).1 = true

/-- The state such a message acts on: it is counted, and its sender's epoch learnt (R264). -/
def State.got (s : State) (p : Nat) (m : Msg) : State := (s.screen p m).2

/-- One message has been sent from `v` to `t`: the answer to a request, by the route to its sender (R252, R265). -/
def State.answered (v t : State) (req rep : Msg) : Prop :=
  ∀ k, v.routePort (peerFrom req) req.opid = some k →
    t.fab.sent = (k, v.address (peerFrom req) { rep with opid := req.opid, rtag := req.rtag }) :: v.fab.sent

/-- One message has been sent to a peer from `v` to `t`, when a route carries it (R252, R265). -/
def State.told (v t : State) (peer : Nat) (m : Msg) : Prop :=
  ∀ k, v.routePort peer m.opid = some k → t.fab.sent = (k, v.address peer m) :: v.fab.sent

/-- Every routed pass is still receiving its scores: no routing block has anything to publish, dispatch or pass on. -/
def State.scoring (s : State) : Prop :=
  ∀ q, q < 4 → ∀ j r, s.passOf q = some (j, r) → (s.quad q).rt.published = false ∧ (s.quad q).rt.rows ≠ 0

/-- No routed pass is over, and none without rows waits to be published: the routing blocks have nothing to go on with. -/
def State.settled (s : State) : Prop :=
  ∀ q, q < 4 → ∀ j r, s.passOf q = some (j, r) → s.passOver q r.man.rp = false ∧
    ((s.quad q).rt.published = true ∨ (s.quad q).rt.rows ≠ 0)

/-- A queue of a quadrant's tier engine. -/
def State.tq (s : State) (q tq : Nat) : TeQueue := (s.quad q).queues.getD tq default

/-- The entry is the only one of its queue, none waits for room behind it, it belongs to a job, and its post fits its counter (R157). -/
structure State.lone (s : State) (q tq : Nat) (e : TeEnt) : Prop where
  quad : q < s.quads.length
  queue : tq < (s.quad q).queues.length
  only : (s.tq q tq).ents = [e]
  back : (s.tq q tq).back = []
  due : e.done = false ∧ e.posts = true ∧ e.job < 2 ^ 32
  post : e.cue < 63 → e.cue < (s.quad q).cues.length ∧ ((s.quad q).cues.getD e.cue default).posted + e.postn ≤ 0xFFFFFFFF

/-- The management endpoint has answered one message, as its newest (R404). -/
def State.said (s t : State) (name : String) (code : Nat) (body : List Byte) : Prop :=
  t.mg.out = { name := name, code := code, body := body } :: s.mg.out

/-! ### The array engine -/

/-- An entry of an operation at the end of a queue of the array engine. -/
def Quad.aeWith (x : Quad) (aq : Nat) (op : AeOp) (started : Bool) : List (List AeEnt) :=
  x.aeq.modify aq (· ++ [{ op := op, started := started }])

/-- A queue of the array engine has room, and no entry of it waits: an entry written to it is the next to start (R15, R17). -/
structure Quad.aeNext (x : Quad) (aq : Nat) : Prop where
  queue : aq < 4 ∧ aq < x.aeq.length
  room : (x.aeq.getD aq []).length < 64
  none : ∀ e ∈ x.aeq.getD aq [], e.started = true

/-- No production command of the quadrant is in progress, which a refused load would end (R50). -/
def State.noStaging (s : State) (q : Nat) : Prop :=
  s.sv.prods.filter (fun p => p.slot.isSome && (p.st == .staging || p.st == .staged) && p.man.quads.testBit q) = []

/-! ### Call lights -/

/-- The call-light target exists in the state. -/
def State.targetHeld (s : State) (t : Nat) : Prop :=
  s.hasTarget t = true ∧ (if t < 8 then t < s.cores.length else t - 8 < s.fns.length)

/-- A source is in service at a target. -/
def State.inService (s : State) (t src : Nat) : Bool :=
  if src < 32 then ((s.target t).priv.getD src default).insvc else (s.sharedAt src).insvc

/-! ### The parts of the state -/

/-- The parts of the state, one for each field. -/
inductive Part where
  | pw | bt | fns | cores | shared | mem | marks | flaws | hostMem | hostMarks | pool | quads | sv | fab | mg | ctr | free | readData | pending
  deriving DecidableEq, Repr

/-- Two states agree on a part. -/
def Part.same (p : Part) (s t : State) : Prop :=
  match p with
  | .pw => t.pw = s.pw
  | .bt => t.bt = s.bt
  | .fns => t.fns = s.fns
  | .cores => t.cores = s.cores
  | .shared => t.shared = s.shared
  | .mem => t.mem = s.mem
  | .marks => t.marks = s.marks
  | .flaws => t.flaws = s.flaws
  | .hostMem => t.hostMem = s.hostMem
  | .hostMarks => t.hostMarks = s.hostMarks
  | .pool => t.pool = s.pool
  | .quads => t.quads = s.quads
  | .sv => t.sv = s.sv
  | .fab => t.fab = s.fab
  | .mg => t.mg = s.mg
  | .ctr => t.ctr = s.ctr
  | .free => t.free = s.free
  | .readData => t.readData = s.readData
  | .pending => t.pending = s.pending

/-- From s to t only the parts of `A` may have changed: every other part is as it was. -/
structure onlyParts (A : List Part) (s t : State) : Prop where
  same : ∀ p, p ∉ A → p.same s t

end Sys2Proof.Machine
end

