-- ==== Sys2Proof/Certificates/Slice0/Obligations.lean ====
section
/-! DEFINITION. The statements put to the provers. Each docstring names the rule of spec/ it rests on; a statement that
rests on a choice of the model says so and names the log entry. -/

open Sys2Proof Sys2Proof.Machine Sys2Proof.Config

/-! ### The machine as a whole -/

/-- O1. A step with commands waiting runs the one at the front on the state with the queue's rest. With none waiting it is one array cycle
(the model's choice, log 2), which counts the slot counter of each lit quadrant once (R63) when its clocks run. -/
def Obligations.StepRunsTheFrontCommand : Prop :=
  (∀ (c : Instr) (cs : List Instr) (s : State), s.pending = c :: cs → step s = exec c { s with pending := cs }) ∧
  (∀ s : State, s.pending = [] → step s = .next s.tick)

/-- O2. A command leaves the queue of waiting commands as it is. -/
def Obligations.ExecKeepsTheQueue : Prop :=
  ∀ (c : Instr) (s t : State), exec c s = .next t → t.pending = s.pending

/-- O3. Every step keeps the memories canonical. -/
def Obligations.StepKeepsMemoryCanonical : Prop :=
  ∀ s t : State, s.memOk → step s = .next t → t.memOk

/-- O4. Every step keeps the numbers of functions, quadrants, dimmers, control cores and ports that R280, R316, R13, R342, R373 and R244
give the device: 4, 4, 4, 8 and 18. -/
def Obligations.StepKeepsShape : Prop :=
  ∀ s t : State, s.shape → step s = .next t → t.shape

/-- O5. Right after reset the memories are canonical and zeroed (the model's choice for memory that the spec gives no contents: log 12), no
command waits, and the device has its shape. -/
def Obligations.ResetIsCanonical : Prop :=
  State.reset.memOk ∧ State.reset.shape ∧ State.reset.pending = [] ∧ ∀ a n, memRead State.reset.mem a n = List.replicate n 0

/-- O6. R414: the straps are sampled by the power-up, and nothing else that a step does changes the value held. -/
def Obligations.StrapIsHeld : Prop :=
  (∀ (s : State) (strap : Nat) (failed : List Site), s.pw.phase = .standby ∨ s.pw.phase = .off → 40000 ≤ s.pw.vinMv → s.pw.vinMv ≤ 54000 →
    completes (.powerUp strap failed) s (fun t => t.bt.strap = strap % 8)) ∧
  (∀ s t : State, s.bt.strap < 8 → step s = .next t → (∀ strap failed rest, s.pending ≠ .powerUp strap failed :: rest) →
    t.bt.strap = s.bt.strap)

/-! ### The callboard's hardware, registers and call lights -/

/-- O7. CALLBOARD_WRITE and GO_WRITE (R282, R287). A write that lies in one slot's command area is stored byte for byte when the slot is not
CUED, WORKING or OPEN; a GO write to a FREE or DONE slot makes it CUED, zeroes both replies, records SEQ and the arrival local µs and queues
the slot last; other slots are unchanged. GO_WRITE (R286, R287): a GO to a slot whose packet the device holds changes no slot and is counted
as a collision; a GO value other than 0xA5 is ignored and counted as a bad CUE write. -/
def Obligations.CallboardStoresAndCues : Prop :=
  ((∀ (s : State) (f off n : Nat) (data : List Byte), s.hasCallboard f = true → f < s.fns.length → n < (s.fn f).slots.length →
      (∀ i, i < data.length → s.inCommand (off + i) = true ∧ (off + i) / 256 = n) → ((s.fn f).slot n).st.busy = false →
      completes (.callboardWrite f off data) s (fun t =>
        ((t.fn f).slot n).cmd = memWrite ((s.fn f).slot n).cmd (off % 256) data ∧ ((t.fn f).slot n).st = ((s.fn f).slot n).st ∧
        (∀ m, m ≠ n → (t.fn f).slot m = (s.fn f).slot m) ∧ onlyParts [.fns] s t)) ∧
    (∀ (s : State) (f n : Nat) (w : BitVec 32), s.hasCallboard f = true → s.rdy 0 = true → f < s.fns.length →
      n < (s.fn f).slots.length → n < s.slotCount → bits w.toNat 24 8 = 0xA5 → ((s.fn f).slot n).st.busy = false →
      completes (.goWrite f n w) s (fun t =>
        (t.fn f).slot n = { (s.fn f).slot n with st := .cued, seq := bits w.toNat 8 8, goUs := s.now, rep0 := [], rep1 := [] } ∧
        (t.fn f).arrivals = (s.fn f).arrivals ++ [n] ∧ (∀ m, m ≠ n → (t.fn f).slot m = (s.fn f).slot m) ∧ onlyParts [.fns] s t))) ∧
  ((∀ (s : State) (f n : Nat) (w : BitVec 32), s.hasCallboard f = true → s.rdy 0 = true → n < s.slotCount →
      bits w.toNat 24 8 = 0xA5 → ((s.fn f).slot n).st.busy = true →
      completes (.goWrite f n w) s (fun t => t.counter 0x01 f 1 = min ctrMax (s.counter 0x01 f 1 + 1) ∧ onlyParts [.ctr] s t)) ∧
    (∀ (s : State) (f n : Nat) (w : BitVec 32), s.hasCallboard f = true → n < s.slotCount → bits w.toNat 24 8 ≠ 0xA5 →
      completes (.goWrite f n w) s (fun t => t.counter 0x01 f 0 = min ctrMax (s.counter 0x01 f 0 + 1) ∧ onlyParts [.ctr] s t)))

/-- O8. REGISTER_WRITE (R350, R374, R284): DIM_CFG takes its fields within their limits (a slope limit above its largest value takes that
value, R350; a reserved encoding of any field leaves it, the model's choice, log 36), a control core's THRESHOLD takes its five bits and
reads back as those five, and Bus Master Enable takes bit 0 and reads back. A reserved field reads 0 and a write of it does nothing (R7,
R8): a reserved shared source reads 0 and ignores every write. The CUE word of a slot reads STATE 0xF exactly while bit 0 of RDY_MAP is
clear (R286). -/
def Obligations.RegisterWrites : Prop :=
  (∀ (s : State) (v : BitVec 64), s.isOn = true → completes (.registerWrite .dimCfg v) s (fun t =>
    t.pw.dimUp = dimField s.pw.dimUp (bits v.toNat 0 10) 10 100 ∧ t.pw.dimDown = dimField s.pw.dimDown (bits v.toNat 10 10) 10 100 ∧
    t.pw.dimEmerg = dimField s.pw.dimEmerg (bits v.toNat 20 10) 50 250 ∧
    t.pw.dimFloor = (if bits v.toNat 30 10 ≤ 500 then bits v.toNat 30 10 else s.pw.dimFloor) ∧
    t.pw.dimCeil = (if t.pw.dimFloor ≤ bits v.toNat 40 10 ∧ bits v.toNat 40 10 ≤ 1000 then bits v.toNat 40 10 else s.pw.dimCeil) ∧
    onlyParts [.pw] s t)) ∧
  (∀ (s : State) (k : Nat) (v : BitVec 64), s.isOn = true → k < 8 → k < s.cores.length →
    completes (.registerWrite (.target k 0x018) v) s (fun t =>
      t.target k = { s.target k with threshold := bits v.toNat 0 5 } ∧ (∀ j, j ≠ k → t.target j = s.target j) ∧
      t.regRead (.target k 0x018) = some (v &&& 0x1F#64) ∧ onlyParts [.cores] s t)) ∧
  (∀ (s : State) (f : Nat) (v : BitVec 64), s.isOn = true → s.functions.contains f = true → f < s.fns.length →
    completes (.registerWrite (.bme f) v) s (fun t => t.fn f = { s.fn f with bme := v.getLsbD 0 } ∧
      t.regRead (.bme f) = some (v &&& 1#64) ∧ onlyParts [.fns] s t)) ∧
  (∀ (s : State) (src : Nat) (v : BitVec 64), sharedAssigned src = false → completes (.registerWrite (.shared src) v) s (fun t =>
    t = s ∧ (s.isOn = true → s.regRead (.shared src) = some 0#64))) ∧
  (∀ (s : State) (f n : Nat), s.cueWord f n % 16 = 15 ↔ s.rdy 0 = false)

/-- O9. R369: a source is deliverable exactly when it is enabled, pending and not in service, its priority is at least THRESHOLD and above
the top of the stack, and the stack has room; the claim serves the deliverable source of the highest priority, the lowest number among
equals, and every other private source stays as it was, pending or not. -/
def Obligations.SelectionIsHighestThenLowest : Prop :=
  (∀ (s : State) (k n pri : Nat), (n, pri) ∈ s.deliverable k ↔
    ((∃ p, n < 32 ∧ (s.target k).priv[n]? = some p ∧ p.pri = pri ∧ p.en = true ∧ p.pend = true ∧ p.insvc = false) ∨
     (k < 8 ∧ ∃ c ∈ s.shared, c.src = n ∧ c.pri = pri ∧ c.target = k ∧ c.en = true ∧ c.pending = true ∧ c.insvc = false)) ∧
    (s.target k).threshold ≤ pri ∧ (∀ e ∈ (s.target k).stack.head?, e.2 < pri) ∧ (s.target k).stack.length < 16) ∧
  (∀ (s : State) (k src pri : Nat), s.targetHeld k → (src, pri) ∈ s.deliverable k →
    (∀ e ∈ s.deliverable k, e.2 < pri ∨ (e.2 = pri ∧ src ≤ e.1)) → (src < 32 → src < (s.target k).priv.length) →
    completes (.claim k) s (fun t => (t.target k).stack = (src, pri) :: (s.target k).stack ∧ t.inService k src = true ∧
      (∀ i, i < 32 → i ≠ src → (t.target k).priv[i]? = (s.target k).priv[i]?)))

/-- O10. CLAIM (R370): the selected source is pushed with its priority, marked in service, and the read returns it; with none deliverable
the stack and every source stay. EOI, SWSET, SOURCE_EDGE and MSIX_UNMASK (R367, R371, R372, R374): an EOI of the top source pops the stack
and ends its service; SWSET raises every assigned source of its mask; a qualifying edge of a shared line is pending and the line holds its
new level; unmasking a vector clears its mask, and its PBA bit unless the function is masked. -/
def Obligations.CallLightsAct : Prop :=
  ((∀ (s : State) (k src pri : Nat), s.targetHeld k → bestSource (s.deliverable k) = some (src, pri) →
      (src < 32 → src < (s.target k).priv.length) →
      completes (.claim k) s (fun t =>
        (t.target k).stack = (src, pri) :: (s.target k).stack ∧ t.inService k src = true ∧
        (t.target k).lastClaim = claimWord src pri (if k < 8 then 0 else ((s.target k).priv.getD src default).vec) ∧
        onlyParts [.cores, .shared, .fns, .ctr] s t)) ∧
    (∀ (s : State) (k : Nat), s.targetHeld k → bestSource (s.deliverable k) = none →
      completes (.claim k) s (fun t => (t.target k).stack = (s.target k).stack ∧ (t.target k).priv = (s.target k).priv ∧
        t.shared = s.shared ∧ (t.target k).lastClaim.getLsbD 31 = true ∧ ((t.target k).lastClaim.getLsbD 30 = s.stackBlocked k)))) ∧
  ((∀ (s : State) (k src p : Nat) (rest : List (Nat × Nat)), s.targetHeld k → (s.target k).stack = (src % 1024, p) :: rest →
      completes (.eoi k src) s (fun t => (t.target k).stack = rest ∧ t.inService k (src % 1024) = false ∧
        onlyParts [.cores, .shared, .fns, .ctr] s t)) ∧
    (∀ (s : State) (k : Nat) (mask : BitVec 32), s.targetHeld k → completes (.swset k mask) s (fun t =>
      (∀ i, i < (s.target k).priv.length → i < 32 → mask.getLsbD i = true → (if k < 8 then coreAssigned i else hostAssigned i) = true →
        ((t.target k).priv.getD i default).pend = true) ∧ (t.target k).stack = (s.target k).stack ∧ onlyParts [.cores, .fns, .ctr] s t)) ∧
    (∀ (s : State) (src : Nat) (high : Bool), s.isOn = true → sharedAssigned src = true → (s.sharedAt src).line ≠ high →
      (s.sharedAt src).sense = (if high then 1 else 2) ∨ (s.sharedAt src).sense = 3 →
      completes (.sourceEdge src high) s (fun t => (t.sharedAt src).pend = true ∧ (t.sharedAt src).line = high ∧
        (t.sharedAt src).latched = ((s.sharedAt src).latched || s.unclocked src) ∧ onlyParts [.shared, .ctr] s t)) ∧
    (∀ (s : State) (f vec : Nat), s.isOn = true → s.functions.contains f = true → f < s.fns.length → vec < s.vectors →
      vec < (s.fn f).vecs.length → completes (.msixUnmask f vec) s (fun t =>
        (((t.fn f).vecs.getD vec default).masked = false) ∧ ((s.fn f).fmask = false → (t.fn f).pba.getLsbD vec = false) ∧
        onlyParts [.fns, .ctr] s t)))

/-! ### Sessions -/

/-- O11. HELLO, LEASE_SET and LEASE_EXPIRY (R298 to R301, R305): an opening HELLO gives the session the next epoch, the packet's map and a
lease from its GO; LEASE_SET renews the lease with its period; a lease that has ended with no renewal waiting closes the session and empties
the device cache. -/
def Obligations.SessionOpensRenewsAndLapses : Prop :=
  (∀ (s : State) (f n : Nat), let p := s.pkt f n
    s.hears f n 0x0101 → p.at 0x43 1 ≤ 6 → p.badMap = none → p.at 0x40 2 = 0 → (s.take f n).heldOk p = true →
    (s.take f n).takeoverWaits f = false → (s.fn f).opened = false →
    completes (.hello f n) s (fun t => (t.fn f).opened = true ∧ (t.fn f).epoch = nextEpoch (s.fn f).epoch ∧ (t.fn f).map = p.mapEnts ∧
      (t.fn f).leaseStart = p.goUs ∧ (t.fn f).leasePeriod = s.bt.sets.lease ∧ ((s.fn f).kept = [] → t.replied f n DONE))) ∧
  (∀ (s : State) (f n : Nat), let p := s.pkt f n
    s.hears f n 0x0102 → p.at 0x40 8 = 0 ∨ (10000 ≤ p.at 0x40 8 ∧ p.at 0x40 8 ≤ 60000000) →
    completes (.leaseSet f n) s (fun t => t.replied f n DONE ∧ (t.fn f).leaseStart = p.goUs ∧
      (t.fn f).leasePeriod = (if p.at 0x40 8 = 0 then (s.fn f).leasePeriod else p.at 0x40 8) ∧ onlyParts [.fns, .mg, .ctr] s t)) ∧
  (∀ (s : State) (f : Nat), s.isOn = true → s.functions.contains f = true → (s.fn f).opened = true → s.bt.act ≠ .loading →
    (s.fn f).leaseEnd ≤ s.now → s.renewalWaits f = false → s.sv.jobs.filter (·.ofSession f) = [] →
    s.pool.placing.filter (·.fromHost f) = [] → (s.fn f).closing = [] →
    completes (.leaseExpiry f) s (fun t => (t.fn f).opened = false ∧ (t.fn f).dcache = [] ∧ (t.fn f).epoch = (s.fn f).epoch ∧
      onlyParts [.fns, .mg, .ctr] s t))

/-- O12. READINESS, RESET_FUNCTION and RELEASE (R302 to R305): a READINESS whose mask is set completes at once; RESET_FUNCTION with KIND 2
takes an UP port to retrain, and with KIND 4 begins the function reset 100 local µs later; a RELEASE with no job running closes the session
and completes. -/
def Obligations.ReadinessResetRelease : Prop :=
  (∀ (s : State) (f n : Nat), let p := s.pkt f n
    s.hears f n 0x0103 → p.at 0x48 4 ≤ 10000000 → BitVec.ofNat 47 (p.at 0x40 8) &&& ~~~s.bt.rdy = 0 →
    completes (.readiness f n) s (fun t => t.replied f n DONE ∧ onlyParts [.fns, .mg, .ctr] s t)) ∧
  (∀ (s : State) (f n : Nat), let p := s.pkt f n
    s.hears f n 0x0104 → p.at 0x40 1 = 2 → p.at 0x41 1 ≤ 17 → p.at 0x41 1 < s.fab.ports.length → (s.port (p.at 0x41 1)).st = .up →
    completes (.resetFunction f n) s (fun t => t.replied f n DONE ∧ (t.port (p.at 0x41 1)).st = .retrain)) ∧
  (∀ (s : State) (f n : Nat), let p := s.pkt f n
    s.hears f n 0x0104 → p.at 0x40 1 = 4 → p.at 0x41 1 = 0 →
    completes (.resetFunction f n) s (fun t => t.replied f n DONE ∧ (t.fn f).resetAt = some (s.now + 100) ∧
      onlyParts [.fns, .mg, .ctr] s t)) ∧
  (∀ (s : State) (f n : Nat), s.hears f n 0x0105 → s.sv.jobs.filter (·.ofSession f) = [] →
    s.pool.placing.filter (·.fromHost f) = [] → (s.fn f).closing = [] →
    completes (.release f n) s (fun t => t.replied f n DONE ∧ (t.fn f).opened = false ∧ (t.fn f).dcache = [] ∧
      onlyParts [.fns, .mg, .ctr] s t))

/-! ### The pool and productions -/

/-- O13. R127, R119, R120, R140: an allocation gives an object the blocks its length needs, in at most 8 runs, largest first, within the
part of the tier that its class may take; no run overlaps another, or an extent that a record of that quadrant holds there. -/
def Obligations.AllocationTakesFreeBlocks : Prop :=
  ∀ (p : Pool) (tier q cls len : Nat) (ext : List (Nat × Nat)), let span := poolSpan tier cls
    p.alloc tier q cls len = some ext →
    (ext.map (·.2)).sum = ceilDiv len blockBytes ∧ ext.length ≤ 8 ∧ ext.Pairwise (fun a b => b.2 ≤ a.2) ∧
    (∀ e ∈ ext, span.1 ≤ e.1 ∧ e.1 + e.2 ≤ span.2) ∧
    ext.Pairwise (fun a b => a.1 + a.2 ≤ b.1 ∨ b.1 + b.2 ≤ a.1) ∧
    (∀ e ∈ ext, ∀ u ∈ p.used tier q, span.1 ≤ u.1 → u.1 < span.2 → e.1 + e.2 ≤ u.1 ∨ u.1 + u.2 ≤ e.1)

/-- O14. R136: an allocation that lacks space or directory records in a quadrant evicts one object after another until it succeeds; with
NOEVICT, or when no such object remains, it fails. The object taken next has a copy in the quadrant and tier, no hold and no pin, the lowest
stamp, then the lowest ID, and is never of class 4; its eviction removes every copy of it in the tier. An object of which a copy is still
being written is not taken (the model's reading, log 28). -/
def Obligations.EvictionTakesTheOldest : Prop :=
  (∀ (s : State) (tier q cls len : Nat) (ne : Bool), let lack := s.pool.recsIn tier q ≥ dirRecords
    (∀ (fuel : Nat) (ext : List (Nat × Nat)), ¬ lack → s.pool.alloc tier q cls len = some ext → State.allocEvict tier q cls len ne fuel s = (some ext, s)) ∧
    (∀ (fuel o : Nat), lack ∨ s.pool.alloc tier q cls len = none → ne = false → s.pool.victim tier q = some o →
      State.allocEvict tier q cls len ne (fuel + 1) s =
        State.allocEvict tier q cls len ne fuel ({ s with pool := s.pool.clear tier o }.bump 0x33 q (if tier = 1 then 2 else 3) 1)) ∧
    (∀ fuel : Nat, lack ∨ s.pool.alloc tier q cls len = none → ne = true ∨ s.pool.victim tier q = none →
      State.allocEvict tier q cls len ne fuel s = (none, s)) ∧
    ((State.allocEvict tier q cls len false s.pool.recs.length s).1 = none →
      (State.allocEvict tier q cls len false s.pool.recs.length s).2.pool.victim tier q = none)) ∧
  (∀ (p : Pool) (tier q o : Nat), p.victim tier q = some o →
    (∃ r ∈ p.recs, r.tier = tier ∧ r.oid = o ∧ r.copy = q ∧ r.committed = true) ∧ p.isHeld tier o = false ∧ p.isPinned tier o = false ∧
    o >>> 60 ≠ 4 ∧ (∀ k ∈ p.evictable tier q, p.stampOf tier o < p.stampOf tier k ∨ (p.stampOf tier o = p.stampOf tier k ∧ o ≤ k))) ∧
  (∀ (p : Pool) (tier q : Nat), p.victim tier q = none → ∀ r ∈ p.recs, r.tier = tier → r.copy = q → r.committed = true →
    r.oid >>> 60 ≠ 4 → p.isHeld tier r.oid = true ∨ p.isPinned tier r.oid = true ∨ p.reserved tier r.oid = true) ∧
  (∀ (p : Pool) (tier o : Nat), (p.clear tier o).present tier o = false ∧
    (∀ r ∈ p.recs, r.oid ≠ o ∨ r.tier ≠ tier → r ∈ (p.clear tier o).recs))

/-- O15. PLACE (R131, R132, R145): of TIER 1 or 2, with an OBJ_ID of class 0 of which the tier holds no copy, an allowed source that is
ready, a LENGTH within the tier's limit and a QMASK whose quadrants are ready and, perhaps after evictions, have room, the placement is
started: it is listed with its object, tier, quadrants and length, and the slot waits. Of TIER 3, into a live loan whose free space takes
the object as it stands, it is listed for the loan. PLACEMENT_COMMIT (R129, R132 step 5) of a PLACE of TIER 1 or 2, once the MUs it reads
are free (R424): its copies are committed, the object is stamped, the placement is no longer listed, and the waiting slot completes with
DONE, or POISONED when a marked line lies in it; that of a PLACE of TIER 3 sends its data to the lender when a route carries it. -/
def Obligations.PlacementStartsAndCommits : Prop :=
  (∀ (s : State) (f n : Nat), let p := s.pkt f n; let pl := p.placing; let tier := p.at 0x68 1
      s.hears f n 0x0201 → tier = 1 ∨ tier = 2 → 1 ≤ p.at 0x40 8 → 1 ≤ p.at 0x50 8 → p.at 0x50 8 ≤ tierLimit tier → p.at 0x6C 4 = 0 →
      pl.qmask ≠ 0 → s.ownQuad p pl.qmask = true → s.sourceNamed p (3 - tier) → s.canPlace pl →
      s.pool.room tier pl.qmask pl.len ∨
        ((s.take f n).reserve (newRec pl.oid tier pl.qmask pl.len 0 (p.at 0x58 8) 0) ((p.at 0x6A 1).testBit 1)).1.isSome = true →
      completes (.place f n) s (fun t => t.pool.placing = s.pool.placing ++ [{ pl with pid := s.pool.nextPid }] ∧
        t.pool.nextPid = s.pool.nextPid + 1 ∧ ((t.fn f).slot n).st = .working)) ∧
  (∀ (s : State) (f n : Nat) (l : LoanTaken), let p := s.pkt f n; let pl := p.placing; let oid := p.at 0x40 8; let k := s.loanTier (p.at 0x58 8)
      s.hears f n 0x0201 → p.at 0x68 1 = 3 → s.azgen = false → s.fab.fenced = false → 1 ≤ oid → oid < 2 ^ 60 → 1 ≤ pl.len →
      s.sourceNamed p k → s.srcReady pl.src k pl.len [0] = true → s.pool.taken.find? (·.id == p.at 0x6C 4) = some l → l.live s.now = true →
      l.used + ceilDiv pl.len blockBytes * blockBytes ≤ l.size * 2 ^ 30 → (∀ x ∈ s.pool.placing, x.tier = 3 → x.oid ≠ oid) →
      (∀ o ∈ s.fab.ops, o.kind = 4 → o.msg.a1 ≠ arg oid) → (∀ g ∈ s.pool.taken, ∀ o ∈ g.objs, o.1 ≠ oid) →
      completes (.place f n) s (fun t =>
        t.pool.placing = s.pool.placing ++ [{ pl with pid := s.pool.nextPid, qmask := p.at 0x6C 4, for_ := .borrow f n }] ∧
        t.pool.nextPid = s.pool.nextPid + 1 ∧ ((t.fn f).slot n).st = .working)) ∧
  (∀ (s : State) (pid f n : Nat) (h : HostView) (pl : Placing), s.isOn = true → s.pool.placing.find? (·.pid == pid) = some pl →
      pl.for_ = .slot f n → s.placeFree pl = true → f < s.fns.length → n < (s.fn f).slots.length →
      completes (.placementCommit pid h) s (fun t => (t.replied f n DONE ∨ t.replied f n POISONED) ∧
        (∀ r ∈ t.pool.recs, r.tier = pl.tier → r.oid = pl.oid → r.committed = true) ∧
        (t.pool.placing = s.pool.placing.filter (fun x => x.pid != pid)) ∧
        (pl.pinAt = true → t.pool.isPinned pl.tier pl.oid = true) ∧ t.pool.stampOf pl.tier pl.oid = s.stampNow)) ∧
  (∀ (s : State) (pid f n : Nat) (h : HostView) (pl : Placing) (l : LoanTaken), s.isOn = true →
      s.pool.placing.find? (·.pid == pid) = some pl → pl.for_ = .borrow f n → s.placeFree pl = true →
      s.pool.taken.find? (·.id == pl.qmask) = some l → l.live s.now = true → 1 ≤ pl.len → pl.len ≤ 65536 →
      (s.routePort l.peer ((s.fab.nextOp + 1) % 2 ^ 32)).isSome = true →
      completes (.placementCommit pid h) s (fun t => t.pool.placing = s.pool.placing.filter (fun x => x.pid != pid) ∧
        ∃ o ∈ t.fab.ops, o.kind = 4 ∧ o.peer = l.peer ∧ o.slot = some (f, n) ∧ o.id = s.fab.nextOp + 1 ∧
          o.msg.payload.length = pl.len ∧ o.msg.a1 = arg pl.oid))

/-- O16. EVICT and PIN (R137, R138): an eviction leaves no copy of the object in the tiers it names; a pin pins, and an unpin unpins. -/
def Obligations.EvictAndPin : Prop :=
  (∀ (s : State) (f n : Nat), let p := s.pkt f n
    let tiers := if p.at 0x48 1 = 3 then [1, 2] else [p.at 0x48 1]
    s.hears f n 0x0202 → 1 ≤ p.at 0x48 1 → p.at 0x48 1 ≤ 3 → p.at 0x40 8 < 6 * 2 ^ 60 → tiers.any (fun k => s.pool.locked k (p.at 0x40 8)) = false →
    tiers.any (fun k => s.pool.present k (p.at 0x40 8)) = true →
    completes (.evict f n) s (fun t => t.replied f n DONE ∧ (∀ k ∈ tiers, t.pool.present k (p.at 0x40 8) = false) ∧
      (∀ r ∈ s.pool.recs, r.oid ≠ p.at 0x40 8 → r ∈ t.pool.recs) ∧ onlyParts [.pool, .fns, .mg, .ctr] s t)) ∧
  (∀ (s : State) (f n : Nat), let p := s.pkt f n; let k := p.at 0x48 1; let oid := p.at 0x40 8
    s.hears f n 0x0203 → k = 1 ∨ k = 2 → p.at 0x49 1 = 1 → oid < 6 * 2 ^ 60 → s.pool.reserved k oid = false → s.pool.present k oid = true →
    oid >>> 60 ≠ 4 → s.pool.isPinned k oid = true ∨ s.pool.pinOver k oid = false →
    completes (.pin f n) s (fun t => t.replied f n DONE ∧ t.pool.isPinned k oid = true ∧ t.pool.recs = s.pool.recs ∧
      onlyParts [.pool, .fns, .mg, .ctr] s t)) ∧
  (∀ (s : State) (f n : Nat), let p := s.pkt f n; let k := p.at 0x48 1; let oid := p.at 0x40 8
    s.hears f n 0x0203 → k = 1 ∨ k = 2 → p.at 0x49 1 = 0 → oid < 6 * 2 ^ 60 → s.pool.reserved k oid = false → s.pool.present k oid = true →
    oid >>> 60 ≠ 4 →
    completes (.pin f n) s (fun t => t.replied f n DONE ∧ t.pool.isPinned k oid = false ∧ t.pool.recs = s.pool.recs ∧
      onlyParts [.pool, .fns, .mg, .ctr] s t))

/-- O17. POOL_QUERY, LEND and BORROW (R139, R143, R144): the pool report goes to the host's buffer; an offer with room for it is held for
the peer with its size and term; a borrow request that a port carries is outstanding for its slot. Loan ends and the wings sweep (R141,
R146): a term that has passed, or a recall 2,000 local µs old, ends the loan at its side; the sweep leaves no expired parked cache that
nothing holds, and a request whose parked cache it takes is gone (R192). -/
def Obligations.LoansAndPoolReports : Prop :=
  ((∀ (s : State) (f n : Nat), let p := s.pkt f n; let buf := p.at 0x40 8; let out := s.poolReport.take (p.at 0x48 4)
      s.hears f n 0x0204 → 416 ≤ p.at 0x48 4 → isHost buf = true → s.reachable f buf out.length true = true →
      completes (.poolQuery f n) s (fun t => s.reported t f n buf out)) ∧
    (∀ (s : State) (f n : Nat), let p := s.pkt f n; let u := s.take f n
      let peer := peerField (p.at 0x40 2); let tier := p.at 0x42 1; let size := p.at 0x44 2; let term := bits (p.at 0x48 8) 0 41
      s.hears f n 0x0205 → s.fab.fenced = false → tier = 1 ∨ tier = 2 → 1 ≤ size → size ≤ 512 → 1000 ≤ term → term ≤ 2 ^ 40 →
      s.pool.offers.any (·.peer == peer) = false → s.pool.given.length < 16 →
      2 * 4096 * (((s.pool.given.filter (·.tier == tier)).map (·.size) ++ (s.pool.offers.filter (·.tier == tier)).map (·.size)).foldl (· + ·) 0 + size)
        ≤ 4 * poolBlocks tier →
      4096 * size ≤ (((List.range 4).filter (fun q => s.quadReady q (tier == 1))).map (s.pool.freeBlocks tier)).sum ∨
        (State.lendSpace tier (4096 * size) (6 * 2 ^ 60 + s.pool.nextPid) s.pool.recs.length u).1.isSome = true →
      completes (.lend f n) s (fun t => t.replied f n DONE ∧
        t.pool.offers = s.pool.offers ++ [{ peer := peer, tier := tier, size := size, term := term, resv := 6 * 2 ^ 60 + s.pool.nextPid }])) ∧
    (∀ (s : State) (f n : Nat), let p := s.pkt f n; let peer := peerField (p.at 0x40 2)
      s.hears f n 0x0206 → s.fab.fenced = false → p.at 0x4C 4 = 0 → p.at 0x42 1 = 1 ∨ p.at 0x42 1 = 2 → 1 ≤ p.at 0x44 2 → p.at 0x44 2 ≤ 512 →
      s.loansHeld < 16 → (s.routePort peer (s.fab.nextOp % 2 ^ 32)).isSome = true →
      completes (.borrow f n) s (fun t => ((t.fn f).slot n).st = .working ∧
        ∃ o ∈ t.fab.ops, o.kind = 8 ∧ o.peer = peer ∧ o.slot = some (f, n) ∧ o.id = s.fab.nextOp))) ∧
  ((∀ (s : State) (loan : Nat) (g : LoanGiven), s.isOn = true → s.pool.given.find? (·.id == loan) = some g → g.start + g.term ≤ s.now →
      completes (.loanTermExpiry loan true) s (fun t => ∀ x ∈ t.pool.given, x.id ≠ loan)) ∧
    (∀ (s : State) (loan : Nat) (l : LoanTaken), s.isOn = true → s.pool.taken.find? (·.id == loan) = some l → l.live s.now = false →
      completes (.loanTermExpiry loan false) s (fun t => (∀ x ∈ t.pool.taken, x.id ≠ loan) ∧ onlyParts [.pool] s t)) ∧
    (∀ (s : State) (loan r : Nat) (g : LoanGiven), s.isOn = true → s.pool.given.find? (·.id == loan) = some g → g.recalled = some r →
      r + 2000 ≤ s.now → completes (.loanRecallFree loan) s (fun t => ∀ x ∈ t.pool.given, x.id ≠ loan)) ∧
    (∀ s : State, s.isOn = true → (∀ r ∈ s.sv.reqs, r.st ≠ .parked) → completes .wingsSweep s (fun t =>
      (∀ r ∈ t.pool.recs, r.tier = 2 → r.oid >>> 60 = 4 → r.committed = true → r.expiry ≤ s.now → t.pool.isHeld 2 r.oid = true) ∧
      (∀ r ∈ s.pool.recs, r.oid >>> 60 ≠ 4 → r ∈ t.pool.recs) ∧ onlyParts [.pool, .ctr] s t)) ∧
    (∀ (s : State) (r : Req) (c : Rec), s.isOn = true → r ∈ s.sv.reqs → r.st = .parked → c ∈ s.pool.recs → c.tier = 2 → c.oid = r.parkObj →
      c.oid >>> 60 = 4 → c.committed = true → c.expiry ≤ s.now → s.pool.isHeld 2 c.oid = false →
      completes .wingsSweep s (fun t => ∀ x ∈ t.sv.reqs, x.id ≠ r.id)))

/-- O18. PATROL_SCRUB (R154): a codeword with an uncorrectable error becomes a poison mark, and a correctable one is written back with no
mark. CXL.mem and snoops (R121, R122, R277): what the host writes into the staging window reads back, and a read gives POISON when a
marked codeword or one that the code cannot correct lies in it; while RDY_MAP bit 25 is clear a read gives zeros with poison and a write is
discarded; an access to a dark quadrant's quarter is held; a snoop takes its line out of every function's device cache. -/
def Obligations.ScrubAndStagingWindow : Prop :=
  (∀ (s : State) (addr : Nat) (g q n off : Nat), s.isOn = true → stackOf (addr / 64 * 64) = some (g, q, n, off) → s.dark q = false →
      s.inDevice (addr / 64 * 64) 64 = true → s.marks.contains (addr / 64 * 64) = false →
      (∀ kind, s.scrubbed (addr / 64 * 64) kind = .uncorrectable → completes (.patrolScrub addr kind) s (fun t =>
        t.marks = markPut s.marks (addr / 64 * 64) ∧ onlyParts [.marks, .flaws, .fns, .mg, .ctr] s t)) ∧
      (∀ kind, s.scrubbed (addr / 64 * 64) kind = .correctable → completes (.patrolScrub addr kind) s (fun t =>
        look t.flaws (addr / 64 * 64) = none ∧ onlyParts [.flaws, .ctr] s t))) ∧
  ((∀ (s : State) (off : Nat) (data : List Byte), s.memOk → s.isOn = true → s.rdy 25 = true → off + data.length ≤ 0x1000000000 →
      (∀ q ∈ windowQuads off data.length, s.dark q = false) → completes (.cxlMemWrite off data) s (fun t =>
        (∀ i, i < data.length → memGet t.mem (windowAddr (off + i)) = data.getD i 0) ∧
        (∀ a, (∀ i, i < data.length → a ≠ windowAddr (off + i)) → memGet t.mem a = memGet s.mem a) ∧
        onlyParts [.mem, .marks, .flaws] s t)) ∧
    (∀ (s : State) (off len : Nat), s.isOn = true → s.rdy 25 = true → off + len ≤ 0x1000000000 →
      (∀ q ∈ windowQuads off len, s.dark q = false) →
      completes (.cxlMemRead off len) s (fun t => t.readData.1 = (List.range len).map (fun i => memGet s.mem (windowAddr (off + i))) ∧
        (1 ≤ len → t.readData.2 = (List.range len).any (fun i => s.marked (windowAddr (off + i)) 1)) ∧
        onlyParts [.readData, .ctr] s t)) ∧
    (∀ (s : State) (off len : Nat), s.isOn = true → s.rdy 25 = false → off + len ≤ 0x1000000000 →
      completes (.cxlMemRead off len) s (fun t => t.readData = (List.replicate len 0, true) ∧ onlyParts [.readData, .ctr] s t)) ∧
    (∀ (s : State) (off : Nat) (data : List Byte), s.isOn = true → s.rdy 25 = false → off + data.length ≤ 0x1000000000 →
      completes (.cxlMemWrite off data) s (onlyParts [.ctr] s)) ∧
    (∀ (s : State) (off len q : Nat), s.isOn = true → s.rdy 25 = true → off + len ≤ 0x1000000000 → q ∈ windowQuads off len → s.dark q = true →
      completes (.cxlMemRead off len) s (fun t => t.pw.cxlWait = s.pw.cxlWait ++ [{ off := off, len := len, data := none }] ∧
        onlyParts [.pw] s t)) ∧
    (∀ (s : State) (addr : Nat), s.isOn = true → completes (.hostSnoop addr) s (fun t =>
      (∀ f, addr / 64 ∉ (t.fn f).dcache) ∧ onlyParts [.fns] s t)))

/-- O19. PRODUCTION_LOAD and ON_STAGE (R186, R187): of a right manifest, loading skips the entries already stored and places the first that
is not, or last the manifest itself; staging holds the entries already in tier 1, places each other entry that no earlier one's quadrants
hold back, two of disjoint quadrants in parallel, and with nothing to place and no resident weights ends ON_STAGE with DONE. While a
placement runs the production stays LOADING or STAGING and the slot waits. OFF_STAGE, CHANGEOVER and PRODUCTION_DROP (R179, R189): a
production without a job goes off stage: it is STORED with no hold and an empty alias table; a changeover with no step running binds every
alias of OLD_ID to NEW_ID, and with a step running waits for its end, NEW_ID held; a dropped production is ABSENT. -/
def Obligations.ProductionsComeAndGo : Prop :=
  ((∀ (s : State) (f n : Nat) (h : HostView), let p := s.pkt f n; let num := p.at 0x4C 2; let mlen := p.at 0x48 4
      let u := (s.take f n).withHost h
      let r := u.readNamed f (p.at 0x40 8) mlen
      let m := manifestOf r.1
      let v : State := { r.2 with sv := { r.2.sv with prods := r.2.sv.prods ++ [prod0 num m (f, n) (cellsOf 0 r.1)] } }
      s.hears f n 0x0301 → p.at 0x40 8 % 128 = 0 → u.named f (p.at 0x40 8) mlen = true → 288 ≤ mlen → mlen ≤ 65792 → 1 ≤ num → num ≤ 4095 →
      s.prod? num = none → mlen = 256 + 32 * ofLe ((r.1.drop 6).take 2) → r.2.manifestOk f r.1 mlen = true →
      r.2.ownQuad p (m.quads ||| m.objs.foldl (fun q o => q ||| o.q2) 0) = true →
      (∀ (pre rest : List ObjEnt) (o : ObjEnt), let pl : Placing :=
          { pid := 0, oid := o.oid, tier := 2, qmask := o.q2, len := o.len, src := .addr o.src, pinAt := m.pin2, for_ := .load num, f := f }
        m.objs = pre ++ o :: rest → (∀ e ∈ pre, v.stored e = true) → v.stored o = false → v.canPlace pl → v.pool.room 2 o.q2 o.len →
        completes (.productionLoad f n h) s (fun t => (t.prod? num).map (·.st) = some .loading ∧
          t.pool.placing = s.pool.placing ++ [{ pl with pid := s.pool.nextPid }] ∧ ((t.fn f).slot n).st = .working)) ∧
      (let pl : Placing := { pid := 0, oid := m.manId, tier := 2, qmask := 1, len := mlen, src := .bytes (cellsOf 0 r.1) [], pinAt := false,
                             for_ := .load num, f := f };
        (∀ e ∈ m.objs, v.stored e = true) → v.canPlace pl → v.pool.room 2 1 mlen →
        completes (.productionLoad f n h) s (fun t => (t.prod? num).map (·.st) = some .loading ∧
          t.pool.placing = s.pool.placing ++ [{ pl with pid := s.pool.nextPid }] ∧ ((t.fn f).slot n).st = .working))) ∧
    (∀ (s : State) (f n : Nat) (x : Sys2Proof.Machine.Prod), let num := (s.pkt f n).at 0x40 2
      let todo := x.man.objs.filter (fun e => e.q1 != 0)
      let pl (o : ObjEnt) : Placing :=
        { pid := 0, oid := o.oid, tier := 1, qmask := o.q1, len := o.len, src := .obj o.oid 0, pinAt := false, for_ := .stage num, f := f }
      s.hears f n 0x0302 → s.prod? num = some x → x.st = .stored → (s.sv.prods.filter (·.st.isStaged)).length < 16 →
      (∀ e ∈ x.man.objs, (s.pool.readable 2 e.oid).isSome = true) → (s.pool.readable 2 x.man.manId).isSome = true →
      (∀ y ∈ s.pool.placing, y.for_ ≠ .stage num) →
      (∀ (pre rest : List ObjEnt) (o : ObjEnt), todo = pre ++ o :: rest → (∀ e ∈ pre, s.staged e = true ∧ e.oid ≠ o.oid) →
        (∀ e ∈ rest, e.q1 &&& o.q1 ≠ 0 ∧ e.oid ≠ o.oid) → s.staged o = false → s.canPlace (pl o) → s.pool.room 1 o.q1 o.len →
        completes (.onStage f n) s (fun t => (t.prod? num).map (·.st) = some .staging ∧
          t.pool.placing = s.pool.placing ++ [{ pl o with pid := s.pool.nextPid }] ∧ ((t.fn f).slot n).st = .working)) ∧
      (∀ a b : ObjEnt, todo = [a, b] → a.q1 &&& b.q1 = 0 → a.oid ≠ b.oid → s.staged a = false → s.staged b = false →
        s.canPlace (pl a) → s.canPlace (pl b) → s.pool.room 1 a.q1 a.len → s.pool.room 1 b.q1 b.len →
        completes (.onStage f n) s (fun t => (t.prod? num).map (·.st) = some .staging ∧
          t.pool.placing = s.pool.placing ++ [{ pl a with pid := s.pool.nextPid }, { pl b with pid := s.pool.nextPid + 1 }] ∧
          ((t.fn f).slot n).st = .working)) ∧
      (let binds := (x.man.objs.filter (fun o => decide (o.tag ≤ 255))).map (fun o => (o.tag, o.oid));
        (∀ e ∈ todo, s.staged e = true) → x.man.resident = false → s.sheetsOk { x with bindings := binds } = true →
        completes (.onStage f n) s (fun t => t.replied f n DONE ∧ (t.prod? num).map (fun y => (y.st, y.bindings)) = some (.onStage, binds) ∧
          t.pool.placing = s.pool.placing)))) ∧
  ((∀ (s : State) (f n : Nat) (x : Sys2Proof.Machine.Prod), let num := (s.pkt f n).at 0x40 2
      s.hears f n 0x0303 → s.prod? num = some x → s.sv.jobs.any (fun j => j.prod == num) = false → x.slot ≠ some (f, n) →
      completes (.offStage f n) s (fun t => t.replied f n DONE ∧ (∀ h ∈ t.pool.holds, h.who ≠ .prod num) ∧
        (t.prod? num).map (fun y => (y.st, y.bindings, y.stale)) = some (.stored, [], false))) ∧
    (∀ (s : State) (f n : Nat) (x : Sys2Proof.Machine.Prod), let p := s.pkt f n; let old := p.at 0x40 8; let new := p.at 0x48 8
      s.hears f n 0x0304 → s.bindsObj old = some x → 1 ≤ new → new < 2 ^ 60 → new ≠ old → s.changeFits x old new = true →
      s.sv.changes.any (fun c => [c.old, c.new].any (fun o => o == old || o == new)) = false →
      ((∀ j ∈ s.sv.jobs, j.prod = x.num → j.owns = true ∨ j.st = .held → j.inStep = false ∧ j.sheets ≤ j.steps) →
        completes (.changeover f n) s (fun t => t.replied f n DONE ∧
          (∀ y ∈ t.sv.prods, y.num = x.num → ∀ e ∈ y.bindings, e.2 ≠ old) ∧
          t.sv.jobs = s.sv.jobs ∧ onlyParts [.pool, .sv, .quads, .fns, .mg, .ctr] s t)) ∧
      (∀ j : Job, s.sv.jobs.find? (fun j => j.prod == x.num && (j.owns || j.st == .held)) = some j → j.inStep = true ∨ j.steps < j.sheets →
        completes (.changeover f n) s (fun t => t.sv.prods = s.sv.prods ∧ t.pool.isHeld 1 new = true ∧ ((t.fn f).slot n).st = .working ∧
          (∃ c ∈ t.sv.changes, c.old = old ∧ c.new = new ∧ c.job = j.id ∧ j.steps < c.step) ∧ onlyParts [.pool, .sv, .fns] s t))) ∧
    (∀ (s : State) (f n : Nat) (x : Sys2Proof.Machine.Prod), let num := (s.pkt f n).at 0x40 2
      s.hears f n 0x0305 → s.prod? num = some x → x.st = .stored →
      completes (.productionDrop f n) s (fun t => t.replied f n DONE ∧ t.prod? num = none ∧ t.sv.jobs = s.sv.jobs ∧
        (∀ r ∈ s.pool.recs, (∀ o ∈ x.man.objs, o.oid ≠ r.oid) → x.man.manId ≠ r.oid → r ∈ t.pool.recs) ∧
        onlyParts [.pool, .sv, .fns, .mg, .ctr] s t)))

/-! ### Requests, steps and jobs -/

/-- O20. REQUEST_OPEN (R191): with every parameter within its limits and room in the job, the request joins the job as QUEUED under the
next ID, and the command's one reply is ACCEPTED with that ID, a first reply when the end record is to be the slot's final reply.
REQUEST_APPEND (R202, R206): a next turn of an IDLE request takes its prompt and output buffer and waits for admission; a tree for a DECODE
request waits for its next position. -/
def Obligations.RequestsOpenAndAppend : Prop :=
  (∀ (s : State) (f n : Nat) (j : Job) (x : Sys2Proof.Machine.Prod), let p := s.pkt f n
      let plen := p.at 0x48 4; let maxnew := p.at 0x4C 4; let outcap := p.at 0x58 4; let home := p.at 0x81 1
      s.hears f n 0x0401 → s.job? p.job = some j → s.prod? j.prod = some x → s.hostRange f (p.at 0x40 8) (4 * plen) 4 false = true →
      1 ≤ plen → plen + 1 ≤ x.man.maxctx → 1 ≤ maxnew → maxnew ≤ 1048576 → s.hostRange f (p.at 0x50 8) (16 * outcap) 64 true = true →
      maxnew + 2 ≤ outcap → outcap ≤ 16777216 → tempOk (p.at 0x5C 4) = true → p.at 0x60 2 ≤ 1024 →
      (∀ i, i < 4 → p.at (0x70 + 4 * i) 4 < x.man.vocab ∨ p.at (0x70 + 4 * i) 4 = 0xFFFFFFFF) →
      home = 0xFF ∨ (home ≤ 3 ∧ x.man.quads.testBit home = true) → (s.liveReqs p.job).length < 8192 →
      completes (.requestOpen f n) s (fun t => t.sv.reqs = s.sv.reqs ++ [s.newReq p j.prod] ∧ t.sv.nextReq = s.sv.nextReq + 1 ∧
        (if (p.at 0x80 1).testBit 1 then
           ((t.fn f).slot n).st = .opened ∧ ((t.fn f).slot n).rep0.head? = some (BitVec.ofNat 8 ACCEPTED)
         else t.replied f n ACCEPTED ∧ t.replyVal f n = s.sv.nextReq % 2 ^ 160) ∧
        onlyParts [.sv, .fns, .mg, .ctr] s t)) ∧
  ((∀ (s : State) (f n : Nat) (h : HostView) (r : Req) (x : Sys2Proof.Machine.Prod), let p := s.pkt f n; let u := (s.take f n).withHost h
      s.hears f n 0x0402 → s.reqOf p = some r → s.prod? r.prod = some x → p.at 0x48 1 = 0 → r.st = .idle → r.isAppend = false →
      1 ≤ p.at 0x4C 4 → p.at 0x4C 4 + r.nextPos ≤ x.man.maxctx - 1 → u.hostRange f (p.at 0x50 8) (4 * p.at 0x4C 4) 4 false = true →
      p.at 0x58 4 = 0 → 1 ≤ p.at 0x5C 4 → p.at 0x5C 4 ≤ 1048576 → p.at 0x5C 4 + 2 ≤ p.at 0x68 4 → p.at 0x68 4 ≤ 16777216 →
      u.hostRange f (p.at 0x60 8) (16 * p.at 0x68 4) 64 true = true →
      completes (.requestAppend f n h) s (fun t => t.replied f n ACCEPTED ∧
        (t.req? r.id).map (fun y => (y.isAppend, y.prompt, y.plen, y.maxnew, y.outbuf, y.outcap, y.delivered, y.consumed)) =
          some (true, p.at 0x50 8, p.at 0x4C 4, p.at 0x5C 4, p.at 0x60 8, p.at 0x68 4, 0, 0))) ∧
    (∀ (s : State) (f n : Nat) (h : HostView) (r : Req) (x : Sys2Proof.Machine.Prod) (ns : List (Nat × Nat)), let p := s.pkt f n
      let u := (s.take f n).withHost h
      s.hears f n 0x0402 → s.reqOf p = some r → s.prod? r.prod = some x → p.at 0x48 1 = 1 → r.st = .decode → r.nospec = false →
      x.man.draft ≠ 1 → 1 ≤ p.at 0x4C 4 → p.at 0x4C 4 ≤ x.man.treemax → u.hostRange f (p.at 0x50 8) (8 * p.at 0x4C 4) 8 false = true →
      p.at 0x5C 4 = 0 → treeOf x.man.vocab (u.readNamed f (p.at 0x50 8) (8 * p.at 0x4C 4)).1 (p.at 0x4C 4) = some ns →
      completes (.requestAppend f n h) s (fun t => t.replied f n DONE ∧ (t.req? r.id).map (·.tree) = some (some (p.at 0x58 4, ns)))))

/-- O21. REQUEST_CANCEL, REQUEST_PARK and REQUEST_RESUME (R207, R209, R210, R212): a PARKED request is cancelled at once, and one whose
object has expired has already ended; any other is cancelled at once when no step of its job runs, and while one runs a cancel or a park
waits for the boundary in the request; a park at a boundary starts, or finds no room; a resume of a live parked object waits for admission
into the job. -/
def Obligations.RequestsWaitOrEnd : Prop :=
  (∀ (s : State) (f n : Nat) (r : Req), s.hears f n 0x0403 → s.reqOf (s.pkt f n) = some r → r.st = .parked →
    completes (.requestCancel f n) s (fun t => t.req? r.id = none ∧ (r.id, r.job) ∈ t.sv.endedReqs ∧
      t.replied f n (if s.parkedAlive r then DONE else ALREADY))) ∧
  (∀ (s : State) (f n : Nat) (r : Req) (j : Job), s.hears f n 0x0403 → s.reqOf (s.pkt f n) = some r → r.st ≠ .parked →
    s.job? r.job = some j → j.inStep = true ∨ j.mark.isSome = true →
    completes (.requestCancel f n) s (fun t => (t.req? r.id).map (·.cancelSlots) = some (r.cancelSlots ++ [(f, n)]) ∧
      ((t.fn f).slot n).st = .working ∧ onlyParts [.sv, .fns] s t)) ∧
  (∀ (s : State) (f n : Nat) (r : Req) (j : Job), s.hears f n 0x0403 → s.reqOf (s.pkt f n) = some r → r.st ≠ .parked →
    s.job? r.job = some j → j.inStep = false → j.mark = none →
    completes (.requestCancel f n) s (fun t => t.req? r.id = none)) ∧
  (∀ (s : State) (f n : Nat) (r : Req) (j : Job), let ttl := (s.pkt f n).at 0x48 8
    s.hears f n 0x0404 → s.reqOf (s.pkt f n) = some r → ttl ≤ 2 ^ 47 → r.st = .prefill ∨ r.st = .decode ∨ r.st = .idle → r.parkSlot = none →
    s.parkedCount < 65536 → s.job? r.job = some j → j.inStep = true ∨ j.mark.isSome = true →
    completes (.requestPark f n) s (fun t => (t.req? r.id).map (fun y => (y.parkSlot, y.parkTtl)) =
      some (some (f, n), if ttl = 0 then 600000000 else ttl) ∧ ((t.fn f).slot n).st = .working ∧ onlyParts [.sv, .fns] s t)) ∧
  (∀ (s : State) (f n : Nat) (r : Req) (j : Job) (m : Manifest), let ttl := (s.pkt f n).at 0x48 8
    s.hears f n 0x0404 → s.sv.reqs = [r] → s.reqOf (s.pkt f n) = some r → ttl ≤ 2 ^ 47 → r.st = .prefill ∨ r.st = .decode ∨ r.st = .idle →
    r.parkSlot = none → r.cancelSlots = [] → s.job? r.job = some j → s.manOf r.job = some m → j.inStep = false → j.mark = none →
    j.st = .running → j.endSlots = [] →
    completes (.requestPark f n) s (fun t =>
      ((t.req? r.id).map (·.st) = some .parking ∧ ((t.fn f).slot n).st = .working) ∨
      ((t.req? r.id).map (·.st) = some r.st ∧ t.replied f n NOSPACE))) ∧
  (∀ (s : State) (f n : Nat) (r : Req) (j : Job) (x : Sys2Proof.Machine.Prod) (c : Rec), let p := s.pkt f n; let home := p.at 0x48 1
    let at_ (off k : Nat) : Nat := leAt (s.readCopy c off k).1 0 k
    s.hears f n 0x0405 → s.req? (p.at 0x40 8) = some r → r.st = .parked → home ≤ 3 ∧ x.man.quads.testBit home = true ∨ home = 0xFF →
    r.resumeSlot = none → s.parkedAlive r = true → s.job? p.job = some j → s.prod? j.prod = some x →
    s.pool.copyFor 2 r.parkObj (r.home % 4) = some c → at_ 8 2 = j.prod → at_ 0x0B 1 = x.man.layers → at_ 0x0C 2 = x.man.kvb →
    at_ 0x0E 2 = x.man.pagetok → (s.liveReqs j.id).length + (s.resumesDue j.id).length < 8192 →
    completes (.requestResume f n) s (fun t => (t.req? r.id).map (fun y => (y.resumeSlot, y.resumeTo)) =
      some (some (f, n), some (j.id, home)) ∧ ((t.fn f).slot n).st = .working ∧ onlyParts [.sv, .fns] s t))

/-- O22. COMPOSITION (R199): of a running job at its boundary whose exchange operations have drained, when admission and composition give
some quadrant a row, the job of an unrouted production is in a step and has started; with one DECODE request that a frame of its home
quadrant can serve, and none waiting for admission, that request has its row. STEP_END (R24, R193, R201): once the last run of the step in
flight has retired and the results serve its rows, the step of a job of one device counts and is over, unless its boundary ends the job; in
a troupe a member counts it and the lead waits for the others; the rows of a request in the middle of its prompt become committed entries. -/
def Obligations.StepsBeginAndEnd : Prop :=
  (∀ (s : State) (jid : Nat) (h : HostView) (drafts : List (Nat × List (Nat × Nat))) (j k : Job) (m : Manifest) (x : Sys2Proof.Machine.Prod),
      let u : State := { s.withHost h with fab := { s.fab with ctrs := List.replicate 64 0 } }
      let v := ((u.admission jid m).takeDrafts jid m drafts).composeRows jid m
      s.job? jid = some j → s.manOf jid = some m → s.isOn = true → j.st = .running → j.inStep = false → j.act4 = false → j.slot < 256 →
      s.xheld jid = false → s.sv.seBack = [] → v.1.all (· == 0) = false → v.2.job? jid = some k → v.2.prod? k.prod = some x →
      x.man.rp.experts = 0 →
      completes (.composition jid h drafts) s (fun t => (t.job? jid).map (fun y => (y.inStep, y.started)) = some (true, true))) ∧
  (∀ (s : State) (jid : Nat) (h : HostView) (j : Job) (x : Sys2Proof.Machine.Prod) (r : Req),
      s.job? jid = some j → s.prod? j.prod = some x → s.isOn = true → j.st = .running → j.inStep = false → j.reason = 0 → j.slot < 256 →
      s.xheld jid = false → s.sv.seBack = [] →
      (x.man.rp.experts = 0 ∨ (x.man.quads = 2 ^ r.home ∧ (s.quad r.home).linkClash x.man.rp = false ∧ ∀ q ∈ s.quads, q.rt.active = false)) →
      s.sv.reqs = [r] → r.job = jid → r.st = .decode → r.home < 4 → r.rows = 0 →
      r.tree = none → r.stepTree = [] → x.man.draft ≠ 1 → 1 ≤ x.man.steprows →
      r.len % x.man.pagetok < (s.freeFrames jid r.home x.man + r.needs x.man.pagetok 0) * x.man.pagetok →
      completes (.composition jid h []) s (fun t => (t.job? jid).map (fun y => (y.inStep, y.started)) = some (true, true) ∧
        (t.req? r.id).map (·.rows) = some 1)) ∧
  (∀ (s : State) (jid : Nat) (res : List RowResult) (times : EngineTimes) (j : Job) (m : Manifest),
      let mine := s.sv.reqs.filter (fun r => r.job == jid && decide (r.rows > 0))
      s.isOn = true → s.job? jid = some j → s.manOf jid = some m → j.st = .running → j.inStep = true → s.stepDone j = true →
      (∀ r ∈ mine, r.served (res.find? (·.req == r.id)) = true) →
      (j.members = 0 → j.slot < 256 → completes (.stepEnd jid res times) s (fun t =>
        ∀ y, t.job? jid = some y → y.steps = j.steps + 1 ∧ y.inStep = false)) ∧
      (j.members ≠ 0 → s.fab.role = .lead → j.slot < 256 → j.ends.contains s.bt.strap = false →
        (maskList j.members 8).all (fun p => p == s.bt.strap || j.ends.contains p) = false →
        completes (.stepEnd jid res times) s (fun t =>
          (t.job? jid).map (fun y => (y.steps, y.inStep, y.ends)) = some (j.steps, true, j.ends ++ [s.bt.strap]))) ∧
      (j.members ≠ 0 → s.fab.role = .member → 256 ≤ j.slot → j.ends.contains s.bt.strap = false → s.xheld jid = false →
        completes (.stepEnd jid res times) s (fun t =>
          (t.job? jid).map (fun y => (y.steps, y.inStep)) = some (j.steps + 1, false)))) ∧
  (∀ (s : State) (jid : Nat) (res : List RowResult) (times : EngineTimes) (j : Job) (m : Manifest) (r : Req),
      s.isOn = true → s.sv.jobs = [j] → j.id = jid → s.manOf jid = some m → m.rp.experts = 0 → j.st = .running → j.inStep = true →
      j.members = 0 → j.slot < 256 → j.endSlots = [] → j.reason = 0 → j.preAsked = false → j.fin = [] → s.stepDone j = true →
      s.sv.changes = [] → s.sv.seBack = [] → s.sv.reqs = [r] → r.job = jid → r.st = .prefill → 0 < r.rows → r.badPrompt = false →
      r.consumed + r.promptRows < r.plen → r.pages = [] → r.len + r.rows < m.pagetok → r.cancelSlots = [] → r.parkSlot = none →
      (∀ f, (s.fn f).closing = []) →
      completes (.stepEnd jid res times) s (fun t =>
        (t.job? jid).map (fun y => (y.steps, y.inStep, y.st)) = some (j.steps + 1, false, .running) ∧
        (t.req? r.id).map (fun y => (y.len, y.consumed, y.rows)) = some (r.len + r.rows, r.consumed + r.promptRows, 0) ∧ t.mem = s.mem))

/-- O23. PAGE_SEAL_COMMIT, PARK_COMMIT and RESUME_COMMIT (R196, R207, R209): a sealed page is committed and held; a parked request holds no
page and its object expires after its time to live; a resumed request takes its earlier state again and its parked object is gone. -/
def Obligations.CacheCommits : Prop :=
  (∀ (s : State) (req layer page : Nat) (p : Placing), s.isOn = true → s.pool.placing.find? (fun p => p.for_ == .seal req layer page) = some p →
    s.placeFree p = true → s.sv.seBack = [] →
    completes (.pageSealCommit req layer page) s (fun t => t.pool.isHeld 1 p.oid = true ∧
      (∀ c ∈ t.pool.recs, c.tier = p.tier → c.oid = p.oid → c.committed = true) ∧
      (∀ x, t.req? req = some x → ∀ g ∈ x.pages, g.layer = layer → g.page = page → g.sealing = false ∧ g.oid = p.oid))) ∧
  (∀ (s : State) (req : Nat) (p : Placing) (r : Req), s.isOn = true → s.pool.placing.find? (fun p => p.for_ == .park req) = some p →
    s.req? req = some r →
    completes (.parkCommit req) s (fun t => (t.req? req).map (fun y => (y.st, y.pages, y.parkSlot)) = some (.parked, [], none) ∧
      (∀ c ∈ t.pool.recs, c.tier = 2 → c.oid = p.oid → c.expiry = s.now + r.parkTtl))) ∧
  (∀ (s : State) (req : Nat) (r : Req) (m : Manifest), s.isOn = true → s.req? req = some r → r.st = .resuming → s.manOf r.job = some m →
    completes (.resumeCommit req) s (fun t => (t.req? req).map (fun y => (y.st, y.parkObj, y.resumeSlot)) = some (reqStOf r.pstate, 0, none) ∧
      t.pool.present 2 r.parkObj = false))

/-- O24. JOB_SUBMIT (R322 to R324): a new job of a staged production, device-wide or over members of the troupe, is QUEUED last under the
next job ID, and its slot stays OPEN; a RESUME returns a HELD job to QUEUED or, once started, to RUNNING, and offers a kept STRUCK job
again. JOB_START and SET (R236, R323, R329, R334): the chosen QUEUED job, with its quadrants lit and no request of its own yet, runs under
the next expert generation; the chosen STRUCK job whose quadrants are ready is SETTING under it. -/
def Obligations.JobsAreSubmittedAndStarted : Prop :=
  (∀ (s : State) (f n : Nat) (lacking : List Nat) (x : Sys2Proof.Machine.Prod), let p := s.pkt f n; let prod := p.at 0x40 2
      let shape := p.at 0x42 1; let members := p.at 0x44 1
      s.hears f n 0x0501 → (p.at 0x43 1).testBit 0 = false → p.job = 0 → s.prod? prod = some x → x.st = .staged ∨ x.st = .onStage →
      ((shape = 0 ∧ members = 0) ∨ (1 ≤ shape ∧ shape ≤ 3 ∧ 2 ≤ popCount members 8 ∧ s.fab.role = .lead ∧ members.testBit s.bt.strap = true ∧
        members &&& (255 - s.fab.mask) = 0 ∧ s.rdy 44 = true ∧ ∀ q ∈ maskList members 8, q ∉ lacking)) →
      (s.azgen = true → x.man.quads = 2 ^ f) → s.routedOk x members = true → s.fab.fenced = false → s.sv.jobs.length < 256 →
      s.job? s.sv.nextJob = none →
      completes (.jobSubmit f n lacking) s (fun t => t.job? s.sv.nextJob = some (s.newJob p s.sv.nextJob prod shape members) ∧
        t.sv.nextJob = s.sv.nextJob + 1 ∧ ((t.fn f).slot n).st = .opened ∧
        ((s.client p.client).latency = false → (∀ k ∈ s.sv.jobs, k.latency = false) →
          t.sv.jobs = s.sv.jobs ++ [s.newJob p s.sv.nextJob prod shape members] ∧ onlyParts [.sv, .fns] s t))) ∧
  (∀ (s : State) (f n : Nat) (lacking : List Nat) (j : Job), let p := s.pkt f n
      s.hears f n 0x0501 → (p.at 0x43 1).testBit 0 = true → p.at 0x40 2 = 0 → p.at 0x42 1 = 0 → p.at 0x44 1 = 0 → s.job? p.job = some j →
      s.fab.fenced = false → (s.azgen = true → j.f = f) →
      (j.st = .held → j.reason ≠ 3 → j.started = false → j.latency = false → (∀ k ∈ s.sv.jobs, k.latency = false) →
        completes (.jobSubmit f n lacking) s (fun t => t.replied f n DONE ∧ (t.job? p.job).map (fun y => (y.st, y.reason)) = some (.queued, 0))) ∧
      (j.st = .held → j.reason ≠ 3 → j.started = true → j.preAsked = false → (∀ k ∈ s.sv.jobs, k.latency = false ∧ (k.client = j.client ∨ k.waits = false)) →
        completes (.jobSubmit f n lacking) s (fun t => t.replied f n DONE ∧ (t.job? p.job).map (fun y => (y.st, y.reason)) = some (.running, 0))) ∧
      (j.st = .struck → j.kept = true → j.resumeSlot = none →
        completes (.jobSubmit f n lacking) s (fun t => ((t.fn f).slot n).st = .opened ∧
          (t.job? p.job).map (fun y => (y.st, y.kept, y.resumeSlot)) = some (.struck, false, some (f, n))))) ∧
  ((∀ (s : State) (jid : Nat) (h : HostView) (j : Job) (x : Sys2Proof.Machine.Prod), s.job? jid = some j → j.st = .queued → s.chosen j = true →
      (∀ q ∈ maskList (s.jobQuads j) 4, s.dark q = false) → s.prod? j.prod = some x → j.reason = 0 → j.preAsked = false → j.endSlots = [] →
      (∀ r ∈ s.sv.reqs, r.job ≠ jid ∧ (r.resumeTo.map (·.1)) ≠ some jid) →
      completes (.jobStart jid h) s (fun t => (t.job? jid).map (fun y => (y.st, y.gen)) =
        some (.running, (s.sv.gen + s.sv.bumps + 1) % 65536) ∧ t.fab.ctrs = List.replicate 64 0)) ∧
    (∀ (s : State) (jid : Nat) (j : Job), s.job? jid = some j → j.st = .struck → s.chosen j = true →
      quadMask (s.jobQuads j) false &&& ~~~s.bt.rdy = 0 →
      completes (.set jid) s (fun t => (t.job? jid).map (fun y => (y.st, y.gen)) = some (.setting, (s.sv.gen + s.sv.bumps + 1) % 65536))))

/-- O25. JOB_END and JOB_PREEMPT (R325, R331, R332): a job that does not run, or that runs and is ended IMMEDIATE or at its boundary, is gone;
while a step of it runs, or it is being struck or set, the command waits in the job; a pre-emption asked during a step waits in the job with
its hold time, and at a boundary, or of a held job that has started, begins, or finds no space for its images. -/
def Obligations.JobEndsOrIsPreempted : Prop :=
  (∀ (s : State) (f n : Nat) (j : Job), let p := s.pkt f n
    s.hears f n 0x0502 → s.job? p.job = some j →
    ((j.st = .queued ∨ j.st = .held ∨ j.st = .struck ∨ (j.st = .running ∧ (p.at 0x40 1).testBit 0 = true)) →
      completes (.jobEnd f n) s (fun t => t.job? p.job = none ∧ t.replied f n DONE)) ∧
    ((j.st = .running ∧ (p.at 0x40 1).testBit 0 = false ∧ j.inStep = false ∧ j.mark = none) → j.preSlot ≠ some (f, n) →
      j.resumeSlot ≠ some (f, n) →
      completes (.jobEnd f n) s (fun t => t.job? p.job = none ∧ t.replied f n DONE)) ∧
    (((j.st = .running ∧ (p.at 0x40 1).testBit 0 = false ∧ (j.inStep = true ∨ j.mark.isSome = true)) ∨ j.st = .preempting ∨ j.st = .setting) →
      completes (.jobEnd f n) s (fun t => (t.job? p.job).map (fun y => (y.st, y.endSlots)) = some (j.st, j.endSlots ++ [(f, n)]) ∧
        ((t.fn f).slot n).st = .working ∧ onlyParts [.sv, .fns] s t))) ∧
  (∀ (s : State) (f n : Nat) (j : Job), let p := s.pkt f n; let hold := p.at 0x40 4
    s.hears f n 0x0503 → s.job? p.job = some j → hold ≤ 1000000 →
    (j.st = .running → j.inStep = true ∨ j.mark.isSome = true → j.preSlot = none →
      completes (.jobPreempt f n) s (fun t =>
        (t.job? p.job).map (fun y => (y.preSlot, y.preHold, y.preKeep, y.preAsked, y.st)) =
          some (some (f, n), if hold = 0 then 2000 else hold, (p.at 0x44 1).testBit 0, true, .running) ∧
        ((t.fn f).slot n).st = .working ∧ onlyParts [.sv, .fns] s t)) ∧
    ((j.st = .running ∧ j.inStep = false ∧ j.mark = none ∧ j.preSlot = none) ∨ (j.st = .held ∧ j.started = true) →
      completes (.jobPreempt f n) s (fun t =>
        ((t.job? p.job).map (fun y => (y.st, y.preAt, y.preHold)) = some (.preempting, s.now, if hold = 0 then 2000 else hold) ∧
          ((t.fn f).slot n).st = .working) ∨
        ((t.job? p.job).map (·.st) = some j.st ∧ t.replied f n NOSPACE))))

/-- O26. JOB_QUERY, BOX_OFFICE_READ and CLASS_SET (R326, R327, R338): the query answers the state of a job, or of one that has ended, in
VAL; the box office writes its clients' records to the host's buffer, and with RESET set their sums start again; CLASS_SET gives a client
its class and share, or for client 0 the device its slice. -/
def Obligations.LedgerCommands : Prop :=
  (∀ (s : State) (f n : Nat) (j : Job), let p := s.pkt f n
    s.hears f n 0x0504 → s.job? p.job = some j →
    completes (.jobQuery f n) s (fun t => t.replied f n DONE ∧
      t.replyVal f n = j.queryVal j.st.code (s.liveReqs j.id).length 0 % 2 ^ 160 ∧ onlyParts [.fns, .mg, .ctr] s t)) ∧
  (∀ (s : State) (f n st : Nat) (j : Job), let p := s.pkt f n
    s.hears f n 0x0504 → s.job? p.job = none → s.sv.endedJobs.find? (fun e => e.1.id == p.job) = some (j, st) →
    completes (.jobQuery f n) s (fun t => t.replied f n DONE ∧ t.replyVal f n = j.queryVal 6 0 st % 2 ^ 160 ∧ onlyParts [.fns, .mg, .ctr] s t)) ∧
  (∀ (s : State) (f n : Nat), let p := s.pkt f n; let first := p.at 0x40 2; let count := p.at 0x42 2; let buf := p.at 0x48 8
    let out := (((List.range count).map (first + ·)).flatMap (fun i => (s.client i).bytes)).take (p.at 0x50 4 / 64 * 64)
    s.hears f n 0x0505 → 1 ≤ count → first + count ≤ 1024 → buf % 64 = 0 → 64 ≤ p.at 0x50 4 → p.at 0x50 4 ≤ 65536 → isHost buf = true →
    s.reachable f buf out.length true = true →
    ((p.at 0x44 1).testBit 0 = false → completes (.boxOfficeRead f n) s (fun t => s.reported t f n buf out)) ∧
    ((p.at 0x44 1).testBit 0 = true → completes (.boxOfficeRead f n) s (fun t => t.replied f n DONE ∧
      t.hostMem = (s.dmaWrite f buf out).hostMem ∧
      (∀ i, first ≤ i → i < first + min count (p.at 0x50 4 / 64) →
        (t.client i).bytes = { s.client i with waitUs := 0, preempted := 0, ended := 0, ae := 0, te := 0, xe := 0, se := 0 }.bytes) ∧
      onlyParts [.sv, .hostMem, .fns, .mg, .ctr] s t))) ∧
  (∀ (s : State) (f n : Nat), let p := s.pkt f n; let c := p.at 0x40 2
    s.hears f n 0x0506 → 1 ≤ c → c ≤ 1023 → p.at 0x42 1 ≤ 1 → 1 ≤ p.at 0x44 4 → p.at 0x44 4 ≤ 10000 → p.at 0x48 8 = 0 →
    completes (.classSet f n) s (fun t => t.replied f n DONE ∧ (t.client c).share = p.at 0x44 4 ∧
      (t.client c).latency = (p.at 0x42 1 == 1) ∧ (∀ d, d ≠ c → t.client d = s.client d) ∧ t.sv.jobs = s.sv.jobs ∧
      onlyParts [.sv, .fns, .mg, .ctr] s t)) ∧
  (∀ (s : State) (f n : Nat), let p := s.pkt f n; let slice := p.at 0x48 8
    s.hears f n 0x0506 → p.at 0x40 2 = 0 → p.at 0x42 1 = 0 → p.at 0x44 4 = 0 → slice = 0 ∨ (100000 ≤ slice ∧ slice ≤ 600000000) →
    completes (.classSet f n) s (fun t => t.replied f n DONE ∧ t.sv = { s.sv with slice := if slice = 0 then s.sv.slice else slice } ∧
      onlyParts [.sv, .fns, .mg, .ctr] s t))

/-- O27. PREEMPT_HOLD_EXPIRY, JOB_RECORD_COMMIT and SET_COMPLETE (R325, R332, R334, R335): at the hold limit no exchange operation of the
job is left; once it has drained the job is STRUCK, kept as it was asked, at a member and at a lead whose members have reported, where a
pending JOB_END ends it; a set whose scenes and resident load are in leaves it RUNNING with its exchange counters restored, or ended, or
HELD, as a JOB_END or the close of its session asked meanwhile. -/
def Obligations.StrikeAndSetComplete : Prop :=
  (∀ (s : State) (jid : Nat) (j : Job), s.isOn = true → s.job? jid = some j → j.st = .preempting → j.preAt + j.preHold ≤ s.now →
    completes (.preemptHoldExpiry jid) s (fun t => (∀ o ∈ t.fab.ops, o.job ≠ jid) ∧
      (∀ e ∈ t.fab.queues.flatten, e.job = jid → e.started = false) ∧ (∀ o ∈ s.fab.ops, o.job ≠ jid → o ∈ t.fab.ops))) ∧
  (∀ (s : State) (jid : Nat) (j : Job), s.isOn = true → s.job? jid = some j → j.st = .preempting → s.drained j = true →
    (s.fab.role = .member ∨ (s.membersStruck j = true ∧ j.endSlots = []) →
      completes (.jobRecordCommit jid) s (fun t => (t.job? jid).map (fun y => (y.st, y.kept, y.preSlot)) = some (.struck, j.preKeep, none))) ∧
    (s.fab.role ≠ .member → s.membersStruck j = true → j.endSlots ≠ [] →
      completes (.jobRecordCommit jid) s (fun t => t.job? jid = none))) ∧
  (∀ (s : State) (jid : Nat) (j : Job), s.isOn = true → s.job? jid = some j → j.st = .setting →
    ((s.prod? j.prod).map (·.resLoad)).getD false = false → s.fab.role ≠ .member →
    (∀ q ∈ maskList (s.jobQuads j) 4, (s.quad q).loads = []) →
    (j.endSlots = [] → j.act4 = false →
      completes (.setComplete jid) s (fun t => (t.job? jid).map (fun y => (y.st, y.record, y.xpend)) = some (.running, 0, []) ∧
        t.fab.ctrs = j.xctrs)) ∧
    (j.endSlots = [] → j.act4 = true → completes (.setComplete jid) s (fun t => (t.job? jid).map (fun y => (y.st, y.reason)) = some (.held, j.reason))) ∧
    (j.endSlots ≠ [] → completes (.setComplete jid) s (fun t => t.job? jid = none)))

/-! ### Power-up, resets, the dimmer and trips -/

/-- O28. POWER_UP and RC_REBOOT (R379, R397, R398): the device leaves standby with its strap, the stage manager runs when the boot check of
the image in flash passes, and else ROM recovery; RDY_MAP bit 46 tells which; the host's memory is as it was. FUNCTION_RESET (R287, R318, R381
to R383): the whole reset leaves every slot FREE, no session open, no object held, and the RDY_MAP bits of the callboard, quadrants, stacks,
repertory and exchange engine clear; under Azgen a function's own reset closes its session and ends its jobs; while the loader copies, a
function's own reset does nothing and another restarts the ROM; while a flash page is programmed the reset waits. -/
def Obligations.PowerUpAndFunctionReset : Prop :=
  ((∀ (s : State) (strap : Nat) (failed : List Site), s.pw.phase = .standby ∨ s.pw.phase = .off → 40000 ≤ s.pw.vinMv → s.pw.vinMv ≤ 54000 →
      completes (.powerUp strap failed) s (fun t => t.pw.phase = .on ∧ t.bt.strap = strap % 8 ∧
        t.bt.boot = (if s.bt.imageOk then 2 else 3) ∧ t.bt.rdy.getLsbD 46 = s.bt.imageOk ∧ t.hostMem = s.hostMem)) ∧
    (∀ (s : State) (failed : List Site), s.rcOn = true →
      completes (.rcReboot failed) s (fun t => t.pw.phase = .on ∧ t.bt.strap = s.bt.strap % 8 ∧
        t.bt.boot = (if s.bt.imageOk then 2 else 3) ∧ t.bt.rdy.getLsbD 46 = s.bt.imageOk ∧ t.hostMem = s.hostMem))) ∧
  (∀ (s : State) (f : Nat) (cause : ResetCause), s.isOn = true → s.functions.contains f = true → f < s.fns.length →
      (cause = .kind4 → ∃ d, (s.fn f).resetAt = some d ∧ d ≤ s.now) → let own := cause = .kind4 ∨ cause = .flr
      (s.bt.act ≠ .loading → s.bt.boot ≠ 3 → s.bt.programming = false → s.azgen = false ∨ ¬ own →
        completes (.functionReset f cause) s (fun t => (∀ x ∈ t.fns, x.opened = false ∧ x.arrivals = [] ∧ ∀ c ∈ x.slots, c.st = .free) ∧
          t.pool.holds = [] ∧ t.bt.rdy &&& resetBits = 0)) ∧
      (s.bt.act ≠ .loading → s.bt.boot ≠ 3 → s.bt.programming = false → s.azgen = true → own →
        completes (.functionReset f cause) s (fun t => (t.fn f).opened = false ∧ (t.fn f).map = [] ∧ (t.fn f).epoch = (s.fn f).epoch ∧
          (∀ j ∈ t.sv.jobs, j.f ≠ f) ∧ t.rdy (1 + f) = false)) ∧
      (s.bt.act = .loading → own → exec (.functionReset f cause) s = .next s) ∧
      (s.bt.act = .loading → ¬ own → completes (.functionReset f cause) s (fun t => t.bt.boot = 3 ∧ t.bt.rdy.getLsbD 46 = false ∧ t.sv = Serving.reset)) ∧
      (s.bt.act ≠ .loading → s.bt.boot = 3 → completes (.functionReset f cause) s (fun t => t.bt.rc = Recovery.reset ∧
        (∀ x ∈ t.fns, ∀ c ∈ x.slots, c.st = .free) ∧ onlyParts [.bt, .fns] s t)) ∧
      (s.bt.act ≠ .loading → s.bt.boot ≠ 3 → s.bt.programming = true → completes (.functionReset f cause) s (fun t =>
        (t.fn f).resetAt = some s.now ∧ onlyParts [.fns] s t)))

/-- O29. RDY_MAP_BIT_SET (R314, R380): a bit whose function is ready sets, and the others stay. POWER_OFF, INPUT_POWER_APPLIED and
RAIL_SEQUENCE_STOP (R357, R378, R412, R415): a power-off whose cause holds leaves every powered block at its reset value, in standby when
ENABLE went; input power brings standby; a stopped sequence returns to standby. The host's memory is as it was. -/
def Obligations.ReadyBitsAndPowerLoss : Prop :=
  (∀ (s : State) (bit : Nat), s.canSet bit = true →
      completes (.rdyMapBitSet bit) s (fun t => t.bt.rdy = s.bt.rdy ||| (1#47 <<< bit) ∧
        onlyParts (if 1 ≤ bit ∧ bit ≤ 4 then [.quads, .mem, .marks, .flaws, .bt, .fns, .mg, .ctr] else [.bt, .fns, .mg, .ctr]) s t)) ∧
  ((∀ (s : State) (cause : OffCause), s.isOn = true → s.offDue cause = true →
      completes (.powerOff cause) s (fun t => t.pw.phase = (if cause = .enableLost then .standby else .off) ∧ t.bt.rdy = 0 ∧ t.mem = [] ∧
        t.sv = Serving.reset ∧ t.fab = Fabric.reset ∧ t.hostMem = s.hostMem ∧ t.bt.fuses = s.bt.fuses)) ∧
    (∀ (s : State) (mv : Nat), s.pw.phase = .unpowered →
      completes (.inputPowerApplied mv) s (fun t => t.pw.phase = .standby ∧ t.pw.vinMv = mv ∧ t.mg = Mgmt.reset ∧ t.hostMem = s.hostMem)) ∧
    (∀ (s : State) (enableLost : Bool), s.pw.phase = .standby ∨ s.pw.phase = .off →
      completes (.railSequenceStop enableLost) s (fun t => t.pw.phase = .standby ∧ t.pw.enable = !enableLost ∧ t.pw.coolantOk = enableLost ∧
        onlyParts [.pw] s t)))

/-- O30. DIMMER_UPDATE and CAP_LOOP_TICK (R347, R348, R350, R352): every lit quadrant takes as its demand the activity of the local µs just
ended with what the dimmer withheld, and its next level, and DIM_QSTAT reads both; the ceiling moves with the mean input power against the effective cap. POWER_CAP_SET, DIMMER_SET and THERMAL_QUERY (R351, R352, R361). -/
def Obligations.DimmerAndPowerCommands : Prop :=
  ((∀ (s : State) (withheld : List Nat) (q : Nat), let d := min 1000 ((s.quad q).lastAct + withheld.getD q 0)
      s.isOn = true → s.pw.tripT = false → s.pw.tripI = false → q < 4 → q < s.pw.qd.length →
      (s.qdim q).lit = true → (s.qdim q).waking = false →
      completes (.dimmerUpdate withheld) s (fun t => (t.qdim q).demand = d ∧
        (t.qdim q).level = s.pw.nextLevel (s.qdim q).level d ∧ t.regRead (.dimQstat q) =
          some (BitVec.ofNat 64 (s.pw.nextLevel (s.qdim q).level d + d * 2 ^ 10 + s.pw.fillerOf (s.qdim q).level d * 2 ^ 20 + 2 ^ 30)) ∧
        onlyParts [.pw, .ctr, .free] s t)) ∧
    (∀ (s : State) (w : Nat), s.isOn = true →
      completes (.capLoopTick w) s (fun t => t.pw.powerW = w ∧ t.pw.dimCeil =
        (if w > s.pw.cap then max s.pw.dimFloor (s.pw.dimCeil - 20) else if w + 100 < s.pw.cap then min 1000 (s.pw.dimCeil + 10) else s.pw.dimCeil) ∧
        onlyParts [.pw, .ctr] s t))) ∧
  ((∀ (s : State) (f n : Nat), let c := (s.pkt f n).at 0x40 2
      s.hears f n 0x0701 → c = 0 ∨ (1000 ≤ c ∧ c ≤ 3600) →
      completes (.powerCapSet f n) s (fun t => t.replied f n DONE ∧ t.pw = { s.pw with hostCap := c } ∧ onlyParts [.pw, .fns, .mg, .ctr] s t)) ∧
    (∀ (s : State) (f n : Nat), let p := s.pkt f n; let up := p.at 0x40 2; let dn := p.at 0x42 2; let em := p.at 0x44 2; let fl := p.at 0x46 2
      let dw := p.at 0x4C 4; let keep (v old : Nat) : Nat := if v = 0 then old else v
      s.hears f n 0x0702 → up = 0 ∨ (10 ≤ up ∧ up ≤ 100) → dn = 0 ∨ (10 ≤ dn ∧ dn ≤ 100) → em = 0 ∨ (50 ≤ em ∧ em ≤ 250) → fl ≤ 500 →
      keep fl s.pw.dimFloor ≤ s.pw.dimCeil → dw ≤ 2 ^ 31 ∨ dw = 0xFFFFFFFF → (p.at 0x48 1).testBit 0 = false →
      completes (.dimmerSet f n) s (fun t => t.replied f n DONE ∧ t.pw.dimUp = keep up s.pw.dimUp ∧ t.pw.dimDown = keep dn s.pw.dimDown ∧
        t.pw.dimEmerg = keep em s.pw.dimEmerg ∧ t.pw.dimFloor = keep fl s.pw.dimFloor ∧ t.pw.darkWait = keep dw s.pw.darkWait ∧
        onlyParts [.pw, .fns, .mg, .ctr] s t)) ∧
    (∀ (s : State) (f n : Nat), let p := s.pkt f n
      s.hears f n 0x0705 → p.at 0x40 8 = 0 → p.at 0x48 4 = 0 →
      completes (.thermalQuery f n) s (fun t => t.replied f n DONE ∧ t.replyVal f n = s.thermalVal % 2 ^ 160 ∧ onlyParts [.fns, .mg, .ctr] s t)))

/-- O31. The next level (R348): it rises by at most UP and falls by at most DOWN, or by at most EMERG in an emergency, and never lies below
FLOOR; a level at or above FLOOR never passes the larger of itself and the ceiling in force. -/
def Obligations.LevelMovesWithinRates : Prop :=
  ∀ (p : Power) (level d : Nat), p.dimFloor ≤ level →
    p.dimFloor ≤ p.nextLevel level d ∧ p.nextLevel level d ≤ level + p.dimUp ∧
    level ≤ p.nextLevel level d + (if p.emergency then p.dimEmerg else p.dimDown) ∧
    p.nextLevel level d ≤ max level (max p.dimFloor (if p.emergency then p.dimFloor else p.dimCeil))

/-- O32. THROTTLE_STEP (R355): with no trip, a junction at 95.0 °C raises ADIV by 0.5 up to 16, and 1,000 local µs below 92.0 °C lower it by
0.5 down to ADIV_MIN. ADIV is held as twice its value. Trips (R353, R356): a junction at 105.0 °C, or an input outside 40.0 V to 56.0 V,
stops the clocks at level 0; once its cause has been away for 1,000 local µs the trip ends, and with no other trip the lit quadrants stand
at the floor. -/
def Obligations.ThrottleAndTrips : Prop :=
  ((∀ (s : State) (temps : List (Nat × BitVec 16)), let u := s.readTemps temps
      s.isOn = true → s.pw.tripT = false → s.pw.tripI = false → u.pw.anyAt 1520 = true → s.pw.lastStep = none → s.pw.adiv2 < 32 →
      completes (.throttleStep temps) s (fun t => t.pw.adiv2 = s.pw.adiv2 + 1 ∧ t.pw.lastStep = some s.now ∧ onlyParts [.pw, .fns, .mg, .ctr] s t)) ∧
    (∀ (s : State) (temps : List (Nat × BitVec 16)) (since : Nat), let u := s.readTemps temps
      s.isOn = true → s.pw.tripT = false → s.pw.tripI = false → u.pw.anyAt 1520 = false → u.pw.lowSince = some since → since + 1000 ≤ s.now →
      s.pw.adivMin2 < s.pw.adiv2 →
      completes (.throttleStep temps) s (fun t => t.pw.adiv2 = s.pw.adiv2 - 1 ∧ onlyParts [.pw, .fns, .mg, .ctr] s t))) ∧
  ((∀ (s : State) (sensor : Nat) (temp : BitVec 16), s.isOn = true → (s.readTemps [(sensor, temp)]).pw.anyAt 1680 = true → s.pw.tripT = false →
      completes (.thermalTrip sensor temp) s (fun t => t.pw.tripT = true ∧ t.pw.thermTripPin = true ∧ (∀ d ∈ t.pw.qd, d.level = 0) ∧
        onlyParts [.pw, .fns, .mg, .ctr] s t)) ∧
    (∀ (s : State) (mv : Nat), s.isOn = true → badInput mv = true → s.pw.tripI = false →
      completes (.inputTrip mv) s (fun t => t.pw.tripI = true ∧ t.pw.vinMv = mv ∧ (∀ d ∈ t.pw.qd, d.level = 0) ∧ onlyParts [.pw, .fns, .mg, .ctr] s t)) ∧
    (∀ (s : State) (temps : List (Nat × BitVec 16)) (since : Nat), s.isOn = true → s.pw.tripT = true → s.pw.tripI = false →
      (s.readTemps temps).pw.coolSince = some since → since + 1000 ≤ s.now → s.fab.held = [] →
      completes (.thermalTripClear temps) s (fun t => t.pw.tripT = false ∧ t.pw.thermTripPin = false ∧ t.pw.adiv2 = max 16 s.pw.adivMin2 ∧
        (∀ d ∈ t.pw.qd, d.lit = true → d.level = s.pw.dimFloor))) ∧
    (∀ (s : State) (mv : Nat) (since : Nat), s.isOn = true → s.pw.tripI = true → s.pw.tripT = false → 41000 ≤ mv → mv ≤ 54000 →
      s.pw.vinOkSince = some since → since + 1000 ≤ s.now → s.fab.held = [] →
      completes (.inputTripClear mv) s (fun t => t.pw.tripI = false ∧ t.pw.vinMv = mv ∧ (∀ d ∈ t.pw.qd, d.lit = true → d.level = s.pw.dimFloor))))

/-- O33. Emergencies (R350, R353, R360): each of the three causes sets its part of EMERGENCY, and its end clears that part alone. -/
def Obligations.EmergenciesFollowTheirCauses : Prop :=
  (∀ (s : State) (w : Nat), s.isOn = true → 4000 < w → s.pw.emExc = false →
    completes (.inputPowerExcursion w) s (fun t => t.pw.emExc = true ∧ t.pw.emergency = true ∧ onlyParts [.pw, .fns, .mg, .ctr] s t)) ∧
  (∀ (s : State) (w : Nat), s.isOn = true → w ≤ 3800 → s.pw.emExc = true →
    completes (.inputPowerExcursionEnd w) s (fun t => t.pw.emExc = false ∧ t.pw.emPwr = s.pw.emPwr ∧ t.pw.emCool = s.pw.emCool ∧
      onlyParts [.pw] s t)) ∧
  (∀ s : State, s.isOn = true → s.pw.emPwr = false →
    completes .pwrAlertAssert s (fun t => t.pw.emPwr = true ∧ t.pw.pwrAlert = true ∧ t.pw.emergency = true ∧ onlyParts [.pw, .fns, .mg, .ctr] s t)) ∧
  (∀ s : State, s.isOn = true → s.pw.emPwr = true →
    completes .pwrAlertDeassert s (fun t => t.pw.emPwr = false ∧ t.pw.pwrAlert = false ∧ t.pw.emExc = s.pw.emExc ∧ t.pw.emCool = s.pw.emCool ∧
      onlyParts [.pw, .fns, .mg, .ctr] s t)) ∧
  (∀ s : State, s.isOn = true → s.pw.emCool = false →
    completes .coolantOkLoss s (fun t => t.pw.emCool = true ∧ t.pw.coolantOk = false ∧ t.pw.emergency = true ∧ onlyParts [.pw, .fns, .mg, .ctr] s t)) ∧
  (∀ s : State, s.isOn = true → s.pw.emCool = true →
    completes .coolantOkRestore s (fun t => t.pw.emCool = false ∧ t.pw.coolantOk = true ∧ t.pw.emExc = s.pw.emExc ∧ t.pw.emPwr = s.pw.emPwr ∧
      onlyParts [.pw, .fns, .mg, .ctr] s t))

/-- O34. QUADRANT_DARK and WAKE_COMPLETE (R358, R359): a dark quadrant has no array voltage and its bits are clear, its memories unchanged;
a wake that is complete lights it at the floor with its bits set and its slot counter aligned, and no CXL.mem access waits on but for a
quadrant still dark (R122). -/
def Obligations.QuadrantsDarkenAndWake : Prop :=
  (∀ (s : State) (q : Nat), s.isOn = true → s.bt.boot = 2 → q < 4 → q < s.pw.qd.length → (s.qdim q).lit = true → s.pw.darkWait ≠ 0xFFFFFFFF →
    s.pw.litMask.testBit q = false → s.idleQuad q = true → (s.qdim q).idleSince + s.pw.darkWait ≤ s.now →
    completes (.quadrantDark q) s (fun t => (t.qdim q).lit = false ∧ (t.qdim q).vArray = 0 ∧ (t.qdim q).vSram = 550 ∧
      t.bt.rdy = s.bt.rdy &&& ~~~quadBits q ∧ onlyParts [.pw, .bt, .fns, .mg, .ctr] s t)) ∧
  (∀ (s : State) (q : Nat), s.clocked = true → q < 4 → q < s.quads.length → (s.qdim q).waking = true →
    completes (.wakeComplete q) s (fun t => (t.qdim q).lit = true ∧ (t.qdim q).waking = false ∧ (t.qdim q).level = s.pw.dimFloor ∧
      t.bt.rdy = s.bt.rdy ||| quadBits q ∧ (t.quad q).slotCtr = s.pw.cycle % slotWrap ∧ (∀ a ∈ t.pw.cxlWait, t.cxlDark a = true) ∧
      (s.pw.cxlWait = [] → onlyParts [.pw, .bt, .quads, .fns, .mg, .ctr] s t)))

/-! ### Firmware and reports -/

/-- O35. The flash pages (R346, R384): a calibration page that passes its check waits to be programmed and another is refused with the field
at fault; programming erases the page; its completion leaves the new page in flash. -/
def Obligations.FlashPagesAreProgrammed : Prop :=
  (∀ (s : State) (f n : Nat) (h : HostView), let u := (s.take f n).withHost h; let a := (s.pkt f n).at 0x40 8
    let bs := (u.dmaRead f a 65536 false).1.1
    s.hears f n 0x0704 → a % 128 = 0 → isHost a = true → u.reachable f a 65536 false = true → s.bt.flashOps.any (·.calib) = false →
    completes (.calibrationWrite f n h) s (fun t => match calBad bs s.bt.serial with
      | none => t.bt.flashOps = s.bt.flashOps ++ [{ calib := true, page := bs, slot := some (f, n), began := false, val := 0 }] ∧
          ((t.fn f).slot n).st = .working
      | some _ => t.bt = s.bt ∧ t.replied f n BAD)) ∧
  (∀ s : State, s.isOn = true → s.normal1000 = true → s.bt.programming = false → s.bt.act ≠ .loading → s.bt.flashOps.any (·.calib) = true →
    completes .calibrationProgram s (fun t => t.bt.calPage = [] ∧ t.bt.programming = true ∧ onlyParts [.bt] s t)) ∧
  (∀ (s : State) (o : FlashOp), s.isOn = true → s.bt.current = some o →
    completes .flashOperationComplete s (fun t => (if o.calib then t.bt.calPage = o.page else t.bt.setPage = o.page) ∧
      t.bt.flashOps.length + 1 = s.bt.flashOps.length ∧ onlyParts [.bt, .fns, .mg, .ctr] s t))

/-- O36. IMAGE_BEGIN, IMAGE_DATA and IMAGE_ARM (R390 to R392): a header that passes the checks, with room for it, begins a staging; each
block marks its pages received; a whole staging is armed when its digest holds, and evicted otherwise. -/
def Obligations.ImagesAreStaged : Prop :=
  (∀ (s : State) (f n : Nat) (h : HostView) (cells : Mem), let p := s.pkt f n; let u := (s.take f n).withHost h; let hdr := memRead cells 0 8192
    let v := { u.dropStaging u.bt.staging with bt := { u.bt with staging := none } }
    s.hears f n 0x0801 → s.pldmOwns = false → s.rdy 25 = true → u.imgSource f (p.at 0x40 8) 8192 = some (cells, []) →
    v.pool.room 2 1 (imgLength hdr) ∨ (v.reserve (newRec (s.nextOid 3) 2 1 (imgLength hdr) 0 0 0) false).1.isSome = true →
    completes (.imageBegin f n h) s (fun t =>
      if s.bt.checkHeader hdr s.bt.svnMin = DONE then
        t.replied f n DONE ∧ t.bt.staging = some { oid := s.nextOid 3, hdr := hdr, len := imgLength hdr, pages := [], pldm := false } ∧
        t.pool.isPinned 2 (s.nextOid 3) = true ∧ t.bt.armed = s.bt.armed
      else t.replied f n (s.bt.checkHeader hdr s.bt.svnMin) ∧ t.bt = s.bt)) ∧
  (∀ (s : State) (f n : Nat) (h : HostView) (g : Staging) (r : Rec) (cells : Mem), let p := s.pkt f n; let off := p.at 0x48 4; let len := p.at 0x4C 4
    let u := (s.take f n).withHost h
    s.hears f n 0x0802 → s.pldmOwns = false → s.bt.staging = some g → s.stagingRec g = some r → off % 4096 = 0 → 4096 ≤ len → len ≤ 16777216 →
    len % 4096 = 0 → off + len ≤ g.len → u.imgSource f (p.at 0x40 8) len = some (cells, []) →
    completes (.imageData f n h) s (fun t => t.replied f n DONE ∧ ∃ g', t.bt.staging = some g' ∧ g'.oid = g.oid ∧ g'.hdr = g.hdr ∧
      (∀ k, k < len / 4096 → off / 4096 + k ∈ g'.pages) ∧ (∀ k ∈ g.pages, k ∈ g'.pages))) ∧
  (∀ (s : State) (f n : Nat) (g : Staging), let c := match s.stagingRec g with | some r => s.readCopy r 0 g.len | none => ([], true)
    s.hears f n 0x0803 → s.pldmOwns = false → s.bt.staging = some g → g.missing = none →
    completes (.imageArm f n) s (fun t => t.bt.staging = none ∧
      if c.2 = false ∧ shake256 c.1 64 = imgDigest g.hdr then t.bt.armed = some g ∧ t.replied f n DONE
      else t.bt.armed = s.bt.armed ∧ t.pool.present 2 g.oid = false ∧ t.replied f n REJECTED))

/-- O37. ACTIVATE, ACTIVATION_START and ACTIVATION_RESTART (R393 to R395, R397): an armed image is deferred to a pending activation; its
start erases the image in flash and clears RDY_MAP bits 0 and 46; the restart goes on with the armed image when every sector read back right
and the boot check passes, and else in ROM recovery. ROM recovery (R398, R399): a header that passes its checks erases the region and waits
for chunks, and another erases nothing; a chunk within the image lands in flash and is counted; the digest of what is in flash decides. -/
def Obligations.ActivationAndRecovery : Prop :=
  ((∀ (s : State) (f n : Nat), s.hears f n 0x0804 → (s.pkt f n).at 0x40 1 = 0 → s.bt.armed.isSome = true → s.bt.act = .idle →
      completes (.activate f n) s (fun t => t.replied f n DEFERRED ∧ t.bt = { s.bt with act := .waiting } ∧ onlyParts [.bt, .fns, .mg, .ctr] s t)) ∧
    (∀ s : State, s.activates = true →
      completes .activationStart s (fun t => t.bt.act = .loading ∧ t.bt.boot = 0 ∧ t.bt.fwHdr = [] ∧ t.bt.fwBody = [] ∧
        t.bt.rdy.getLsbD 0 = false ∧ t.bt.rdy.getLsbD 46 = false ∧ t.bt.armed = s.bt.armed ∧ t.sv = s.sv)) ∧
    (∀ (s : State) (readback : Bool) (g : Staging), s.isOn = true → s.bt.act = .loading → s.bt.armed = some g → s.fab.held = [] →
      let body := match s.stagingRec g with | some r => (s.readCopy r 0 g.len).1 | none => []
      let ok := readback && ({ s.bt with fwHdr := g.hdr, fwBody := body } : Boot).imageOk
      completes (.activationRestart readback) s (fun t =>
        if ok = true then t.bt.boot = 2 ∧ t.bt.runHdr = g.hdr ∧ t.bt.act = .idle ∧ t.bt.armed = none ∧ t.rdy 0 = true ∧ t.rdy 46 = true
        else t.bt.boot = 3 ∧ t.bt.rdy.getLsbD 46 = false))) ∧
  ((∀ s : State, let h := memRead s.bt.rc.buf 0 8192
      s.rcOn = true →
      completes .rcBegin s (fun t => onlyParts [.bt] s t ∧
        if s.bt.checkHeader h 0 = DONE then t.bt.fwHdr = h ∧ t.bt.fwBody = [] ∧ t.bt.rc.state = 2 ∧ t.bt.rc.hdr = some h
        else t.bt.fwHdr = s.bt.fwHdr ∧ t.bt.fwBody = s.bt.fwBody ∧ t.bt.rc.state = 4 ∧ t.bt.rc.status = s.bt.checkHeader h 0)) ∧
    (∀ (s : State) (h : List Byte), let r := s.bt.rc
      s.rcOn = true → r.hdr = some h → r.off % 65536 = 0 → 4096 ≤ r.len → r.len ≤ 65536 → r.len % 4096 = 0 → r.off + r.len ≤ imgLength h →
      completes .rcChunk s (fun t => t.bt.fwBody = flashWrite s.bt.fwBody r.off (memRead r.buf 0 r.len) ∧ t.bt.rc.done = (r.done + 1) % 65536 ∧
        t.bt.rc.status = DONE ∧ onlyParts [.bt] s t)) ∧
    (∀ (s : State) (h : List Byte), s.rcOn = true → s.bt.rc.hdr = some h →
      completes .rcFinish s (fun t => t.bt.rc.state = (if shake256 (s.bt.bodyOf h) 64 = imgDigest h then 3 else 4) ∧ onlyParts [.bt] s t)))

/-- O38. The reports written by DMA (R61, R307, R345, R401, R402): calibration page, certificate chain, attestation, counters and understudy
map. -/
def Obligations.ReportsReachTheHost : Prop :=
  (∀ (s : State) (f n : Nat), let p := s.pkt f n; let buf := p.at 0x40 8; let out := (flashBytes s.bt.calPage 65536).take (p.at 0x48 4)
    s.hears f n 0x0703 → buf % 8 = 0 → 8 ≤ p.at 0x48 4 → p.at 0x48 4 ≤ 65536 → isHost buf = true → s.reachable f buf out.length true = true →
    completes (.calibrationRead f n) s (fun t => s.reported t f n buf out)) ∧
  (∀ (s : State) (f n : Nat), let p := s.pkt f n; let buf := p.at 0x48 8; let len := p.at 0x50 4
    let out := (if p.at 0x40 1 = 0 then s.bt.chain else identityKey).take len
    s.hears f n 0x0805 → p.at 0x40 1 ≤ 1 → buf % 8 = 0 → 8 ≤ len → len ≤ 262144 → isHost buf = true → s.reachable f buf out.length true = true →
    completes (.identity f n) s (fun t => s.reported t f n buf out)) ∧
  (∀ (s : State) (f n : Nat), let p := s.pkt f n; let buf := p.at 0x68 8
    let ms := (List.range 8).filter (fun i => i ≠ 0 && (p.at 0x60 1).testBit i)
    let body := s.attestBody (p.bytesAt 0x40 32) (s.fn f).epoch ms
    let out := (body ++ signature body).take (p.at 0x70 4)
    s.hears f n 0x0806 → 0x40 + 80 * ms.length + 3309 ≤ p.at 0x70 4 → isHost buf = true → s.reachable f buf out.length true = true →
    completes (.attest f n) s (fun t => s.reported t f n buf out)) ∧
  (∀ (s : State) (f n : Nat) (es : List Nat), let p := s.pkt f n; let q := p.at 0x40 1; let grp := p.at 0x41 1; let buf := p.at 0x48 8
    let out := (es.flatMap (leBytes 8)).take (p.at 0x50 4 / 8 * 8)
    s.hears f n 0x0F01 → (quadGroups.contains grp = true → q ≤ 3 ∧ s.ownQuad p (2 ^ q) = true) → s.groupEntries f grp q (p.at 0x44 4) = some es →
    (if jobGroup grp then s.countsJob f (p.at 0x44 4) = true else p.at 0x44 4 = 0) → buf % 8 = 0 → 8 ≤ p.at 0x50 4 → p.at 0x50 4 ≤ 2 ^ 31 →
    isHost buf = true → s.reachable f buf out.length true = true →
    completes (.countersRead f n) s (fun t => s.reported t f n buf out)) ∧
  (∀ (s : State) (f n : Nat), let p := s.pkt f n; let buf := p.at 0x40 8
    let out := ((s.mapEntries (if s.azgen then [f] else [0, 1, 2, 3])).flatMap (leBytes 8)).take (p.at 0x48 4 / 8 * 8)
    s.hears f n 0x0F04 → isHost buf = true → s.reachable f buf out.length true = true →
    completes (.understudyMap f n) s (fun t => s.reported t f n buf out))

/-- O39. STRIKE_READ, UNIT_TEST and UNIT_TEST_DONE (R59, R60, R308): the stall record goes to the host when no image was made; a test of an
active site of a quadrant with no job begins; a fenced site under test that passes is active again, an understudy standing by, and the
command completes. -/
def Obligations.DiagnosticsAct : Prop :=
  (∀ (s : State) (f n : Nat) (r : StallRec), let p := s.pkt f n; let q := p.at 0x40 1; let buf := p.at 0x58 8
    s.hears f n 0x0F02 → q ≤ 3 → s.ownQuad p (2 ^ q) = true → (s.quad q).stall = some r → (s.quad q).halted = false → (s.quad q).stallImg = 0 →
    (p.at 0x41 1).testBit 0 = false → isHost buf = true → s.reachable f buf r.bytes.length true = true →
    completes (.strikeRead f n) s (fun t => s.reported t f n buf r.bytes)) ∧
  (∀ (s : State) (f n : Nat), let p := s.pkt f n; let q := p.at 0x40 1; let row := p.at 0x42 1; let col := p.at 0x43 1
    s.hears f n 0x0F03 → q ≤ 3 → q < s.quads.length → s.ownQuad p (2 ^ q) = true → p.at 0x41 1 = 0 → row ≤ 15 → col ≤ 21 →
    ((s.quad q).site row col).st < 3 → s.jobAt q = none → (s.quad q).test = [] →
    completes (.unitTest f n) s (fun t => (t.quad q).test = [(row, col)] ∧ (t.quad q).testSlot = some (f, n) ∧ (t.quad q).testOne = true ∧
      ((t.fn f).slot n).st = .working ∧ onlyParts [.quads, .fns] s t)) ∧
  (∀ (s : State) (q row col f n : Nat), s.isOn = true → q < s.quads.length → (s.quad q).test = [(row, col)] → ((s.quad q).site row col).st = 3 →
    ((s.quad q).site row col).partner = none → (s.quad q).testSlot = some (f, n) → f < s.fns.length → n < (s.fn f).slots.length →
    completes (.unitTestDone q true) s (fun t => ((t.quad q).site row col).st = (if isSpine col then 1 else 0) ∧ (t.quad q).test = [] ∧
      (t.quad q).scenes = [none, none, none, none] ∧ t.replied f n DONE))

/-! ### The fabric -/

/-- O40. The fabric commands (R248, R260, R263, R265, R267, R272): a link plan waits in the settings page; a formation proposes the next
troupe epoch to every other position; DISCOVER takes its address and epoch with an empty directory and announces; SLICE_SET closes or opens
its ports; ROUTE_SET replaces its entries together; EPOCH_QUERY reports. -/
def Obligations.FabricCommandsAct : Prop :=
  (∀ (s : State) (f n : Nat), let plan := (s.pkt f n).at 0x40 1
    s.hears f n 0x0601 → plan ≤ 5 →
    completes (.linkPlan f n) s (fun t => t.bt.flashOps = s.bt.flashOps ++ [{ calib := false, page := ({ s.bt.nextSettings with plan := plan } : Settings).bytes
                                                                              slot := some (f, n), began := !s.bt.programming, val := s.fab.plan + plan * 256 }] ∧
      ((t.fn f).slot n).st = .working ∧ onlyParts [.bt, .fns] s t)) ∧
  (∀ (s : State) (f n : Nat), let mask := (s.pkt f n).at 0x40 1; let e := nextEpoch s.fab.seenEpoch
    s.hears f n 0x0602 → s.fab.fenced = false → mask.testBit s.bt.strap = true → 2 ≤ popCount mask 8 → s.portsTo s.bt.strap = [] →
    (∀ q ∈ maskList mask 8, q ≠ s.bt.strap → s.portsTo q ≠ []) → s.sv.jobs = [] → s.fab.forming = none →
    completes (.troupeForm f n) s (fun t => ((t.fn f).slot n).st = .working ∧
      t.fab.forming = some { mask := mask, epoch := e, since := s.now, answered := 0, proposer := none, slot := some (f, n), dissolve := false } ∧
      (∀ q ∈ maskList mask 8, q ≠ s.bt.strap → ∃ k, (k, s.address (peerOf q) (formMsg 0x01 mask e)) ∈ t.fab.sent) ∧
      onlyParts [.fab, .fns, .ctr] s t)) ∧
  (∀ (s : State) (f n k : Nat), let p := s.pkt f n
    s.hears f n 0x0603 → p.at 0x40 2 ≤ 16383 → p.at 0x42 2 ≠ 0 → siblings s.fab.plan ≠ 18 → s.upLinks.head? = some k →
    completes (.discover f n) s (fun t => t.replied f n DONE ∧ t.fab.addr = some (p.at 0x40 2) ∧ t.fab.epoch = p.at 0x42 2 ∧ t.fab.dir = [] ∧
      t.fab.fenced = false ∧ ∃ m, t.fab.sent = (k, m) :: s.fab.sent ∧ m.type = 0x10 ∧ m.bcast = true ∧ m.reqann = true ∧
        m.a0 = annArg (p.at 0x40 2) (p.at 0x42 2))) ∧
  (∀ (s : State) (f n : Nat), let p := s.pkt f n; let ports := bits (p.at 0x40 4) 0 18
    s.hears f n 0x0604 → p.at 0x44 1 ≤ 1 → s.busyJobs = false → s.pool.given = [] → s.pool.taken = [] → s.fab.role = .none →
    (p.at 0x45 1).testBit 0 = false →
    completes (.sliceSet f n) s (fun t => t.replied f n DONE ∧
      (∀ q, q < 18 → t.fab.closed.testBit q = (if ports.testBit q then p.at 0x44 1 == 0 else s.fab.closed.testBit q)) ∧
      (∀ q, q < 18 → q < s.fab.ports.length → (t.port q).st = (if ports.testBit q = false then (s.port q).st
        else if p.at 0x44 1 = 0 then .closed else if (s.port q).st = .closed then .training else (s.port q).st)) ∧
      onlyParts [.fab, .bt, .fns, .mg, .ctr] s t)) ∧
  (∀ (s : State) (f n : Nat) (h : HostView), let p := s.pkt f n; let u := (s.take f n).withHost h
    let first := p.at 0x40 1; let count := p.at 0x42 2; let a := p.at 0x48 8
    let es := (List.range count).map (fun i => BitVec.ofNat 64 (leAt (u.dmaRead f a (8 * count) false).1.1 (8 * i) 8 % 2 ^ 37))
    s.hears f n 0x0605 → 1 ≤ count → first + count ≤ 256 → a % 8 = 0 → isHost a = true → u.reachable f a (8 * count) false = true →
    completes (.routeSet f n h) s (fun t =>
      if es.all s.routeOk = true then t.replied f n DONE ∧
        t.fab = { s.fab with routes := s.fab.routes.take first ++ es ++ s.fab.routes.drop (first + count) }
      else t.replied f n BAD ∧ t.fab = s.fab)) ∧
  (∀ (s : State) (f n : Nat), s.hears f n 0x0606 → (s.pkt f n).at 0x40 8 = 0 →
    completes (.epochQuery f n) s (fun t => t.replied f n DONE ∧ t.replyVal f n = s.epochVal % 2 ^ 160 ∧ onlyParts [.fns, .mg, .ctr] s t)) ∧
  (∀ (s : State) (f n : Nat), let p := s.pkt f n; let buf := p.at 0x40 8; let out := s.dirBytes.take (p.at 0x48 4 / 4 * 4)
    s.hears f n 0x0606 → buf ≠ 0 → isHost buf = true → s.reachable f buf out.length true = true →
    completes (.epochQuery f n) s (fun t => s.reported t f n buf out ∧ t.replyVal f n = s.epochVal % 2 ^ 160))

/-- O41. The ports (R245, R246, R250): training that succeeds sends the device's identity and takes a rightly wired port UP with its RDY_MAP
bit; one that fails, or finds a peer of the wrong kind, takes it DOWN, and a port that retrained has then lost its link; a DOWN port trains
again after 100,000 local µs; eight replays or 10 local µs without a valid flit take an UP port to RETRAIN, and
1,500 local µs there take it DOWN. Flits and the timeouts of operations (R249, R250, R256): a flit that fails its CRC is discarded and
answered by a NAK; a data flit that comes in order takes the receive sequence on, and one after a gap is refused with a NAK; an operation
without a reply for the link timeout ends with REMOTE_LOST at its slot; a contribution refused BUSY goes out again. -/
def Obligations.PortsTrainAndFlitsArrive : Prop :=
  ((∀ (s : State) (p : Nat) (r : TrainResult) (peer : PeerId), s.isOn = true → p < 18 → p < s.fab.ports.length → r ≠ .failed →
      (s.port p).st = .training ∨ (s.port p).st = .retrain → s.wiringFault p peer = false →
      completes (.trainingEnd p r peer) s (fun t => (t.port p).st = .up ∧ (t.port p).peer = some peer ∧ (t.port p).half = decide (r ≠ .full) ∧
        (t.port p).sent = some s.identity ∧ t.rdy (26 + p) = true ∧ (∀ k, k ≠ p → k < 18 → (t.port k).st = (s.port k).st) ∧ onlyParts [.fab, .bt, .fns, .mg, .ctr] s t)) ∧
    (∀ (s : State) (p : Nat) (r : TrainResult) (peer : PeerId), s.isOn = true → p < 18 → p < s.fab.ports.length → (s.port p).st = .training →
      r = .failed ∨ s.wiringFault p peer = true →
      completes (.trainingEnd p r peer) s (fun t => (t.port p).st = .down ∧ (t.port p).sent = some s.identity ∧ t.rdy (26 + p) = false ∧
        (∀ k, k ≠ p → t.port k = s.port k) ∧ onlyParts [.fab, .bt, .fns, .mg, .ctr] s t)) ∧
    (∀ (s : State) (p : Nat) (r : TrainResult) (peer : PeerId), s.isOn = true → p < 18 → p < s.fab.ports.length → (s.port p).st = .retrain →
      r = .failed ∨ s.wiringFault p peer = true →
      completes (.trainingEnd p r peer) s (fun t => (t.port p).st = .down ∧ (t.port p).replay = [] ∧ (t.port p).sent = some s.identity ∧
        t.rdy (26 + p) = false ∧ t.counter 0x71 0 (10 * p + 5) = min ctrMax (s.counter 0x71 0 (10 * p + 5) + 1) ∧
        onlyParts [.fab, .bt, .fns, .mg, .ctr, .pool] s t)) ∧
    (∀ (s : State) (p : Nat), s.isOn = true → p < 18 → p < s.fab.ports.length → (s.port p).st = .down → (s.port p).since + 100000 ≤ s.now →
      completes (.trainingRetry p) s (fun t => t.port p = { s.port p with st := .training, since := s.now } ∧
        (∀ k, k ≠ p → t.port k = s.port k) ∧ onlyParts [.fab] s t)) ∧
    (∀ (s : State) (p : Nat), s.isOn = true → p < 18 → p < s.fab.ports.length → (s.port p).st = .up → 8 ≤ (s.port p).replays ∨ (s.port p).lastFlit + 10 ≤ s.now →
      completes (.retrain p) s (fun t => t.port p = { s.port p with st := .retrain, since := s.now } ∧ t.rdy (26 + p) = false ∧
        (∀ k, k ≠ p → t.port k = s.port k) ∧ onlyParts [.fab, .bt, .fns, .mg, .ctr] s t)) ∧
    (∀ (s : State) (p : Nat), s.isOn = true → p < 18 → p < s.fab.ports.length → (s.port p).st = .retrain → (s.port p).since + 1500 ≤ s.now →
      completes (.retrainTimeout p) s (fun t => (t.port p).st = .down ∧ (t.port p).replay = [] ∧ t.rdy (26 + p) = false ∧
        onlyParts [.fab, .bt, .fns, .mg, .ctr, .pool] s t))) ∧
  ((∀ (s : State) (p : Nat) (fl : Flit), s.isOn = true → p < 18 → p < s.fab.ports.length → (s.port p).st = .up → fl.good = false →
      completes (.flitReceive p fl) s (fun t => t.port p = { s.port p with nak := true } ∧ (∀ k, k ≠ p → t.port k = s.port k) ∧
        t.counter 0x71 0 (10 * p + 2) = min ctrMax (s.counter 0x71 0 (10 * p + 2) + 1) ∧ onlyParts [.fab, .ctr] s t)) ∧
    (∀ (s : State) (p : Nat) (fl : Flit), s.isOn = true → p < 18 → p < s.fab.ports.length → (s.port p).st = .up → fl.good = true → fl.ftype = 1 → fl.vc < 3 →
      completes (.flitReceive p fl) s (fun t => (t.port p).lastFlit = s.now ∧ (t.port p).st = .up ∧
        (if fl.seq = ((s.port p).rxSeq + 1) % 4096 then (t.port p).rxSeq = fl.seq ∧ (t.port p).nak = false
         else (t.port p).rxSeq = (s.port p).rxSeq ∧
           ((fl.seq + 4096 - (s.port p).rxSeq) % 4096 < 2048 → fl.seq ≠ (s.port p).rxSeq → (t.port p).nak = true)) ∧
        onlyParts [.fab, .ctr] s t)) ∧
    (∀ (s : State) (op f n : Nat) (o : XOp), s.isOn = true → s.fab.ops.find? (·.id == op) = some o → o.waiting = none →
      o.sent + linkTimeout ≤ s.now → o.slot = some (f, n) → f < s.fns.length → n < (s.fn f).slots.length → s.fab.role = .none →
      completes (.linkTimeout op) s (fun t => t.replied f n LOST ∧ t.fab.ops = s.fab.ops.filter (fun k => !k.sameOp o) ∧
        onlyParts [.fab, .fns, .mg, .ctr] s t)) ∧
    (∀ (s : State) (op f n w : Nat) (o : XOp), s.isOn = true → s.fab.ops.find? (·.id == op) = some o → o.waiting = some w →
      w + linkTimeout ≤ s.now → o.slot = some (f, n) → f < s.fns.length → n < (s.fn f).slots.length →
      completes (.creditTimeout op) s (fun t => t.replied f n LOST ∧ t.fab.ops = s.fab.ops.filter (fun k => !k.sameOp o) ∧
        onlyParts [.fab, .fns, .mg, .ctr] s t)) ∧
    (∀ (s : State) (op w k : Nat) (o : XOp), s.isOn = true → s.fab.ops.find? (·.id == op) = some o → o.resendAt = some w → w ≤ s.now →
      s.routePort o.peer o.msg.opid = some k →
      completes (.reduceResend op) s (fun t => t.fab.sent = (k, o.msg) :: s.fab.sent ∧
        (∀ x ∈ t.fab.ops, x.id = op → x.resendAt = none ∧ x.sent = s.now) ∧ onlyParts [.fab, .ctr] s t)))

/-- O42. What a message must pass (R268 to R270, R356, R424): a request that a trip or an activation holds back, that an MU has no port for,
or that came after another that waits, waits in order; one for another device is dropped and counted; one with a stale destination epoch is answered by an ANNOUNCE and dropped; one from a sender whose epoch is
not newer than the directory's is dropped. ANNOUNCE, WITHDRAW and FENCE (R264, R270, R271, R273): a new address joins the directory; a newer
holder of this device's address, or a FENCE that names its present epoch, fences it: no operation is left, address and epoch are gone, and
RDY_MAP bit 44 is clear; a withdrawn address leaves the directory. -/
def Obligations.MessagesAreCheckedAndAddressesLearnt : Prop :=
  ((∀ (s : State) (p : Nat) (m : Msg), s.isOn = true → (s.port p).st = .up →
      s.holdsBack { m with type := 0x01 } = true ∨ s.behind p { m with type := 0x01 } = true ∨ s.portBusy { m with type := 0x01 } = true →
      completes (.put p m) s (fun t => t.fab = { s.fab with held := s.fab.held ++ [(p, { m with type := 0x01 })] } ∧ onlyParts [.fab] s t)) ∧
    (∀ (s : State) (p a : Nat) (m : Msg), s.looksAt p { m with type := 0x01 } → m.troupe = false →
      m.bcast = false → s.fab.addr = some a → m.dst ≠ a →
      completes (.put p m) s (fun t => t.counter 0x72 0 2 = min ctrMax (s.counter 0x72 0 2 + 1) ∧ onlyParts [.ctr] s t)) ∧
    (∀ (s : State) (p k : Nat) (m : Msg), s.looksAt p { m with type := 0x01 } → m.troupe = false →
      m.bcast = false → s.fab.addr = some m.dst → m.depoch ≠ s.fab.epoch → s.routePort m.src 0 = some k →
      completes (.put p m) s (fun t => t.fab.sent = (k, s.address m.src (s.announceMsg false)) :: s.fab.sent ∧ onlyParts [.fab, .ctr] s t)) ∧
    (∀ (s : State) (p old : Nat) (m : Msg), s.looksAt p { m with type := 0x01 } → m.troupe = false →
      m.bcast = false → s.fab.addr = some m.dst → m.depoch = s.fab.epoch → m.src ≠ m.dst → m.sepoch ≠ 0 → look s.fab.dir m.src = some old →
      m.sepoch ≠ old → newer m.sepoch old = false →
      completes (.put p m) s (fun t => t.fab.dir = s.fab.dir ∧ onlyParts [.fab, .ctr] s t)) ∧
    (∀ (s : State) (p : Nat) (m : Msg), s.looksAt p { m with type := 0x01 } → m.troupe = true →
      s.isSibling p = true → m.dst % 8 = s.bt.strap → newer s.fab.troupeEpoch m.sepoch = false → m.depoch ≠ s.fab.troupeEpoch →
      completes (.put p m) s (fun t => t.counter 0x72 0 3 = min ctrMax (s.counter 0x72 0 3 + 1) ∧ onlyParts [.ctr] s t))) ∧
  ((∀ (s : State) (p : Nat) (m0 : Msg), let m : Msg := { m0 with type := 0x10 }; let v := s.got p m; let a := bits m.a0.toNat 0 14
      s.gets p m → v.fab.addr ≠ some a → look v.fab.dir a = none → m.reqann = false →
      completes (.announce p m0) s (fun t => look t.fab.dir a = some (bits m.a0.toNat 16 16) ∧
        (∀ b, b ≠ a → look t.fab.dir b = look v.fab.dir b) ∧ onlyParts [.fab] v t)) ∧
    (∀ (s : State) (p : Nat) (m0 : Msg), let m : Msg := { m0 with type := 0x10 }; let v := s.got p m
      s.gets p m → v.fab.addr = some (bits m.a0.toNat 0 14) → bits m.a0.toNat 16 16 ≠ v.fab.epoch → newer (bits m.a0.toNat 16 16) v.fab.epoch = true →
      completes (.announce p m0) s (fun t => t.fab.fenced = true ∧ t.fab.addr = none ∧ t.fab.epoch = 0 ∧ t.rdy 44 = false)) ∧
    (∀ (s : State) (p e : Nat) (m0 : Msg), let m : Msg := { m0 with type := 0x11 }; let v := s.got p m; let a := bits m.a0.toNat 0 14
      s.gets p m → e = bits m.a0.toNat 16 16 → look v.fab.dir a = some e → v.fab.ops.filter (fun o => o.peer == a) = [] →
      completes (.withdraw p m0) s (fun t => look t.fab.dir a = none ∧ (∀ l ∈ t.pool.taken, l.peer ≠ a) ∧
        onlyParts [.fab, .pool, .fns, .mg, .ctr] v t)) ∧
    (∀ (s : State) (p : Nat) (m0 : Msg), let m : Msg := { m0 with type := 0x12 }; let v := s.got p m
      s.gets p m → m.troupe = false → v.fab.addr = some (bits m.a0.toNat 0 14) → bits m.a0.toNat 16 16 = v.fab.epoch →
      v.sv.jobs.filter (fun j => j.st != .struck) = [] →
      completes (.fence p m0) s (fun t => t.fab.fenced = true ∧ t.fab.addr = none ∧ t.fab.epoch = 0 ∧ t.fab.ops = [] ∧ t.pool.taken = [] ∧
        t.rdy 44 = false)))

/-- O43. PUT, GET and REDUCE (R118, R253, R256): a PUT writes its bytes, posts its counter and is acknowledged; a GET of tier 0 answers the
bytes, of a hole zeros with POISON, of a copy of an object the copy's bytes, of a dark quadrant NOT_READY, and of an object that is lost
EVICTED; the contribution that is next is combined with what is in memory, and an early one waits. -/
def Obligations.MessagesReachMemory : Prop :=
  (∀ (s : State) (p : Nat) (m0 : Msg), let m : Msg := { m0 with type := 0x01 }; let v := s.got p m; let a := m.a0.toNat
    s.gets p m → v.putOk a m.payload.length = true → v.dark (a / 0x80000000) = false →
    (m.ctr < 64 → m.ctr < v.fab.ctrs.length ∧ v.fab.ctrs.getD m.ctr 0 < 0xFFFFFFFF) →
    completes (.put p m0) s (fun t => t.mem = memWrite v.mem a m.payload ∧
      t.fab.ctrs = (if m.ctr < 64 then v.fab.ctrs.set m.ctr (v.fab.ctrs.getD m.ctr 0 + 1) else v.fab.ctrs) ∧
      t.quads = (v.engineTake a m.payload.length true).quads ∧
      v.answered t m { msg0 0x81 with a0 := arg DONE } ∧ onlyParts [.mem, .marks, .flaws, .quads, .fab, .ctr] v t)) ∧
  (∀ (s : State) (p : Nat) (m0 : Msg), let m : Msg := { m0 with type := 0x02 }; let v := s.got p m; let off := m.a1.toNat; let n := m.a3.toNat
    s.gets p m → m.a0 = 0 → 128 ≤ n → n ≤ 65536 → off + n ≤ 0x200000000 → v.inDevice off n = true → v.dark (off / 0x80000000) = false →
    completes (.get p m0) s (fun t =>
      v.answered t m { msg0 0x82 with a0 := arg DONE, payload := memRead v.mem off n, poison := flitsBad n (v.badRanges off n) } ∧
      t.quads = (v.engineTake off n false).quads ∧ onlyParts [.quads, .fab, .ctr] v t)) ∧
  (∀ (s : State) (p : Nat) (m0 : Msg), let m : Msg := { m0 with type := 0x02 }; let v := s.got p m; let off := m.a1.toNat; let n := m.a3.toNat
    let hq := holeQuad off
    s.gets p m → m.a0 = 0 → 128 ≤ n → n ≤ 65536 → v.inDevice off n = false → (off + n ≤ 0x200000000 → v.dark (off / 0x80000000) = false) →
    completes (.get p m0) s (fun t =>
      v.answered t m { msg0 0x82 with a0 := arg DONE, payload := List.replicate n 0, poison := List.range (ceilDiv (64 + n) 240) } ∧
      t.counter 0x33 hq 7 = min ctrMax (v.counter 0x33 hq 7 + 1) ∧ onlyParts [.fab, .ctr] v t)) ∧
  (∀ (s : State) (p : Nat) (m0 : Msg), let m : Msg := { m0 with type := 0x02 }; let v := s.got p m; let off := m.a1.toNat; let n := m.a3.toNat
    s.gets p m → m.a0 = 0 → 128 ≤ n → n ≤ 65536 → off + n ≤ 0x200000000 → v.dark (off / 0x80000000) = true →
    completes (.get p m0) s (fun t => v.answered t m { msg0 0x8F with a0 := arg NOTREADY } ∧ onlyParts [.fab, .ctr] v t)) ∧
  (∀ (s : State) (p : Nat) (r : Rec) (m0 : Msg), let m : Msg := { m0 with type := 0x02 }; let v := s.got p m
    let tier := bits m.a2.toNat 0 2; let off := m.a1.toNat; let n := m.a3.toNat; let got := v.readRec r off n
    s.gets p m → m.a0 ≠ 0 → 128 ≤ n → n ≤ 65536 → m.a2.getLsbD 4 = false → tier = 1 ∨ tier = 2 →
    (v.pool.readable tier m.a0.toNat).isSome = true → (v.pool.copies tier m.a0.toNat).find? (fun c => c.copy == bits m.a2.toNat 2 2) = some r →
    v.dark r.copy = false →
    completes (.get p m0) s (fun t =>
      v.answered t m { msg0 0x82 with a0 := arg DONE, payload := got.1.1, poison := flitsBad n got.1.2 } ∧
      t.mem = v.mem ∧ t.marks = v.marks ∧ t.pool = v.pool ∧ t.quads = v.quads)) ∧
  (∀ (s : State) (p : Nat) (m0 : Msg), let m : Msg := { m0 with type := 0x02 }; let v := s.got p m
    s.gets p m → 128 ≤ m.a3.toNat → m.a3.toNat ≤ 65536 → m.a0 ≠ 0 → m.a2.getLsbD 4 = false → bits m.a2.toNat 0 2 = 1 ∨ bits m.a2.toNat 0 2 = 2 →
    v.pool.readable (bits m.a2.toNat 0 2) m.a0.toNat = none →
    completes (.get p m0) s (fun t => v.answered t m { msg0 0x8F with a0 := arg EVICTED } ∧ onlyParts [.fab, .ctr] v t)) ∧
  (∀ (s : State) (p : Nat) (m0 : Msg), let m : Msg := { m0 with type := 0x03 }; let v := s.got p m; let a := m.a0.toNat
    s.gets p m → redOp m ≤ 3 → redIx m < redCount m → m.payload.length % 4 = 0 → v.putOk a m.payload.length = true →
    v.dark (a / 0x80000000) = false → redIx m = (v.redn m).applied + 1 → (v.redn m).early = [] →
    (redIx m + 1 = redCount m → m.ctr < 64 → v.fab.ctrs.getD m.ctr 0 < 0xFFFFFFFF) →
    completes (.reduce p m0) s (fun t => t.mem = memWrite v.mem a (reduceBytes (redOp m) (memRead v.mem a m.payload.length) m.payload) ∧
      (t.redn m).applied = redIx m ∧ t.quads = (v.engineTake a m.payload.length true).quads ∧
      v.answered t m { msg0 0x81 with a0 := arg DONE } ∧ onlyParts [.mem, .marks, .quads, .fab, .ctr] v t)) ∧
  (∀ (s : State) (p : Nat) (m0 : Msg), let m : Msg := { m0 with type := 0x03 }; let v := s.got p m; let a := m.a0.toNat
    s.gets p m → redOp m ≤ 3 → redIx m < redCount m → m.payload.length % 4 = 0 → v.putOk a m.payload.length = true →
    v.dark (a / 0x80000000) = false → (v.redn m).applied + 1 < redIx m → (v.redn m).early.any (fun e => e.1 == redIx m) = false →
    v.heldBytes + m.payload.length ≤ 16777216 →
    completes (.reduce p m0) s (fun t => (t.redn m).early = (v.redn m).early ++ [(redIx m, p, m)] ∧
      (t.redn m).applied = (v.redn m).applied ∧ onlyParts [.fab] v t))

/-- O44. The replies (R144, R250, R254 to R256): an ACK completes its operation and posts the entry's counter; GET_DATA writes the
destination; LEND_GRANT completes its BORROW with the loan; an ERROR completes the waiting command with its status, and a contribution
refused BUSY waits 10 local µs; a reply that no operation waits for is counted and dropped. -/
def Obligations.RepliesCompleteOperations : Prop :=
  (∀ (s : State) (p q n : Nat) (o : XOp) (m0 : Msg), let m : Msg := { m0 with type := 0x81 }; let v := s.got p m
    s.gets p m → v.opOf m = some o → m.a0.toNat % 256 = DONE → o.kind ≠ 4 → v.fab.ops.any (fun k => k.id != o.id && k.sameOp o) = false →
    o.xq = some (q, n) → (v.fab.queues.getD q []).any (fun e => e.n == n && e.job == o.job && decide (e.issued < rawField e.raw 0x20 4)) = false →
    o.ectr < 64 → o.ectr < v.fab.ctrs.length → v.fab.ctrs.getD o.ectr 0 < 0xFFFFFFFF →
    completes (.ack p m0) s (fun t => t.fab.ctrs = v.fab.ctrs.set o.ectr (v.fab.ctrs.getD o.ectr 0 + 1) ∧
      t.fab.ops = v.fab.ops.filter (fun k => !(k.id == o.id)) ∧
      t.fab.queues = ({ v.fab with queues := v.fab.queues.modify q (fun k => k.filter (fun e => !(e.n == n && e.job == o.job))) } : Fabric).refillX.queues ∧
      onlyParts [.fab] v t)) ∧
  (∀ (s : State) (p : Nat) (o : XOp) (m0 : Msg), let m : Msg := { m0 with type := 0x82 }; let v := s.got p m
    s.gets p m → v.opOf m = some o → m.a0.toNat % 256 = DONE → o.te = none → o.job ≠ 0 → o.kind = 2 → v.inDevice o.dst m.payload.length = true →
    v.fab.ops.any (fun k => k.id != o.id && k.sameOp o) = true →
    completes (.getData p m0) s (fun t => t.mem = memWrite v.mem o.dst m.payload ∧ t.fab.ops = v.fab.ops.filter (fun k => !(k.id == o.id)) ∧
      t.quads = (v.engineTake o.dst m.payload.length true).quads ∧ onlyParts [.mem, .marks, .flaws, .quads, .fab] v t)) ∧
  (∀ (s : State) (p f n : Nat) (o : XOp) (m0 : Msg), let m : Msg := { m0 with type := 0x84 }; let v := s.got p m
    s.gets p m → v.opOf m = some o → o.kind = 0x08 → o.slot = some (f, n) → f < v.fns.length → n < (v.fn f).slots.length →
    v.pool.taken.length < 16 →
    completes (.lendGrant p m0) s (fun t => t.replied f n DONE ∧ t.pool.taken = v.pool.taken ++
        [{ id := m.a0.toNat, peer := o.peer, tier := bits o.msg.a0.toNat 0 2, size := m.a1.toNat, term := m.a2.toNat, sent := o.sent, objs := [], pins := [] }] ∧
      t.fab.ops = v.fab.ops.filter (fun k => !(k.id == o.id)) ∧ onlyParts [.pool, .fab, .fns, .mg, .ctr] v t)) ∧
  (∀ (s : State) (p f n : Nat) (o : XOp) (m0 : Msg), let m : Msg := { m0 with type := 0x8F }; let v := s.got p m
    s.gets p m → v.opOf m = some o → ¬(o.kind = 0x03 ∧ m.a0.toNat % 256 = BUSY) → o.slot = some (f, n) → f < v.fns.length → n < (v.fn f).slots.length →
    completes (.error p m0) s (fun t => t.replied f n (m.a0.toNat % 256) ∧ t.fab.ops = v.fab.ops.filter (fun k => !k.sameOp o) ∧
      onlyParts [.fab, .fns, .mg, .ctr] v t)) ∧
  (∀ (s : State) (p : Nat) (o : XOp) (m0 : Msg), let m : Msg := { m0 with type := 0x8F }; let v := s.got p m
    s.gets p m → v.opOf m = some o → o.kind = 0x03 → m.a0.toNat % 256 = BUSY →
    completes (.error p m0) s (fun t => (∀ k ∈ t.fab.ops, k.id = o.id → k.resendAt = some (v.now + 10)) ∧ onlyParts [.fab] v t)) ∧
  (∀ (s : State) (p : Nat) (m0 : Msg), let m : Msg := { m0 with type := 0x81 }; let v := s.got p m
    s.gets p m → v.opOf m = none →
    completes (.ack p m0) s (fun t => t.counter 0x72 0 8 = min ctrMax (v.counter 0x72 0 8 + 1) ∧ onlyParts [.ctr] v t))

/-- O45. Loans and dispatch traffic as messages (R144 to R146, R233, R237): a segment is staged; a covering offer becomes a loan; a renewal
starts the term again; a recall ends the loan at the borrower; a record, an end record and an answer that a pass expects are taken in, and
one that nothing expects is dropped as stale, acknowledged all the same. -/
def Obligations.LoansAndDispatchByMessage : Prop :=
  (∀ (s : State) (p : Nat) (g : LoanGiven) (m0 : Msg), let m : Msg := { m0 with type := 0x04 }; let v := s.got p m
    s.gets p m → v.pool.given.find? (fun g => g.id == m.a0.toNat && g.peer == peerFrom m) = some g → m.a3.getLsbD 40 = false →
    completes (.loanPut p m0) s (fun t =>
      (∃ x ∈ t.pool.given, x.id = g.id ∧ x.staged = memWrite g.staged (m.a1.toNat * 2 ^ 40 + m.a2.toNat) m.payload) ∧
      (∀ x ∈ v.pool.given, x.id ≠ g.id → x ∈ t.pool.given) ∧ t.pool.recs = v.pool.recs ∧
      v.answered t m { msg0 0x81 with a0 := arg DONE } ∧ onlyParts [.pool, .fab, .ctr] v t)) ∧
  (∀ (s : State) (p : Nat) (o : Offer) (m0 : Msg), let m : Msg := { m0 with type := 0x08 }; let v := s.got p m
    let tier := bits m.a0.toNat 0 2; let size := bits m.a0.toNat 16 10
    s.gets p m → v.pool.offers.find? (fun o => o.peer == peerFrom m && o.tier == tier && decide (size ≤ o.size)) = some o →
    completes (.borrowRequest p m0) s (fun t =>
      t.pool.given = v.pool.given ++ [{ id := v.pool.nextLoan, peer := peerFrom m, tier := tier, size := size, term := o.term, start := v.now, used := 0
                                        recalled := none, resv := o.resv, staged := [], bad := [] }] ∧
      t.pool.offers = v.pool.offers.filter (fun x => x.resv != o.resv) ∧
      v.answered t m { msg0 0x84 with a0 := arg v.pool.nextLoan, a1 := arg size, a2 := arg o.term } ∧ onlyParts [.pool, .fab, .ctr] v t)) ∧
  (∀ (s : State) (p : Nat) (g : LoanGiven) (m0 : Msg), let m : Msg := { m0 with type := 0x09 }; let v := s.got p m
    s.gets p m → v.pool.given.find? (fun g => g.id == m.a0.toNat && g.peer == peerFrom m && g.recalled.isNone) = some g →
    completes (.renew p m0) s (fun t => (∀ x ∈ t.pool.given, x.id = g.id → x.start = v.now) ∧
      v.answered t m { msg0 0x84 with a0 := m.a0, a1 := arg g.size, a2 := arg g.term } ∧ onlyParts [.pool, .fab, .ctr] v t)) ∧
  (∀ (s : State) (p : Nat) (m0 : Msg), let m : Msg := { m0 with type := 0x13 }; let v := s.got p m
    s.gets p m → v.pool.taken.any (fun l => l.id == m.a0.toNat && l.peer == peerFrom m) = true →
    completes (.recall p m0) s (fun t => t.pool.taken = v.pool.taken.filter (fun l => l.id != m.a0.toNat) ∧
      t.pool = v.pool.endTaken (fun l => l.id == m.a0.toNat) ∧ onlyParts [.pool] v t)) ∧
  (∀ (s : State) (p : Nat) (j : Job) (r : Sys2Proof.Machine.Prod) (m0 : Msg), let m : Msg := { m0 with type := 0x05 }; let v := s.got p m
    let q := m.dq % 4; let hdr := m.payload.take 128; let ix := leAt hdr 4 1 * r.man.rp.dmax + leAt hdr 8 2
    let at_ := stagingBase q + r.man.rp.inbox + ix * (128 + r.man.rp.rowbytes); let row := (m.payload.drop 128).take r.man.rp.rowbytes
    s.gets p m → v.dark q = false → v.scoring → q < v.quads.length → v.passOf q = some (j, r) → 128 ≤ m.payload.length →
    (v.quad q).rt.expects (leAt hdr 0 4) 0 = true → v.inDevice at_ 128 = true → v.inDevice (at_ + 128) row.length = true →
    completes (.dispatchRec p m0) s (fun t => t.mem = memWrite (memWrite v.mem at_ hdr) (at_ + 128) row ∧
      (leAt hdr 4 1, leAt hdr 8 2) ∈ (t.quad q).rt.recsIn ∧ v.answered t m { msg0 0x81 with a0 := arg DONE } ∧
      onlyParts [.mem, .marks, .flaws, .quads, .fab, .ctr] v t)) ∧
  (∀ (s : State) (p : Nat) (m0 : Msg), let m : Msg := { m0 with type := 0x06 }; let v := s.got p m; let q := m.dq % 4
    s.gets p m → v.dark q = false → v.scoring → q < v.quads.length → (v.quad q).rt.expects m.rtag 0 = true →
    completes (.dispatchEnd p m0) s (fun t => (peerFrom m * 2 ^ 32 + m.opid, m.a0.toNat) ∈ (t.quad q).rt.endsIn ∧
      v.answered t m { msg0 0x81 with a0 := arg DONE } ∧ onlyParts [.quads, .fab, .ctr] v t)) ∧
  (∀ (s : State) (p : Nat) (j : Job) (r : Sys2Proof.Machine.Prod) (m0 : Msg), let m : Msg := { m0 with type := 0x07 }; let v := s.got p m
    let q := m.dq % 4; let row := m.payload.take r.man.rp.rowbytes; let at_ := stagingBase q + r.man.rp.ansoff + m.a0.toNat * r.man.rp.rowbytes
    s.gets p m → v.dark q = false → v.scoring → q < v.quads.length → v.passOf q = some (j, r) → (v.quad q).rt.expects m.rtag 0 = true →
    m.a0.toNat < r.man.rp.dmax → v.inDevice at_ row.length = true → (m.ctr < 64 → v.fab.ctrs.getD m.ctr 0 < 0xFFFFFFFF) →
    completes (.dispatchAns p m0) s (fun t => t.mem = memWrite v.mem at_ row ∧ m.a0.toNat ∈ (t.quad q).rt.answers ∧
      t.fab.ctrs = (if m.ctr < 64 then v.fab.ctrs.set m.ctr (v.fab.ctrs.getD m.ctr 0 + 1) else v.fab.ctrs) ∧
      v.answered t m { msg0 0x81 with a0 := arg DONE } ∧ onlyParts [.mem, .marks, .flaws, .quads, .fab, .ctr] v t)) ∧
  (∀ (s : State) (p : Nat) (m0 : Msg), let m : Msg := { m0 with type := 0x05 }; let v := s.got p m; let q := m.dq % 4
    s.gets p m → v.dark q = false → v.scoring → (v.quad q).rt.expects (leAt (m.payload.take 128) 0 4) 0 = false →
    completes (.dispatchRec p m0) s (fun t => t.counter 0x62 q 5 = min ctrMax (v.counter 0x62 q 5 + 1) ∧
      v.answered t m { msg0 0x81 with a0 := arg DONE } ∧ onlyParts [.fab, .ctr] v t)) ∧
  (∀ (s : State) (p : Nat) (m0 : Msg), let m : Msg := { m0 with type := 0x06 }; let v := s.got p m; let q := m.dq % 4
    s.gets p m → v.dark q = false → v.scoring → (v.quad q).rt.expects m.rtag 0 = false →
    completes (.dispatchEnd p m0) s (fun t => t.counter 0x62 q 5 = min ctrMax (v.counter 0x62 q 5 + 1) ∧
      v.answered t m { msg0 0x81 with a0 := arg DONE } ∧ onlyParts [.fab, .ctr] v t)) ∧
  (∀ (s : State) (p : Nat) (m0 : Msg), let m : Msg := { m0 with type := 0x07 }; let v := s.got p m; let q := m.dq % 4
    s.gets p m → v.dark q = false → v.scoring → (v.quad q).rt.expects m.rtag 0 = false →
    completes (.dispatchAns p m0) s (fun t => t.counter 0x62 q 5 = min ctrMax (v.counter 0x62 q 5 + 1) ∧ t.fab.ctrs = v.fab.ctrs ∧
      v.answered t m { msg0 0x81 with a0 := arg DONE } ∧ onlyParts [.fab, .ctr] v t))

/-- O46. Troupe formation (R260): a device without jobs accepts a proposal, and one with jobs refuses it; the last acceptance forms the
troupe at the proposer, and the COMMIT at the member; a refusal and 10,000 local µs end the proposal; a member with no job leaves at its
lead's DISSOLVE. -/
def Obligations.TroupesFormAndDissolve : Prop :=
  (∀ (s : State) (p : Nat) (m0 : Msg), let m := asTroupe m0 0x01; let v := s.got p m; let e := m.a1.toNat % 65536
    s.gets p m → v.sv.jobs = [] → v.fab.forming = none →
    completes (.form p m0) s (fun t => t.fab.forming = some { mask := tval m % 256, epoch := e, since := v.now, answered := 0
                                                              proposer := some (m.src % 8), slot := none, dissolve := false } ∧
      v.told t (peerOf (m.src % 8)) (formMsg 0x02 DONE e) ∧ onlyParts [.fab, .ctr] v t)) ∧
  (∀ (s : State) (p : Nat) (m0 : Msg), let m := asTroupe m0 0x01; let v := s.got p m
    s.gets p m → v.sv.jobs ≠ [] →
    completes (.form p m0) s (fun t => t.fab.forming = v.fab.forming ∧ v.told t (peerOf (m.src % 8)) (formMsg 0x03 BUSY (m.a1.toNat % 65536)) ∧
      onlyParts [.fab, .ctr] v t)) ∧
  (∀ (s : State) (p f n : Nat) (g : Forming) (m0 : Msg), let m := asTroupe m0 0x02; let v := s.got p m
    s.gets p m → v.job? m.a2.toNat = none → v.fab.forming = some g → g.proposer = none → g.dissolve = false → g.epoch = m.a1.toNat % 65536 →
    g.mask.testBit (m.src % 8) = true → (∀ q ∈ maskList g.mask 8, q ≠ v.bt.strap → q = m.src % 8 ∨ g.answered.testBit q = true) →
    g.slot = some (f, n) → f < v.fns.length → n < (v.fn f).slots.length →
    completes (.accept p m0) s (fun t => t.replied f n DONE ∧ t.fab.forming = none ∧ t.fab.troupeEpoch = g.epoch ∧ t.fab.mask = g.mask ∧
      (∀ q ∈ maskList g.mask 8, t.fab.lead ≤ q) ∧ t.fab.role = (if t.fab.lead = v.bt.strap then .lead else .member) ∧
      onlyParts [.fab, .fns, .mg, .ctr] v t)) ∧
  (∀ (s : State) (p q : Nat) (g : Forming) (m0 : Msg), let m := asTroupe m0 0x02; let v := s.got p m
    s.gets p m → v.job? m.a2.toNat = none → v.fab.forming = some g → g.proposer = none → g.dissolve = false → g.epoch = m.a1.toNat % 65536 →
    g.mask.testBit (m.src % 8) = true → q ∈ maskList g.mask 8 → q ≠ v.bt.strap → q ≠ m.src % 8 → g.answered.testBit q = false →
    completes (.accept p m0) s (fun t => t.fab = { v.fab with forming := some { g with answered := g.answered ||| 2 ^ (m.src % 8) } } ∧ onlyParts [.fab] v t)) ∧
  (∀ (s : State) (p f n : Nat) (g : Forming) (m0 : Msg), let m := asTroupe m0 0x03; let v := s.got p m
    s.gets p m → v.job? m.a2.toNat = none → v.fab.forming = some g → g.proposer = none → g.epoch = m.a1.toNat % 65536 →
    g.mask.testBit (m.src % 8) = true → g.slot = some (f, n) → f < v.fns.length → n < (v.fn f).slots.length →
    completes (.refuse p m0) s (fun t => t.replied f n BUSY ∧ t.fab = { v.fab with forming := none } ∧ onlyParts [.fab, .fns, .mg, .ctr] v t)) ∧
  (∀ (s : State) (p : Nat) (m0 : Msg), let m := asTroupe m0 0x04; let v := s.got p m; let mask := tval m % 256
    s.gets p m → mask.testBit v.bt.strap = true → mask.testBit (m.src % 8) = true →
    completes (.commit p m0) s (fun t => t.fab.troupeEpoch = m.a1.toNat % 65536 ∧ t.fab.mask = mask ∧ (∀ q ∈ maskList mask 8, t.fab.lead ≤ q) ∧
      t.fab.role = (if t.fab.lead = v.bt.strap then .lead else .member) ∧ onlyParts [.fab, .fns, .mg, .ctr] v t)) ∧
  (∀ (s : State) (f n : Nat) (g : Forming), s.isOn = true → s.fab.forming = some g → g.dissolve = false → g.since + 10000 ≤ s.now →
    g.slot = some (f, n) → f < s.fns.length → n < (s.fn f).slots.length →
    completes .troupeFormTimeout s (fun t => t.replied f n LOST ∧ t.fab = { s.fab with forming := none } ∧ onlyParts [.fab, .fns, .mg, .ctr] s t)) ∧
  (∀ (s : State) (p : Nat) (m0 : Msg), let m := asTroupe m0 0x05; let v := s.got p m
    s.gets p m → v.fab.role = .member → v.fab.lead = m.src % 8 → v.busyJobs = false →
    completes (.dissolve p m0) s (fun t => t.fab.role = .none ∧ t.fab.mask = 0 ∧ t.fab.troupeEpoch = 0 ∧
      v.told t (peerOf (m.src % 8)) (formMsg 0x02 DONE v.fab.troupeEpoch) ∧ onlyParts [.fab, .ctr] v t))

/-- O47. The lead's control of a troupe job (R255, R262, R334): at a member a job starts, a step begins with its counters cleared, biases
are taken, a struck job is set, and the job ends; at the lead a member's report of its step is added. A message that is not the lead's
changes nothing. -/
def Obligations.LeadControlsTheJob : Prop :=
  (∀ (s : State) (p : Nat) (m0 : Msg), let m := asTroupe m0 0x10; let v := s.got p m; let id := m.a1.toNat % 2 ^ 32
    s.gets p m → v.fromLead m = true → v.job? id = none →
    completes (.jobstart p m0) s (fun t => (∃ j, t.job? id = some j ∧ j.st = .running ∧ j.prod = bits m.a2.toNat 0 16 ∧
        j.members = bits m.a2.toNat 16 8 ∧ j.gen = m.a3.toNat % 65536) ∧ t.sv.gen = m.a3.toNat % 65536 ∧ t.fab.ctrs = List.replicate 64 0)) ∧
  (∀ (s : State) (p : Nat) (j : Job) (x : Sys2Proof.Machine.Prod) (m0 : Msg), let m := asTroupe m0 0x11; let v := s.got p m; let id := bits m.a1.toNat 0 32
    s.gets p m → v.fromLead m = true → v.job? id = some j → j.st = .running → j.inStep = false → v.prod? j.prod = some x → x.man.rp.experts = 0 →
    completes (.step p m0) s (fun t => (∃ k, t.job? id = some k ∧ k.st = .running ∧ k.inStep = true ∧ k.steps = bits m.a1.toNat 32 32 - 1) ∧
      t.fab.ctrs = List.replicate 64 0)) ∧
  (∀ (s : State) (p q : Nat) (j : Job) (man : Manifest) (m0 : Msg), let m := asTroupe m0 0x12; let v := s.got p m; let id := bits m.a1.toNat 0 32
    s.gets p m → v.fab.role = .lead → v.job? id = some j → v.manOf id = some man → j.st = .running → j.inStep = true →
    j.members.testBit (m.src % 8) = true → j.ends.contains (m.src % 8) = false → bits m.a1.toNat 32 32 = j.steps + 1 →
    q ∈ maskList j.members 8 → q ≠ m.src % 8 → j.ends.contains q = false →
    completes (.stepend p m0) s (fun t => t.job? id = some { j with ends := j.ends ++ [m.src % 8], eloads := addLoads j.eloads (payloadWords m)
                                                                    poisonRecs := j.poisonRecs + m.a2.toNat } ∧ onlyParts [.sv] v t)) ∧
  (∀ (s : State) (p : Nat) (j : Job) (m0 : Msg), let m := asTroupe m0 0x13; let v := s.got p m; let id := m.a1.toNat % 2 ^ 32
    s.gets p m → v.fromLead m = true → v.job? id = some j →
    completes (.bias p m0) s (fun t => t.job? id = some { j with biases := (payloadWords m).map (BitVec.ofNat 32), eloads := [] } ∧ onlyParts [.sv] v t)) ∧
  (∀ (s : State) (p : Nat) (m0 : Msg), let m := asTroupe m0 0x14; let v := s.got p m
    s.gets p m → v.fromLead m = true →
    completes (.jobend p m0) s (fun t => t.job? (m.a1.toNat % 2 ^ 32) = none ∧ t.sv.gen = m.a2.toNat % 65536)) ∧
  (∀ (s : State) (p : Nat) (j : Job) (m0 : Msg), let m := asTroupe m0 0x15; let v := s.got p m; let id := m.a1.toNat % 2 ^ 32
    s.gets p m → v.fromLead m = true → v.job? id = some j → tval m % 256 = 1 → j.st = .struck →
    completes (.preempt p m0) s (fun t => (∃ k, t.job? id = some k ∧ k.st = .setting ∧ k.gen = m.a2.toNat % 65536) ∧ t.sv.gen = m.a2.toNat % 65536)) ∧
  (∀ (s : State) (p : Nat) (m0 : Msg), let m := asTroupe m0 0x13; s.gets p m → (s.got p m).fromLead m = false →
    completes (.bias p m0) s (fun t => t = s.got p m))

/-- O48. The exchange sheet (R254 to R257): a PUT, GET or REDUCE entry of one message whose peer a route reaches issues it and has no byte
left to issue; one to a troupe position, started or not, issues the message of the bytes it has come to; a WAIT entry whose wait holds leaves
its queue and posts its counter. -/
def Obligations.ExchangeEntriesIssue : Prop :=
  (∀ (s : State) (c : Instr) (op xq peer k : Nat) (e : XEnt) (j : Job),
    (op = 1 ∧ c = .putEntry xq) ∨ (op = 2 ∧ c = .getEntry xq) ∨ (op = 3 ∧ c = .reduceEntry xq) →
    s.xhead xq = some e → e.op = op → s.xready e = true → s.trackers < 4096 → e.started = false → e.issued = 0 → 0 < e.len → e.len ≤ 65536 →
    (s.fab.queues.getD xq []).find? (fun x => x.n == e.n) = some e → s.job? e.job = some j → s.xpeer j e = some peer →
    s.dark (quadOf e.loc) = false → s.xfree e = true → (op = 2 → s.loanGone peer e = false) →
    s.routePort peer ((s.fab.nextOp + 1) % 2 ^ 32) = some k →
    completes c s (fun t => (∃ o ∈ t.fab.ops, o.id = s.fab.nextOp + 1 ∧ o.kind = op ∧ o.peer = peer ∧ o.job = j.id ∧ o.xq = some (xq, e.n) ∧ o.msg.type = op ∧
        (op = 2 → o.dst = e.loc ∧ o.msg.a3 = arg e.len) ∧
        (op ≠ 2 → let d := (s.readTier0 e.loc e.len).1
          o.msg.a0 = arg e.remote ∧ o.msg.payload = d.1 ∧ o.msg.poison = flitsBad d.1.length d.2)) ∧
      (∃ x ∈ t.fab.queues.getD xq [], x.n = e.n ∧ x.started = true ∧ x.issued = e.len) ∧ onlyParts [.quads, .fab, .ctr] s t)) ∧
  (∀ (s : State) (c : Instr) (op xq peer : Nat) (e : XEnt) (j : Job),
    (op = 1 ∧ c = .putEntry xq) ∨ (op = 2 ∧ c = .getEntry xq) ∨ (op = 3 ∧ c = .reduceEntry xq) →
    s.xhead xq = some e → e.op = op → s.xready e = true → s.trackers < 4096 → e.issued < e.len →
    (s.fab.queues.getD xq []).find? (fun x => x.n == e.n) = some e → s.job? e.job = some j → s.xpeer j e = some peer →
    s.dark (quadOf e.loc) = false → s.xfree e = true → (op = 2 → s.loanGone peer e = false) → isPos peer = true → s.portsTo (peer % 8) ≠ [] →
    completes c s (fun t => (∃ o ∈ t.fab.ops, o.off = e.issued ∧ o.kind = op ∧ o.peer = peer ∧ o.job = j.id ∧ o.xq = some (xq, e.n) ∧
        o.parent = (if e.started then e.parent else s.fab.nextOp) ∧ o.dst = e.loc + e.issued ∧ o.msg.type = op ∧
        (op = 2 → o.msg.a3 = arg (min 65536 (e.len - e.issued))) ∧
        (op ≠ 2 → o.msg.a0 = arg (e.remote + e.issued) ∧
          o.msg.payload = (s.readTier0 (e.loc + e.issued) (min 65536 (e.len - e.issued))).1.1)) ∧
      (∃ x ∈ t.fab.queues.getD xq [], x.n = e.n ∧ x.started = true ∧ e.issued < x.issued) ∧ onlyParts [.quads, .fab, .ctr] s t)) ∧
  (∀ (s : State) (xq : Nat) (e : XEnt), s.xhead xq = some e → e.op = 4 → s.xready e = true →
    e.field 0x03 1 < s.fab.ctrs.length → e.field 0x03 1 < 64 → s.fab.ctrs.getD (e.field 0x03 1) 0 < 0xFFFFFFFF →
    completes (.waitEntry xq) s (fun t =>
      let b : Fabric := { s.fab with queues := s.fab.queues.modify xq (fun k => k.filter (fun x => x.n != e.n)) }
      t.fab = { b.refillX with ctrs := s.fab.ctrs.set (e.field 0x03 1) (s.fab.ctrs.getD (e.field 0x03 1) 0 + 1) } ∧ onlyParts [.fab] s t))

/-! ### Management -/

/-- O49. The management endpoint (R404, R405, R419): it takes a dynamic address by ENTDAA or, at its static address, by SETDASA; it takes
its endpoint ID; PLDM base and monitoring answer, sensors with their readings; a forwarded event is sent again until three retries, and an
acknowledged one goes. The numbers of the DMTF standards in the answers are the model's (log 25). -/
def Obligations.ManagementEndpointAnswers : Prop :=
  (∀ (s : State) (addr : Nat), s.mgOn = true → s.mg.dyn = none →
    completes (.entdaa addr) s (fun t => t.mg = { s.mg with dyn := some addr } ∧ onlyParts [.mg] s t)) ∧
  (∀ (s : State) (addr : Nat), s.mgOn = true → s.mg.dyn = none →
    completes (.setdasa (0x48 + s.bt.strap) addr) s (fun t => t.mg = { s.mg with dyn := some addr } ∧ onlyParts [.mg] s t)) ∧
  (∀ (s : State) (body : List Byte), s.mgOn = true →
    completes (.mctpControl 1 body) s (fun t => t.mg.eid = (body.getD 1 0).toNat ∧ s.said t "SetEndpointID" 0 [body.getD 1 0] ∧ onlyParts [.mg] s t)) ∧
  (∀ s : State, s.mgOn = true → completes .getTid s (fun t => s.said t "GetTID" 0 (leBytes 1 s.mg.tid) ∧ t.mg.tid = s.mg.tid ∧ onlyParts [.mg] s t)) ∧
  (∀ (s : State) (tid : Nat), s.mgOn = true → 1 ≤ tid → tid ≤ 254 →
    completes (.setTid tid) s (fun t => t.mg.tid = tid ∧ s.said t "SetTID" 0 [] ∧ onlyParts [.mg] s t)) ∧
  (∀ (s : State) (ty : Nat), s.mgOn = true → ty = 0 ∨ ty = 2 ∨ ty = 5 →
    completes (.getPldmVersion ty) s (fun t => s.said t "GetPLDMVersion" 0 [0xF1, if ty = 2 then 0xF2 else 0xF1, 0xF0, 0x00] ∧ onlyParts [.mg] s t)) ∧
  (∀ s : State, s.mgOn = true →
    completes .getPldmTypes s (fun t => s.said t "GetPLDMTypes" 0 (leBytes 8 (2 ^ 0 + 2 ^ 2 + 2 ^ 5)) ∧ onlyParts [.mg] s t)) ∧
  (∀ (s : State) (ty : Nat), s.mgOn = true → ty = 0 ∨ ty = 2 ∨ ty = 5 →
    completes (.getPldmCommands ty) s (fun t => (∃ b, b.length = 32 ∧ s.said t "GetPLDMCommands" 0 b) ∧ onlyParts [.mg] s t)) ∧
  (∀ s : State, s.mgOn = true → completes .getPdrRepositoryInfo s (fun t => s.said t "GetPDRRepositoryInfo" 0 (leBytes 4 136) ∧ onlyParts [.mg] s t)) ∧
  (∀ (s : State) (k : Nat), s.mgOn = true → 1 ≤ k → k ≤ 136 →
    completes (.getPdr k) s (fun t => s.said t "GetPDR" 0 (leBytes 4 k ++ leBytes 2 (k - 1)) ∧ onlyParts [.mg] s t)) ∧
  (∀ (s : State) (k : Nat), s.isOn = true → k < 134 →
    completes (.getSensorReading k) s (fun t => s.said t "GetSensorReading" 0 (leBytes 2 (s.pw.sensors.getD k 0x8000#16).toNat) ∧ onlyParts [.mg] s t)) ∧
  (∀ (s : State) (k : Nat), s.pw.phase = .standby → k < 132 →
    completes (.getSensorReading k) s (fun t => s.said t "GetSensorReading" 0x80 [] ∧ onlyParts [.mg] s t)) ∧
  (∀ (s : State) (k : Nat), s.mgOn = true →
    completes (.getStateSensorReadings k) s (fun t => s.said t "GetStateSensorReadings" 0x80 (leBytes 2 k) ∧ onlyParts [.mg] s t)) ∧
  (∀ (s : State) (e a : Nat), s.mgOn = true →
    completes (.setEventReceiver e a) s (fun t => t.mg.rcvEnable = e ∧ t.mg.rcvAddr = a ∧ s.said t "SetEventReceiver" 0 [] ∧ onlyParts [.mg] s t)) ∧
  (∀ s : State, s.mgOn = true →
    completes .eventMessageSupported s (fun t => s.said t "EventMessageSupported" 0 [0x30, 0x31, 0x40, 0x20, 0x21] ∧ onlyParts [.mg] s t)) ∧
  (∀ (s : State) (n : Nat), s.mgOn = true →
    completes (.eventMessageBufferSize n) s (fun t => t.mg.bufSize = n ∧ s.said t "EventMessageBufferSize" 0 (leBytes 2 n) ∧ onlyParts [.mg] s t)) ∧
  (∀ (s : State) (n : Nat) (e : MgEv), s.mgOn = true → s.mg.evs.find? (·.n == n) = some e → e.lastUs + 100000 ≤ s.now →
    completes (.platformEventRetry n) s (fun t => onlyParts [.mg] s t ∧
      if e.tries < 3 then s.said t "PlatformEventMessage" 0 (leBytes 2 e.code ++ e.detail) ∧
        (∃ x ∈ t.mg.evs, x.n = n ∧ x.tries = e.tries + 1 ∧ x.lastUs = s.now)
      else ∀ x ∈ t.mg.evs, x.n ≠ n)) ∧
  (∀ (s : State) (n : Nat), s.vendorOn = true →
    completes (.eventAck n) s (fun t => (∀ x ∈ t.mg.evs, x.n ≠ n) ∧ s.said t "EVENT_ACK" 0 [] ∧ onlyParts [.mg] s t))

/-- O50. SPDM (R401, R403, R405): only version 1.3 is offered; algorithms are negotiated after the version, and certificates, challenges and
measurements after the algorithms; a signed answer comes at once or is deferred, and either way is signed by the identity key. The codes are
the model's (log 25). -/
def Obligations.SpdmAnswers : Prop :=
  (∀ s : State, s.spdmOn = true →
    completes .getVersion s (fun t => s.said t "VERSION" 0 [0x13] ∧ t.mg.versioned = true ∧ t.mg.negotiated = false ∧ onlyParts [.mg] s t)) ∧
  (∀ s : State, s.spdmOn = true → s.mg.versioned = true →
    completes .getCapabilities s (fun t => s.said t "CAPABILITIES" 0 (leBytes 4 0x20016) ∧ onlyParts [.mg] s t)) ∧
  (∀ (s : State) (a h : Bool), s.spdmOn = true → s.mg.versioned = true →
    completes (.negotiateAlgorithms a h) s (fun t => t.mg.negotiated = (a && h) ∧
      s.said t "ALGORITHMS" 0 [if a then 1 else 0, if h then 1 else 0] ∧ onlyParts [.mg] s t)) ∧
  (∀ s : State, s.spdmOn = true → s.mg.negotiated = true →
    completes .getDigests s (fun t => s.said t "DIGESTS" 0 (1 :: shake256 s.bt.chain 64) ∧ onlyParts [.mg] s t)) ∧
  (∀ (s : State) (off len : Nat), s.spdmOn = true → s.mg.negotiated = true → off ≤ s.bt.chain.length → s.bt.chain.length < 65536 →
    completes (.getCertificate 0 off len) s (fun t =>
      s.said t "CERTIFICATE" 0 (leBytes 2 ((s.bt.chain.drop off).take len).length ++
        leBytes 2 (s.bt.chain.length - off - ((s.bt.chain.drop off).take len).length) ++ (s.bt.chain.drop off).take len) ∧ onlyParts [.mg] s t)) ∧
  (∀ (s : State) (nonce : List Byte), let body := shake256 s.bt.chain 64 ++ nonce
    s.spdmOn = true → s.mg.negotiated = true →
    completes (.challenge 0 nonce) s (fun t => onlyParts [.mg, .free] s t ∧
      (s.said t "CHALLENGE_AUTH" 0 (body ++ signature body) ∨ t.mg.deferred = some (body ++ signature body)))) ∧
  (∀ (s : State) (i : Nat) (nonce : List Byte), let body := [1, BitVec.ofNat 8 i] ++ s.bt.measure i ++ nonce
    s.spdmOn = true → s.mg.negotiated = true → 1 ≤ i → i ≤ 7 →
    completes (.getMeasurements i nonce) s (fun t => onlyParts [.mg, .free] s t ∧
      (s.said t "MEASUREMENTS" 0 (body ++ signature body) ∨ t.mg.deferred = some (body ++ signature body)))) ∧
  (∀ (s : State) (h k : Nat), s.spdmOn = true → 1024 * k < s.mg.large.length →
    completes (.chunkGet h k) s (fun t =>
      s.said t "CHUNK_RESPONSE" 0 (leBytes 1 h ++ leBytes 2 k ++ (s.mg.large.drop (1024 * k)).take 1024) ∧ onlyParts [.mg] s t)) ∧
  (∀ (s : State) (tok : Nat) (bs : List Byte), s.spdmOn = true → s.mg.deferred = some bs →
    completes (.respondIfReady tok) s (fun t => s.said t "RESPOND_IF_READY" 0 (leBytes 1 tok ++ bs) ∧ t.mg.deferred = none ∧ onlyParts [.mg] s t))

/-- O51. A PLDM firmware update (R389, R392, R393, R405, R423): it is refused while a callboard staging exists; its states follow one
another; a component's header is checked as IMAGE_BEGIN checks it; a block pulled in order is taken; verification arms the image only when
its digest holds; an armed image's activation becomes pending. The completion codes are the model's (log 25). -/
def Obligations.PldmUpdateRuns : Prop :=
  (∀ s : State, s.fwOn = true → completes .queryDeviceIdentifiers s (fun t => (∃ b, s.said t "QueryDeviceIdentifiers" 0 b) ∧ onlyParts [.mg] s t)) ∧
  (∀ s : State, s.fwOn = true → completes .getFirmwareParameters s (fun t =>
    s.said t "GetFirmwareParameters" 0 (leBytes 4 (imgVersion s.bt.runHdr) ++ leBytes 4 s.bt.armedVersion) ∧ onlyParts [.mg] s t)) ∧
  (∀ (s : State) (n : Nat), s.fwOn = true → 4096 ≤ n →
    completes (.requestUpdate n) s (fun t => onlyParts [.mg] s t ∧
      if s.mg.pldm = .idle ∧ s.bt.staging = none then t.mg.pldm = .learn ∧ s.said t "RequestUpdate" 0 []
      else t.mg.pldm = s.mg.pldm ∧ s.said t "RequestUpdate" 0x81 [])) ∧
  (∀ (s : State) (n : Nat), s.fwOn = true → s.mg.pldm = .learn →
    completes (.passComponentTable n) s (fun t => t.mg.pldm = .ready ∧ s.said t "PassComponentTable" 0 (leBytes 2 n) ∧ onlyParts [.mg] s t)) ∧
  (∀ (s : State) (hdr : List Byte), let v := { s.dropStaging s.bt.staging with bt := { s.bt with staging := none } }.newOid 3
    s.fwOn = true → s.bt.boot = 2 → s.mg.pldm = .ready → s.rdy 25 = true →
    (v.2.reserve (newRec v.1 2 1 (imgLength hdr) 0 0 0) false).1.isSome = true →
    completes (.updateComponent hdr) s (fun t =>
      if s.bt.checkHeader hdr s.bt.svnMin = DONE then
        t.bt.staging = some { oid := v.1, hdr := hdr, len := imgLength hdr, pages := [], pldm := true } ∧ t.mg.pldm = .download ∧ t.mg.pldmOff = 0
      else t.bt = s.bt ∧ t.mg.pldm = .ready)) ∧
  (∀ (s : State) (off : Nat) (data : List Byte) (g : Staging) (r : Rec), s.fwOn = true → s.bt.boot = 2 → s.mg.pldm = .download → off = s.mg.pldmOff →
    data.length = 4096 → 8192 ≤ off → s.bt.staging = some g → s.stagingRec g = some r → off - 8192 + 4096 ≤ g.len → off % 4096 = 0 →
    completes (.requestFirmwareData off data) s (fun t => t.mg.pldmOff = off + 4096 ∧ (∃ g', t.bt.staging = some g' ∧ g'.oid = g.oid ∧
      (off - 8192) / 4096 ∈ g'.pages ∧ ∀ k ∈ g.pages, k ∈ g'.pages) ∧ onlyParts [.mem, .marks, .bt, .mg] s t)) ∧
  (∀ s : State, s.fwOn = true → s.mg.pldm = .download →
    completes (.transferComplete 0) s (fun t => t.mg.pldm = .verify ∧ s.said t "TransferComplete" 0 [] ∧ onlyParts [.mg] s t)) ∧
  (∀ (s : State) (failed : List Site) (g : Staging), let c := match s.stagingRec g with | some r => s.readCopy r 0 g.len | none => ([], true)
    s.fwOn = true → s.bt.boot = 2 → s.mg.pldm = .verify → s.bt.staging = some g → g.missing = none →
    completes (.verifyComplete failed) s (fun t => t.bt.staging = none ∧
      if c.2 = false ∧ shake256 c.1 64 = imgDigest g.hdr then t.bt.armed = some g ∧ t.mg.pldm = .apply
      else t.bt.armed = s.bt.armed ∧ t.pool.present 2 g.oid = false ∧ t.mg.pldm = .ready)) ∧
  (∀ s : State, s.fwOn = true → s.mg.pldm = .apply →
    completes .applyComplete s (fun t => t.mg.pldm = .ready ∧ s.said t "ApplyComplete" 0 [] ∧ onlyParts [.mg] s t)) ∧
  (∀ s : State, s.fwOn = true → s.bt.boot = 2 → s.bt.armed.isSome = true → s.mg.pldm = .idle ∨ s.mg.pldm = .ready → s.bt.act = .idle →
    completes (.activateFirmware true) s (fun t => t.bt = { s.bt with act := .waiting } ∧ t.mg.pldm = .idle ∧ onlyParts [.bt, .fns, .mg, .ctr] s t)) ∧
  (∀ s : State, s.fwOn = true → s.bt.act = .idle →
    completes .getStatus s (fun t => s.said t "GetStatus" 0 (leBytes 1 s.mg.pldm.code) ∧ onlyParts [.mg] s t)) ∧
  (∀ s : State, s.fwOn = true → s.mg.pldm = .download ∨ s.mg.pldm = .verify ∨ s.mg.pldm = .apply →
    completes .cancelUpdateComponent s (fun t => t.mg.pldm = .ready ∧ (∀ g, t.bt.staging = some g → g.pldm = false) ∧ t.bt.armed = s.bt.armed)) ∧
  (∀ s : State, s.fwOn = true → s.mg.pldm ≠ .idle →
    completes .cancelUpdate s (fun t => t.mg.pldm = .idle ∧ (∀ g, t.bt.staging = some g → g.pldm = false) ∧ t.bt.armed = s.bt.armed))

/-- O52. The vendor messages (R346, R352, R406): the settings page is read as stored, in standby too; a page is programmed only when it is
valid; the management cap is set; the parts of a calibration page gather until they are whole. -/
def Obligations.VendorMessagesAct : Prop :=
  (∀ s : State, s.vendorOn = true ∨ s.pw.phase = .standby →
    completes .settingsRead s (fun t => s.said t "SETTINGS_READ" 0 (flashBytes s.bt.setPage 4096) ∧ onlyParts [.mg] s t)) ∧
  (∀ (s : State) (page : List Byte), s.vendorOn = true →
    completes (.settingsWrite page) s (fun t => onlyParts [.bt, .mg] s t ∧
      if settingsOk page = true then s.said t "SETTINGS_WRITE" DONE [] ∧ t.bt.flashOps = s.bt.flashOps ++
          [{ calib := false, page := page, slot := none, began := !s.bt.programming, val := 0 }]
      else s.said t "SETTINGS_WRITE" BAD [] ∧ t.bt = s.bt)) ∧
  (∀ (s : State) (cap : Nat), s.vendorOn = true → cap = 0 ∨ (1000 ≤ cap ∧ cap ≤ 3600) →
    completes (.capSet cap false) s (fun t => t.pw = { s.pw with mgmtCap := cap } ∧ t.bt = s.bt ∧ onlyParts [.pw, .fns, .mg, .ctr] s t)) ∧
  (∀ (s : State) (cap : Nat) (persist : Bool), s.vendorOn = true → cap ≠ 0 → cap < 1000 ∨ 3600 < cap →
    completes (.capSet cap persist) s (fun t => s.said t "CAP_SET" BAD [] ∧ onlyParts [.mg] s t)) ∧
  (∀ (s : State) (part k : Nat) (data : List Byte), s.vendorOn = true → part ≤ 15 → data.length = 4096 → k ≤ 15 → k ≠ part → look s.mg.calParts k = none →
    completes (.calibrationTransfer part data) s (fun t => look t.mg.calParts part = some data ∧ s.said t "CALIBRATION_TRANSFER" DONE [] ∧
      onlyParts [.mg] s t))

/-! ### The array -/

/-- O53. LOAD to SITE_SWITCH and PATH_ENABLE (R17, R50, R58, R66, R68, R70 to R79): an entry written behind one that waits waits; a load
takes a slot that no change and no gateway has, waits for an earlier load of its slot, is refused with another length, and ends the job when
it names a slot in use; a good scene is written, rerouted where its paths touch a fenced site, and a bad one is not; a run of the current
slot starts every AG of its scene, a first run waits for its step, and a run may start behind the one a curtain change leaves; a run retires
when it has drained, and raises RETIRED; a change without a run, or past its curtain point, switches the gateway at once, one of the current
slot is done, and one that must wait waits; a cut is issued, and two cycles later its slot is current everywhere, and an operation it breaks
ends the job; a site switches with its queues kept; a path is enabled with 64 credits for each input queue. -/
def Obligations.ScenesLoadRunAndChange : Prop :=
  ((∀ (s : State) (q aq slot n a len a' len' : Nat) (f cut : Bool) (pre post : List AeEnt) (c : Instr) (op : AeOp), let x := s.quad q
      (c = .load q aq slot a len ∧ op = .load slot a len) ∨ (c = .run q aq slot f ∧ op = .run slot f) ∨
        (c = .change q aq slot cut ∧ op = .change slot cut) →
      s.quadRuns q = true → q < s.quads.length → aq < 4 → slot < 4 → aq < x.aeq.length →
      x.aeq.getD aq [] = pre ++ { op := .load n a' len', started := false } :: post → (∀ e ∈ pre, e.started = true) →
      (x.aeq.getD aq []).length < 64 → (∃ l ∈ x.loads, l.slot = n) →
      completes c s (fun t => t.quad q = { x with aeq := x.aeWith aq op false } ∧ onlyParts [.quads] s t)) ∧
    (∀ (s : State) (q aq slot addr len : Nat), let x := s.quad q
      s.quadRuns q = true → q < s.quads.length → x.aeNext aq → slot < 4 →
      ((∃ l ∈ x.loads, l.slot = slot) →
        completes (.load q aq slot addr len) s (fun t =>
          t.quad q = { x with aeq := x.aeWith aq (.load slot addr len) false } ∧ onlyParts [.quads] s t)) ∧
      ((∀ l ∈ x.loads, l.slot ≠ slot) → slot = x.gwSlot ∨ (∃ c, x.chg = some c ∧ (slot = c.target ∨ slot = c.old)) ∨
          (∃ c, x.cutFrom = some c ∧ slot = c.2) →
        ∀ j, s.jobAt q = some j → completes (.load q aq slot addr len) s (fun t => t.job? j.id = none)) ∧
      ((∀ l ∈ x.loads, l.slot ≠ slot) → slot ≠ x.gwSlot → (∀ c, x.chg = some c → slot ≠ c.target ∧ slot ≠ c.old) →
          (∀ c, x.cutFrom = some c → slot ≠ c.2) →
        (len = sceneBytes → completes (.load q aq slot addr len) s (fun t =>
          t.quad q = { x with aeq := x.aeWith aq (.load slot addr len) true
                              loads := x.loads ++ [{ slot := slot, scene := sceneOf (s.gather [.dev addr sceneBytes] 0).1 }] } ∧
          onlyParts [.quads] s t)) ∧
        (len ≠ sceneBytes → s.noStaging q → completes (.load q aq slot addr len) s (fun t =>
          (t.quad q).loads = x.loads ∧ (t.quad q).scenes = x.scenes ∧ onlyParts [.quads] s t)))) ∧
    (∀ (s : State) (q slot : Nat) (r : Option Tables) (l : LoadSt), let x := s.quad q; let v := x.view
      let placed := x.sites.filterMap (fun (e : SiteSt) => if e.st ≥ 3 then e.partner.map (fun p => ((e.row, e.col), p)) else none)
      let used := l.scene.sites.any (fun g => (x.site g.row g.col).isDead && !g.unitZero)
      let touches := (l.scene.groups q GridView.plain).any (fun g => g.touches v.shut)
      s.quadRuns q = true → q < s.quads.length → x.loads.find? (·.slot == slot) = some l → slot < x.scenes.length →
      (sceneOk q l.scene = true → used = false → touches = false →
        completes (.loadComplete q slot r) s (fun t => (t.quad q).scene slot = some { l.scene with placed := placed } ∧
          (∀ k, k ≠ slot → (t.quad q).scene k = x.scene k) ∧ (t.quad q).loads = x.loads.filter (fun e => e.slot != slot) ∧
          onlyParts [.quads, .ctr] s t)) ∧
      (∀ ts, sceneOk q l.scene = true → used = false → touches = true → r = some ts → l.scene.detourOk (l.scene.retable ts) q v = true →
        completes (.loadComplete q slot r) s (fun t => (t.quad q).scene slot = some { l.scene.retable ts with placed := placed } ∧
          (∀ k, k ≠ slot → (t.quad q).scene k = x.scene k) ∧ onlyParts [.quads, .ctr] s t)) ∧
      (sceneOk q l.scene = false ∨ used = true ∨ (touches = true ∧ r = none) → s.noStaging q →
        completes (.loadComplete q slot r) s (fun t => (t.quad q).scenes = x.scenes ∧
          (t.quad q).loads = x.loads.filter (fun e => e.slot != slot) ∧ onlyParts [.quads] s t)))) ∧
  ((∀ (s : State) (q aq slot : Nat) (first : Bool) (sc : Scene), let x := s.quad q
      let ready := first = true → ∃ j, s.jobAt q = some j ∧ j.inStep = true ∧ ((s.prod? j.prod).map (·.resLoad)).getD false = false
      let ags (t : State) : Prop := ∀ g ∈ sc.sites, isCu g.row g.col = false → x.slotAt g.row g.col = slot →
        ((t.quad q).mu g.row g.col).ags = List.replicate 4 { AgSt.idle with running := true }
      s.quadRuns q = true → q < s.quads.length → x.aeNext aq → slot < 4 → x.scene slot = some sc → slot = x.gwSlot → x.cutFrom = none →
      s.claimsOwed q (fun d => !d.static && d.scene == sc.id) = false →
      (x.run = none → x.retiredAt ≠ some s.pw.cycle → ready → completes (.run q aq slot first) s (fun t =>
        (t.quad q).run = some { slot := slot, began := s.pw.cycle, curtain := none, rstart := x.cues.map (·.retired), met := [] } ∧
        (t.quad q).aeq = x.aeWith aq (.run slot first) true ∧ (t.quad q).ran = (x.ran || first) ∧ ags t ∧ onlyParts [.quads, .ctr] s t)) ∧
      (∀ c r, x.chg = some c → c.gw = true → c.cut = false → c.target = slot → x.run = some r → r.slot = c.old → x.leaving = none → ready →
        completes (.run q aq slot first) s (fun t =>
          (t.quad q).run = some { slot := slot, began := s.pw.cycle, curtain := none, rstart := [], met := [] } ∧
          (t.quad q).leaving = some r ∧ ags t ∧ onlyParts [.quads, .ctr] s t)) ∧
      ((first = true ∧ ∀ j, s.jobAt q = some j → j.inStep = false) → completes (.run q aq slot first) s (fun t =>
        t.quad q = { x with aeq := x.aeWith aq (.run slot first) false } ∧ onlyParts [.quads] s t))) ∧
    (∀ (s : State) (q c : Nat) (r : RunSt), let x := s.quad q
      s.quadRuns q = true → q < s.quads.length → x.leaving = some r ∨ (x.leaving = none ∧ x.run = some r) → r.curtain = some c →
      c < s.pw.cycle → x.retireSetDone r = true → x.clearOf r.slot = true →
      completes (.runRetire q) s (fun t => (t.quad q).leaving = none ∧ (t.quad q).retiredAt = some s.pw.cycle ∧
        (x.leaving = none → (t.quad q).run = none) ∧ (x.leaving ≠ none → (t.quad q).run.map (·.slot) = x.run.map (·.slot)) ∧
        (∀ r', x.noteMet.leaving = some r' ∨ (x.noteMet.leaving = none ∧ x.noteMet.run = some r') →
          (t.quad q).cues = (List.zipIdx x.cues).map (fun (u, i) => { u with retired := max u.retired ((look r'.met i).getD 0) })) ∧
        ((∀ k ∈ s.sv.reqs, k.rows = 0) → onlyParts [.quads, .ctr] s t)))) ∧
  ((∀ (s : State) (q aq slot : Nat) (cut : Bool), let x := s.quad q
      s.quadRuns q = true → q < s.quads.length → x.aeNext aq → slot < 4 →
      (x.chg ≠ none ∨ x.cutFrom ≠ none ∨ (slot ≠ x.gwSlot ∧ ((∃ l ∈ x.loads, l.slot = slot) ∨ x.scene slot = none)) →
        completes (.change q aq slot cut) s (fun t =>
          t.quad q = { x with aeq := x.aeWith aq (.change slot cut) false } ∧ onlyParts [.quads] s t)) ∧
      (x.chg = none → x.cutFrom = none →
        (slot = x.gwSlot → completes (.change q aq slot cut) s (fun t =>
          t.quad q = { x with aeq := aeDrop AeOp.isChange (x.aeWith aq (.change slot cut) true) } ∧ onlyParts [.quads] s t)) ∧
        (slot ≠ x.gwSlot → (∀ l ∈ x.loads, l.slot ≠ slot) → (x.scene slot).isSome = true →
          (cut = false → (∀ r, x.run = some r → r.curtain.isSome = true) → completes (.change q aq slot cut) s (fun t =>
            (t.quad q).gwSlot = slot ∧ (t.quad q).aeq = x.aeWith aq (.change slot cut) true ∧
            (t.quad q).chg = some { target := slot, old := x.gwSlot, cut := false, began := s.pw.cycle, gw := true, done := [] } ∧
            onlyParts [.quads] s t)) ∧
          (cut = false → (∃ r, x.run = some r ∧ r.curtain = none) → completes (.change q aq slot cut) s (fun t =>
            t.quad q = { x with aeq := x.aeWith aq (.change slot cut) true, progress := s.now
                                chg := some { target := slot, old := x.gwSlot, cut := false, began := s.pw.cycle, gw := false, done := [] } } ∧
            onlyParts [.quads] s t)) ∧
          (cut = true → completes (.change q aq slot cut) s (fun t =>
            t.quad q = { x with aeq := x.aeWith aq (.change slot cut) true, cutFrom := some (s.pw.cycle, slot), progress := s.now } ∧
            onlyParts [.quads] s t))))) ∧
    (∀ (s : State) (q c slot : Nat), let x := s.quad q
      s.quadRuns q = true → q < s.quads.length → x.cutFrom = some (c, slot) → c + 2 ≤ s.pw.cycle →
      ((∀ k ∈ x.queues, ∀ e ∈ k.ents, e.broken = false) →
        completes (.cut q) s (fun t => (t.quad q).gwSlot = slot ∧ (t.quad q).run = none ∧ (t.quad q).leaving = none ∧ (t.quad q).chg = none ∧
          (t.quad q).cutFrom = none ∧ (∀ f ∈ (t.quad q).flights, f.tok.tag = slot))) ∧
      (∀ j, (∃ k ∈ x.queues, ∃ e ∈ k.ents, e.broken = true) → s.jobAt q = some j → completes (.cut q) s (fun t => t.job? j.id = none))) ∧
    (∀ (s : State) (k : Site) (c : ChangeSt), let x := s.quad k.q; let u := x.logic k.row k.col
      s.quadRuns k.q = true → k.q < s.quads.length → x.chg = some c → c.gw = true → x.changeSites.contains (k.row, k.col) = true →
      x.switched k.row k.col = false → s.upstreamDone k.q c k.row k.col = true → x.siteDrained k.q c k.row k.col s.pw.cycle = true →
      c.done.length + 1 < x.changeSites.length →
      completes (.siteSwitch k) s (fun t =>
        (∀ r l, x.phys r l = (k.row, k.col) → (t.quad k.q).slotAt r l = c.target) ∧
        (t.quad k.q).chg = some { c with done := c.done ++ [((k.row, k.col), s.pw.cycle)] } ∧
        (isCu u.1 u.2 = true → (t.quad k.q).cu u.1 u.2 =
          { Cu.fresh with inq := (x.cu u.1 u.2).inq, outq := (x.cu u.1 u.2).outq }) ∧
        (isCu u.1 u.2 = false → ((t.quad k.q).mu u.1 u.2).inq = (x.mu u.1 u.2).inq ∧
          ((t.quad k.q).mu u.1 u.2).outq = (x.mu u.1 u.2).outq) ∧
        (∀ n, Src.out { q := k.q, row := u.1, col := u.2 } n ∉ (t.quad k.q).paths) ∧ onlyParts [.quads] s t)) ∧
    (∀ (s : State) (src : Src), let slot := s.srcSlot src; let x := s.quad (srcQuad src); let own := s.ownSlots slot src
      let on (cs : List Nat) (t : State) : Prop := src ∈ (t.quad (srcQuad src)).paths ∧
        ((∀ k n, src ≠ .trap k n) → ∀ c ∈ cs, ∀ d ∈ s.dests slot src c, d.dq < 6 → t.credit src d = 64) ∧ onlyParts [.quads] s t
      s.quadRuns (srcQuad src) = true → srcQuad src < s.quads.length → own ≠ [] →
      ((∀ q l, src ≠ .gw q l) → src ∉ x.paths → s.pathClear slot src own = true → completes (.pathEnable src) s (on own)) ∧
      (∀ q l p, let cs := s.pathSlots slot src p
        src = .gw q l → (own.map (s.pathName slot src)).eraseDups = [p] → (l, p) ∉ x.gwSlots → s.pathClear slot src cs = true →
        completes (.pathEnable src) s (fun t => on cs t ∧ (t.quad q).gwSlots = x.gwSlots ++ [(l, cs.headD 0)]))))

/-- O54. VECTOR_FIRING, OPERAND_FILL, SIDE_TOKEN, MATRIX_STEP and TILE_DRAIN (R34 to R37, R40, R43, R45, R95, R98): a firing takes its
tokens, of one input, two inputs, one input twice or a drained row, and gives its result 28 cycles later; the feed gives one token to each
side, or one or two to the side that can take them; the side path takes one token; a step that ends a group enters the group's sum into every
cell, and one that ends a chunk ends the tile with its last chunk; a chunk whose rest is empty blocks ends when its operands are in; a
drained row is the bank's, to each queue of OUTMASK or to the pipeline. -/
def Obligations.UnitsCompute : Prop :=
  (∀ (s : State) (k : Site) (g : SiteCfg) (t0 : Tok), let x := s.quad k.q; let c := x.cu k.row k.col
    let need := if c.rowWaits g s.pw.cycle (x.did k.row k.col 25) then 2 else 1
    let fired (t1 : Option Tok) (t : State) : Prop :=
      let r := fire g c.vregs t0 t1 (x.slotAt k.row k.col); let d := (t.quad k.q).cu k.row k.col
      d.vf = c.vf ++ [{ due := s.pw.cycle + 28, mask := g.outmask, tok := r.2 }] ∧ d.vregs = r.1 ∧
      (∀ o, o < 4 → d.resv.getD o 0 = c.resv.getD o 0 + if g.outmask.testBit o then 1 else 0) ∧ onlyParts [.quads, .ctr] s t
    let popped (t : State) (dq n : Nat) : Prop := (t.quad k.q).inq k.row k.col dq = (x.inq k.row k.col dq).drop n
    s.siteRuns k.q k.row k.col = true → k.q < s.quads.length → isCu k.row k.col = true → x.cfg k.row k.col = some g → g.unused = false →
    (∀ o, o < 4 → g.outmask.testBit o = true → (c.outq.getD o []).length + c.resv.getD o 0 + need ≤ 64) →
    (∀ v ∈ c.vf, v.due ≠ s.pw.cycle + 28) →
    (g.in0 ≤ 5 → s.headIn k.q k.row k.col g.in0 = some t0 →
      (g.in1 = 7 → completes (.vectorFiring k) s (fun t => fired none t ∧ popped t g.in0 1)) ∧
      (∀ t1, g.in1 ≤ 5 → g.in1 ≠ g.in0 → s.headIn k.q k.row k.col g.in1 = some t1 →
        completes (.vectorFiring k) s (fun t => fired (some t1) t ∧ popped t g.in0 1 ∧ popped t g.in1 1)) ∧
      (∀ t1, g.in1 = g.in0 → s.tokIn k.q k.row k.col g.in0 1 = some t1 →
        completes (.vectorFiring k) s (fun t => fired (some t1) t ∧ popped t g.in0 2))) ∧
    (g.in0 = 6 → c.drainq.head? = some t0 → ∀ t1 : Option Tok,
      (g.in1 = 7 ∧ t1 = none) ∨ (g.in1 ≤ 5 ∧ t1.isSome = true ∧ s.headIn k.q k.row k.col g.in1 = t1) →
      completes (.vectorFiring k) s (fun t => let d := (t.quad k.q).cu k.row k.col
        fired t1 t ∧ d.drainq = c.drainq.drop 1 ∧ (g.in1 ≤ 5 → popped t g.in1 1) ∧
        d.full = (if t0.last then c.full.drop 1 else c.full) ∧ d.drainRow = (if t0.last then 0 else c.drainRow)))) ∧
  (∀ (s : State) (k : Site) (g : SiteCfg) (m : MWord), let x := s.quad k.q
    let popped (t : State) (dq n : Nat) : Prop := (t.quad k.q).inq k.row k.col dq = (x.inq k.row k.col dq).drop n
    s.matrixAt k = some (g, m) → k.q < s.quads.length → x.did k.row k.col 22 = false → g.aq ≠ g.bq →
    (s.sideReady k g m false = true → s.sideReady k g m true = true →
      completes (.operandFill k) s (fun t => popped t g.aq 1 ∧ popped t g.bq 1 ∧ onlyParts [.quads] s t)) ∧
    (s.sideReady k g m false = true → s.sideReady k g m true = false →
      completes (.operandFill k) s (fun t => (popped t g.aq 1 ∨ popped t g.aq 2) ∧ popped t g.bq 0 ∧ onlyParts [.quads] s t)) ∧
    (s.sideReady k g m false = false → s.sideReady k g m true = true →
      completes (.operandFill k) s (fun t => (popped t g.bq 1 ∨ popped t g.bq 2) ∧ popped t g.aq 0 ∧ onlyParts [.quads] s t))) ∧
  (∀ (s : State) (k : Site) (g : SiteCfg) (m : MWord) (sideB : Bool) (kind : StrKind), let x := s.quad k.q; let dq := if sideB then g.bq else g.aq
    s.matrixAt k = some (g, m) → k.q < s.quads.length → (x.cu k.row k.col).sideNext m sideB = some kind → kind ≠ .elem →
    x.did k.row k.col (if sideB then 24 else 23) = false → (s.headIn k.q k.row k.col dq).isSome = true →
    completes (.sideToken k sideB) s (fun t => (t.quad k.q).inq k.row k.col dq = (x.inq k.row k.col dq).drop 1 ∧
      (t.quad k.q).did k.row k.col (if sideB then 24 else 23) = true ∧ onlyParts [.quads] s t)) ∧
  (∀ (s : State) (k : Site) (g : SiteCfg) (m : MWord), let x := s.quad k.q; let c := x.cu k.row k.col
    let n := (m.skipTo c.bCur.occ 129 c.stepIx 0).1; let k1 := (n + 1) * m.kA
    let after := (m.skipTo c.bCur.occ 129 (n + 1) 0).1
    let sum (b : Bank) : Prop := (k1 % m.groupLen ≠ 0 → b.cells = c.bank.cells) ∧
      (k1 % m.groupLen = 0 → ∀ i j, i < 32 → j < 32 → b.cells.getD (32 * i + j) 0 =
        (m.cell c.aCur c.bCur i j (k1 - m.groupLen) m.groupLen (c.bank.cells.getD (32 * i + j) 0)).1)
    let ended (d : Cu) (at_ : Nat) (p : Bank → Prop) : Prop := d.stepIx = 0 ∧
      (c.chunkIx + 1 < m.kchunks → d.chunkIx = c.chunkIx + 1 ∧ p d.bank ∧ d.full = c.full) ∧
      (m.kchunks ≤ c.chunkIx + 1 → d.chunkIx = 0 ∧ d.fullAt = c.fullAt ++ [at_] ∧ ∃ b, p b ∧ d.full = c.full ++ [b])
    s.matrixAt k = some (g, m) → k.q < s.quads.length → ¬ (c.stepIx = 0 ∧ c.chunkIx = 0 ∧ 2 ≤ c.full.length) →
    (m.zskip = true → c.bCur.occ.isSome = true) →
    (x.did k.row k.col 21 = false → n < m.ksteps → m.aHas c.aCur n = true → m.bHas c.bCur n = true → c.scalesAt m n s.pw.cycle = true →
      c.bank.cells = [] ∨ c.bank.cells.length = 1024 →
      (after < m.ksteps ∨ m.allIn c = false → completes (.matrixStep k) s (fun t => let d := (t.quad k.q).cu k.row k.col
        d.stepIx = n + 1 ∧ d.stepAt = some s.pw.cycle ∧ d.aCur = c.aCur ∧ d.bCur = c.bCur ∧ d.full = c.full ∧ sum d.bank ∧
        onlyParts [.quads, .ctr] s t)) ∧
      (m.ksteps ≤ after → m.allIn c = true → completes (.matrixStep k) s (fun t =>
        ended ((t.quad k.q).cu k.row k.col) s.pw.cycle sum ∧ onlyParts [.quads, .ctr] s t))) ∧
    (m.ksteps ≤ n → m.allIn c = true → completes (.matrixStep k) s (fun t =>
      ended ((t.quad k.q).cu k.row k.col) (c.lastStep s.pw.cycle) (fun b => b.cells = c.bank.cells) ∧ onlyParts [.quads, .ctr] s t))) ∧
  (∀ (s : State) (k : Site) (g : SiteCfg) (m : MWord) (b : Bank) (bs : List Bank) (t0 : Nat) (ts : List Nat)
    , let x := s.quad k.q; let c := x.cu k.row k.col; let tok := b.row c.drainRow (x.slotAt k.row k.col)
    s.matrixAt k = some (g, m) → k.q < s.quads.length → c.full = b :: bs → c.fullAt = t0 :: ts → t0 + 40 + c.drainRow ≤ s.pw.cycle →
    c.drainRow < 32 → x.did k.row k.col 25 = false →
    (g.drain = true →
      (∀ o, o < 4 → g.outmask.testBit o = true → o < c.outq.length ∧ (c.outq.getD o []).length + c.resv.getD o 0 < 64) →
      completes (.tileDrain k) s (fun t => let d := (t.quad k.q).cu k.row k.col
        (∀ o, o < 4 → g.outmask.testBit o = true → d.outq.getD o [] = c.outq.getD o [] ++ [tok]) ∧
        d.full = (if c.drainRow = 31 then bs else c.full) ∧ d.drainRow = (if c.drainRow = 31 then 0 else c.drainRow + 1) ∧
        onlyParts [.quads, .ctr] s t)) ∧
    (g.drain = false → c.drainq = [] →
      completes (.tileDrain k) s (fun t => let d := (t.quad k.q).cu k.row k.col
        d.drainq = [tok] ∧ d.drainRow = c.drainRow + 1 ∧ d.full = c.full ∧ onlyParts [.quads] s t)))

/-- O55. AG_ISSUE, GATHER_INDEX, SET_DOWN, PICK_UP, BANK_ACCESS and ENGINE_MU_ACCESS (R46 to R48, R51 to R53, R80, R424): the AG that its port
grants puts its line there; a line outside the MU is a range fault, a read of one gives poison four cycles later and a write of one is
dropped; a write AG takes its data token; an index token gives a nest for each live lane; a header gives its first line and count, and a
count out of range is discarded; a served read gives the line four cycles later with the poison of an uncorrectable error, and a served
write changes the line's live lanes; a trap's accesses write a spilled token and read the oldest; a busy bank holds an access back. -/
def Obligations.ArrayMemory : Prop :=
  (∀ (s : State) (k : Site) (ag : Nat) (d : AgDesc) (nx : AgNext), let x := s.quad k.q; let m := x.mu k.row k.col
    let a := m.ags.getD ag AgSt.idle; let fault := 5 * unitOrd k.row k.col + 4
    let out (l : Int) : Prop := l < 0 ∨ 98303 < l
    s.muRuns k = true → k.q < s.quads.length → s.agReady k ag = some (d, nx) → s.agWinner k d.port = some ag → d.port < m.ports.length →
    (∀ l, d.isRead = true → a.hold = none → nx.line = some l → 0 ≤ l → l ≤ 98303 →
      completes (.agIssue k ag) s (fun t => ((t.quad k.q).mu k.row k.col).ports = m.ports.modify d.port
          (· ++ [{ line := l.toNat, write := false, tok := mkTok 0 (x.slotAt k.row k.col) nx.poison nx.last, dq := d.dq, trap := none
                   ag := ag }]) ∧ onlyParts [.quads] s t)) ∧
    (d.isRead = true → a.hold = none → (∀ l, nx.line = some l → out l) →
      completes (.agIssue k ag) s (fun t => ((t.quad k.q).mu k.row k.col).ports = m.ports ∧ ((t.quad k.q).mu k.row k.col).rets = m.rets ++
          [{ due := s.pw.cycle + 4, dq := d.dq, tok := mkTok 0 (x.slotAt k.row k.col) true nx.last }] ∧
        t.counter 0x12 k.q fault = min ctrMax (s.counter 0x12 k.q fault + 1) ∧ onlyParts [.quads, .fns, .mg, .ctr] s t)) ∧
    (∀ tk l, d.isRead = false → a.hold = some (tk, l) →
      (0 ≤ l → l ≤ 98303 → completes (.agIssue k ag) s (fun t => ((t.quad k.q).mu k.row k.col).ports = m.ports.modify d.port
          (· ++ [{ line := l.toNat, write := true, tok := tk, dq := d.dq, trap := none, ag := ag }]) ∧ onlyParts [.quads] s t)) ∧
      (out l → completes (.agIssue k ag) s (fun t => ((t.quad k.q).mu k.row k.col).ports = m.ports ∧
          t.counter 0x12 k.q fault = min ctrMax (s.counter 0x12 k.q fault + 1) ∧ onlyParts [.quads, .fns, .mg, .ctr] s t)))) ∧
  (∀ (s : State) (k : Site) (ag : Nat) (g : SiteCfg) (nx : AgNext) (tk : Tok), let x := s.quad k.q; let m := x.mu k.row k.col
    let d := agDescOf (g.ags.getD ag 0); let a := m.ags.getD ag AgSt.idle
    s.muRuns k = true → k.q < s.quads.length → ag < m.ags.length → x.cfg k.row k.col = some g → d.isRead = false → a.hold = none →
    x.did k.row k.col (100 + ag) = false → a.next d (x.rstartAt k.row k.col) = some nx → x.cueMet nx.wait = true →
    s.headIn k.q k.row k.col d.dq = some tk →
    completes (.agIssue k ag) s (fun t => (((t.quad k.q).mu k.row k.col).ags.getD ag AgSt.idle).hold = some (tk, nx.line.getD (-1)) ∧
      (t.quad k.q).inq k.row k.col d.dq = (x.inq k.row k.col d.dq).drop 1 ∧ onlyParts [.quads] s t)) ∧
  (∀ (s : State) (k : Site) (ag : Nat) (g : SiteCfg) (tk : Tok), let x := s.quad k.q; let m := x.mu k.row k.col
    let d := agDescOf (g.ags.getD ag 0)
    s.muRuns k = true → k.q < s.quads.length → ag < 4 → ag < m.ags.length → x.cfg k.row k.col = some g → d.mode = 3 ∨ d.mode = 4 →
    (m.ags.getD ag AgSt.idle).idx = [] → s.headIn k.q k.row k.col d.iq = some tk →
    completes (.gatherIndex k ag) s (fun t => (((t.quad k.q).mu k.row k.col).ags.getD ag AgSt.idle).idx =
        ((List.range 32).filter (fun l => tk.pred.getLsbD l)).map (fun l => (l, (laneOf tk.data l).toNat, tk.poison)) ∧
      (t.quad k.q).inq k.row k.col d.iq = (x.inq k.row k.col d.iq).drop 1 ∧ onlyParts [.quads] s t)) ∧
  (∀ (s : State) (k : Site) (ag mode : Nat) (c : Instr) (g : SiteCfg), let x := s.quad k.q; let m := x.mu k.row k.col
    let d := agDescOf (g.ags.getD ag 0); let a := m.ags.getD ag AgSt.idle
    (mode = 5 ∧ c = .setDown k ag) ∨ (mode = 6 ∧ c = .pickUp k ag) →
    s.muRuns k = true → k.q < s.quads.length → ag < m.ags.length → x.cfg k.row k.col = some g → d.mode = mode →
    (0 < a.left → exec c s = exec (.agIssue k ag) s) ∧
    (∀ tk, a.left = 0 → s.headIn k.q k.row k.col d.iq = some tk → let n := (laneOf tk.data 1).toNat
      (1 ≤ n ∧ n ≤ 98304 → completes c s (fun t => let b := ((t.quad k.q).mu k.row k.col).ags.getD ag AgSt.idle
        b.line = bits (laneOf tk.data 0).toNat 0 17 ∧ b.left = n ∧
        (t.quad k.q).inq k.row k.col d.iq = (x.inq k.row k.col d.iq).drop 1 ∧ onlyParts [.quads] s t)) ∧
      (n = 0 ∨ 98304 < n → completes c s (fun t => (((t.quad k.q).mu k.row k.col).ags.getD ag AgSt.idle).left = 0 ∧
        (t.quad k.q).inq k.row k.col d.iq = (x.inq k.row k.col d.iq).drop 1 ∧ onlyParts [.quads, .fns, .mg, .ctr] s t)))) ∧
  (∀ (s : State) (k : Site) (port i : Nat) (a : Access) (rest : List Access), let x := s.quad k.q; let m := x.mu k.row k.col
    let at_ := lineAddr k.q i a.line; let place := 5 * unitOrd k.row k.col
    let counted (t : State) : Prop := (look s.flaws at_ = some false → t.counter 0x12 k.q place = min ctrMax (s.counter 0x12 k.q place + 1)) ∧
      (look s.flaws at_ = some true → t.counter 0x12 k.q (place + 1) = min ctrMax (s.counter 0x12 k.q (place + 1) + 1))
    s.memOk → s.muRuns k = true → k.q < s.quads.length → m.ports.getD port [] = a :: rest → muIndex k.row k.col = some i → x.errs = [] →
    (m.bankBusy a.line s.pw.cycle = true ∨ m.bankLower port a.line = true →
      completes (.bankAccess k port) s (fun t => (t.quad k.q).mu k.row k.col = m ∧ onlyParts [.quads, .ctr] s t)) ∧
    (m.bankBusy a.line s.pw.cycle = false → m.bankLower port a.line = false →
      (a.trap = none → a.write = false →
        completes (.bankAccess k port) s (fun t => ((t.quad k.q).mu k.row k.col).ports = m.ports.set port rest ∧
          ((t.quad k.q).mu k.row k.col).rets = m.rets ++ [{ due := s.pw.cycle + 4, dq := a.dq, tok :=
            { a.tok with data := BitVec.ofNat 1024 (ofLe (memRead s.mem at_ 128)), poison := a.tok.poison || s.marked at_ 128 } }] ∧
          counted t ∧ onlyParts [.quads, .ctr] s t)) ∧
      (a.trap = none → a.write = true → s.inDevice at_ 128 = true →
        completes (.bankAccess k port) s (fun t => ((t.quad k.q).mu k.row k.col).ports = m.ports.set port rest ∧
          memRead t.mem at_ 128 = mergeLanes (memRead s.mem at_ 128) a.tok ∧
          (∀ b, b < at_ ∨ at_ + 128 ≤ b → memGet t.mem b = memGet s.mem b) ∧ onlyParts [.quads, .mem, .marks, .flaws] s t)) ∧
      (∀ r c n p, a.trap = some (r, c, n, p) → let e := x.trap r c n
        let desc := s.trapDesc (x.slotAt k.row k.col) k.q r c n; let ctl := lineAddr k.q i 0 + (trapLine desc p).2
        (∀ tk more, a.write = true → e.landing = tk :: more → a.line = (trapLine desc p).1 → s.inDevice at_ 128 = true →
          s.inDevice ctl 8 = true →
          completes (.bankAccess k port) s (fun t => ((t.quad k.q).trap r c n).toks = e.toks ++ [tk] ∧
            ((t.quad k.q).trap r c n).landing = more ∧ memRead t.mem at_ 128 = leBytes 128 tk.data.toNat ∧
            memRead t.mem ctl 8 = leBytes 8 (ctlWord tk) ∧ onlyParts [.quads, .mem, .marks, .flaws, .ctr] s t)) ∧
        (a.write = false →
          completes (.bankAccess k port) s (fun t => ((t.quad k.q).trap r c n).toks = e.toks.drop 1 ∧
            ((t.quad k.q).trap r c n).out = e.out ++ [(s.pw.cycle + 4,
              tokOfWord (memRead s.mem at_ 128) (ofLe (memRead s.mem ctl 8)) (s.marked at_ 128))] ∧
            counted t ∧ onlyParts [.quads, .ctr] s t))))) ∧
  (∀ (s : State) (k : Site) (line i : Nat) (acc : LineAccess), let m := (s.quad k.q).mu k.row k.col
    let at_ := lineAddr k.q i line; let port := if acc.isSome then 2 else 1
    s.memOk → muIndex k.row k.col = some i → s.quadRuns k.q = true → k.q < s.quads.length → k.row < 16 → k.col < 22 →
    ((s.quad k.q).site k.row k.col).isDead = false → line < 98304 → m.portFree port s.pw.cycle = true →
    (m.bankBusy line s.pw.cycle = true ∨ m.bankLower port line = true →
      completes (.engineMuAccess k line acc) s (fun t => (t.quad k.q).mu k.row k.col = m ∧ onlyParts [.quads, .ctr] s t)) ∧
    (m.bankBusy line s.pw.cycle = false → m.bankLower port line = false →
      (∀ d p, acc = some (d, p) → s.inDevice at_ 128 = true →
        completes (.engineMuAccess k line acc) s (fun t => memRead t.mem at_ 128 = leBytes 128 d.toNat ∧
          (∀ b, b < at_ ∨ at_ + 128 ≤ b → memGet t.mem b = memGet s.mem b) ∧ onlyParts [.quads, .mem, .marks, .flaws] s t)) ∧
      (acc = none →
        completes (.engineMuAccess k line acc) s (fun t => t.readData = s.devRead at_ 128 ∧
          ((t.quad k.q).mu k.row k.col).bankBusy line s.pw.cycle = true ∧ onlyParts [.quads, .readData] s t))))

/-- O56. TOKEN_INJECT, TOKEN_HOP and CREDIT_RETURN (R55, R65 to R67, R75, R78, R80, R81, R167, R168, R175): an injection takes the head of
the queue and one credit for each destination; to a protected queue it goes direct while the trap is empty, and otherwise is spilled; a trap
sends its oldest token; the gateway puts a reply in its claim's slot, and another token when no reply may go, on the link with its current
slot's tag; a token of a fenced site or of another slot is dropped and counted; one passes on along its route, and at its end enters the
input queue or the gateway's inbound side of a claimed link, an orphan being counted; a returned credit is the source's again, never above
64, if its slot is current there, and the credit of its last token completes a STREAM. -/
def Obligations.GridMovesTokens : Prop :=
  (∀ (s : State) (k : Site) (n : Nat) (tk : Tok) (rest : List Tok), let src := Src.out k n; let x := s.quad k.q
    let slot := x.slotAt k.row k.col; let ds := s.dests slot src x.slotCtr
    s.siteRuns k.q k.row k.col = true → k.q < s.quads.length → x.outq k.row k.col n = tk :: rest → tk.tag = slot → src ∈ x.paths →
    x.did k.row k.col (30 + n) = false → x.fresh k.row k.col (10 + n) ≤ rest.length →
    (s.trapOf slot src = none → ds ≠ [] → (ds.map destKey).Nodup → (∀ d ∈ ds, d.dq < 6 ∧ 0 < s.credit src d) →
      completes (.tokenInject src) s (fun t => (t.quad k.q).outq k.row k.col n = rest ∧ (∀ d ∈ ds, t.credit src d = s.credit src d - 1) ∧
        onlyParts [.quads, .ctr] s t)) ∧
    (∀ d tn a, s.trapOf slot src = some (d, tn) → ds = [a] → d.q < s.quads.length →
      let e := (s.quad d.q).trap d.row d.col tn; let spilled := 6 * siteOrd d.row d.col + 3 * tn
      (a.dq < 6 → e.load = 0 → 0 < s.credit src d → e.lastDue < s.arrival a →
        completes (.tokenInject src) s (fun t => (t.quad k.q).outq k.row k.col n = rest ∧ t.credit src a = s.credit src a - 1 ∧
          ((t.quad d.q).trap d.row d.col tn).lastDue = s.arrival a ∧ onlyParts [.quads, .ctr] s t)) ∧
      (a.dq = 6 → 0 < e.load ∨ s.credit src d = 0 → e.load < trapCap (s.trapDesc slot d.q d.row d.col tn) →
        completes (.tokenInject src) s (fun t => (t.quad k.q).outq k.row k.col n = rest ∧
          t.counter 0x22 d.q spilled = min ctrMax (s.counter 0x22 d.q spilled + 1) ∧ onlyParts [.quads, .ctr] s t)))) ∧
  (∀ (s : State) (k : Site) (i due : Nat) (d : Dest) (ds : List Dest) (tk : Tok) (rest : List (Nat × Tok)), let src := Src.trap k i
    let x := s.quad k.q; let e := x.trap k.row k.col i
    s.siteRuns k.q k.row k.col = true → k.q < s.quads.length → e.out = (due, tk) :: rest → s.dests (s.srcSlot src) src x.slotCtr = d :: ds →
    src ∈ x.paths → tk.tag = s.srcSlot src → due < s.pw.cycle → e.lastDue < s.arrival d → x.did k.row k.col (40 + i) = false →
    completes (.tokenInject src) s (fun t => ((t.quad k.q).trap k.row k.col i).out = rest ∧
      ((t.quad k.q).trap k.row k.col i).lastDue = s.arrival d ∧ onlyParts [.quads, .ctr] s t)) ∧
  (∀ (s : State) (q l p : Nat) (g : GwTok) (pre post : List GwTok) (sc : Scene), let src := Src.gw q l; let x := s.quad q
    let e := linkSite q l; let slot := x.gwSlot; let ds := s.dests slot src x.slotCtr; let c := x.slotCtr % max 1 sc.period
    let out := pre ++ g :: post
    s.quadRuns q = true → q < s.quads.length → x.scene slot = some sc → look x.gwOut l = some out →
    (∀ r ∈ out, r.path.isSome = true → r.tok.tag = slot) → x.did e.1 e.2.1 (50 + l) = false →
    (g.path = none ∧ (s.ownSlots slot src).head? = some p ∧ (∀ r ∈ pre, r.path.isSome = true) ∧
        ∀ r ∈ out, r.path.isSome = true → s.gwMay q l r = none) ∨
      (g.path = some p ∧ p % max 1 sc.period = c ∧ ∀ r ∈ pre, r.path.isSome = true → s.gwMay q l r = none) →
    ds ≠ [] → (ds.map destKey).Nodup → s.pathName slot src c = s.pathName slot src p → (l, s.pathName slot src p) ∈ x.gwSlots →
    s.trapIn slot src c = none → g.notBefore ≤ s.pw.cycle → (∀ d ∈ ds, 0 < s.credit src d) →
    completes (.tokenInject src) s (fun t => (look (t.quad q).gwOut l).getD [] = pre ++ post ∧ (t.quad q).flights = x.flights ++
        [{ row := e.1, col := e.2.1, port := e.2.2, link := 0, due := s.pw.cycle + 2, bridge := false, off := 0
           tok := { g.tok with tag := slot }, src := src }] ∧
      (∀ d ∈ ds, t.credit src d = s.credit src d - 1) ∧ onlyParts [.quads] s t)) ∧
  (∀ (s : State) (q n : Nat) (f : Flight), let x := s.quad q; let ord := siteOrd f.row f.col
    let counted (t : State) (grp ix : Nat) : Prop := t.counter grp q ix = min ctrMax (s.counter grp q ix + 1)
    let shut := s.closedPort q f.row f.col f.port || x.fencedSite f.row f.col
    let e := x.entAt f.tok.tag f.row f.col ((x.slotCtr + slotWrap - (s.pw.cycle - f.due + f.off) % slotWrap) % slotWrap)
    let u := x.logic f.row f.col
    s.quadRuns q = true → q < s.quads.length → x.flights[n]? = some f → f.due ≤ s.pw.cycle →
    (f.port = 0 → s.awaitsAnswer q f.link = false →
      (s.claimed q f.link = true → completes (.tokenHop q n) s (fun t => (t.quad q).inbound f.link = x.inbound f.link ++ [(f.tok, f.due, f.src)] ∧
        (t.quad q).flights = x.flights.eraseIdx n ∧ onlyParts [.quads] s t)) ∧
      (s.claimed q f.link = false → completes (.tokenHop q n) s (fun t => counted t 0x44 0 ∧ (t.quad q).inbound f.link = x.inbound f.link ∧
        (t.quad q).flights = x.flights.eraseIdx n ∧ onlyParts [.quads, .ctr] s t))) ∧
    (f.port ≠ 0 → shut = true → completes (.tokenHop q n) s (fun t => counted t 0x13 (4 * ord + (f.port - 1)) ∧
      (t.quad q).flights = x.flights.eraseIdx n ∧ onlyParts [.quads, .ctr] s t)) ∧
    (f.port ≠ 0 → shut = false → f.tok.tag ≠ x.slotAt f.row f.col →
      completes (.tokenHop q n) s (fun t => (t.quad q).flights = x.flights.eraseIdx n ∧ counted t 0x24 (3 * ord) ∧
        counted t 0x24 (3 * ord + if x.cutAt.isSome then 2 else 1) ∧ onlyParts [.quads, .ctr, .sv] s t)) ∧
    (f.port ≠ 0 → shut = false → f.tok.tag = x.slotAt f.row f.col →
      (entSrc e 0 = f.port → entDq e < 6 → (∀ o, 1 ≤ o → o ≤ 4 → entSrc e o ≠ f.port) →
        entDq e < (if isCu u.1 u.2 then (x.cu u.1 u.2).inq else (x.mu u.1 u.2).inq).length →
        completes (.tokenHop q n) s (fun t => (t.quad q).inq u.1 u.2 (entDq e) = x.inq u.1 u.2 (entDq e) ++ [f.tok] ∧
          (t.quad q).flights = x.flights.eraseIdx n ∧ onlyParts [.quads] s t)) ∧
      (∀ o, 1 ≤ o → o ≤ 4 → entSrc e o = f.port → entSrc e 0 ≠ f.port → (∀ i, 1 ≤ i → i ≤ 4 → i ≠ o → entSrc e i ≠ f.port) →
        (∀ q' r c p br, hopFrom q f.row f.col o = .sw q' r c p br → s.closedPort q f.row f.col o = false → s.dark q' = false →
          q' < s.quads.length →
          completes (.tokenHop q n) s (fun t => (t.quad q').flights =
            (if q' = q then x.flights.eraseIdx n else (s.quad q').flights) ++
              [{ row := r, col := c, port := p, link := 0, due := f.due + (if br then 8 else 2), bridge := br
                 off := f.off + (if br then 6 else 0), tok := f.tok, src := f.src }] ∧ onlyParts [.quads] s t)) ∧
        (s.closedPort q f.row f.col o = true → completes (.tokenHop q n) s (fun t => counted t 0x13 (4 * ord + (o - 1)) ∧
          (t.quad q).flights = x.flights.eraseIdx n ∧ onlyParts [.quads, .ctr] s t)) ∧
        (∀ l, hopFrom q f.row f.col o = .gwl l →
          completes (.tokenHop q n) s (fun t => (t.quad q).flights = x.flights.eraseIdx n ++
            [{ row := f.row, col := f.col, port := 0, link := l, due := f.due + 2, bridge := false, off := f.off, tok := f.tok
               src := f.src }] ∧ onlyParts [.quads] s t))))) ∧
  (∀ (s : State) (q n : Nat) (r : CredRet), let x := s.quad q; let home := s.quad (srcQuad r.src)
    let back (t : State) : Prop := t.credit r.src r.dest =
        (if r.slot = s.srcSlot r.src then min 64 (s.credit r.src r.dest + 1) else s.credit r.src r.dest) ∧
      (t.quad q).credRet = x.credRet.eraseIdx n
    s.quadRuns q = true → q < s.quads.length → srcQuad r.src < s.quads.length → x.credRet[n]? = some r → r.due ≤ s.pw.cycle →
    ((∀ a l, r.src = .gw a l → ∀ k ∈ x.queues, ∀ e ∈ k.ents, e.owed = []) →
      completes (.creditReturn q n) s (fun t => back t ∧ onlyParts [.quads] s t)) ∧
    (∀ l tq e, r.src = .gw q l → s.lone q tq e → e.started = true → e.op = 1 ∨ e.op = 2 → e.glink = l →
      e.owed = [(r.slot, [(r.dest, 1)])] → e.opsAll ≤ e.gone + 1 → (∀ i, i ≠ tq → ∀ d ∈ (s.tq q i).ents, d.owed = []) →
      completes (.creditReturn q n) s (fun t => back t ∧ (t.tq q tq).ents = [] ∧
        (e.cue < 63 → ((t.quad q).cues.getD e.cue default).posted = (home.cues.getD e.cue default).posted + e.postn) ∧
        onlyParts [.quads, .ctr] s t)))

/-- O57. QUEUE_ECC_ERROR, STATUS_POLL, STALL_WATCHDOG_TRIP and STALL_STRIKE_COMMIT (R33, R54, R56, R83, R84): a single error is corrected
and counted; a double error in data poisons the token, and one in its control bits discards it; the third missed poll fences the unit and
clears its quadrant's RDY_MAP bit; a quadrant without progress for its limit is held with a stall record; its strike ends the job, resets the
quadrant and keeps the record. -/
def Obligations.UnitsFailAndStall : Prop :=
  (∀ (s : State) (k : Site) (queue pos : Nat) (tk : Tok), let x := s.quad k.q; let ts := x.queue k.row k.col queue
    let grp := if isCu k.row k.col then 0x11 else 0x12
    let ix := if isCu k.row k.col then 10 * unitOrd k.row k.col + 4 else 5 * unitOrd k.row k.col
    let counted (t : State) (i : Nat) : Prop := t.counter grp k.q (ix + i) = min ctrMax (s.counter grp k.q (ix + i) + 1)
    ts[pos]? = some tk → s.isOn = true → k.q < 4 → k.row < 16 → k.col < 22 → k.q < s.quads.length → x.errs = [] →
    completes (.queueEccError k queue pos .single) s (fun t => counted t 0 ∧ onlyParts [.ctr] s t) ∧
    completes (.queueEccError k queue pos .doubleData) s (fun t => counted t 1 ∧
      (t.quad k.q).queue k.row k.col queue = ts.set pos { tk with poison := true } ∧ onlyParts [.quads, .ctr] s t) ∧
    completes (.queueEccError k queue pos .doubleCtl) s (fun t => counted t 1 ∧ counted t 2 ∧
      (t.quad k.q).queue k.row k.col queue = ts.eraseIdx pos ∧ onlyParts [.quads, .ctr, .fns, .mg] s t)) ∧
  (∀ (s : State) (q row col : Nat) (r : RunSt), let x := s.quad q
    s.quadRuns q = true → q < s.quads.length → x.run = some r → row < 16 → col < 22 → (x.site row col).st < 3 →
    (x.polls = [] → completes (.statusPoll q [(row, col)]) s (fun t => (t.quad q).polls = [(row, col, 1)] ∧ onlyParts [.quads] s t)) ∧
    (x.polls = [(row, col, 2)] → completes (.statusPoll q [(row, col)]) s (fun t =>
      ((t.quad q).site row col).st = 3 ∧ ((t.quad q).site row col).reason = 4 ∧ t.rdy (1 + q) = false))) ∧
  (∀ (s : State) (q : Nat), let x := s.quad q
    s.quadRuns q = true → q < s.quads.length → x.active = true → x.progress + x.stallLimit ≤ s.now →
    completes (.stallWatchdogTrip q) s (fun t => (t.quad q).halted = true ∧ (t.quad q).stall = some (s.stallRec q false))) ∧
  (∀ (s : State) (q : Nat) (r : StallRec) (j : Job), let x := s.quad q
    s.isOn = true → q < s.quads.length → x.stall = some r → x.halted = true → s.jobAt q = some j →
    completes (.stallStrikeCommit q) s (fun t => (t.quad q).halted = false ∧ (t.quad q).stall = some r ∧ t.job? j.id = none))

/-! ### The tier engines and the routing block -/

/-- O58. MOVE, STREAM, COLLECT, PLACE_ENTRY and ENTRY_COMPLETE (R163, R166 to R169, R424): a MOVE into the staging buffer writes the lines of
the operations it is granted there in order; a MOVE into an MU and a STREAM give them to their link as tokens, after a header; an entry that
would read an MU whose port is taken waits; a COLLECT starts with its first slot, writes each token of its link where it stands, and
completes with its last; a PLACE starts its placement; the acknowledgement of a MOVE's write ends its operations, and with the last of them
the MOVE leaves the queue. -/
def Obligations.TierEngineMovesData : Prop :=
  (∀ (s : State) (q tq op : Nat) (h : HostView) (e : TeEnt) (c : Instr), let u := s.withHost h; let x := s.quad q
    let i := e.gone + e.held; let k := min (u.teRoom q tq) e.opsAll; let ls := (u.teData q e i k).1; let dst := e.dstAt.toNat
    let base := dst + 128 * e.opLines * i
    let head := if op = 1 ∧ i = 0 then [setDownHeader (dst % 0x80000000 % 0xC00000 / 128) (e.len / 128) x.gwSlot] else []
    let granted (t : State) : Prop := (t.tq q tq).ents.map (fun d => (d.n, d.started, d.held)) =
        (s.tq q tq).ents.map (fun d => if d.n = e.n then (d.n, true, d.held + k) else (d.n, d.started, d.held)) ∧
      t.pool = s.pool ∧ t.sv = s.sv ∧ t.fab = s.fab
    (op = 1 ∧ c = .move q tq h) ∨ (op = 2 ∧ c = .stream q tq h) → q < s.quads.length → s.teReady q tq op = some e → u.srcDark q e = false →
    e.limitsOk q = true → (∀ d ∈ (s.tq q tq).ents, d.op ≠ 0x0C) →
    (u.engineFree e.muRead.1 e.muRead.2 false = false → completes c s (fun t => t = u)) ∧
    (u.engineFree e.muRead.1 e.muRead.2 false = true →
      (e.fromObj = false → i = 0 → k = e.opsAll → ls.length = e.len / 128) ∧
      (s.memOk → e.toStaging = true → (∀ j, j < ls.length → s.inDevice (base + 128 * j) 128 = true) →
        completes c s (fun t => (∀ j, j < ls.length → memRead t.mem (base + 128 * j) 128 = leBytes 128 (ls.getD j default).1.toNat) ∧
          (∀ a, a < base ∨ base + 128 * ls.length ≤ a → memGet t.mem a = memGet s.mem a) ∧ granted t)) ∧
      (e.toStaging = false →
        completes c s (fun t => (look (t.quad q).gwOut e.glink).getD [] = (look x.gwOut e.glink).getD [] ++
            gwTokens tq e.n e.opLines head (ls.map (fun l => mkTok l.1 x.gwSlot l.2 false)) ∧ t.mem = s.mem ∧ granted t)))) ∧
  (∀ (s : State) (q tq : Nat) (e : TeEnt) (tk : Tok), let x := s.quad q
    let wrote (t : State) : Prop := memRead t.mem e.dst 128 = leBytes 128 tk.data.toNat ∧
      (∀ a, a < e.dst ∨ e.dst + 128 ≤ a → memGet t.mem a = memGet s.mem a) ∧
      (t.quad q).inbound e.glink = (x.inbound e.glink).drop 1 ∧ onlyParts [.quads, .mem, .marks, .flaws, .ctr] s t
    s.memOk → s.quadRuns q = true → q < s.quads.length → s.collecting q tq = some (e, tk) → s.inDevice e.dst 128 = true →
    (128 < e.left → completes (.collect q tq) s (fun t => wrote t ∧ (t.tq q tq).ents.map (fun d => (d.n, d.dst, d.left)) =
      (s.tq q tq).ents.map (fun d => if d.n = e.n then (d.n, d.dst + 128, d.left - 128) else (d.n, d.dst, d.left)))) ∧
    (e.left ≤ 128 → s.lone q tq e → completes (.collect q tq) s (fun t => wrote t ∧ (t.tq q tq).ents = [] ∧
      (e.cue < 63 → ((t.quad q).cues.getD e.cue default).posted = (x.cues.getD e.cue default).posted + e.postn)))) ∧
  (∀ (s : State) (q tq : Nat) (e : TeEnt), s.collecting q tq = none → q < s.quads.length → s.teReady q tq 3 = some e → e.limitsOk q = true →
    (∀ d ∈ (s.quad q).disps, e.glink ∉ d.links) → e.glink ∉ s.routeLinks q → (∀ d ∈ (s.tq q tq).ents, d.op ≠ 0x0C) →
    completes (.collect q tq) s (fun t => (t.tq q tq).ents.map (fun d => (d.n, d.started, d.dst, d.left, d.held)) =
        (s.tq q tq).ents.map (fun d => if d.n = e.n then (d.n, true, e.dstAt.toNat, e.len, 1) else (d.n, d.started, d.dst, d.left, d.held)) ∧
      onlyParts [.quads] s t)) ∧
  (∀ (s : State) (q tq : Nat) (e : TeEnt), let oid := e.dstAt.toNat
    let src : PSrc := if e.fromObj then .obj e.srcId e.srcOff.toNat else .addr e.srcOff.toNat
    let pl : Placing := { pid := 0, oid := oid, tier := e.tier, qmask := e.qmask, len := e.len, src := src, pinAt := false
                          for_ := .entry q tq e.n, f := s.jobFn e.job }
    s.teReady q tq 4 = some e → e.limitsOk q = true → e.dstAt ≠ 0 → s.placeCheck pl = none → (∀ k ∈ (s.tq q tq).ents, k.op ≠ 0x0C) →
    (s.reserve (newRec oid e.tier e.qmask e.len 0 (if e.fromObj then e.srcId else 0) 0) false).1.isSome = true →
    completes (.placeEntry q tq) s (fun t => t.pool.placing = s.pool.placing ++ [{ pl with pid := s.pool.nextPid }] ∧
      t.pool.nextPid = s.pool.nextPid + 1)) ∧
  (∀ (s : State) (q tq : Nat) (e : TeEnt), s.lone q tq e → s.quadRuns q = true → e.started = true → e.toStaging = true →
    (e.opsLeft = 0 → completes (.entryComplete q tq e.n) s (fun t => (t.tq q tq).ents = [] ∧
      (e.cue < 63 → ((t.quad q).cues.getD e.cue default).posted = ((s.quad q).cues.getD e.cue default).posted + e.postn) ∧
      onlyParts [.quads, .ctr] s t)) ∧
    (0 < e.opsLeft → completes (.entryComplete q tq e.n) s (fun t =>
      (t.tq q tq).ents = [{ e with gone := e.gone + e.held, held := 0 }] ∧ onlyParts [.quads] s t)))

/-- O59. POST, WAIT, DSET, CRESET, LOOP, LOOP_ITERATION, TRACKER_RETRY, TE_WAIT_TRIP and DISPENSER_CLAIM (R156, R157, R162, R164, R169,
R172, R174, R175, R180): a POST adds its count to its cue; a WAIT whose condition does not hold stays; DSET gives a dispenser its range and
links; CRESET zeroes both values; a LOOP of one iteration completes, and another's next iteration joins the queue before it; an entry that the
tracker holds back takes the slots that are free; an entry that has waited too long stalls the quadrant; a claim takes the dispenser's next
indices, one index where its count is out of range, and a stale or misplaced claim is counted. -/
def Obligations.TierEngineControls : Prop :=
  (∀ (s : State) (q tq op : Nat) (c : Instr) (e : TeEnt), (op = 5 ∧ c = .post q tq) ∨ (op = 6 ∧ c = .wait q tq) →
    s.teReady q tq op = some e → s.lone q tq e →
    completes c s (fun t => (t.tq q tq).ents = [] ∧
      (e.cue < 63 → ((t.quad q).cues.getD e.cue default).posted = ((s.quad q).cues.getD e.cue default).posted + e.postn) ∧
      (∀ i, i ≠ e.cue → (t.quad q).cues.getD i default = (s.quad q).cues.getD i default) ∧ onlyParts [.quads, .ctr] s t)) ∧
  (∀ (s : State) (q tq : Nat) (e : TeEnt) (b : List TeEnt), (s.tq q tq).head = some (e, b) → e.op = 6 → s.teWait q e e.wval = false →
    completes (.wait q tq) s (fun t => t = s)) ∧
  (∀ (s : State) (q tq : Nat) (e : TeEnt), s.teReady q tq 7 = some e → s.lone q tq e → e.dsetDisp < (s.quad q).disps.length →
    s.claimsOwed q (fun _ => true) = false → e.limitsOk q = true → e.dsetLinks.any (s.routeLinks q).contains = false →
    completes (.dset q tq) s (fun t => (t.tq q tq).ents = [] ∧
      (t.quad q).disps.getD e.dsetDisp Disp.reset =
        { next := e.dsetStart, limit := if e.dsetStatic then min (e.dsetStart + e.dsetQuota) 0xFFFFFF else e.dsetStart
          quota := e.dsetQuota, scene := e.dsetScene, static := e.dsetStatic, links := e.dsetLinks } ∧
      (∀ i, i ≠ e.dsetDisp → ∀ l ∈ ((t.quad q).disps.getD i Disp.reset).links, l ∉ e.dsetLinks) ∧ onlyParts [.quads, .ctr] s t)) ∧
  (∀ (s : State) (q tq : Nat) (e : TeEnt), s.teReady q tq 8 = some e → s.lone q tq e → e.cue < (s.quad q).cues.length →
    completes (.creset q tq) s (fun t => (t.tq q tq).ents = [] ∧ (t.quad q).cues.getD e.cue default = { posted := 0, retired := 0 } ∧
      (∀ i, i ≠ e.cue → (t.quad q).cues.getD i default = (s.quad q).cues.getD i default) ∧ onlyParts [.quads, .ctr] s t)) ∧
  (∀ (s : State) (q tq : Nat) (e : TeEnt), s.teReady q tq 0x0C = some e → q < s.quads.length → tq < (s.quad q).queues.length →
    (2 ≤ e.len → (∀ k ∈ (s.tq q tq).ents, k.op = 0x0C → k = e) →
      completes (.loop q tq) s (fun t => (t.tq q tq).loopIx = 1 ∧ (t.tq q tq).ents.length = (s.tq q tq).ents.length ∧
        onlyParts [.quads] s t)) ∧
    (e.len ≤ 1 → s.lone q tq e → completes (.loop q tq) s (fun t => (t.tq q tq).ents = [] ∧ onlyParts [.quads, .ctr] s t))) ∧
  (∀ (s : State) (q tq : Nat) (l : TeEnt), let k := s.tq q tq; let before := k.ents.takeWhile (fun e => e.n != l.n)
    let body := before.filter (fun e => e.iter == 0 && decide (l.n - l.field 0x20 8 ≤ e.n))
    let copies := body.map (fun e => { e with n := e.n % 2 ^ 32 + k.loopIx * 2 ^ 32, iter := k.loopIx, started := false, done := false
                                              posts := true, waitFrom := s.now, dst := 0, left := 0, gone := 0, held := 0, owed := [] })
    s.quadRuns q = true → q < s.quads.length → tq < (s.quad q).queues.length → k.ents.find? TeEnt.looping = some l → s.jobStarts l = true →
    before.all (·.started) = true → k.loopIx < l.len → s.teWait q l { l with iter := k.loopIx }.wval = true →
    copies.all (·.limitsOk q) = true →
    completes (.loopIteration q tq) s (fun t => (t.tq q tq).ents = before ++ copies ++ k.ents.drop before.length ∧
      (t.tq q tq).loopIx = k.loopIx + 1 ∧ onlyParts [.quads] s t)) ∧
  (∀ (s : State) (q tq : Nat), let k := s.tq q tq
    s.quadRuns q = true → q < s.quads.length →
    (s.teRoom q tq = 0 → (∀ e, k.granting = some e → e.op ≠ 4) → completes (.trackerRetry q tq) s (fun t => t = s)) ∧
    (∀ e, k.granting = some e → e.op ≠ 4 → 0 < s.teRoom q tq → s.srcDark q e = false → s.engineFree e.muRead.1 e.muRead.2 false = true →
      completes (.trackerRetry q tq) s (fun t => (t.tq q tq).ents.map (fun d => (d.n, d.held)) =
          k.ents.map (fun d => if d.n = e.n then (d.n, d.held + min (s.teRoom q tq) e.opsLeft) else (d.n, d.held)) ∧
        t.pool = s.pool ∧ t.sv = s.sv ∧ t.fab = s.fab)) ∧
    (∀ e, k.granting = some e → e.op = 4 → completes (.trackerRetry q tq) s (fun t => (t.tq q tq).ents.map (fun d => (d.n, d.gone)) =
        k.ents.map (fun d => if d.n = e.n then (d.n, d.gone + d.held) else (d.n, d.gone)) ∧ onlyParts [.quads] s t)) ∧
    (∀ e more, k.granting = none → k.starved = e :: more → 0 < s.teRoom q tq →
      completes (.trackerRetry q tq) s (fun t => (t.tq q tq).ents.map (fun d => (d.n, d.held)) =
        k.ents.map (fun d => if d.n = e.n then (d.n, 1) else (d.n, d.held)) ∧ onlyParts [.quads] s t))) ∧
  (∀ (s : State) (q tq : Nat) (e : TeEnt), (s.tq q tq).next = some e → s.quadRuns q = true → q < s.quads.length →
    (s.quad q).active = false → max e.waitFrom (s.quad q).progress + 100000 ≤ s.now →
    completes (.teWaitTrip q tq) s (fun t => (t.quad q).halted = true ∧ (t.quad q).stall.map (·.cause) = some 3)) ∧
  (∀ (s : State) (q link i at_ : Nat) (d : Disp) (tk : Tok) (src : Src) (rest : List (Tok × Nat × Src)), let x := s.quad q
    let asked := (laneOf tk.data 0).toNat % 64; let slot := s.arrivalSlot q at_
    let n := if asked = 0 ∨ 33 ≤ asked then 1 else asked
    let dropped (t : State) (ix : Nat) : Prop := (t.quad q).disps = x.disps ∧ (t.quad q).inbound link = rest ∧
      t.counter 0x43 q ix = min ctrMax (s.counter 0x43 q ix + 1) ∧ onlyParts [.quads, .ctr] s t
    s.quadRuns q = true → q < s.quads.length → x.dispOf link = some (i, d) → x.inbound link = (tk, at_, src) :: rest → s.dspn q ≠ some i →
    at_ < s.pw.cycle → x.claimBefore d link at_ = false →
    (tk.tag ≠ x.gwSlot → completes (.dispenserClaim q link) s (fun t => dropped t (6 * i + 4))) ∧
    (tk.tag = x.gwSlot → slot ∉ s.ownSlots x.gwSlot (.gw q link) → completes (.dispenserClaim q link) s (fun t => dropped t (6 * i + 3))) ∧
    (tk.tag = x.gwSlot → slot ∈ s.ownSlots x.gwSlot (.gw q link) → completes (.dispenserClaim q link) s (fun t =>
      ((t.quad q).disps.getD i Disp.reset).next = d.next + min n (d.limit - d.next) ∧ (t.quad q).inbound link = rest ∧
      (look (t.quad q).gwOut link).getD [] = (look x.gwOut link).getD [] ++
        [{ tok := dispReply d n x.gwSlot tk.poison, owner := none, lastOf := false, path := some slot, notBefore := at_ + 4 }] ∧
      onlyParts [.quads, .ctr] s t)))

/-- O60. SCORE_TOKEN, ROUTED_CLAIM, FETCH_ROUND, SHARD_COMPLETE, DONE_TOKEN and GENERATION_BUMP (R218, R219, R227, R230, R231, R236, R240): a
score token joins its row, and the last of a row gives its choice line, of the best experts, of none in a dead row, of none and without
poison in a row that skips the pass; a claim takes the next posted work entry as two tokens, an open dispenser with no entry left gives the
empty mark, and a claim before the lists are published is held; a fetch issues its shards as far as the tracker has room; a complete fetch
posts its work; a done token reports its entry, and a second one is counted; a free generation value is taken. -/
def Obligations.RoutingBlockWorks : Prop :=
  (∀ (s : State) (q at_ : Nat) (j : Job) (p : Sys2Proof.Machine.Prod) (tk : Tok) (src : Src) (rest : List (Tok × Nat × Src))
    , let x := s.quad q; let r := p.man.rp; let need := ceilDiv r.experts 32 + (if r.skip then 1 else 0)
    let ts := x.rt.part ++ [tk]; let skips := x.rt.skipThis.getD x.rt.choices.length false
    let top := chooseTop r.choices (fun e => j.biases.getD (x.rt.pass * r.experts + e) 0) (scoresOf r.experts (ts.take (ceilDiv r.experts 32)))
    let chose (c : Choice) : Prop :=
      completes (.scoreToken q) s (fun t => (t.quad q).rt.part = [] ∧ (t.quad q).rt.choices = x.rt.choices ++ [c] ∧
        (t.quad q).inbound r.scorelink = rest ∧ onlyParts [.quads, .ctr] s t)
    s.quadRuns q = true → q < s.quads.length → s.passOf q = some (j, p) → x.inbound r.scorelink = (tk, at_, src) :: rest →
    x.rt.published = false → x.rt.expect.isSome = true → x.rt.choices.length < x.rt.rows →
    (x.rt.part.length + 1 < need → completes (.scoreToken q) s (fun t => (t.quad q).rt.part = ts ∧
      (t.quad q).rt.choices = x.rt.choices ∧ (t.quad q).rt.dspOpen = false ∧ (t.quad q).inbound r.scorelink = rest ∧
      onlyParts [.quads] s t)) ∧
    (need = x.rt.part.length + 1 → x.rt.choices.length + 1 < x.rt.rows →
      (skips = true → chose (noChoice true false)) ∧
      (skips = false → (ts.headD default).pred = 0 → chose (noChoice false (ts.any (·.poison)))) ∧
      (skips = false → (ts.headD default).pred ≠ 0 → ∃ c, chose c ∧ c.experts = top.map (fun e => some e.1) ∧ c.skipNow = false ∧
        c.poison = ts.any (·.poison)))) ∧
  (∀ (s : State) (q link at_ : Nat) (j : Job) (p : Sys2Proof.Machine.Prod) (tk : Tok) (src : Src) (rest : List (Tok × Nat × Src))
    , let x := s.quad q; let r := p.man.rp; let d := x.disps.getD r.dspn Disp.reset; let slot := s.arrivalSlot q at_
    let replied (t : State) (ts : List Tok) : Prop := (t.quad q).inbound link = rest ∧
      (t.quad q).rt.held = x.rt.held.filter (· ≠ (link, at_)) ∧
      (look (t.quad q).gwOut link).getD [] = (look x.gwOut link).getD [] ++
        ts.map (fun t => { tok := t, owner := none, lastOf := false, path := some slot, notBefore := at_ + 4 }) ∧
      onlyParts [.quads, .ctr] s t
    s.settled → s.quadRuns q = true → q < s.quads.length → s.passOf q = some (j, p) → x.inbound link = (tk, at_, src) :: rest →
    link ∈ d.links → r.dspn < x.disps.length → x.earlierClaim d.links link at_ = false → tk.tag = x.gwSlot →
    slot ∈ s.ownSlots x.gwSlot (.gw q link) →
    (∀ w, x.rt.dspOpen = true → x.rt.works[d.next]? = some w → d.next + 1 < x.rt.works.length →
      d.next + 1 ≤ (x.cues.getD r.fcue default).posted →
      completes (.routedClaim q link) s (fun t => ((t.quad q).disps.getD r.dspn Disp.reset).next = d.next + 1 ∧
        replied t [mkTok (w.lines d.next).1 x.gwSlot tk.poison false,
          { data := (w.lines d.next).2, pred := BitVec.ofNat 32 (2 ^ w.rows.length - 1), tag := x.gwSlot, poison := tk.poison, last := true }])) ∧
    (x.rt.dspOpen = true → x.rt.works.length ≤ d.next → x.rt.built = true ∨ x.rt.published = false →
      completes (.routedClaim q link) s (fun t => (t.quad q).disps = x.disps ∧
        replied t [{ data := 0xFFFFFFFF, pred := 0, tag := x.gwSlot, poison := tk.poison, last := true }])) ∧
    (x.rt.dspOpen = false → (link, at_) ∉ x.rt.held →
      completes (.routedClaim q link) s (fun t => (t.quad q).rt.held = x.rt.held ++ [(link, at_)] ∧
        (t.quad q).inbound link = (tk, at_, src) :: rest ∧ t.counter 0x62 q 6 = min ctrMax (s.counter 0x62 q 6 + 1) ∧
        onlyParts [.quads, .ctr] s t))) ∧
  (∀ (s : State) (q : Nat) (j : Job) (p : Sys2Proof.Machine.Prod) (f : Fetch), let x := s.quad q; let r := p.man.rp
    let w := s.expEntry q p x.rt.pass f.expert; let c := s.fetchCopy q ((p.alias? (bits w 0 8)).getD 0) (expSrc w)
    s.quadRuns q = true → q < s.quads.length → 8 < x.queues.length → s.passOf q = some (j, p) → x.rt.fetches = [f] → f.started = false →
    f.round < 2 → x.rt.published = true → f.shards < r.nshard → expSrc w ≠ 5 → (∀ k, c = some k → s.dark k.copy = false) →
    (s.fetchRoom q < ceilDiv r.shard 65536 → completes (.fetchRound q) s (fun t => t = s)) ∧
    (ceilDiv r.shard 65536 ≤ s.fetchRoom q → completes (.fetchRound q) s (fun t => ∃ n, 0 < n ∧ f.shards + n ≤ r.nshard ∧
      (t.quad q).rt.fetches = [{ f with shards := f.shards + n, started := decide (r.nshard ≤ f.shards + n) }] ∧
      (t.tq q 8).ents.length = (s.tq q 8).ents.length + n ∧ onlyParts [.quads, .ctr] s t))) ∧
  (∀ (s : State) (q : Nat) (j : Job) (p : Sys2Proof.Machine.Prod) (f : Fetch) (w : Work), let x := s.quad q; let r := p.man.rp
    s.settled → s.quadRuns q = true → q < s.quads.length → s.passOf q = some (j, p) → x.rt.fetches = [f] → f.started = true → f.done = false →
    (∀ e ∈ (s.tq q 8).ents, e.dst = f.expert → e.job = j.id → e.done = true) → s.fab.ops = [] → x.rt.works = [w] → w.expert = f.expert →
    w.kind ≠ 2 → w.posted = false → (x.disps.getD r.dspn Disp.reset).next = 0 → r.fcue < x.cues.length →
    (x.cues.getD r.fcue default).posted + 1 ≤ 0xFFFFFFFF →
    completes (.shardComplete q) s (fun t => (t.quad q).rt.fetches = [{ f with done := true }] ∧
      (t.quad q).rt.works = [{ w with posted := true }] ∧
      ((t.quad q).cues.getD r.fcue default).posted = (x.cues.getD r.fcue default).posted + 1 ∧
      (∀ c, f.toCache = some c → c < x.rt.cache.length → ((t.quad q).rt.cache.getD c default).valid = true) ∧ onlyParts [.quads] s t)) ∧
  (∀ (s : State) (q at_ : Nat) (j : Job) (p : Sys2Proof.Machine.Prod) (tk : Tok) (src : Src) (rest : List (Tok × Nat × Src))
    , let x := s.quad q; let link := p.man.rp.donelink; let ix := (laneOf tk.data 0).toNat
    s.settled → s.quadRuns q = true → q < s.quads.length → s.passOf q = some (j, p) → x.inbound link = (tk, at_, src) :: rest →
    (∀ w, x.rt.works[ix]? = some w → w.done = false →
      completes (.doneToken q) s (fun t => (t.quad q).rt.works = x.rt.works.modify ix (fun y => { y with done := true }) ∧
        (t.quad q).inbound link = rest ∧ onlyParts [.quads] s t)) ∧
    ((∀ w, x.rt.works[ix]? = some w → w.done = true) → completes (.doneToken q) s (fun t => (t.quad q).rt.works = x.rt.works ∧
      (t.quad q).inbound link = rest ∧ t.counter 0x62 q 7 = min ctrMax (s.counter 0x62 q 7 + 1) ∧ onlyParts [.quads, .ctr] s t))) ∧
  (∀ s : State, s.isOn = true → s.sv.bumps = 1 →
    (s.genBusy ((s.sv.gen + 1) % 65536) = false → completes .generationBump s (fun t => t.sv.gen = (s.sv.gen + 1) % 65536 ∧ t.sv.bumps = 0 ∧
      onlyParts [.sv, .ctr] s t)) ∧
    (s.genBusy ((s.sv.gen + 1) % 65536) = true → completes .generationBump s (fun t => t = s)))
end

