-- ==== Sys2Proof/Laws/Frame.lean ====
section
/-! SUPPORT. The frame relation onlyParts: how it composes, and what each record update of the state changes. -/

namespace Sys2Proof.Machine

/-! ### The parts relation -/

/-- Every part of `B` is in `A`. -/
def partsIn (B A : List Part) : Bool := B.all (fun p => A.contains p)

theorem partsIn_mem {A B : List Part} {p : Part} (h : partsIn B A = true) (hp : p ∈ B) : p ∈ A := by
  have := List.all_eq_true.mp h p hp
  simpa using this

theorem onlyParts.rfl' {A : List Part} {s : State} : onlyParts A s s := ⟨fun p _ => by cases p <;> rfl⟩

theorem Part.same_trans {p : Part} {s t u : State} (h : p.same s t) (k : p.same t u) : p.same s u := by
  cases p <;> exact Eq.trans k h

/-- What changes only `B` after what changes only `A`, `B` lying in `A`. -/
theorem onlyParts.after {A B : List Part} {s t u : State} (h : onlyParts B t u) (hB : partsIn B A = true) (k : onlyParts A s t) :
    onlyParts A s u := ⟨fun p hp => Part.same_trans (k.same p hp) (h.same p (fun hq => hp (partsIn_mem hB hq)))⟩

theorem onlyParts.mono {A B : List Part} {s t : State} (h : onlyParts B s t) (hB : partsIn B A = true) : onlyParts A s t :=
  ⟨fun p hp => h.same p (fun hq => hp (partsIn_mem hB hq))⟩

theorem onlyParts.ite {A : List Part} {s a b : State} {c : Prop} [Decidable c] (hb : onlyParts A s b)
    (ha : onlyParts A s b → onlyParts A s a) : onlyParts A s (if c then a else b) := by
  split
  · exact ha hb
  · exact hb

theorem onlyParts.foldl {A : List Part} {s t : State} {α : Type _} {g : State → α → State} {l : List α}
    (h : onlyParts A s t) (hg : ∀ u x, onlyParts A s u → onlyParts A s (g u x)) : onlyParts A s (l.foldl g t) := by
  induction l generalizing t with
  | nil => exact h
  | cons x l ih => exact ih (hg _ _ h)

theorem onlyParts.set_bt {A : List Part} {s t : State} {x0 : Boot} (h : onlyParts A s t) (hA : partsIn [Part.bt] A = true) :
    onlyParts A s { t with bt := x0 } := by
  refine ⟨fun p hp => ?_⟩
  cases p <;> first | exact absurd (partsIn_mem hA (by decide)) hp | exact h.same _ hp

theorem onlyParts.set_bt_fns {A : List Part} {s t : State} {x0 : Boot} {x1 : List Fn} (h : onlyParts A s t) (hA : partsIn [Part.bt, Part.fns] A = true) :
    onlyParts A s { t with bt := x0, fns := x1 } := by
  refine ⟨fun p hp => ?_⟩
  cases p <;> first | exact absurd (partsIn_mem hA (by decide)) hp | exact h.same _ hp

theorem onlyParts.set_bt_fns_quads_fab {A : List Part} {s t : State} {x0 : Boot} {x1 : List Fn} {x2 : List Quad} {x3 : Fabric} (h : onlyParts A s t) (hA : partsIn [Part.bt, Part.fns, Part.quads, Part.fab] A = true) :
    onlyParts A s { t with bt := x0, fns := x1, quads := x2, fab := x3 } := by
  refine ⟨fun p hp => ?_⟩
  cases p <;> first | exact absurd (partsIn_mem hA (by decide)) hp | exact h.same _ hp

theorem onlyParts.set_bt_pool {A : List Part} {s t : State} {x0 : Boot} {x1 : Pool} (h : onlyParts A s t) (hA : partsIn [Part.bt, Part.pool] A = true) :
    onlyParts A s { t with bt := x0, pool := x1 } := by
  refine ⟨fun p hp => ?_⟩
  cases p <;> first | exact absurd (partsIn_mem hA (by decide)) hp | exact h.same _ hp

theorem onlyParts.set_cores {A : List Part} {s t : State} {x0 : List Target} (h : onlyParts A s t) (hA : partsIn [Part.cores] A = true) :
    onlyParts A s { t with cores := x0 } := by
  refine ⟨fun p hp => ?_⟩
  cases p <;> first | exact absurd (partsIn_mem hA (by decide)) hp | exact h.same _ hp

theorem onlyParts.set_ctr {A : List Part} {s t : State} {x0 : List (CKey × Nat)} (h : onlyParts A s t) (hA : partsIn [Part.ctr] A = true) :
    onlyParts A s { t with ctr := x0 } := by
  refine ⟨fun p hp => ?_⟩
  cases p <;> first | exact absurd (partsIn_mem hA (by decide)) hp | exact h.same _ hp

theorem onlyParts.set_fab {A : List Part} {s t : State} {x0 : Fabric} (h : onlyParts A s t) (hA : partsIn [Part.fab] A = true) :
    onlyParts A s { t with fab := x0 } := by
  refine ⟨fun p hp => ?_⟩
  cases p <;> first | exact absurd (partsIn_mem hA (by decide)) hp | exact h.same _ hp

theorem onlyParts.set_flaws {A : List Part} {s t : State} {x0 : List (Nat × Bool)} (h : onlyParts A s t) (hA : partsIn [Part.flaws] A = true) :
    onlyParts A s { t with flaws := x0 } := by
  refine ⟨fun p hp => ?_⟩
  cases p <;> first | exact absurd (partsIn_mem hA (by decide)) hp | exact h.same _ hp

theorem onlyParts.set_flaws_hostMem_hostMarks {A : List Part} {s t : State} {x0 : List (Nat × Bool)} {x1 : Mem} {x2 : List Nat} (h : onlyParts A s t) (hA : partsIn [Part.flaws, Part.hostMem, Part.hostMarks] A = true) :
    onlyParts A s { t with flaws := x0, hostMem := x1, hostMarks := x2 } := by
  refine ⟨fun p hp => ?_⟩
  cases p <;> first | exact absurd (partsIn_mem hA (by decide)) hp | exact h.same _ hp

theorem onlyParts.set_fns {A : List Part} {s t : State} {x0 : List Fn} (h : onlyParts A s t) (hA : partsIn [Part.fns] A = true) :
    onlyParts A s { t with fns := x0 } := by
  refine ⟨fun p hp => ?_⟩
  cases p <;> first | exact absurd (partsIn_mem hA (by decide)) hp | exact h.same _ hp

theorem onlyParts.set_free {A : List Part} {s t : State} {x0 : Nat} (h : onlyParts A s t) (hA : partsIn [Part.free] A = true) :
    onlyParts A s { t with free := x0 } := by
  refine ⟨fun p hp => ?_⟩
  cases p <;> first | exact absurd (partsIn_mem hA (by decide)) hp | exact h.same _ hp

theorem onlyParts.set_hostMem {A : List Part} {s t : State} {x0 : Mem} (h : onlyParts A s t) (hA : partsIn [Part.hostMem] A = true) :
    onlyParts A s { t with hostMem := x0 } := by
  refine ⟨fun p hp => ?_⟩
  cases p <;> first | exact absurd (partsIn_mem hA (by decide)) hp | exact h.same _ hp

theorem onlyParts.set_marks {A : List Part} {s t : State} {x0 : List Nat} (h : onlyParts A s t) (hA : partsIn [Part.marks] A = true) :
    onlyParts A s { t with marks := x0 } := by
  refine ⟨fun p hp => ?_⟩
  cases p <;> first | exact absurd (partsIn_mem hA (by decide)) hp | exact h.same _ hp

theorem onlyParts.set_mem_marks {A : List Part} {s t : State} {x0 : Mem} {x1 : List Nat} (h : onlyParts A s t) (hA : partsIn [Part.mem, Part.marks] A = true) :
    onlyParts A s { t with mem := x0, marks := x1 } := by
  refine ⟨fun p hp => ?_⟩
  cases p <;> first | exact absurd (partsIn_mem hA (by decide)) hp | exact h.same _ hp

theorem onlyParts.set_mg {A : List Part} {s t : State} {x0 : Mgmt} (h : onlyParts A s t) (hA : partsIn [Part.mg] A = true) :
    onlyParts A s { t with mg := x0 } := by
  refine ⟨fun p hp => ?_⟩
  cases p <;> first | exact absurd (partsIn_mem hA (by decide)) hp | exact h.same _ hp

theorem onlyParts.set_pending {A : List Part} {s t : State} {x0 : List Instr} (h : onlyParts A s t) (hA : partsIn [Part.pending] A = true) :
    onlyParts A s { t with pending := x0 } := by
  refine ⟨fun p hp => ?_⟩
  cases p <;> first | exact absurd (partsIn_mem hA (by decide)) hp | exact h.same _ hp

theorem onlyParts.set_pool {A : List Part} {s t : State} {x0 : Pool} (h : onlyParts A s t) (hA : partsIn [Part.pool] A = true) :
    onlyParts A s { t with pool := x0 } := by
  refine ⟨fun p hp => ?_⟩
  cases p <;> first | exact absurd (partsIn_mem hA (by decide)) hp | exact h.same _ hp

theorem onlyParts.set_pool_sv {A : List Part} {s t : State} {x0 : Pool} {x1 : Serving} (h : onlyParts A s t) (hA : partsIn [Part.pool, Part.sv] A = true) :
    onlyParts A s { t with pool := x0, sv := x1 } := by
  refine ⟨fun p hp => ?_⟩
  cases p <;> first | exact absurd (partsIn_mem hA (by decide)) hp | exact h.same _ hp

theorem onlyParts.set_pw {A : List Part} {s t : State} {x0 : Power} (h : onlyParts A s t) (hA : partsIn [Part.pw] A = true) :
    onlyParts A s { t with pw := x0 } := by
  refine ⟨fun p hp => ?_⟩
  cases p <;> first | exact absurd (partsIn_mem hA (by decide)) hp | exact h.same _ hp

theorem onlyParts.set_pw_bt_fns_ctr {A : List Part} {s t : State} {x0 : Power} {x1 : Boot} {x2 : List Fn} {x3 : List (CKey × Nat)} (h : onlyParts A s t) (hA : partsIn [Part.pw, Part.bt, Part.fns, Part.ctr] A = true) :
    onlyParts A s { t with pw := x0, bt := x1, fns := x2, ctr := x3 } := by
  refine ⟨fun p hp => ?_⟩
  cases p <;> first | exact absurd (partsIn_mem hA (by decide)) hp | exact h.same _ hp

theorem onlyParts.set_pw_bt_fns_fab {A : List Part} {s t : State} {x0 : Power} {x1 : Boot} {x2 : List Fn} {x3 : Fabric} (h : onlyParts A s t) (hA : partsIn [Part.pw, Part.bt, Part.fns, Part.fab] A = true) :
    onlyParts A s { t with pw := x0, bt := x1, fns := x2, fab := x3 } := by
  refine ⟨fun p hp => ?_⟩
  cases p <;> first | exact absurd (partsIn_mem hA (by decide)) hp | exact h.same _ hp

theorem onlyParts.set_pw_bt_fns_shared_sv_fab_mg {A : List Part} {s t : State} {x0 : Power} {x1 : Boot} {x2 : List Fn} {x3 : List Shared} {x4 : Serving} {x5 : Fabric} {x6 : Mgmt} (h : onlyParts A s t) (hA : partsIn [Part.pw, Part.bt, Part.fns, Part.shared, Part.sv, Part.fab, Part.mg] A = true) :
    onlyParts A s { t with pw := x0, bt := x1, fns := x2, shared := x3, sv := x4, fab := x5, mg := x6 } := by
  refine ⟨fun p hp => ?_⟩
  cases p <;> first | exact absurd (partsIn_mem hA (by decide)) hp | exact h.same _ hp

theorem onlyParts.set_pw_bt_mg {A : List Part} {s t : State} {x0 : Power} {x1 : Boot} {x2 : Mgmt} (h : onlyParts A s t) (hA : partsIn [Part.pw, Part.bt, Part.mg] A = true) :
    onlyParts A s { t with pw := x0, bt := x1, mg := x2 } := by
  refine ⟨fun p hp => ?_⟩
  cases p <;> first | exact absurd (partsIn_mem hA (by decide)) hp | exact h.same _ hp

theorem onlyParts.set_pw_mg {A : List Part} {s t : State} {x0 : Power} {x1 : Mgmt} (h : onlyParts A s t) (hA : partsIn [Part.pw, Part.mg] A = true) :
    onlyParts A s { t with pw := x0, mg := x1 } := by
  refine ⟨fun p hp => ?_⟩
  cases p <;> first | exact absurd (partsIn_mem hA (by decide)) hp | exact h.same _ hp

theorem onlyParts.set_pw_quads {A : List Part} {s t : State} {x0 : Power} {x1 : List Quad} (h : onlyParts A s t) (hA : partsIn [Part.pw, Part.quads] A = true) :
    onlyParts A s { t with pw := x0, quads := x1 } := by
  refine ⟨fun p hp => ?_⟩
  cases p <;> first | exact absurd (partsIn_mem hA (by decide)) hp | exact h.same _ hp

theorem onlyParts.set_quads {A : List Part} {s t : State} {x0 : List Quad} (h : onlyParts A s t) (hA : partsIn [Part.quads] A = true) :
    onlyParts A s { t with quads := x0 } := by
  refine ⟨fun p hp => ?_⟩
  cases p <;> first | exact absurd (partsIn_mem hA (by decide)) hp | exact h.same _ hp

theorem onlyParts.set_quads_fab {A : List Part} {s t : State} {x0 : List Quad} {x1 : Fabric} (h : onlyParts A s t) (hA : partsIn [Part.quads, Part.fab] A = true) :
    onlyParts A s { t with quads := x0, fab := x1 } := by
  refine ⟨fun p hp => ?_⟩
  cases p <;> first | exact absurd (partsIn_mem hA (by decide)) hp | exact h.same _ hp

theorem onlyParts.set_readData {A : List Part} {s t : State} {x0 : List Byte × Bool} (h : onlyParts A s t) (hA : partsIn [Part.readData] A = true) :
    onlyParts A s { t with readData := x0 } := by
  refine ⟨fun p hp => ?_⟩
  cases p <;> first | exact absurd (partsIn_mem hA (by decide)) hp | exact h.same _ hp

theorem onlyParts.set_shared {A : List Part} {s t : State} {x0 : List Shared} (h : onlyParts A s t) (hA : partsIn [Part.shared] A = true) :
    onlyParts A s { t with shared := x0 } := by
  refine ⟨fun p hp => ?_⟩
  cases p <;> first | exact absurd (partsIn_mem hA (by decide)) hp | exact h.same _ hp

theorem onlyParts.set_sv {A : List Part} {s t : State} {x0 : Serving} (h : onlyParts A s t) (hA : partsIn [Part.sv] A = true) :
    onlyParts A s { t with sv := x0 } := by
  refine ⟨fun p hp => ?_⟩
  cases p <;> first | exact absurd (partsIn_mem hA (by decide)) hp | exact h.same _ hp

end Sys2Proof.Machine
end

