-- ==== Sys2Proof/Laws/FramesShared.lean ====
section
/-! SUPPORT. Frames of shared operations, the callboard, the array, requests and jobs: X_only says which parts of
the state X can change, every other part being as it was. -/

namespace Sys2Proof.Machine

/-! ### Machine/Flags.lean -/

theorem State.bump_only (s : Sys2Proof.Machine.State) (grp : ℕ) (scope : ℕ) (ix : ℕ) (n : ℕ) : onlyParts [.ctr] s (State.bump s grp scope ix n) := by
  unfold State.bump
  try dsimp only
  refine onlyParts.set_ctr ?_ rfl
  exact onlyParts.rfl'

theorem State.setCtr_only (s : Sys2Proof.Machine.State) (grp : ℕ) (scope : ℕ) (ix : ℕ) (v : ℕ) : onlyParts [.ctr] s (State.setCtr s grp scope ix v) := by
  unfold State.setCtr
  try dsimp only
  refine onlyParts.set_ctr ?_ rfl
  exact onlyParts.rfl'

theorem State.clearCtr_only (s : Sys2Proof.Machine.State) (grps : List ℕ) (scope : ℕ) : onlyParts [.ctr] s (State.clearCtr s grps scope) := by
  unfold State.clearCtr
  try dsimp only
  refine onlyParts.set_ctr ?_ rfl
  exact onlyParts.rfl'

theorem State.updFn_only (s : Sys2Proof.Machine.State) (f : ℕ) (g : Sys2Proof.Machine.Fn → Sys2Proof.Machine.Fn) : onlyParts [.fns] s (State.updFn s f g) := by
  unfold State.updFn
  try dsimp only
  refine onlyParts.set_fns ?_ rfl
  exact onlyParts.rfl'

theorem State.updQuad_only (s : Sys2Proof.Machine.State) (q : ℕ) (g : Sys2Proof.Machine.Quad → Sys2Proof.Machine.Quad) : onlyParts [.quads] s (State.updQuad s q g) := by
  unfold State.updQuad
  try dsimp only
  refine onlyParts.set_quads ?_ rfl
  exact onlyParts.rfl'

theorem State.updQd_only (s : Sys2Proof.Machine.State) (q : ℕ) (g : Sys2Proof.Machine.QDim → Sys2Proof.Machine.QDim) : onlyParts [.pw] s (State.updQd s q g) := by
  unfold State.updQd
  try dsimp only
  refine onlyParts.set_pw ?_ rfl
  exact onlyParts.rfl'

theorem State.signal_only (s : Sys2Proof.Machine.State) (f : ℕ) : onlyParts [.fns, .ctr] s (State.signal s f) := by
  unfold State.signal
  try dsimp only
  refine onlyParts.ite ?_ (fun h1 => ?_)
  · refine onlyParts.after (State.bump_only ..) rfl ?_
    refine onlyParts.after (State.updFn_only ..) rfl ?_
    exact onlyParts.rfl'
  · refine onlyParts.after (State.updFn_only ..) rfl ?_
    exact onlyParts.rfl'

theorem State.raiseAt_only (s : Sys2Proof.Machine.State) (f : ℕ) (code : ℕ) (quad : ℕ) (detail : List Sys2Proof.Byte) : onlyParts [.fns, .mg, .ctr] s (State.raiseAt s f code quad detail) := by
  unfold State.raiseAt
  try dsimp only
  refine onlyParts.ite ?_ (fun h1 => ?_)
  · refine onlyParts.after (State.signal_only ..) rfl ?_
    refine onlyParts.after (State.updFn_only ..) rfl ?_
    exact onlyParts.rfl'
  · refine onlyParts.set_mg ?_ rfl
    exact h1

theorem State.raise_only (s : Sys2Proof.Machine.State) (code : ℕ) (quad : ℕ) (detail : List Sys2Proof.Byte) : onlyParts [.fns, .mg, .ctr] s (State.raise s code quad detail) := by
  unfold State.raise
  try dsimp only
  refine onlyParts.after (State.raiseAt_only ..) rfl ?_
  exact onlyParts.rfl'

theorem State.setRdyMap_only (s : Sys2Proof.Machine.State) (m : BitVec 47) : onlyParts [.bt, .fns, .mg, .ctr] s (State.setRdyMap s m) := by
  unfold State.setRdyMap
  try dsimp only
  refine onlyParts.ite ?_ (fun h1 => ?_)
  · refine onlyParts.foldl ?_ (fun _ _ h2 => ?_)
    · refine onlyParts.set_bt ?_ rfl
      exact onlyParts.rfl'
    · try dsimp only
      refine onlyParts.after (State.raiseAt_only ..) rfl ?_
      exact h2
  · exact onlyParts.rfl'

theorem State.setRdy_only (s : Sys2Proof.Machine.State) (i : ℕ) (b : Bool) : onlyParts [.bt, .fns, .mg, .ctr] s (State.setRdy s i b) := by
  unfold State.setRdy
  try dsimp only
  refine onlyParts.after (State.setRdyMap_only ..) rfl ?_
  exact onlyParts.rfl'

theorem State.trackNormal_only (s : Sys2Proof.Machine.State) : onlyParts [.pw] s (State.trackNormal s) := by
  unfold State.trackNormal
  try dsimp only
  refine onlyParts.set_pw ?_ rfl
  exact onlyParts.rfl'

theorem State.thermal_only (s : Sys2Proof.Machine.State) (kind : ℕ) : onlyParts [.fns, .mg, .ctr] s (State.thermal s kind) := by
  unfold State.thermal
  try dsimp only
  refine onlyParts.after (State.raise_only ..) rfl ?_
  exact onlyParts.rfl'

theorem State.power_only (s : Sys2Proof.Machine.State) (kind : ℕ) : onlyParts [.fns, .mg, .ctr] s (State.power s kind) := by
  unfold State.power
  try dsimp only
  refine onlyParts.after (State.raise_only ..) rfl ?_
  exact onlyParts.rfl'

theorem State.firmware_only (s : Sys2Proof.Machine.State) (kind : ℕ) (status : ℕ) (version : ℕ) : onlyParts [.fns, .mg, .ctr] s (State.firmware s kind status version) := by
  unfold State.firmware
  try dsimp only
  refine onlyParts.after (State.raise_only ..) rfl ?_
  exact onlyParts.rfl'

theorem State.freeVal_only (s : Sys2Proof.Machine.State) : onlyParts [.free] s (State.freeVal s).2 := by
  unfold State.freeVal
  try dsimp only
  refine onlyParts.set_free ?_ rfl
  exact onlyParts.rfl'

theorem State.freeVal_only' {s : Sys2Proof.Machine.State} {t0 : State} {o0 : _} (e0 : State.freeVal s = (o0, t0)) : onlyParts [.free] s t0 := by
  have h := State.freeVal_only s
  rw [e0] at h
  exact h

/-! ### Machine/Ops.lean -/

theorem State.dmaWrite_only (s : Sys2Proof.Machine.State) (f : ℕ) (a : ℕ) (bs : List Sys2Proof.Byte) : onlyParts [.hostMem, .ctr] s (State.dmaWrite s f a bs) := by
  unfold State.dmaWrite
  try dsimp only
  refine onlyParts.ite ?_ (fun h1 => ?_)
  · refine onlyParts.after (State.bump_only ..) rfl ?_
    refine onlyParts.set_hostMem ?_ rfl
    exact onlyParts.rfl'
  · refine onlyParts.set_hostMem ?_ rfl
    exact onlyParts.rfl'

theorem State.dmaRead_only (s : Sys2Proof.Machine.State) (f : ℕ) (a : ℕ) (n : ℕ) (keep : Bool) : onlyParts [.fns, .ctr] s (State.dmaRead s f a n keep).2 := by
  unfold State.dmaRead
  try dsimp only
  refine onlyParts.ite ?_ (fun h1 => ?_)
  · refine onlyParts.ite .rfl' (fun h2 => ?_)
    refine onlyParts.after (State.updFn_only ..) rfl ?_
    exact h2
  · refine onlyParts.after (State.bump_only ..) rfl ?_
    exact h1

theorem State.dmaRead_only' {s : Sys2Proof.Machine.State} {f : ℕ} {a : ℕ} {n : ℕ} {keep : Bool} {t0 : State} {o0 : _} (e0 : State.dmaRead s f a n keep = (o0, t0)) : onlyParts [.fns, .ctr] s t0 := by
  have h := State.dmaRead_only s f a n keep
  rw [e0] at h
  exact h

theorem State.withHost_only (s : Sys2Proof.Machine.State) (h : Sys2Proof.HostView) : onlyParts [.flaws, .hostMem, .hostMarks] s (State.withHost s h) := by
  unfold State.withHost
  try dsimp only
  refine onlyParts.set_flaws_hostMem_hostMarks ?_ rfl
  exact onlyParts.rfl'

theorem State.mend_only (s : Sys2Proof.Machine.State) (a : ℕ) (n : ℕ) : onlyParts [.flaws] s (State.mend s a n) := by
  unfold State.mend
  try dsimp only
  refine onlyParts.set_flaws ?_ rfl
  exact onlyParts.rfl'

theorem State.devWrite_only (s : Sys2Proof.Machine.State) (a : ℕ) (bs : List Sys2Proof.Byte) (poison : Bool) : onlyParts [.mem, .marks, .flaws] s (State.devWrite s a bs poison) := by
  unfold State.devWrite
  try dsimp only
  refine onlyParts.ite .rfl' (fun h1 => ?_)
  refine onlyParts.set_mem_marks ?_ rfl
  refine onlyParts.after (State.mend_only ..) rfl ?_
  exact h1

theorem State.devPut_only (s : Sys2Proof.Machine.State) (a : ℕ) (bs : List Sys2Proof.Byte) (pois : List (ℕ × ℕ)) : onlyParts [.mem, .marks, .flaws] s (State.devPut s a bs pois) := by
  unfold State.devPut
  try dsimp only
  refine onlyParts.ite ?_ (fun h1 => ?_)
  · refine onlyParts.after (State.devWrite_only ..) rfl ?_
    exact onlyParts.rfl'
  · refine onlyParts.set_marks ?_ rfl
    exact h1

theorem State.holeAccess_only (s : Sys2Proof.Machine.State) (q : ℕ) : onlyParts [.ctr] s (State.holeAccess s q) := by
  unfold State.holeAccess
  try dsimp only
  refine onlyParts.after (State.bump_only ..) rfl ?_
  exact onlyParts.rfl'

theorem State.allocEvict_only (tier q cls len : ℕ) (ne : Bool) : ∀ (k : ℕ) (s : Sys2Proof.Machine.State),
    onlyParts [.pool, .ctr] s (State.allocEvict tier q cls len ne k s).2
  | 0, s => by
    unfold State.allocEvict
    split <;> exact onlyParts.rfl'
  | k + 1, s => by
    unfold State.allocEvict
    split
    · exact onlyParts.rfl'
    · dsimp only
      split
      · exact onlyParts.rfl'
      · split
        · exact onlyParts.rfl'
        · refine onlyParts.after (State.allocEvict_only tier q cls len ne k _) rfl ?_
          exact onlyParts.after (State.bump_only ..) rfl (onlyParts.set_pool onlyParts.rfl' rfl)

theorem State.allocEvict_only' {tier q cls len : ℕ} {ne : Bool} {k : ℕ} {s : Sys2Proof.Machine.State} {t0 : State} {o0 : _}
    (e0 : State.allocEvict tier q cls len ne k s = (o0, t0)) : onlyParts [.pool, .ctr] s t0 := by
  have h := State.allocEvict_only tier q cls len ne k s
  rw [e0] at h
  exact h

theorem State.allocWings_only (q len : ℕ) : ∀ (k : ℕ) (s : Sys2Proof.Machine.State),
    onlyParts [.pool, .ctr] s (State.allocWings q len k s).2
  | 0, s => by
    unfold State.allocWings
    split <;> exact onlyParts.rfl'
  | k + 1, s => by
    unfold State.allocWings
    split
    · exact onlyParts.rfl'
    · dsimp only
      split
      · exact onlyParts.rfl'
      · refine onlyParts.after (State.allocWings_only q len k _) rfl ?_
        exact onlyParts.after (State.bump_only ..) rfl (onlyParts.set_pool onlyParts.rfl' rfl)

theorem State.allocWings_only' {q len k : ℕ} {s : Sys2Proof.Machine.State} {t0 : State} {o0 : _}
    (e0 : State.allocWings q len k s = (o0, t0)) : onlyParts [.pool, .ctr] s t0 := by
  have h := State.allocWings_only q len k s
  rw [e0] at h
  exact h

theorem State.hold_only (s : Sys2Proof.Machine.State) (tier : ℕ) (oid : ℕ) (who : Sys2Proof.Machine.Holder) : onlyParts [.pool] s (State.hold s tier oid who) := by
  unfold State.hold
  try dsimp only
  refine onlyParts.set_pool ?_ rfl
  exact onlyParts.rfl'

theorem State.unhold_only (s : Sys2Proof.Machine.State) (tier : ℕ) (oid : ℕ) (who : Sys2Proof.Machine.Holder) : onlyParts [.pool] s (State.unhold s tier oid who) := by
  unfold State.unhold
  try dsimp only
  refine onlyParts.set_pool ?_ rfl
  exact onlyParts.rfl'

theorem State.unholdAll_only (s : Sys2Proof.Machine.State) (who : Sys2Proof.Machine.Holder) : onlyParts [.pool] s (State.unholdAll s who) := by
  unfold State.unholdAll
  try dsimp only
  refine onlyParts.foldl (onlyParts.rfl') (fun _ _ h1 => ?_)
  try dsimp only
  refine onlyParts.after (State.unhold_only ..) rfl ?_
  exact h1

theorem State.newOid_only (s : Sys2Proof.Machine.State) (cls : ℕ) : onlyParts [.pool] s (State.newOid s cls).2 := by
  unfold State.newOid
  try dsimp only
  refine onlyParts.set_pool ?_ rfl
  exact onlyParts.rfl'

theorem State.newOid_only' {s : Sys2Proof.Machine.State} {cls : ℕ} {t0 : State} {o0 : _} (e0 : State.newOid s cls = (o0, t0)) : onlyParts [.pool] s t0 := by
  have h := State.newOid_only s cls
  rw [e0] at h
  exact h

theorem State.fill_only (s : Sys2Proof.Machine.State) (rs : List (ℕ × ℕ)) (b : ℕ) (cells : Sys2Proof.Mem) (pois : List (ℕ × ℕ)) :
    onlyParts [.mem, .marks, .flaws] s (State.fill s rs b cells pois) := by
  induction rs generalizing s b with
  | nil => exact onlyParts.rfl'
  | cons r rs ih =>
    obtain ⟨a, n⟩ := r
    unfold State.fill
    refine onlyParts.after (ih _ _) rfl ⟨fun p hp => ?_⟩
    cases p <;> first | exact absurd (by decide) hp | rfl

theorem State.fillCopy_only (s : Sys2Proof.Machine.State) (p : Sys2Proof.Machine.Placing) (r : Sys2Proof.Machine.Rec) : onlyParts [.mem, .marks, .flaws] s (State.fillCopy s p r) := by
  unfold State.fillCopy
  try dsimp only
  split
  · try dsimp only
    refine onlyParts.after (State.fill_only ..) rfl ?_
    exact onlyParts.rfl'
  · try dsimp only
    · try dsimp only
      refine onlyParts.after (State.fill_only ..) rfl ?_
      exact onlyParts.rfl'

theorem State.noteMarks_only (s : Sys2Proof.Machine.State) (k : ℕ) (as : List ℕ) : onlyParts [.ctr] s (State.noteMarks s k as) := by
  unfold State.noteMarks
  try dsimp only
  refine onlyParts.foldl (onlyParts.rfl') (fun _ _ h1 => ?_)
  try dsimp only
  split
  · try dsimp only
    refine onlyParts.after (State.bump_only ..) rfl ?_
    exact h1
  · try dsimp only
    exact h1

theorem State.lineError_only (s : Sys2Proof.Machine.State) (k : ℕ) (bad : Bool) : onlyParts [.quads, .ctr] s (State.lineError s k bad) := by
  unfold State.lineError
  try dsimp only
  refine onlyParts.ite .rfl' (fun h1 => ?_)
  refine onlyParts.ite ?_ (fun h2 => ?_)
  · refine onlyParts.after (State.bump_only ..) rfl ?_
    exact h1
  · refine onlyParts.after (State.updQuad_only ..) rfl ?_
    exact h2

theorem State.noteReads_only (s : Sys2Proof.Machine.State) (q : ℕ) (ps : List Sys2Proof.Machine.Piece) : onlyParts [.quads, .ctr] s (State.noteReads s q ps) := by
  unfold State.noteReads
  try dsimp only
  refine onlyParts.foldl ?_ (fun _ _ h2 => ?_)
  · iterate 3 refine onlyParts.after (State.noteMarks_only ..) rfl ?_
    refine onlyParts.ite ?_ (fun h1 => ?_)
    · refine onlyParts.after (State.bump_only ..) rfl ?_
      exact onlyParts.rfl'
    · exact onlyParts.rfl'
  · try dsimp only
    refine onlyParts.after (State.lineError_only ..) rfl ?_
    exact h2

theorem State.startPlacing_only (s : Sys2Proof.Machine.State) (p : Sys2Proof.Machine.Placing) : onlyParts [.pool] s (State.startPlacing s p) := by
  unfold State.startPlacing
  try dsimp only
  split
  · try dsimp only
    refine onlyParts.after (State.hold_only ..) rfl ?_
    refine onlyParts.set_pool ?_ rfl
    exact onlyParts.rfl'
  · try dsimp only
    refine onlyParts.set_pool ?_ rfl
    exact onlyParts.rfl'

theorem State.dropPlacing_only (s : Sys2Proof.Machine.State) (p : Sys2Proof.Machine.Placing) : onlyParts [.pool] s (State.dropPlacing s p) := by
  unfold State.dropPlacing
  try dsimp only
  refine onlyParts.after (State.unholdAll_only ..) rfl ?_
  refine onlyParts.set_pool ?_ rfl
  exact onlyParts.rfl'

/-- Reserving the copies of an object, whether it comes to a state with them or to one without. -/

theorem State.reserveIn_only (r : Rec) (ne : Bool) : ∀ (l : List ℕ) (s : Sys2Proof.Machine.State),
    onlyParts [.pool, .ctr] s (State.reserveIn s r ne l).2 ∧ ∀ t, (State.reserveIn s r ne l).1 = some t → onlyParts [.pool, .ctr] s t
  | [], s => by
    unfold State.reserveIn
    exact ⟨onlyParts.rfl', fun t h => by cases h; exact onlyParts.rfl'⟩
  | q :: l, s => by
    unfold State.reserveIn
    generalize hv : (if r.oid >>> 60 = 4 then State.allocWings q r.len s.pool.recs.length s
      else State.allocEvict r.tier q 0 r.len ne s.pool.recs.length s) = v
    have h1 : onlyParts [.pool, .ctr] s v.2 := by
      subst hv
      split
      · exact State.allocWings_only ..
      · exact State.allocEvict_only ..
    obtain ⟨ext, s1⟩ := v
    cases ext with
    | none => exact ⟨onlyParts.after (State.bump_only ..) rfl (onlyParts.set_pool h1 rfl), fun t h => nomatch h⟩
    | some e =>
      have k := State.reserveIn_only r ne l
        { s1 with pool := { s1.pool with recs := s1.pool.recs ++ [{ r with copy := q, ext := e, committed := false }] } }
      exact ⟨onlyParts.after k.1 rfl (onlyParts.set_pool h1 rfl), fun t h => onlyParts.after (k.2 t h) rfl (onlyParts.set_pool h1 rfl)⟩

theorem State.reserveNew_only (s : Sys2Proof.Machine.State) (cls : ℕ) (r : Rec) (ne : Bool) :
    onlyParts [.pool, .ctr] s (State.reserveNew s cls r ne).2 ∧ ∀ t, (State.reserveNew s cls r ne).1 = some t → onlyParts [.pool, .ctr] s t := by
  obtain ⟨k1, k2⟩ := State.reserveIn_only r ne (maskList r.qmask 4) s
  unfold State.reserveNew State.reserve
  generalize State.reserveIn s r ne (maskList r.qmask 4) = v at k1 k2
  obtain ⟨o, u⟩ := v
  cases o with
  | none => exact ⟨k1, fun t h => nomatch h⟩
  | some t => exact ⟨k1, fun t' h => by cases h; exact onlyParts.set_pool (k2 t rfl) rfl⟩

theorem State.commitPlacing_only (s : Sys2Proof.Machine.State) (p : Sys2Proof.Machine.Placing) : onlyParts [.mem, .marks, .flaws, .pool, .quads, .ctr] s (State.commitPlacing s p).2 := by
  unfold State.commitPlacing
  extract_lets copies pieces readers s1 s2 p3 s3 s4 p5 s5 s6 s7
  have h1 : onlyParts [.mem, .marks, .flaws, .pool, .quads, .ctr] s s1 :=
    onlyParts.foldl onlyParts.rfl' (fun _ _ h => onlyParts.after (State.noteReads_only ..) rfl h)
  have h2 : onlyParts [.mem, .marks, .flaws, .pool, .quads, .ctr] s s2 :=
    onlyParts.foldl h1 (fun _ _ h => onlyParts.after (State.noteMarks_only ..) rfl (onlyParts.after (State.fillCopy_only ..) rfl h))
  have h4 : onlyParts [.mem, .marks, .flaws, .pool, .quads, .ctr] s s4 := onlyParts.set_pool (onlyParts.set_pool h2 rfl) rfl
  have h5 : onlyParts [.mem, .marks, .flaws, .pool, .quads, .ctr] s s5 := onlyParts.ite h4 (fun _ => onlyParts.set_pool h4 rfl)
  exact onlyParts.foldl (onlyParts.after (State.unholdAll_only ..) rfl h5) (fun _ _ h => onlyParts.after (State.bump_only ..) rfl h)

theorem State.commitPlacing_only' {s : Sys2Proof.Machine.State} {p : Sys2Proof.Machine.Placing} {t0 : State} {o0 : _} (e0 : State.commitPlacing s p = (o0, t0)) : onlyParts [.mem, .marks, .flaws, .pool, .quads, .ctr] s t0 := by
  have h := State.commitPlacing_only s p
  rw [e0] at h
  exact h

theorem State.wake_only (s : Sys2Proof.Machine.State) (q : ℕ) : onlyParts [.pw] s (State.wake s q) := by
  unfold State.wake
  try dsimp only
  refine onlyParts.ite .rfl' (fun h1 => ?_)
  refine onlyParts.after (State.updQd_only ..) rfl ?_
  exact h1

/-! ### Machine/Operands.lean -/

theorem State.updSlot_only (s : Sys2Proof.Machine.State) (f : ℕ) (n : ℕ) (g : Sys2Proof.Machine.Slot → Sys2Proof.Machine.Slot) : onlyParts [.fns] s (State.updSlot s f n g) := by
  unfold State.updSlot
  try dsimp only
  refine onlyParts.after (State.updFn_only ..) rfl ?_
  exact onlyParts.rfl'

theorem State.finishSlot_only (s : Sys2Proof.Machine.State) (f : ℕ) (n : ℕ) (bytes : List Sys2Proof.Byte) : onlyParts [.fns, .mg, .ctr] s (State.finishSlot s f n bytes) := by
  unfold State.finishSlot
  try dsimp only
  refine onlyParts.ite ?_ (fun h1 => ?_)
  · refine onlyParts.after (State.updSlot_only ..) rfl ?_
    exact onlyParts.rfl'
  · refine onlyParts.after (State.raiseAt_only ..) rfl ?_
    exact h1

theorem State.complete_only (s : Sys2Proof.Machine.State) (f : ℕ) (n : ℕ) (status : ℕ) (val : ℕ) : onlyParts [.fns, .mg, .ctr] s (State.complete s f n status val) := by
  unfold State.complete
  try dsimp only
  refine onlyParts.after (State.finishSlot_only ..) rfl ?_
  exact onlyParts.rfl'

theorem State.firstReply_only (s : Sys2Proof.Machine.State) (f : ℕ) (n : ℕ) (status : ℕ) (val : ℕ) : onlyParts [.fns] s (State.firstReply s f n status val) := by
  unfold State.firstReply
  try dsimp only
  refine onlyParts.after (State.updSlot_only ..) rfl ?_
  exact onlyParts.rfl'

theorem State.completeOpt_only (s : Sys2Proof.Machine.State) (w : Option (ℕ × ℕ)) (status : ℕ) (val : ℕ) : onlyParts [.fns, .mg, .ctr] s (State.completeOpt s w status val) := by
  unfold State.completeOpt
  try dsimp only
  split
  · try dsimp only
    refine onlyParts.after (State.complete_only ..) rfl ?_
    exact onlyParts.rfl'
  · exact onlyParts.rfl'

theorem State.completeAll_only (s : Sys2Proof.Machine.State) (ws : List (ℕ × ℕ)) (status : ℕ) (val : ℕ) : onlyParts [.fns, .mg, .ctr] s (State.completeAll s ws status val) := by
  unfold State.completeAll
  try dsimp only
  refine onlyParts.foldl (onlyParts.rfl') (fun _ _ h1 => ?_)
  try dsimp only
  refine onlyParts.after (State.complete_only ..) rfl ?_
  exact h1

theorem State.completeAs_only (s : Sys2Proof.Machine.State) (w : Option (ℕ × ℕ)) (status : ℕ) (off : ℕ) : onlyParts [.fns, .mg, .ctr] s (State.completeAs s w status off) := by
  unfold State.completeAs
  try dsimp only
  split
  · try dsimp only
    refine onlyParts.after (State.complete_only ..) rfl ?_
    exact onlyParts.rfl'
  · exact onlyParts.rfl'

theorem State.answer_only (s : Sys2Proof.Machine.State) (p : Sys2Proof.Machine.Pkt) (arg2 : Sys2Proof.Machine.Rep) : onlyParts [.fns, .mg, .ctr] s (State.answer s p arg2) := by
  unfold State.answer
  try dsimp only
  split
  · try dsimp only
    refine onlyParts.after (State.complete_only ..) rfl ?_
    exact onlyParts.rfl'
  · try dsimp only
    refine onlyParts.after (State.complete_only ..) rfl ?_
    exact onlyParts.rfl'
  · try dsimp only
    refine onlyParts.after (State.firstReply_only ..) rfl ?_
    exact onlyParts.rfl'
  · try dsimp only
    exact onlyParts.rfl'

/-- What turns a packet away changes the function's counters and wakes dark quadrants, nothing else (R290, R359). -/

theorem State.refuse_only {s : Sys2Proof.Machine.State} {p : Pkt} {r : Rep} {t : Sys2Proof.Machine.State} (e : State.refuse s p = some (r, t)) :
    onlyParts [.pw, .ctr] s t := by
  unfold State.refuse at e
  dsimp only at e
  have w : onlyParts [.pw, .ctr] s ((maskList (s.namedQuads p) 4).foldl State.wake s) :=
    onlyParts.foldl onlyParts.rfl' (fun _ _ h => onlyParts.after (State.wake_only ..) rfl h)
  have b : onlyParts [.pw, .ctr] s (s.bump 0x01 p.f 3 1) := onlyParts.mono (State.bump_only ..) rfl
  repeat' split at e
  all_goals first
    | cases e; exact onlyParts.rfl'
    | cases e; exact b
    | cases e; exact w
    | cases e

theorem State.take_only (s : Sys2Proof.Machine.State) (f : ℕ) (n : ℕ) : onlyParts [.fns] s (State.take s f n) := by
  unfold State.take
  try dsimp only
  refine onlyParts.after (State.updFn_only ..) rfl ?_
  exact onlyParts.rfl'

theorem State.command_only {A : List Part} {s : Sys2Proof.Machine.State} {f n op : ℕ} {rule : Pkt → Sys2Proof.Machine.State → Sys2Proof.Machine.State × Rep}
    (hr : ∀ p u, onlyParts A u (rule p u).1) (hA : partsIn [.pw, .fns, .mg, .ctr] A = true) : onlyParts A s (State.command s f n op rule) := by
  have ans : ∀ u p r, onlyParts A u (State.answer u p r) := fun u p r =>
    onlyParts.mono (B := [.pw, .fns, .mg, .ctr]) (onlyParts.mono (State.answer_only ..) rfl) hA
  have tk : onlyParts A s (s.take f n) := onlyParts.mono (B := [.pw, .fns, .mg, .ctr]) (onlyParts.mono (State.take_only ..) rfl) hA
  have tr : ∀ {x y z : Sys2Proof.Machine.State}, onlyParts A x y → onlyParts A y z → onlyParts A x z :=
    fun h k => ⟨fun p hp => Part.same_trans (h.same p hp) (k.same p hp)⟩
  unfold State.command
  split
  · dsimp only
    split
    · rename_i r s2 e
      exact tr tk (tr (onlyParts.mono (B := [.pw, .fns, .mg, .ctr]) (onlyParts.mono (State.refuse_only e) rfl) hA) (ans ..))
    · exact tr tk (tr (hr _ _) (ans ..))
  · exact onlyParts.rfl'

theorem State.report_only (s : Sys2Proof.Machine.State) (p : Sys2Proof.Machine.Pkt) (off : ℕ) (buf : ℕ) (len : ℕ) (bs : List Sys2Proof.Byte) (extra : ℕ) : onlyParts [.hostMem, .ctr] s (State.report s p off buf len bs extra).1 := by
  unfold State.report
  try dsimp only
  split
  · try dsimp only
    refine onlyParts.after (State.dmaWrite_only ..) rfl ?_
    exact onlyParts.rfl'
  · try dsimp only
    refine onlyParts.after (State.bump_only ..) rfl ?_
    exact onlyParts.rfl'

theorem State.report_only' {s : Sys2Proof.Machine.State} {p : Sys2Proof.Machine.Pkt} {off : ℕ} {buf : ℕ} {len : ℕ} {bs : List Sys2Proof.Byte} {extra : ℕ} {t0 : State} {o0 : _} (e0 : State.report s p off buf len bs extra = (t0, o0)) : onlyParts [.hostMem, .ctr] s t0 := by
  have h := State.report_only s p off buf len bs extra
  rw [e0] at h
  exact h

/-! ### Machine/CallLights.lean -/

theorem State.setShared_only (s : Sys2Proof.Machine.State) (c : Sys2Proof.Machine.Shared) : onlyParts [.shared] s (State.setShared s c) := by
  unfold State.setShared
  try dsimp only
  refine onlyParts.set_shared ?_ rfl
  exact onlyParts.rfl'

theorem State.setTarget_only (s : Sys2Proof.Machine.State) (t : ℕ) (x : Sys2Proof.Machine.Target) : onlyParts [.fns, .cores] s (State.setTarget s t x) := by
  unfold State.setTarget
  try dsimp only
  refine onlyParts.ite ?_ (fun h1 => ?_)
  · refine onlyParts.after (State.updFn_only ..) rfl ?_
    exact onlyParts.rfl'
  · refine onlyParts.set_cores ?_ rfl
    exact onlyParts.rfl'

theorem State.lightCount_only (s : Sys2Proof.Machine.State) (t : ℕ) (k : ℕ) : onlyParts [.ctr] s (State.lightCount s t k) := by
  unfold State.lightCount
  try dsimp only
  refine onlyParts.ite ?_ (fun h1 => ?_)
  · refine onlyParts.after (State.bump_only ..) rfl ?_
    exact onlyParts.rfl'
  · refine onlyParts.after (State.bump_only ..) rfl ?_
    exact onlyParts.rfl'

theorem State.serve_only (s : Sys2Proof.Machine.State) (t : ℕ) (src : ℕ) : onlyParts [.fns, .cores, .shared] s (State.serve s t src) := by
  unfold State.serve
  try dsimp only
  refine onlyParts.ite ?_ (fun h1 => ?_)
  · refine onlyParts.after (State.setShared_only ..) rfl ?_
    exact onlyParts.rfl'
  · refine onlyParts.after (State.setTarget_only ..) rfl ?_
    exact onlyParts.rfl'

theorem execClaim_only {t : ℕ} {s : Sys2Proof.Machine.State} {t0 : State} (e0 : execClaim t s = .next t0) : onlyParts [.fns, .cores, .shared, .ctr] s t0 := by
  unfold execClaim at e0
  injection e0 with e0
  rw [← e0]
  clear e0
  try dsimp only
  refine onlyParts.ite .rfl' (fun h1 => ?_)
  split
  · try dsimp only
    refine onlyParts.after (State.lightCount_only ..) rfl ?_
    refine onlyParts.after (State.setTarget_only ..) rfl ?_
    refine onlyParts.after (State.serve_only ..) rfl ?_
    exact h1
  · try dsimp only
    refine onlyParts.ite ?_ (fun h2 => ?_)
    · refine onlyParts.after (State.lightCount_only ..) rfl ?_
      refine onlyParts.after (State.setTarget_only ..) rfl ?_
      exact h1
    · refine onlyParts.after (State.lightCount_only ..) rfl ?_
      refine onlyParts.after (State.setTarget_only ..) rfl ?_
      exact h1

theorem State.unserve_only (s : Sys2Proof.Machine.State) (t : ℕ) (src : ℕ) : onlyParts [.fns, .cores, .shared] s (State.unserve s t src) := by
  unfold State.unserve
  try dsimp only
  refine onlyParts.ite ?_ (fun h1 => ?_)
  · refine onlyParts.after (State.setShared_only ..) rfl ?_
    exact onlyParts.rfl'
  · refine onlyParts.after (State.setTarget_only ..) rfl ?_
    exact onlyParts.rfl'

theorem State.eoi_only (s : Sys2Proof.Machine.State) (t : ℕ) (src : ℕ) : onlyParts [.fns, .cores, .shared, .ctr] s (State.eoi s t src) := by
  unfold State.eoi
  try dsimp only
  split
  · try dsimp only
    refine onlyParts.ite ?_ (fun h1 => ?_)
    · refine onlyParts.after (State.lightCount_only ..) rfl ?_
      refine onlyParts.after (State.setTarget_only ..) rfl ?_
      exact onlyParts.rfl'
    · refine onlyParts.ite ?_ (fun h2 => ?_)
      · refine onlyParts.after (State.signal_only ..) rfl ?_
        refine onlyParts.after (State.unserve_only ..) rfl ?_
        refine onlyParts.after (State.setTarget_only ..) rfl ?_
        exact onlyParts.rfl'
      · refine onlyParts.after (State.unserve_only ..) rfl ?_
        refine onlyParts.after (State.setTarget_only ..) rfl ?_
        exact onlyParts.rfl'
  · try dsimp only
    refine onlyParts.after (State.lightCount_only ..) rfl ?_
    refine onlyParts.after (State.setTarget_only ..) rfl ?_
    exact onlyParts.rfl'

theorem execEoi_only {t : ℕ} {src : ℕ} {s : Sys2Proof.Machine.State} {t0 : State} (e0 : execEoi t src s = .next t0) : onlyParts [.fns, .cores, .shared, .ctr] s t0 := by
  unfold execEoi at e0
  injection e0 with e0
  rw [← e0]
  clear e0
  try dsimp only
  refine onlyParts.ite .rfl' (fun h1 => ?_)
  refine onlyParts.after (State.eoi_only ..) rfl ?_
  exact h1

theorem State.swset_only (s : Sys2Proof.Machine.State) (t : ℕ) (mask : BitVec 32) : onlyParts [.fns, .cores, .ctr] s (State.swset s t mask) := by
  unfold State.swset
  try dsimp only
  refine onlyParts.ite ?_ (fun h1 => ?_)
  · refine onlyParts.after (State.signal_only ..) rfl ?_
    refine onlyParts.after (State.setTarget_only ..) rfl ?_
    exact onlyParts.rfl'
  · refine onlyParts.after (State.setTarget_only ..) rfl ?_
    exact onlyParts.rfl'

theorem execSwset_only {t : ℕ} {mask : BitVec 32} {s : Sys2Proof.Machine.State} {t0 : State} (e0 : execSwset t mask s = .next t0) : onlyParts [.fns, .cores, .ctr] s t0 := by
  unfold execSwset at e0
  injection e0 with e0
  rw [← e0]
  clear e0
  try dsimp only
  refine onlyParts.ite .rfl' (fun h1 => ?_)
  refine onlyParts.after (State.swset_only ..) rfl ?_
  exact h1

theorem State.edge_only (s : Sys2Proof.Machine.State) (src : ℕ) (high : Bool) : onlyParts [.shared, .ctr] s (State.edge s src high) := by
  unfold State.edge
  try dsimp only
  refine onlyParts.ite .rfl' (fun h1 => ?_)
  refine onlyParts.ite ?_ (fun h2 => ?_)
  · refine onlyParts.ite ?_ (fun h3 => ?_)
    · refine onlyParts.after (State.setShared_only ..) rfl ?_
      exact h1
    · refine onlyParts.after (State.lightCount_only ..) rfl ?_
      exact h3
  · refine onlyParts.ite ?_ (fun h4 => ?_)
    · refine onlyParts.after (State.setShared_only ..) rfl ?_
      exact h1
    · exact h1

theorem State.pulse_only (s : Sys2Proof.Machine.State) (src : ℕ) : onlyParts [.shared, .ctr] s (State.pulse s src) := by
  unfold State.pulse
  try dsimp only
  refine onlyParts.after (State.edge_only ..) rfl ?_
  refine onlyParts.after (State.edge_only ..) rfl ?_
  exact onlyParts.rfl'

theorem execSourceEdge_only {src : ℕ} {high : Bool} {s : Sys2Proof.Machine.State} {t0 : State} (e0 : execSourceEdge src high s = .next t0) : onlyParts [.shared, .ctr] s t0 := by
  unfold execSourceEdge at e0
  injection e0 with e0
  rw [← e0]
  clear e0
  try dsimp only
  refine onlyParts.after (State.edge_only ..) rfl ?_
  exact onlyParts.rfl'

theorem State.unmask_only (s : Sys2Proof.Machine.State) (f : ℕ) (vec : ℕ) : onlyParts [.fns, .ctr] s (State.unmask s f vec) := by
  unfold State.unmask
  try dsimp only
  refine onlyParts.ite ?_ (fun h1 => ?_)
  · refine onlyParts.after (State.bump_only ..) rfl ?_
    refine onlyParts.after (State.updFn_only ..) rfl ?_
    exact onlyParts.rfl'
  · refine onlyParts.after (State.updFn_only ..) rfl ?_
    exact onlyParts.rfl'

theorem execMsixUnmask_only {f : ℕ} {vec : ℕ} {s : Sys2Proof.Machine.State} {t0 : State} (e0 : execMsixUnmask f vec s = .next t0) : onlyParts [.fns, .ctr] s t0 := by
  unfold execMsixUnmask at e0
  injection e0 with e0
  rw [← e0]
  clear e0
  try dsimp only
  refine onlyParts.ite .rfl' (fun h1 => ?_)
  refine onlyParts.after (State.unmask_only ..) rfl ?_
  exact h1

theorem State.writeTarget_only (s : Sys2Proof.Machine.State) (t : ℕ) (off : ℕ) (v : ℕ) : onlyParts [.fns, .cores, .shared, .ctr] s (State.writeTarget s t off v) := by
  unfold State.writeTarget
  try dsimp only
  refine onlyParts.ite ?_ (fun h1 => ?_)
  · refine onlyParts.ite ?_ (fun h2 => ?_)
    · refine onlyParts.ite ?_ (fun h3 => ?_)
      · refine onlyParts.ite .rfl' (fun h4 => ?_)
        refine onlyParts.ite h4 (fun h5 => ?_)
        refine onlyParts.ite ?_ (fun h6 => ?_)
        · refine onlyParts.after (State.signal_only ..) rfl ?_
          refine onlyParts.after (State.setTarget_only ..) rfl ?_
          exact h5
        · refine onlyParts.after (State.setTarget_only ..) rfl ?_
          exact h5
      · refine onlyParts.after (State.swset_only ..) rfl ?_
        exact onlyParts.rfl'
    · refine onlyParts.ite ?_ (fun h7 => ?_)
      · refine onlyParts.after (State.signal_only ..) rfl ?_
        refine onlyParts.after (State.setTarget_only ..) rfl ?_
        exact onlyParts.rfl'
      · refine onlyParts.after (State.setTarget_only ..) rfl ?_
        exact onlyParts.rfl'
  · refine onlyParts.after (State.eoi_only ..) rfl ?_
    exact onlyParts.rfl'

theorem State.writeShared_only (s : Sys2Proof.Machine.State) (src : ℕ) (v : ℕ) : onlyParts [.shared] s (State.writeShared s src v) := by
  unfold State.writeShared
  try dsimp only
  refine onlyParts.ite .rfl' (fun h1 => ?_)
  refine onlyParts.after (State.setShared_only ..) rfl ?_
  exact h1

/-! ### Machine/Cxl.lean -/

theorem State.cxlPut_only (s : Sys2Proof.Machine.State) (a : ℕ) (v : BitVec 32) : onlyParts [.fns] s (State.cxlPut s a v) := by
  unfold State.cxlPut
  try dsimp only
  split
  · exact onlyParts.rfl'
  try dsimp only
  refine onlyParts.ite ?_ (fun h1 => ?_)
  · refine onlyParts.after (State.updFn_only ..) rfl ?_
    exact onlyParts.rfl'
  · exact onlyParts.rfl'

theorem State.configPut_only (s : Sys2Proof.Machine.State) (f : ℕ) (off : ℕ) (v : BitVec 32) : onlyParts [.fns] s (State.configPut s f off v) := by
  unfold State.configPut
  try dsimp only
  refine onlyParts.ite ?_ (fun h1 => ?_)
  · refine onlyParts.ite .rfl' (fun h2 => ?_)
    refine onlyParts.after (State.cxlPut_only ..) rfl ?_
    exact h2
  · refine onlyParts.after (State.updFn_only ..) rfl ?_
    exact onlyParts.rfl'

/-! ### Machine/Callboard.lean -/

theorem State.cueWrite_only (s : Sys2Proof.Machine.State) (f : ℕ) (n : ℕ) (w : BitVec 32) : onlyParts [.fns, .ctr] s (State.cueWrite s f n w) := by
  unfold State.cueWrite
  try dsimp only
  refine onlyParts.ite ?_ (fun h1 => ?_)
  · refine onlyParts.after (State.bump_only ..) rfl ?_
    exact onlyParts.rfl'
  · refine onlyParts.ite .rfl' (fun h2 => ?_)
    refine onlyParts.ite ?_ (fun h3 => ?_)
    · refine onlyParts.after (State.updFn_only ..) rfl ?_
      exact h2
    · refine onlyParts.after (State.bump_only ..) rfl ?_
      exact h2

theorem State.storeSlot_only (s : Sys2Proof.Machine.State) (f : ℕ) (off : ℕ) (data : List Sys2Proof.Byte) (n : ℕ) : onlyParts [.fns, .ctr] s (State.storeSlot s f off data n) := by
  unfold State.storeSlot
  try dsimp only
  refine onlyParts.ite ?_ (fun h1 => ?_)
  · refine onlyParts.ite ?_ (fun h2 => ?_)
    · refine onlyParts.after (State.updSlot_only ..) rfl ?_
      exact onlyParts.rfl'
    · refine onlyParts.after (State.bump_only ..) rfl ?_
      exact onlyParts.rfl'
  · exact onlyParts.rfl'

theorem State.callboardWrite_only (s : Sys2Proof.Machine.State) (f : ℕ) (off : ℕ) (data : List Sys2Proof.Byte) : onlyParts [.fns, .ctr] s (State.callboardWrite s f off data) := by
  unfold State.callboardWrite
  try dsimp only
  refine onlyParts.ite ?_ (fun h1 => ?_)
  · refine onlyParts.foldl (onlyParts.rfl') (fun _ _ h2 => ?_)
    try dsimp only
    refine onlyParts.after (State.storeSlot_only ..) rfl ?_
    exact h2
  · refine onlyParts.ite ?_ (fun h3 => ?_)
    · refine onlyParts.after (State.bump_only ..) rfl ?_
      exact onlyParts.rfl'
    · refine onlyParts.after (State.cueWrite_only ..) rfl ?_
      exact onlyParts.rfl'

theorem execCallboardWrite_only {f : ℕ} {off : ℕ} {data : List Sys2Proof.Byte} {s : Sys2Proof.Machine.State} {t0 : State} (e0 : execCallboardWrite f off data s = .next t0) : onlyParts [.fns, .ctr] s t0 := by
  unfold execCallboardWrite at e0
  injection e0 with e0
  rw [← e0]
  clear e0
  try dsimp only
  refine onlyParts.ite .rfl' (fun h1 => ?_)
  refine onlyParts.after (State.callboardWrite_only ..) rfl ?_
  exact h1

theorem execGoWrite_only {f : ℕ} {slot : ℕ} {w : BitVec 32} {s : Sys2Proof.Machine.State} {t0 : State} (e0 : execGoWrite f slot w s = .next t0) : onlyParts [.fns, .ctr] s t0 := by
  unfold execGoWrite at e0
  injection e0 with e0
  rw [← e0]
  clear e0
  try dsimp only
  refine onlyParts.ite .rfl' (fun h1 => ?_)
  refine onlyParts.after (State.cueWrite_only ..) rfl ?_
  exact h1

theorem State.writeVec_only (s : Sys2Proof.Machine.State) (f : ℕ) (off : ℕ) (v : ℕ) : onlyParts [.fns, .ctr] s (State.writeVec s f off v) := by
  unfold State.writeVec
  try dsimp only
  refine onlyParts.ite .rfl' (fun h1 => ?_)
  split
  · try dsimp only
    refine onlyParts.after (State.updFn_only ..) rfl ?_
    exact h1
  · try dsimp only
    refine onlyParts.after (State.updFn_only ..) rfl ?_
    exact h1
  · try dsimp only
    refine onlyParts.after (State.updFn_only ..) rfl ?_
    exact h1
  · try dsimp only
    refine onlyParts.ite ?_ (fun h2 => ?_)
    · refine onlyParts.after (State.unmask_only ..) rfl ?_
      exact h1
    · refine onlyParts.after (State.updFn_only ..) rfl ?_
      exact h1
  · try dsimp only
    exact h1

theorem execRegisterWrite_only {r : Sys2Proof.Reg} {v : BitVec 64} {s : Sys2Proof.Machine.State} {t0 : State} (e0 : execRegisterWrite r v s = .next t0) : onlyParts [.pw, .bt, .fns, .cores, .shared, .ctr] s t0 := by
  unfold execRegisterWrite at e0
  injection e0 with e0
  rw [← e0]
  clear e0
  try dsimp only
  refine onlyParts.ite ?_ (fun h1 => ?_)
  · split
    · try dsimp only
      refine onlyParts.ite ?_ (fun h2 => ?_)
      · refine onlyParts.ite ?_ (fun h3 => ?_)
        · refine onlyParts.ite ?_ (fun h4 => ?_)
          · refine onlyParts.ite .rfl' (fun h5 => ?_)
            refine onlyParts.after (State.cxlPut_only ..) rfl ?_
            exact h5
          · refine onlyParts.after (State.writeVec_only ..) rfl ?_
            exact onlyParts.rfl'
        · refine onlyParts.after (State.writeTarget_only ..) rfl ?_
          exact onlyParts.rfl'
      · exact onlyParts.rfl'
    · try dsimp only
      refine onlyParts.ite .rfl' (fun h6 => ?_)
      refine onlyParts.after (State.configPut_only ..) rfl ?_
      exact h6
    · try dsimp only
      refine onlyParts.ite .rfl' (fun h7 => ?_)
      refine onlyParts.after (State.updFn_only ..) rfl ?_
      exact h7
    · try dsimp only
      refine onlyParts.ite ?_ (fun h8 => ?_)
      · refine onlyParts.ite ?_ (fun h9 => ?_)
        · refine onlyParts.foldl ?_ (fun _ _ h10 => ?_)
          · refine onlyParts.after (State.updFn_only ..) rfl ?_
            exact onlyParts.rfl'
          · try dsimp only
            refine onlyParts.ite ?_ (fun h11 => ?_)
            · refine onlyParts.after (State.unmask_only ..) rfl ?_
              exact h10
            · exact h10
        · refine onlyParts.after (State.updFn_only ..) rfl ?_
          exact onlyParts.rfl'
      · exact onlyParts.rfl'
    · try dsimp only
      refine onlyParts.ite .rfl' (fun h12 => ?_)
      refine onlyParts.after (State.writeTarget_only ..) rfl ?_
      exact h12
    · try dsimp only
      refine onlyParts.after (State.writeShared_only ..) rfl ?_
      exact onlyParts.rfl'
    · try dsimp only
      refine onlyParts.after (State.trackNormal_only ..) rfl ?_
      refine onlyParts.set_pw ?_ rfl
      exact onlyParts.rfl'
    · exact onlyParts.rfl'
    · try dsimp only
      refine onlyParts.ite .rfl' (fun h13 => ?_)
      refine onlyParts.set_bt ?_ rfl
      exact h13
  · exact onlyParts.rfl'

/-! ### Machine/Net.lean -/

theorem State.updPort_only (s : Sys2Proof.Machine.State) (p : ℕ) (g : Sys2Proof.Machine.Port → Sys2Proof.Machine.Port) : onlyParts [.fab] s (State.updPort s p g) := by
  unfold State.updPort
  try dsimp only
  refine onlyParts.set_fab ?_ rfl
  exact onlyParts.rfl'

theorem State.emit_only (s : Sys2Proof.Machine.State) (p : ℕ) (m : Sys2Proof.Msg) : onlyParts [.fab, .ctr] s (State.emit s p m) := by
  unfold State.emit
  try dsimp only
  refine onlyParts.after (State.bump_only ..) rfl ?_
  refine onlyParts.after (State.bump_only ..) rfl ?_
  refine onlyParts.set_fab ?_ rfl
  refine onlyParts.after (State.updPort_only ..) rfl ?_
  exact onlyParts.rfl'

theorem State.sendTo_only (s : Sys2Proof.Machine.State) (peer : ℕ) (m : Sys2Proof.Msg) : onlyParts [.fab, .ctr] s (State.sendTo s peer m).2 := by
  unfold State.sendTo
  try dsimp only
  split
  · try dsimp only
    refine onlyParts.after (State.emit_only ..) rfl ?_
    exact onlyParts.rfl'
  · try dsimp only
    refine onlyParts.after (State.bump_only ..) rfl ?_
    exact onlyParts.rfl'

theorem State.sendTo_only' {s : Sys2Proof.Machine.State} {peer : ℕ} {m : Sys2Proof.Msg} {t0 : State} {o0 : _} (e0 : State.sendTo s peer m = (o0, t0)) : onlyParts [.fab, .ctr] s t0 := by
  have h := State.sendTo_only s peer m
  rw [e0] at h
  exact h

theorem State.tell_only (s : Sys2Proof.Machine.State) (peer : ℕ) (m : Sys2Proof.Msg) : onlyParts [.fab, .ctr] s (State.tell s peer m) := by
  unfold State.tell
  try dsimp only
  refine onlyParts.after (State.sendTo_only ..) rfl ?_
  exact onlyParts.rfl'

theorem State.broadcast_only (s : Sys2Proof.Machine.State) (m : Sys2Proof.Msg) : onlyParts [.fab, .ctr] s (State.broadcast s m) := by
  unfold State.broadcast
  try dsimp only
  split
  · try dsimp only
    refine onlyParts.after (State.emit_only ..) rfl ?_
    exact onlyParts.rfl'
  · try dsimp only
    refine onlyParts.after (State.bump_only ..) rfl ?_
    exact onlyParts.rfl'

theorem State.reply_only (s : Sys2Proof.Machine.State) (req : Sys2Proof.Msg) (m : Sys2Proof.Msg) : onlyParts [.fab, .ctr] s (State.reply s req m) := by
  unfold State.reply
  try dsimp only
  refine onlyParts.after (State.tell_only ..) rfl ?_
  exact onlyParts.rfl'

theorem State.ackMsg_only (s : Sys2Proof.Machine.State) (req : Sys2Proof.Msg) (status : ℕ) : onlyParts [.fab, .ctr] s (State.ackMsg s req status) := by
  unfold State.ackMsg
  try dsimp only
  refine onlyParts.after (State.reply_only ..) rfl ?_
  exact onlyParts.rfl'

theorem State.errMsg_only (s : Sys2Proof.Machine.State) (req : Sys2Proof.Msg) (status : ℕ) : onlyParts [.fab, .ctr] s (State.errMsg s req status) := by
  unfold State.errMsg
  try dsimp only
  refine onlyParts.after (State.reply_only ..) rfl ?_
  exact onlyParts.rfl'

theorem State.issue_only (s : Sys2Proof.Machine.State) (o : Sys2Proof.Machine.XOp) : onlyParts [.fab, .ctr] s (State.issue s o).2 := by
  unfold State.issue
  try dsimp only
  split
  · try dsimp only
    refine onlyParts.after (State.bump_only ..) rfl ?_
    refine onlyParts.set_fab ?_ rfl
    exact onlyParts.rfl'
  · try dsimp only
    split
    · try dsimp only
      refine onlyParts.set_fab ?_ rfl
      refine onlyParts.set_fab ?_ rfl
      exact onlyParts.rfl'
    · try dsimp only
      refine onlyParts.after (State.emit_only ..) rfl ?_
      refine onlyParts.set_fab ?_ rfl
      refine onlyParts.set_fab ?_ rfl
      exact onlyParts.rfl'

theorem State.issue_only' {s : Sys2Proof.Machine.State} {o : Sys2Proof.Machine.XOp} {t0 : State} {o0 : _} (e0 : State.issue s o = (o0, t0)) : onlyParts [.fab, .ctr] s t0 := by
  have h := State.issue_only s o
  rw [e0] at h
  exact h

theorem State.newParent_only (s : Sys2Proof.Machine.State) : onlyParts [.fab] s (State.newParent s).2 := by
  unfold State.newParent
  try dsimp only
  refine onlyParts.set_fab ?_ rfl
  exact onlyParts.rfl'

theorem State.newParent_only' {s : Sys2Proof.Machine.State} {t0 : State} {o0 : _} (e0 : State.newParent s = (o0, t0)) : onlyParts [.fab] s t0 := by
  have h := State.newParent_only s
  rw [e0] at h
  exact h

theorem State.takeBumps_only : ∀ (k : ℕ) (s : Sys2Proof.Machine.State), onlyParts [.sv, .ctr] s (State.takeBumps k s)
  | 0, _ => onlyParts.rfl'
  | k + 1, s => by
    unfold State.takeBumps
    split
    · exact onlyParts.rfl'
    · refine onlyParts.after (State.takeBumps_only k _) rfl ?_
      refine onlyParts.foldl ?_ (fun _ _ h => onlyParts.after (State.bump_only ..) rfl h)
      exact onlyParts.set_sv onlyParts.rfl' rfl

theorem State.bumpGen_only (s : Sys2Proof.Machine.State) : onlyParts [.sv, .ctr] s (State.bumpGen s) := by
  unfold State.bumpGen
  try dsimp only
  refine onlyParts.after (State.takeBumps_only ..) rfl ?_
  refine onlyParts.set_sv ?_ rfl
  exact onlyParts.rfl'

/-! ### Machine/Array.lean -/

theorem State.cuCount_only (s : Sys2Proof.Machine.State) (q : ℕ) (row : ℕ) (col : ℕ) (k : ℕ) (n : ℕ) : onlyParts [.ctr] s (State.cuCount s q row col k n) := by
  unfold State.cuCount
  try dsimp only
  refine onlyParts.after (State.bump_only ..) rfl ?_
  exact onlyParts.rfl'

theorem State.muCount_only (s : Sys2Proof.Machine.State) (q : ℕ) (row : ℕ) (col : ℕ) (k : ℕ) (n : ℕ) : onlyParts [.ctr] s (State.muCount s q row col k n) := by
  unfold State.muCount
  try dsimp only
  refine onlyParts.after (State.bump_only ..) rfl ?_
  exact onlyParts.rfl'

theorem State.queueCount_only (s : Sys2Proof.Machine.State) (q : ℕ) (row : ℕ) (col : ℕ) (queue : ℕ) (k : ℕ) (n : ℕ) : onlyParts [.ctr] s (State.queueCount s q row col queue k n) := by
  unfold State.queueCount
  try dsimp only
  refine onlyParts.after (State.bump_only ..) rfl ?_
  exact onlyParts.rfl'

theorem State.updJob_only (s : Sys2Proof.Machine.State) (id : ℕ) (g : Sys2Proof.Machine.Job → Sys2Proof.Machine.Job) : onlyParts [.sv] s (State.updJob s id g) := by
  unfold State.updJob
  try dsimp only
  refine onlyParts.set_sv ?_ rfl
  exact onlyParts.rfl'

theorem State.addDiscards_only (s : Sys2Proof.Machine.State) (q : ℕ) (n : ℕ) : onlyParts [.sv] s (State.addDiscards s q n) := by
  unfold State.addDiscards
  try dsimp only
  split
  · try dsimp only
    refine onlyParts.after (State.updJob_only ..) rfl ?_
    exact onlyParts.rfl'
  · exact onlyParts.rfl'

/-! ### Machine/Cut.lean -/

theorem State.lineWrite_only (s : Sys2Proof.Machine.State) (q : ℕ) (i : ℕ) (line : ℕ) (t : Sys2Proof.Tok) : onlyParts [.mem, .marks, .flaws] s (State.lineWrite s q i line t) := by
  unfold State.lineWrite
  try dsimp only
  refine onlyParts.after (State.devWrite_only ..) rfl ?_
  exact onlyParts.rfl'

theorem State.finishWrites_only (s : Sys2Proof.Machine.State) (q : ℕ) (row : ℕ) (col : ℕ) : onlyParts [.mem, .marks, .flaws, .ctr] s (State.finishWrites s q row col) := by
  unfold State.finishWrites
  try dsimp only
  split
  · exact onlyParts.rfl'
  try dsimp only
  refine onlyParts.foldl ?_ (fun _ _ h2 => ?_)
  · refine onlyParts.foldl (onlyParts.rfl') (fun _ _ h1 => ?_)
    try dsimp only
    refine onlyParts.after (State.lineWrite_only ..) rfl ?_
    exact h1
  · try dsimp only
    split
    · try dsimp only
      refine onlyParts.ite ?_ (fun h3 => ?_)
      · refine onlyParts.after (State.muCount_only ..) rfl ?_
        exact h2
      · refine onlyParts.after (State.lineWrite_only ..) rfl ?_
        exact h2
    · try dsimp only
      exact h2

theorem State.cutHead_only (s : Sys2Proof.Machine.State) (q : ℕ) (row : ℕ) (col : ℕ) (n : ℕ) (ix : ℕ) (isIn : Bool) : onlyParts [.quads, .sv, .ctr] s (State.cutHead s q row col n ix isIn) := by
  unfold State.cutHead
  try dsimp only
  split
  · try dsimp only
    refine onlyParts.ite ?_ (fun h1 => ?_)
    · refine onlyParts.after (State.addDiscards_only ..) rfl ?_
      refine onlyParts.after (State.queueCount_only ..) rfl ?_
      refine onlyParts.after (State.updQuad_only ..) rfl ?_
      exact onlyParts.rfl'
    · exact onlyParts.rfl'
  · exact onlyParts.rfl'

theorem State.cutAll_only (s : Sys2Proof.Machine.State) (q : ℕ) : onlyParts [.quads, .sv, .ctr] s (State.cutAll s q) := by
  unfold State.cutAll
  try dsimp only
  refine onlyParts.after (State.updQuad_only ..) rfl ?_
  refine onlyParts.foldl ?_ (fun _ _ h6 => ?_)
  · refine onlyParts.foldl (onlyParts.rfl') (fun _ _ h1 => ?_)
    try dsimp only
    · try dsimp only
      refine onlyParts.foldl ?_ (fun _ _ h4 => ?_)
      · refine onlyParts.foldl (h1) (fun _ _ h2 => ?_)
        try dsimp only
        · try dsimp only
          refine onlyParts.ite ?_ (fun h3 => ?_)
          · refine onlyParts.after (State.addDiscards_only ..) rfl ?_
            refine onlyParts.after (State.queueCount_only ..) rfl ?_
            exact h2
          · exact h2
      · try dsimp only
        · try dsimp only
          refine onlyParts.ite ?_ (fun h5 => ?_)
          · refine onlyParts.after (State.addDiscards_only ..) rfl ?_
            refine onlyParts.after (State.queueCount_only ..) rfl ?_
            exact h4
          · exact h4
  · try dsimp only
    · try dsimp only
      refine onlyParts.foldl ?_ (fun _ _ h9 => ?_)
      · refine onlyParts.foldl (h6) (fun _ _ h7 => ?_)
        try dsimp only
        · try dsimp only
          refine onlyParts.ite ?_ (fun h8 => ?_)
          · refine onlyParts.after (State.addDiscards_only ..) rfl ?_
            refine onlyParts.after (State.queueCount_only ..) rfl ?_
            exact h7
          · exact h7
      · try dsimp only
        · try dsimp only
          refine onlyParts.ite ?_ (fun h10 => ?_)
          · refine onlyParts.after (State.addDiscards_only ..) rfl ?_
            refine onlyParts.after (State.queueCount_only ..) rfl ?_
            exact h9
          · exact h9

theorem State.cutHeads_only (s : Sys2Proof.Machine.State) (q : ℕ) : onlyParts [.quads, .sv, .ctr] s (State.cutHeads s q) := by
  unfold State.cutHeads
  try dsimp only
  refine onlyParts.foldl ?_ (fun _ _ h4 => ?_)
  · refine onlyParts.foldl (onlyParts.rfl') (fun _ _ h1 => ?_)
    try dsimp only
    · try dsimp only
      refine onlyParts.foldl ?_ (fun _ _ h3 => ?_)
      · refine onlyParts.foldl (h1) (fun _ _ h2 => ?_)
        try dsimp only
        refine onlyParts.after (State.cutHead_only ..) rfl ?_
        exact h2
      · try dsimp only
        refine onlyParts.after (State.cutHead_only ..) rfl ?_
        exact h3
  · try dsimp only
    · try dsimp only
      refine onlyParts.foldl ?_ (fun _ _ h6 => ?_)
      · refine onlyParts.foldl (h4) (fun _ _ h5 => ?_)
        try dsimp only
        refine onlyParts.after (State.cutHead_only ..) rfl ?_
        exact h5
      · try dsimp only
        refine onlyParts.after (State.cutHead_only ..) rfl ?_
        exact h6

theorem State.cutNow_only (s : Sys2Proof.Machine.State) (q : ℕ) (target : ℕ) : onlyParts [.mem, .marks, .flaws, .quads, .sv, .ctr] s (State.cutNow s q target) := by
  unfold State.cutNow
  try dsimp only
  refine onlyParts.after (State.bump_only ..) rfl ?_
  refine onlyParts.ite ?_ (fun h1 => ?_)
  · refine onlyParts.after (State.cutHeads_only ..) rfl ?_
    refine onlyParts.after (State.updQuad_only ..) rfl ?_
    refine onlyParts.foldl ?_ (fun _ _ h16 => ?_)
    · refine onlyParts.foldl ?_ (fun _ _ h15 => ?_)
      · refine onlyParts.foldl ?_ (fun _ _ h13 => ?_)
        · refine onlyParts.foldl ?_ (fun _ _ h9 => ?_)
          · refine onlyParts.foldl ?_ (fun _ _ h2 => ?_)
            · refine onlyParts.after (State.updQuad_only ..) rfl ?_
              exact onlyParts.rfl'
            · try dsimp only
              · try dsimp only
                refine onlyParts.ite ?_ (fun h3 => ?_)
                · skip
                  · try dsimp only
                    refine onlyParts.after (State.addDiscards_only ..) rfl ?_
                    refine onlyParts.after (State.updQuad_only ..) rfl ?_
                    refine onlyParts.ite ?_ (fun h4 => ?_)
                    · refine onlyParts.after (State.cuCount_only ..) rfl ?_
                      refine onlyParts.foldl (h2) (fun _ _ h5 => ?_)
                      try dsimp only
                      · try dsimp only
                        refine onlyParts.ite ?_ (fun h6 => ?_)
                        · refine onlyParts.after (State.queueCount_only ..) rfl ?_
                          exact h5
                        · exact h5
                    · refine onlyParts.foldl (h2) (fun _ _ h7 => ?_)
                      try dsimp only
                      · try dsimp only
                        refine onlyParts.ite ?_ (fun h8 => ?_)
                        · refine onlyParts.after (State.queueCount_only ..) rfl ?_
                          exact h7
                        · exact h7
                · exact h2
          · try dsimp only
            · try dsimp only
              refine onlyParts.ite ?_ (fun h10 => ?_)
              · skip
                · try dsimp only
                  refine onlyParts.after (State.addDiscards_only ..) rfl ?_
                  refine onlyParts.after (State.updQuad_only ..) rfl ?_
                  refine onlyParts.foldl ?_ (fun _ _ h11 => ?_)
                  · refine onlyParts.after (State.finishWrites_only ..) rfl ?_
                    exact h9
                  · try dsimp only
                    · try dsimp only
                      refine onlyParts.ite ?_ (fun h12 => ?_)
                      · refine onlyParts.after (State.queueCount_only ..) rfl ?_
                        exact h11
                      · exact h11
              · exact h9
        · try dsimp only
          refine onlyParts.ite ?_ (fun h14 => ?_)
          · refine onlyParts.after (State.addDiscards_only ..) rfl ?_
            refine onlyParts.after (State.queueCount_only ..) rfl ?_
            exact h13
          · exact h13
      · try dsimp only
        refine onlyParts.after (State.addDiscards_only ..) rfl ?_
        refine onlyParts.after (State.bump_only ..) rfl ?_
        refine onlyParts.after (State.bump_only ..) rfl ?_
        exact h15
    · try dsimp only
      refine onlyParts.after (State.bump_only ..) rfl ?_
      exact h16
  · refine onlyParts.after (State.cutAll_only ..) rfl ?_
    refine onlyParts.after (State.updQuad_only ..) rfl ?_
    refine onlyParts.foldl ?_ (fun _ _ h31 => ?_)
    · refine onlyParts.foldl ?_ (fun _ _ h30 => ?_)
      · refine onlyParts.foldl ?_ (fun _ _ h28 => ?_)
        · refine onlyParts.foldl ?_ (fun _ _ h24 => ?_)
          · refine onlyParts.foldl ?_ (fun _ _ h17 => ?_)
            · refine onlyParts.after (State.updQuad_only ..) rfl ?_
              exact onlyParts.rfl'
            · try dsimp only
              · try dsimp only
                refine onlyParts.ite ?_ (fun h18 => ?_)
                · skip
                  · try dsimp only
                    refine onlyParts.after (State.addDiscards_only ..) rfl ?_
                    refine onlyParts.after (State.updQuad_only ..) rfl ?_
                    refine onlyParts.ite ?_ (fun h19 => ?_)
                    · refine onlyParts.after (State.cuCount_only ..) rfl ?_
                      refine onlyParts.foldl (h17) (fun _ _ h20 => ?_)
                      try dsimp only
                      · try dsimp only
                        refine onlyParts.ite ?_ (fun h21 => ?_)
                        · refine onlyParts.after (State.queueCount_only ..) rfl ?_
                          exact h20
                        · exact h20
                    · refine onlyParts.foldl (h17) (fun _ _ h22 => ?_)
                      try dsimp only
                      · try dsimp only
                        refine onlyParts.ite ?_ (fun h23 => ?_)
                        · refine onlyParts.after (State.queueCount_only ..) rfl ?_
                          exact h22
                        · exact h22
                · exact h17
          · try dsimp only
            · try dsimp only
              refine onlyParts.ite ?_ (fun h25 => ?_)
              · skip
                · try dsimp only
                  refine onlyParts.after (State.addDiscards_only ..) rfl ?_
                  refine onlyParts.after (State.updQuad_only ..) rfl ?_
                  refine onlyParts.foldl ?_ (fun _ _ h26 => ?_)
                  · refine onlyParts.after (State.finishWrites_only ..) rfl ?_
                    exact h24
                  · try dsimp only
                    · try dsimp only
                      refine onlyParts.ite ?_ (fun h27 => ?_)
                      · refine onlyParts.after (State.queueCount_only ..) rfl ?_
                        exact h26
                      · exact h26
              · exact h24
        · try dsimp only
          refine onlyParts.ite ?_ (fun h29 => ?_)
          · refine onlyParts.after (State.addDiscards_only ..) rfl ?_
            refine onlyParts.after (State.queueCount_only ..) rfl ?_
            exact h28
          · exact h28
      · try dsimp only
        refine onlyParts.after (State.addDiscards_only ..) rfl ?_
        refine onlyParts.after (State.bump_only ..) rfl ?_
        refine onlyParts.after (State.bump_only ..) rfl ?_
        exact h30
    · try dsimp only
      refine onlyParts.after (State.bump_only ..) rfl ?_
      exact h31

theorem State.breakEntries_only (s : Sys2Proof.Machine.State) (q : ℕ) : onlyParts [.quads, .ctr] s (State.breakEntries s q).2 := by
  unfold State.breakEntries
  try dsimp only
  split
  · exact onlyParts.rfl'
  try dsimp only
  refine onlyParts.after (State.bump_only ..) rfl ?_
  refine onlyParts.after (State.updQuad_only ..) rfl ?_
  exact onlyParts.rfl'

theorem State.breakEntries_only' {s : Sys2Proof.Machine.State} {q : ℕ} {t0 : State} {o0 : _} (e0 : State.breakEntries s q = (o0, t0)) : onlyParts [.quads, .ctr] s t0 := by
  have h := State.breakEntries_only s q
  rw [e0] at h
  exact h

theorem State.zeroTier0_only (s : Sys2Proof.Machine.State) (q : ℕ) : onlyParts [.mem, .marks, .flaws] s (State.zeroTier0 s q) := by
  unfold State.zeroTier0
  try dsimp only
  refine onlyParts.set_mem_marks ?_ rfl
  refine onlyParts.after (State.mend_only ..) rfl ?_
  exact onlyParts.rfl'

theorem State.quadReset_only (s : Sys2Proof.Machine.State) (q : ℕ) (keepCtr : Bool) : onlyParts [.bt, .fns, .mem, .marks, .flaws, .pool, .quads, .sv, .mg, .ctr] s (State.quadReset s q keepCtr) := by
  unfold State.quadReset
  try dsimp only
  refine onlyParts.after (State.setRdy_only ..) rfl ?_
  refine onlyParts.foldl ?_ (fun _ _ h2 => ?_)
  · refine onlyParts.set_sv ?_ rfl
    refine onlyParts.ite ?_ (fun h1 => ?_)
    · refine onlyParts.after (State.clearCtr_only ..) rfl ?_
      refine onlyParts.after (State.updQuad_only ..) rfl ?_
      refine onlyParts.after (State.zeroTier0_only ..) rfl ?_
      exact onlyParts.rfl'
    · refine onlyParts.after (State.updQuad_only ..) rfl ?_
      refine onlyParts.after (State.zeroTier0_only ..) rfl ?_
      exact onlyParts.rfl'
  · try dsimp only
    refine onlyParts.after (State.dropPlacing_only ..) rfl ?_
    exact h2

/-! ### Machine/Requests.lean -/

theorem State.updReq_only (s : Sys2Proof.Machine.State) (id : ℕ) (g : Sys2Proof.Machine.Req → Sys2Proof.Machine.Req) : onlyParts [.sv] s (State.updReq s id g) := by
  unfold State.updReq
  try dsimp only
  refine onlyParts.set_sv ?_ rfl
  exact onlyParts.rfl'

theorem State.enter_only (s : Sys2Proof.Machine.State) (id : ℕ) (st : Sys2Proof.Machine.ReqSt) : onlyParts [.sv] s (State.enter s id st) := by
  unfold State.enter
  try dsimp only
  refine onlyParts.set_sv ?_ rfl
  refine onlyParts.after (State.updReq_only ..) rfl ?_
  exact onlyParts.rfl'

theorem State.serve51_only (s : Sys2Proof.Machine.State) (jid : ℕ) (k : ℕ) (n : ℕ) : onlyParts [.ctr] s (State.serve51 s jid k n) := by
  unfold State.serve51
  try dsimp only
  refine onlyParts.ite ?_ (fun h1 => ?_)
  · refine onlyParts.after (State.bump_only ..) rfl ?_
    exact onlyParts.rfl'
  · exact onlyParts.rfl'

theorem State.dmaPost_only (s : Sys2Proof.Machine.State) (f : ℕ) (a : ℕ) (bs : List Sys2Proof.Byte) : onlyParts [.fns, .hostMem, .ctr] s (State.dmaPost s f a bs) := by
  unfold State.dmaPost
  try dsimp only
  refine onlyParts.after (State.updFn_only ..) rfl ?_
  refine onlyParts.after (State.dmaWrite_only ..) rfl ?_
  refine onlyParts.after (State.updFn_only ..) rfl ?_
  exact onlyParts.rfl'

theorem State.putRecord_only (s : Sys2Proof.Machine.State) (f : ℕ) (k : Sys2Proof.Machine.Kept) : onlyParts [.fns, .hostMem, .mg, .ctr] s (State.putRecord s f k) := by
  unfold State.putRecord
  try dsimp only
  split
  · try dsimp only
    refine onlyParts.after (State.raiseAt_only ..) rfl ?_
    split
    · try dsimp only
      refine onlyParts.after (State.finishSlot_only ..) rfl ?_
      refine onlyParts.ite ?_ (fun h1 => ?_)
      · refine onlyParts.after (State.bump_only ..) rfl ?_
        exact onlyParts.rfl'
      · refine onlyParts.after (State.dmaPost_only ..) rfl ?_
        exact onlyParts.rfl'
    · try dsimp only
      refine onlyParts.ite ?_ (fun h2 => ?_)
      · refine onlyParts.after (State.bump_only ..) rfl ?_
        exact onlyParts.rfl'
      · refine onlyParts.after (State.dmaPost_only ..) rfl ?_
        exact onlyParts.rfl'
  · try dsimp only
    split
    · try dsimp only
      refine onlyParts.after (State.finishSlot_only ..) rfl ?_
      refine onlyParts.ite ?_ (fun h3 => ?_)
      · refine onlyParts.after (State.bump_only ..) rfl ?_
        exact onlyParts.rfl'
      · refine onlyParts.after (State.dmaPost_only ..) rfl ?_
        exact onlyParts.rfl'
    · try dsimp only
      refine onlyParts.ite ?_ (fun h4 => ?_)
      · refine onlyParts.after (State.bump_only ..) rfl ?_
        exact onlyParts.rfl'
      · refine onlyParts.after (State.dmaPost_only ..) rfl ?_
        exact onlyParts.rfl'

theorem State.writeEnd_only (s : Sys2Proof.Machine.State) (r : Sys2Proof.Machine.Req) (status : ℕ) (after : ℕ) : onlyParts [.fns, .hostMem, .sv, .mg, .ctr] s (State.writeEnd s r status after) := by
  unfold State.writeEnd
  try dsimp only
  refine onlyParts.ite ?_ (fun h1 => ?_)
  · refine onlyParts.after (State.updFn_only ..) rfl ?_
    refine onlyParts.after (State.updReq_only ..) rfl ?_
    exact onlyParts.rfl'
  · refine onlyParts.after (State.putRecord_only ..) rfl ?_
    refine onlyParts.after (State.updReq_only ..) rfl ?_
    exact onlyParts.rfl'

theorem State.flushKept_only (s : Sys2Proof.Machine.State) (f : ℕ) : onlyParts [.fns, .hostMem, .mg, .ctr] s (State.flushKept s f) := by
  unfold State.flushKept
  try dsimp only
  refine onlyParts.foldl ?_ (fun _ _ h1 => ?_)
  · refine onlyParts.after (State.updFn_only ..) rfl ?_
    exact onlyParts.rfl'
  · try dsimp only
    refine onlyParts.after (State.putRecord_only ..) rfl ?_
    exact h1

theorem State.sePut_only (s : Sys2Proof.Machine.State) (e : Sys2Proof.Machine.SeEnt) : onlyParts [.sv] s (State.sePut s e) := by
  unfold State.sePut
  try dsimp only
  split
  · try dsimp only
    refine onlyParts.set_sv ?_ rfl
    exact onlyParts.rfl'
  · try dsimp only
    refine onlyParts.set_sv ?_ rfl
    exact onlyParts.rfl'

theorem State.seDrop_only (s : Sys2Proof.Machine.State) (p : Sys2Proof.Machine.SeEnt → Bool) : onlyParts [.sv] s (State.seDrop s p) := by
  unfold State.seDrop
  try dsimp only
  refine onlyParts.set_sv ?_ rfl
  exact onlyParts.rfl'

theorem State.notePage_only (s : Sys2Proof.Machine.State) (rid : ℕ) (layer : ℕ) (page : ℕ) (oid : ℕ) : onlyParts [.sv] s (State.notePage s rid layer page oid) := by
  unfold State.notePage
  try dsimp only
  refine onlyParts.after (State.updReq_only ..) rfl ?_
  exact onlyParts.rfl'

theorem State.placePage_only (s : Sys2Proof.Machine.State) (r : Sys2Proof.Machine.Req) (m : Sys2Proof.Machine.Manifest) (layer : ℕ) (page : ℕ) : onlyParts [.pool, .sv, .ctr] s (State.placePage s r m layer page) := by
  unfold State.placePage
  extract_lets oid
  have h := State.reserveNew_only s 1 (newRec oid 1 (2 ^ (r.home % 4)) (m.pagetok * m.kvb) r.id 0 0) false
  generalize State.reserveNew s 1 (newRec oid 1 (2 ^ (r.home % 4)) (m.pagetok * m.kvb) r.id 0 0) false = v at h
  obtain ⟨o, u⟩ := v
  cases o with
  | none => exact onlyParts.after (State.notePage_only ..) rfl (onlyParts.mono h.1 rfl)
  | some t =>
    refine onlyParts.after (State.notePage_only ..) rfl (onlyParts.after (State.startPlacing_only ..) rfl ?_)
    exact onlyParts.after (State.sePut_only ..) rfl (onlyParts.mono (h.2 t rfl) rfl)

theorem State.startSeal_only (s : Sys2Proof.Machine.State) (r : Sys2Proof.Machine.Req) (m : Sys2Proof.Machine.Manifest) (layer : ℕ) (page : ℕ) : onlyParts [.pool, .sv, .ctr] s (State.startSeal s r m layer page) := by
  unfold State.startSeal
  try dsimp only
  refine onlyParts.ite ?_ (fun h1 => ?_)
  · refine onlyParts.after (State.sePut_only ..) rfl ?_
    refine onlyParts.after (State.notePage_only ..) rfl ?_
    exact onlyParts.rfl'
  · refine onlyParts.after (State.placePage_only ..) rfl ?_
    exact onlyParts.rfl'

theorem State.sealUpTo_only (s : Sys2Proof.Machine.State) (r : Sys2Proof.Machine.Req) (m : Sys2Proof.Machine.Manifest) (n : ℕ) : onlyParts [.pool, .sv, .ctr] s (State.sealUpTo s r m n) := by
  unfold State.sealUpTo
  try dsimp only
  refine onlyParts.foldl (onlyParts.rfl') (fun _ _ h1 => ?_)
  try dsimp only
  refine onlyParts.foldl (h1) (fun _ _ h2 => ?_)
  try dsimp only
  refine onlyParts.ite ?_ (fun h3 => ?_)
  · refine onlyParts.after (State.startSeal_only ..) rfl ?_
    exact h2
  · exact h2

theorem State.sealFull_only (s : Sys2Proof.Machine.State) (rid : ℕ) (m : Sys2Proof.Machine.Manifest) : onlyParts [.pool, .sv, .ctr] s (State.sealFull s rid m) := by
  unfold State.sealFull
  try dsimp only
  split
  · exact onlyParts.rfl'
  try dsimp only
  refine onlyParts.after (State.sealUpTo_only ..) rfl ?_
  exact onlyParts.rfl'

theorem State.sealStep_only (s : Sys2Proof.Machine.State) (q : ℕ) : onlyParts [.pool, .sv, .ctr] s (State.sealStep s q) := by
  unfold State.sealStep
  try dsimp only
  iterate 2
    split
    · exact onlyParts.rfl'
  try dsimp only
  refine onlyParts.foldl (onlyParts.rfl') (fun _ _ h1 => ?_)
  try dsimp only
  refine onlyParts.after (State.sealUpTo_only ..) rfl ?_
  exact h1

theorem State.seNext_only (s : Sys2Proof.Machine.State) : onlyParts [.pool, .sv, .ctr] s (State.seNext s) := by
  unfold State.seNext
  try dsimp only
  split
  · try dsimp only
    split
    · try dsimp only
      split
      · try dsimp only
        split
        · try dsimp only
          refine onlyParts.after (State.placePage_only ..) rfl ?_
          refine onlyParts.set_sv ?_ rfl
          exact onlyParts.rfl'
        · try dsimp only
          refine onlyParts.set_sv ?_ rfl
          exact onlyParts.rfl'
      · try dsimp only
        refine onlyParts.set_sv ?_ rfl
        exact onlyParts.rfl'
    · try dsimp only
      refine onlyParts.after (State.sePut_only ..) rfl ?_
      refine onlyParts.set_sv ?_ rfl
      exact onlyParts.rfl'
    · try dsimp only
      refine onlyParts.after (State.sePut_only ..) rfl ?_
      refine onlyParts.set_sv ?_ rfl
      exact onlyParts.rfl'
  · exact onlyParts.rfl'

theorem State.seDone_only (s : Sys2Proof.Machine.State) (e : Sys2Proof.Machine.SeEnt) : onlyParts [.pool, .sv, .ctr] s (State.seDone s e) := by
  unfold State.seDone
  try dsimp only
  refine onlyParts.after (State.seNext_only ..) rfl ?_
  refine onlyParts.after (State.seDrop_only ..) rfl ?_
  exact onlyParts.rfl'

theorem State.retrySeals_only (s : Sys2Proof.Machine.State) (jid : ℕ) : onlyParts [.pool, .sv, .ctr] s (State.retrySeals s jid) := by
  unfold State.retrySeals
  try dsimp only
  split
  · exact onlyParts.rfl'
  try dsimp only
  refine onlyParts.foldl (onlyParts.rfl') (fun _ _ h1 => ?_)
  try dsimp only
  refine onlyParts.foldl (h1) (fun _ _ h2 => ?_)
  try dsimp only
  refine onlyParts.after (State.startSeal_only ..) rfl ?_
  refine onlyParts.after (State.serve51_only ..) rfl ?_
  exact h2

theorem State.releasePages_only (s : Sys2Proof.Machine.State) (r : Sys2Proof.Machine.Req) : onlyParts [.pool, .sv] s (State.releasePages s r) := by
  unfold State.releasePages
  try dsimp only
  refine onlyParts.after (State.updReq_only ..) rfl ?_
  refine onlyParts.after (State.seDrop_only ..) rfl ?_
  refine onlyParts.set_pool ?_ rfl
  refine onlyParts.foldl (onlyParts.rfl') (fun _ _ h1 => ?_)
  try dsimp only
  refine onlyParts.after (State.dropPlacing_only ..) rfl ?_
  exact h1

theorem State.dropParked_only (s : Sys2Proof.Machine.State) (r : Sys2Proof.Machine.Req) : onlyParts [.pool] s (State.dropParked s r) := by
  unfold State.dropParked
  try dsimp only
  refine onlyParts.ite ?_ (fun h1 => ?_)
  · refine onlyParts.set_pool ?_ rfl
    exact onlyParts.rfl'
  · exact onlyParts.rfl'

theorem State.endReq_only (s : Sys2Proof.Machine.State) (rid : ℕ) (status : ℕ) (record : Bool) : onlyParts [.fns, .hostMem, .pool, .sv, .mg, .ctr] s (State.endReq s rid status record) := by
  unfold State.endReq
  try dsimp only
  split
  · exact onlyParts.rfl'
  try dsimp only
  refine onlyParts.set_sv ?_ rfl
  refine onlyParts.after (State.updJob_only ..) rfl ?_
  split
  · try dsimp only
    refine onlyParts.after (State.serve51_only ..) rfl ?_
    refine onlyParts.after (State.completeOpt_only ..) rfl ?_
    refine onlyParts.after (State.completeOpt_only ..) rfl ?_
    refine onlyParts.after (State.dropParked_only ..) rfl ?_
    refine onlyParts.after (State.releasePages_only ..) rfl ?_
    refine onlyParts.foldl ?_ (fun _ _ h2 => ?_)
    · refine onlyParts.ite .rfl' (fun h1 => ?_)
      refine onlyParts.after (State.writeEnd_only ..) rfl ?_
      exact h1
    · try dsimp only
      refine onlyParts.after (State.dropPlacing_only ..) rfl ?_
      exact h2
  · try dsimp only
    refine onlyParts.after (State.completeOpt_only ..) rfl ?_
    refine onlyParts.after (State.completeOpt_only ..) rfl ?_
    refine onlyParts.after (State.dropParked_only ..) rfl ?_
    refine onlyParts.after (State.releasePages_only ..) rfl ?_
    refine onlyParts.foldl ?_ (fun _ _ h4 => ?_)
    · refine onlyParts.ite .rfl' (fun h3 => ?_)
      refine onlyParts.after (State.writeEnd_only ..) rfl ?_
      exact h3
    · try dsimp only
      refine onlyParts.after (State.dropPlacing_only ..) rfl ?_
      exact h4

theorem State.loseReq_only (s : Sys2Proof.Machine.State) (rid : ℕ) : onlyParts [.fns, .hostMem, .pool, .sv, .mg, .ctr] s (State.loseReq s rid) := by
  unfold State.loseReq
  try dsimp only
  split
  · exact onlyParts.rfl'
  try dsimp only
  refine onlyParts.set_sv ?_ rfl
  refine onlyParts.after (State.endReq_only ..) rfl ?_
  refine onlyParts.ite .rfl' (fun h1 => ?_)
  refine onlyParts.after (State.serve51_only ..) rfl ?_
  exact h1

theorem State.loseGone_only (s : Sys2Proof.Machine.State) : onlyParts [.fns, .hostMem, .pool, .sv, .mg, .ctr] s (State.loseGone s) := by
  unfold State.loseGone
  try dsimp only
  refine onlyParts.foldl (onlyParts.rfl') (fun _ _ h1 => ?_)
  try dsimp only
  refine onlyParts.after (State.loseReq_only ..) rfl ?_
  exact h1

theorem State.cancelReq_only (s : Sys2Proof.Machine.State) (rid : ℕ) : onlyParts [.fns, .hostMem, .pool, .sv, .mg, .ctr] s (State.cancelReq s rid) := by
  unfold State.cancelReq
  try dsimp only
  split
  · exact onlyParts.rfl'
  try dsimp only
  refine onlyParts.after (State.completeAll_only ..) rfl ?_
  refine onlyParts.after (State.completeAll_only ..) rfl ?_
  refine onlyParts.after (State.endReq_only ..) rfl ?_
  exact onlyParts.rfl'

theorem State.startPark_only (s : Sys2Proof.Machine.State) (rid : ℕ) (m : Sys2Proof.Machine.Manifest) : onlyParts [.fns, .hostMem, .pool, .quads, .sv, .mg, .ctr] s (State.startPark s rid m) := by
  unfold State.startPark
  split
  · exact onlyParts.rfl'
  · rename_i r _
    extract_lets oid len
    split
    rename_i s1 _ _ _ _
    have h := State.reserveNew_only s1 4 (newRec oid 2 (2 ^ (r.home % 4)) len r.id 0 0) false
    have h1 : onlyParts [.fns, .hostMem, .pool, .quads, .sv, .mg, .ctr] s s1 := onlyParts.mono (State.noteReads_only ..) rfl
    generalize State.reserveNew s1 4 (newRec oid 2 (2 ^ (r.home % 4)) len r.id 0 0) false = v at h
    obtain ⟨o, u⟩ := v
    cases o with
    | none =>
      have h2 := onlyParts.after (State.loseGone_only u) rfl (onlyParts.after h.1 rfl h1)
      dsimp only
      generalize State.loseGone u = u' at h2
      refine onlyParts.after (State.serve51_only ..) rfl ?_
      refine onlyParts.after (State.updReq_only ..) rfl ?_
      exact onlyParts.after (State.completeOpt_only ..) rfl h2
    | some t =>
      have h2 := onlyParts.after (State.loseGone_only t) rfl (onlyParts.after (h.2 t rfl) rfl h1)
      dsimp only
      generalize State.loseGone t = u' at h2
      refine onlyParts.after (State.enter_only ..) rfl ?_
      refine onlyParts.after (State.updReq_only ..) rfl ?_
      refine onlyParts.after (State.hold_only ..) rfl ?_
      exact onlyParts.after (State.startPlacing_only ..) rfl h2

theorem State.devCopy_only (s : Sys2Proof.Machine.State) (src : ℕ) (dst : ℕ) (n : ℕ) : onlyParts [.mem, .marks, .flaws, .quads, .ctr] s (State.devCopy s src dst n) := by
  unfold State.devCopy
  try dsimp only
  · try dsimp only
    refine onlyParts.after (State.fill_only ..) rfl ?_
    refine onlyParts.after (State.noteReads_only ..) rfl ?_
    exact onlyParts.rfl'

theorem State.copyTail_only (s : Sys2Proof.Machine.State) (r : Sys2Proof.Machine.Req) (m : Sys2Proof.Machine.Manifest) : onlyParts [.mem, .marks, .flaws, .quads, .ctr] s (State.copyTail s r m) := by
  unfold State.copyTail
  try dsimp only
  split
  · exact onlyParts.rfl'
  try dsimp only
  refine onlyParts.foldl (onlyParts.rfl') (fun _ _ h1 => ?_)
  try dsimp only
  · try dsimp only
    refine onlyParts.ite ?_ (fun h2 => ?_)
    · refine onlyParts.after (State.fill_only ..) rfl ?_
      refine onlyParts.after (State.noteReads_only ..) rfl ?_
      exact h1
    · exact h1

/-! ### Machine/CueSheet.lean -/

theorem State.queueSheets_only (s : Sys2Proof.Machine.State) (p : Sys2Proof.Machine.Prod) (role : ℕ) (job : ℕ) (step : ℕ) : onlyParts [.quads] s (State.queueSheets s p role job step) := by
  unfold State.queueSheets
  try dsimp only
  refine onlyParts.foldl (onlyParts.rfl') (fun _ _ h1 => ?_)
  try dsimp only
  refine onlyParts.foldl (h1) (fun _ _ h2 => ?_)
  try dsimp only
  refine onlyParts.after (State.updQuad_only ..) rfl ?_
  exact h2

theorem State.queueExchange_only (s : Sys2Proof.Machine.State) (p : Sys2Proof.Machine.Prod) (job : ℕ) (step : ℕ) : onlyParts [.fab] s (State.queueExchange s p job step) := by
  unfold State.queueExchange
  try dsimp only
  split
  · exact onlyParts.rfl'
  try dsimp only
  refine onlyParts.set_fab ?_ rfl
  refine onlyParts.foldl (onlyParts.rfl') (fun _ _ h1 => ?_)
  try dsimp only
  refine onlyParts.foldl (h1) (fun _ _ h2 => ?_)
  try dsimp only
  refine onlyParts.set_fab ?_ rfl
  exact h2

theorem State.writeSheets_only (s : Sys2Proof.Machine.State) (p : Sys2Proof.Machine.Prod) (jid : ℕ) (n : ℕ) : onlyParts [.quads, .sv, .fab] s (State.writeSheets s p jid n) := by
  unfold State.writeSheets
  try dsimp only
  split
  · exact onlyParts.rfl'
  try dsimp only
  refine onlyParts.after (State.updJob_only ..) rfl ?_
  refine onlyParts.foldl (onlyParts.rfl') (fun _ _ h1 => ?_)
  try dsimp only
  refine onlyParts.after (State.queueExchange_only ..) rfl ?_
  refine onlyParts.after (State.queueSheets_only ..) rfl ?_
  exact h1

/-! ### Machine/JobOps.lean -/

theorem State.updClient_only (s : Sys2Proof.Machine.State) (id : ℕ) (g : Sys2Proof.Machine.Client → Sys2Proof.Machine.Client) : onlyParts [.sv] s (State.updClient s id g) := by
  unfold State.updClient
  try dsimp only
  refine onlyParts.set_sv ?_ rfl
  exact onlyParts.rfl'

theorem State.joinLedger_only (s : Sys2Proof.Machine.State) (cid : ℕ) (jid : ℕ) : onlyParts [.sv] s (State.joinLedger s cid jid) := by
  unfold State.joinLedger
  try dsimp only
  refine onlyParts.ite ?_ (fun h1 => ?_)
  · split
    · exact onlyParts.rfl'
    try dsimp only
    refine onlyParts.after (State.updClient_only ..) rfl ?_
    exact onlyParts.rfl'
  · exact onlyParts.rfl'

theorem State.jobTo_only (s : Sys2Proof.Machine.State) (id : ℕ) (st : Sys2Proof.Machine.JobSt) : onlyParts [.sv] s (State.jobTo s id st) := by
  unfold State.jobTo
  try dsimp only
  split
  · exact onlyParts.rfl'
  try dsimp only
  split
  · try dsimp only
    refine onlyParts.ite ?_ (fun h1 => ?_)
    · refine onlyParts.ite ?_ (fun h2 => ?_)
      · refine onlyParts.after (State.seDrop_only ..) rfl ?_
        refine onlyParts.after (State.updJob_only ..) rfl ?_
        refine onlyParts.ite .rfl' (fun h3 => ?_)
        refine onlyParts.after (State.updClient_only ..) rfl ?_
        exact h3
      · refine onlyParts.after (State.updJob_only ..) rfl ?_
        refine onlyParts.ite .rfl' (fun h4 => ?_)
        refine onlyParts.after (State.updClient_only ..) rfl ?_
        exact h4
    · refine onlyParts.after (State.joinLedger_only ..) rfl ?_
      exact h1
  · try dsimp only
    refine onlyParts.ite ?_ (fun h5 => ?_)
    · refine onlyParts.after (State.seDrop_only ..) rfl ?_
      refine onlyParts.after (State.updJob_only ..) rfl ?_
      refine onlyParts.ite .rfl' (fun h6 => ?_)
      refine onlyParts.after (State.updClient_only ..) rfl ?_
      exact h6
    · refine onlyParts.after (State.updJob_only ..) rfl ?_
      refine onlyParts.ite .rfl' (fun h7 => ?_)
      refine onlyParts.after (State.updClient_only ..) rfl ?_
      exact h7

theorem State.tellMembers_only (s : Sys2Proof.Machine.State) (j : Sys2Proof.Machine.Job) (m : Sys2Proof.Msg) : onlyParts [.fab, .ctr] s (State.tellMembers s j m) := by
  unfold State.tellMembers
  try dsimp only
  refine onlyParts.foldl (onlyParts.rfl') (fun _ _ h1 => ?_)
  try dsimp only
  refine onlyParts.after (State.tell_only ..) rfl ?_
  exact h1

theorem State.cutJob_only (s : Sys2Proof.Machine.State) (j : Sys2Proof.Machine.Job) : onlyParts [.mem, .marks, .flaws, .quads, .sv, .ctr] s (State.cutJob s j) := by
  unfold State.cutJob
  try dsimp only
  refine onlyParts.foldl (onlyParts.rfl') (fun _ _ h1 => ?_)
  try dsimp only
  refine onlyParts.ite ?_ (fun h2 => ?_)
  · refine onlyParts.after (State.updQuad_only ..) rfl ?_
    refine onlyParts.ite h1 (fun h3 => ?_)
    refine onlyParts.after (State.breakEntries_only ..) rfl ?_
    refine onlyParts.after (State.cutNow_only ..) rfl ?_
    exact h3
  · exact h1

theorem State.discardWork_only (s : Sys2Proof.Machine.State) (jid : ℕ) : onlyParts [.pool, .quads, .sv, .fab] s (State.discardWork s jid) := by
  unfold State.discardWork
  dsimp only
  refine onlyParts.after (State.seDrop_only ..) rfl ?_
  have h : ∀ (l : List Placing) (t : State), onlyParts [.pool, .quads, .sv, .fab] s t →
      onlyParts [.pool, .quads, .sv, .fab] s (l.foldl (fun s p => s.dropPlacing p) t) :=
    fun l t k => onlyParts.foldl k (fun _ _ h1 => onlyParts.after (State.dropPlacing_only ..) rfl h1)
  refine ⟨fun p hp => ?_⟩
  cases p <;> first | exact absurd (by decide) hp | exact (h _ s onlyParts.rfl').same _ hp

theorem State.abandonPass_only (s : Sys2Proof.Machine.State) (jid : ℕ) : onlyParts [.quads, .sv, .ctr] s (State.abandonPass s jid) := by
  unfold State.abandonPass
  try dsimp only
  refine onlyParts.ite .rfl' (fun h1 => ?_)
  refine onlyParts.ite ?_ (fun h2 => ?_)
  · refine onlyParts.set_quads ?_ rfl
    exact h1
  · refine onlyParts.after (State.bumpGen_only ..) rfl ?_
    exact h2

theorem State.dropImages_only (s : Sys2Proof.Machine.State) (j : Sys2Proof.Machine.Job) : onlyParts [.pool] s (State.dropImages s j) := by
  unfold State.dropImages
  try dsimp only
  refine onlyParts.set_pool ?_ rfl
  exact onlyParts.rfl'

theorem State.cancelChanges_only (s : Sys2Proof.Machine.State) (jid : ℕ) : onlyParts [.fns, .pool, .sv, .mg, .ctr] s (State.cancelChanges s jid) := by
  unfold State.cancelChanges
  try dsimp only
  refine onlyParts.set_sv ?_ rfl
  refine onlyParts.foldl (onlyParts.rfl') (fun _ _ h1 => ?_)
  try dsimp only
  refine onlyParts.after (State.complete_only ..) rfl ?_
  refine onlyParts.after (State.unhold_only ..) rfl ?_
  exact h1

theorem State.endJob_only (s : Sys2Proof.Machine.State) (jid : ℕ) (status : ℕ) : onlyParts [.fns, .mem, .marks, .flaws, .hostMem, .pool, .quads, .sv, .fab, .mg, .ctr] s (State.endJob s jid status) := by
  unfold State.endJob
  try dsimp only
  split
  · exact onlyParts.rfl'
  try dsimp only
  split
  · try dsimp only
    refine onlyParts.after (State.jobTo_only ..) rfl ?_
    refine onlyParts.foldl ?_ (fun _ _ h3 => ?_)
    · refine onlyParts.after (State.cancelChanges_only ..) rfl ?_
      refine onlyParts.foldl ?_ (fun _ _ h1 => ?_)
      · refine onlyParts.after (State.discardWork_only ..) rfl ?_
        refine onlyParts.after (State.abandonPass_only ..) rfl ?_
        refine onlyParts.after (State.cutJob_only ..) rfl ?_
        exact onlyParts.rfl'
      · try dsimp only
        refine onlyParts.ite ?_ (fun h2 => ?_)
        · refine onlyParts.after (State.completeAll_only ..) rfl ?_
          refine onlyParts.after (State.endReq_only ..) rfl ?_
          exact h1
        · refine onlyParts.after (State.cancelReq_only ..) rfl ?_
          exact h1
    · try dsimp only
      refine onlyParts.after (State.updReq_only ..) rfl ?_
      refine onlyParts.after (State.completeAs_only ..) rfl ?_
      exact h3
  · try dsimp only
    refine onlyParts.set_sv ?_ rfl
    refine onlyParts.after (State.clearCtr_only ..) rfl ?_
    refine onlyParts.after (State.updClient_only ..) rfl ?_
    refine onlyParts.after (State.completeOpt_only ..) rfl ?_
    refine onlyParts.after (State.completeOpt_only ..) rfl ?_
    refine onlyParts.after (State.completeAll_only ..) rfl ?_
    refine onlyParts.ite ?_ (fun h4 => ?_)
    · refine onlyParts.ite ?_ (fun h5 => ?_)
      · refine onlyParts.after (State.unholdAll_only ..) rfl ?_
        refine onlyParts.after (State.dropImages_only ..) rfl ?_
        refine onlyParts.after (State.jobTo_only ..) rfl ?_
        refine onlyParts.foldl ?_ (fun _ _ h8 => ?_)
        · refine onlyParts.after (State.cancelChanges_only ..) rfl ?_
          refine onlyParts.foldl ?_ (fun _ _ h6 => ?_)
          · refine onlyParts.after (State.discardWork_only ..) rfl ?_
            refine onlyParts.after (State.abandonPass_only ..) rfl ?_
            refine onlyParts.after (State.cutJob_only ..) rfl ?_
            exact onlyParts.rfl'
          · try dsimp only
            refine onlyParts.ite ?_ (fun h7 => ?_)
            · refine onlyParts.after (State.completeAll_only ..) rfl ?_
              refine onlyParts.after (State.endReq_only ..) rfl ?_
              exact h6
            · refine onlyParts.after (State.cancelReq_only ..) rfl ?_
              exact h6
        · try dsimp only
          refine onlyParts.after (State.updReq_only ..) rfl ?_
          refine onlyParts.after (State.completeAs_only ..) rfl ?_
          exact h8
      · refine onlyParts.after (State.tellMembers_only ..) rfl ?_
        exact h5
    · refine onlyParts.after (State.complete_only ..) rfl ?_
      exact h4

theorem State.endJobAt_only (s : Sys2Proof.Machine.State) (q : ℕ) (status : ℕ) : onlyParts [.fns, .mem, .marks, .flaws, .hostMem, .pool, .quads, .sv, .fab, .mg, .ctr] s (State.endJobAt s q status) := by
  unfold State.endJobAt
  try dsimp only
  split
  · try dsimp only
    refine onlyParts.after (State.endJob_only ..) rfl ?_
    exact onlyParts.rfl'
  · exact onlyParts.rfl'

theorem State.post_only (s : Sys2Proof.Machine.State) (q : ℕ) (c : ℕ) (n : ℕ) : onlyParts [.fns, .mem, .marks, .flaws, .hostMem, .pool, .quads, .sv, .fab, .mg, .ctr] s (State.post s q c n) := by
  unfold State.post
  try dsimp only
  refine onlyParts.ite ?_ (fun h1 => ?_)
  · refine onlyParts.after (State.endJobAt_only ..) rfl ?_
    exact onlyParts.rfl'
  · refine onlyParts.after (State.updQuad_only ..) rfl ?_
    exact onlyParts.rfl'

theorem State.settle_only (q tq : ℕ) : ∀ (k : ℕ) (s : Sys2Proof.Machine.State),
    onlyParts [.fns, .mem, .marks, .flaws, .hostMem, .pool, .quads, .sv, .fab, .mg, .ctr] s (State.settle q tq k s)
  | 0, _ => onlyParts.rfl'
  | k + 1, s => by
    unfold State.settle
    dsimp only
    split
    · refine onlyParts.after (State.settle_only q tq k _) rfl ?_
      refine onlyParts.after (State.post_only ..) rfl ?_
      exact onlyParts.after (State.updQuad_only ..) rfl onlyParts.rfl'
    · exact onlyParts.after (State.updQuad_only ..) rfl onlyParts.rfl'

theorem State.residentDone_only (s : Sys2Proof.Machine.State) : onlyParts [.fns, .sv, .mg, .ctr] s (State.residentDone s) := by
  unfold State.residentDone
  try dsimp only
  refine onlyParts.foldl (onlyParts.rfl') (fun _ _ h1 => ?_)
  try dsimp only
  refine onlyParts.after (State.completeOpt_only ..) rfl ?_
  refine onlyParts.set_sv ?_ rfl
  exact h1

theorem State.teDone_only (s : Sys2Proof.Machine.State) (q : ℕ) (tq : ℕ) (n : ℕ) : onlyParts [.fns, .mem, .marks, .flaws, .hostMem, .pool, .quads, .sv, .fab, .mg, .ctr] s (State.teDone s q tq n) := by
  unfold State.teDone
  try dsimp only
  split
  · exact onlyParts.rfl'
  try dsimp only
  refine onlyParts.ite ?_ (fun h1 => ?_)
  · refine onlyParts.after (State.settle_only ..) rfl ?_
    refine onlyParts.after (State.bump_only ..) rfl ?_
    refine onlyParts.after (State.updQuad_only ..) rfl ?_
    exact onlyParts.rfl'
  · refine onlyParts.after (State.residentDone_only ..) rfl ?_
    exact h1

theorem State.reserveStrike_only (s : Sys2Proof.Machine.State) (j : Sys2Proof.Machine.Job) : onlyParts [.pool, .ctr] s (State.reserveStrike s j).2 := by
  unfold State.reserveStrike
  extract_lets qs pend ents recLen
  have h : ∀ (l : List (ℕ × ℕ × ℕ)) (a : Option (List (ℕ × ℕ)) × Sys2Proof.Machine.State), onlyParts [.pool, .ctr] s a.2 →
      onlyParts [.pool, .ctr] s (l.foldl (State.reserveImage j.id) a).2 := by
    intro l
    induction l with
    | nil => exact fun a k => k
    | cons e l ih =>
      intro a k
      refine ih _ ?_
      unfold State.reserveImage
      obtain ⟨o, u⟩ := a
      cases o with
      | none => exact k
      | some ids =>
        dsimp only
        have h := State.reserveNew_only u 2 (newRec (u.nextOid 2) 1 (2 ^ e.1) e.2.1 j.id 0 0) false
        generalize State.reserveNew u 2 (newRec (u.nextOid 2) 1 (2 ^ e.1) e.2.1 j.id 0 0) false = v at h
        obtain ⟨o, w⟩ := v
        cases o with
        | none => exact onlyParts.set_pool (onlyParts.after h.1 rfl k) rfl
        | some t => exact onlyParts.set_pool (onlyParts.after (h.2 t rfl) rfl k) rfl
  exact h _ (some [], s) onlyParts.rfl'

theorem State.reserveStrike_only' {s : Sys2Proof.Machine.State} {j : Sys2Proof.Machine.Job} {t0 : State} {o0 : _} (e0 : State.reserveStrike s j = (o0, t0)) : onlyParts [.pool, .ctr] s t0 := by
  have h := State.reserveStrike_only s j
  rw [e0] at h
  exact h

theorem State.beginPreempt_only (s : Sys2Proof.Machine.State) (jid : ℕ) : onlyParts [.fns, .pool, .sv, .fab, .mg, .ctr] s (State.beginPreempt s jid) := by
  unfold State.beginPreempt
  try dsimp only
  split
  · exact onlyParts.rfl'
  try dsimp only
  split
  · try dsimp only
    refine onlyParts.after (State.updJob_only ..) rfl ?_
    refine onlyParts.after (State.completeOpt_only ..) rfl ?_
    refine onlyParts.after (State.reserveStrike_only' (by assumption)) rfl ?_
    exact onlyParts.rfl'
  · try dsimp only
    refine onlyParts.ite ?_ (fun h1 => ?_)
    · refine onlyParts.after (State.updJob_only ..) rfl ?_
      refine onlyParts.after (State.jobTo_only ..) rfl ?_
      refine onlyParts.after (State.reserveStrike_only' (by assumption)) rfl ?_
      exact onlyParts.rfl'
    · refine onlyParts.after (State.tellMembers_only ..) rfl ?_
      exact h1

theorem State.act2_only (s : Sys2Proof.Machine.State) (jid : ℕ) : onlyParts [.fns, .mem, .marks, .flaws, .hostMem, .pool, .quads, .sv, .fab, .mg, .ctr] s (State.act2 s jid) := by
  unfold State.act2
  try dsimp only
  split
  · try dsimp only
    refine onlyParts.ite ?_ (fun h1 => ?_)
    · refine onlyParts.foldl (onlyParts.rfl') (fun _ _ h2 => ?_)
      try dsimp only
      refine onlyParts.after (State.cancelReq_only ..) rfl ?_
      exact h2
    · refine onlyParts.after (State.endJob_only ..) rfl ?_
      exact h1
  · try dsimp only
    refine onlyParts.foldl (onlyParts.rfl') (fun _ _ h3 => ?_)
    try dsimp only
    refine onlyParts.after (State.cancelReq_only ..) rfl ?_
    exact h3

theorem State.act3_only (s : Sys2Proof.Machine.State) (jid : ℕ) : onlyParts [.fns, .hostMem, .pool, .quads, .sv, .mg, .ctr] s (State.act3 s jid) := by
  unfold State.act3
  try dsimp only
  split
  · exact onlyParts.rfl'
  try dsimp only
  refine onlyParts.foldl (onlyParts.rfl') (fun _ _ h1 => ?_)
  try dsimp only
  refine onlyParts.after (State.startPark_only ..) rfl ?_
  exact h1

theorem State.holdJob_only (s : Sys2Proof.Machine.State) (jid : ℕ) (reason : ℕ) : onlyParts [.sv] s (State.holdJob s jid reason) := by
  unfold State.holdJob
  try dsimp only
  refine onlyParts.after (State.updJob_only ..) rfl ?_
  refine onlyParts.after (State.jobTo_only ..) rfl ?_
  exact onlyParts.rfl'

theorem State.toCompose_only (s : Sys2Proof.Machine.State) (jid : ℕ) : onlyParts [.sv] s (State.toCompose s jid) := by
  unfold State.toCompose
  try dsimp only
  refine onlyParts.ite .rfl' (fun h1 => ?_)
  refine onlyParts.after (State.sePut_only ..) rfl ?_
  exact h1

theorem State.act5_only (s : Sys2Proof.Machine.State) (jid : ℕ) : onlyParts [.fns, .pool, .sv, .fab, .mg, .ctr] s (State.act5 s jid) := by
  unfold State.act5
  try dsimp only
  split
  · exact onlyParts.rfl'
  try dsimp only
  refine onlyParts.after (State.toCompose_only ..) rfl ?_
  refine onlyParts.ite .rfl' (fun h1 => ?_)
  refine onlyParts.after (State.beginPreempt_only ..) rfl ?_
  exact h1

theorem State.markBoundary_only (s : Sys2Proof.Machine.State) (jid : ℕ) : onlyParts [.sv] s (State.markBoundary s jid) := by
  unfold State.markBoundary
  try dsimp only
  refine onlyParts.after (State.updJob_only ..) rfl ?_
  exact onlyParts.rfl'

theorem State.boundary_only (s : Sys2Proof.Machine.State) (jid : ℕ) : onlyParts [.fns, .mem, .marks, .flaws, .hostMem, .pool, .quads, .sv, .fab, .mg, .ctr] s (State.boundary s jid) := by
  unfold State.boundary
  try dsimp only
  split
  · try dsimp only
    refine onlyParts.after (State.retrySeals_only ..) rfl ?_
    refine onlyParts.after (State.act3_only ..) rfl ?_
    refine onlyParts.after (State.act2_only ..) rfl ?_
    exact onlyParts.rfl'
  · try dsimp only
    refine onlyParts.ite ?_ (fun h1 => ?_)
    · refine onlyParts.after (State.act5_only ..) rfl ?_
      refine onlyParts.after (State.retrySeals_only ..) rfl ?_
      refine onlyParts.after (State.act3_only ..) rfl ?_
      refine onlyParts.after (State.act2_only ..) rfl ?_
      exact onlyParts.rfl'
    · refine onlyParts.after (State.holdJob_only ..) rfl ?_
      refine onlyParts.after (State.retrySeals_only ..) rfl ?_
      refine onlyParts.after (State.act3_only ..) rfl ?_
      refine onlyParts.after (State.act2_only ..) rfl ?_
      exact onlyParts.rfl'

theorem State.boundaryIfIdle_only (s : Sys2Proof.Machine.State) (jid : ℕ) : onlyParts [.fns, .mem, .marks, .flaws, .hostMem, .pool, .quads, .sv, .fab, .mg, .ctr] s (State.boundaryIfIdle s jid) := by
  unfold State.boundaryIfIdle
  try dsimp only
  split
  · exact onlyParts.rfl'
  try dsimp only
  refine onlyParts.ite ?_ (fun h1 => ?_)
  · refine onlyParts.ite ?_ (fun h2 => ?_)
    · refine onlyParts.after (State.act3_only ..) rfl ?_
      refine onlyParts.after (State.act2_only ..) rfl ?_
      exact onlyParts.rfl'
    · refine onlyParts.after (State.act2_only ..) rfl ?_
      exact onlyParts.rfl'
  · exact onlyParts.rfl'

/-! ### Machine/Pass.lean -/

theorem State.expCount_only (s : Sys2Proof.Machine.State) (q : ℕ) (e : ℕ) (k : ℕ) (n : ℕ) : onlyParts [.ctr] s (State.expCount s q e k n) := by
  unfold State.expCount
  try dsimp only
  refine onlyParts.after (State.bump_only ..) rfl ?_
  exact onlyParts.rfl'

theorem State.updRt_only (s : Sys2Proof.Machine.State) (q : ℕ) (g : Sys2Proof.Machine.Routing → Sys2Proof.Machine.Routing) : onlyParts [.quads] s (State.updRt s q g) := by
  unfold State.updRt
  try dsimp only
  refine onlyParts.after (State.updQuad_only ..) rfl ?_
  exact onlyParts.rfl'

theorem State.postWorks_only (s : Sys2Proof.Machine.State) (q : ℕ) (fcue : ℕ) : onlyParts [.fns, .mem, .marks, .flaws, .hostMem, .pool, .quads, .sv, .fab, .mg, .ctr] s (State.postWorks s q fcue) := by
  unfold State.postWorks
  try dsimp only
  refine onlyParts.ite ?_ (fun h1 => ?_)
  · refine onlyParts.after (State.post_only ..) rfl ?_
    refine onlyParts.after (State.updRt_only ..) rfl ?_
    exact onlyParts.rfl'
  · exact onlyParts.rfl'

theorem State.writeWorks_only (s : Sys2Proof.Machine.State) (q : ℕ) (rarea : ℕ) (x : ℕ) (ws : List Sys2Proof.Machine.Work) : onlyParts [.mem, .marks, .flaws] s (State.writeWorks s q rarea x ws) := by
  unfold State.writeWorks
  try dsimp only
  refine onlyParts.foldl (onlyParts.rfl') (fun _ _ h1 => ?_)
  try dsimp only
  · try dsimp only
    · try dsimp only
      refine onlyParts.after (State.devWrite_only ..) rfl ?_
      refine onlyParts.after (State.devWrite_only ..) rfl ?_
      exact h1

theorem State.openDsp_only (s : Sys2Proof.Machine.State) (q : ℕ) (dspn : ℕ) (n : ℕ) (fresh : Bool) : onlyParts [.quads] s (State.openDsp s q dspn n fresh) := by
  unfold State.openDsp
  try dsimp only
  refine onlyParts.after (State.updQuad_only ..) rfl ?_
  exact onlyParts.rfl'

theorem State.staleReply_only (s : Sys2Proof.Machine.State) (q : ℕ) : onlyParts [.ctr] s (State.staleReply s q) := by
  unfold State.staleReply
  try dsimp only
  refine onlyParts.after (State.bump_only ..) rfl ?_
  exact onlyParts.rfl'

theorem State.tryDispatch_only (s : Sys2Proof.Machine.State) (q : ℕ) : onlyParts [.fns, .mem, .marks, .flaws, .hostMem, .pool, .quads, .sv, .fab, .mg, .ctr] s (State.tryDispatch s q) := by
  unfold State.tryDispatch
  try dsimp only
  split
  · exact onlyParts.rfl'
  try dsimp only
  refine onlyParts.ite ?_ (fun h1 => ?_)
  · refine onlyParts.ite ?_ (fun h2 => ?_)
    · refine onlyParts.after (State.postWorks_only ..) rfl ?_
      refine onlyParts.after (State.openDsp_only ..) rfl ?_
      refine onlyParts.after (State.updRt_only ..) rfl ?_
      refine onlyParts.after (State.writeWorks_only ..) rfl ?_
      exact onlyParts.rfl'
    · refine onlyParts.after (State.endJob_only ..) rfl ?_
      exact onlyParts.rfl'
  · exact onlyParts.rfl'

theorem State.recordIn_only (s : Sys2Proof.Machine.State) (q : ℕ) (hdr : List Sys2Proof.Byte) (row : List Sys2Proof.Byte) (pois : List (ℕ × ℕ)) : onlyParts [.fns, .mem, .marks, .flaws, .hostMem, .pool, .quads, .sv, .fab, .mg, .ctr] s (State.recordIn s q hdr row pois) := by
  unfold State.recordIn
  try dsimp only
  split
  · try dsimp only
    refine onlyParts.after (State.staleReply_only ..) rfl ?_
    exact onlyParts.rfl'
  · try dsimp only
    refine onlyParts.ite ?_ (fun h1 => ?_)
    · refine onlyParts.after (State.tryDispatch_only ..) rfl ?_
      refine onlyParts.after (State.updRt_only ..) rfl ?_
      refine onlyParts.after (State.expCount_only ..) rfl ?_
      refine onlyParts.after (State.devPut_only ..) rfl ?_
      refine onlyParts.after (State.devWrite_only ..) rfl ?_
      exact onlyParts.rfl'
    · refine onlyParts.after (State.staleReply_only ..) rfl ?_
      exact onlyParts.rfl'

theorem State.endIn_only (s : Sys2Proof.Machine.State) (q : ℕ) (tag : ℕ) (key : ℕ) (count : ℕ) : onlyParts [.fns, .mem, .marks, .flaws, .hostMem, .pool, .quads, .sv, .fab, .mg, .ctr] s (State.endIn s q tag key count) := by
  unfold State.endIn
  try dsimp only
  refine onlyParts.ite ?_ (fun h1 => ?_)
  · refine onlyParts.after (State.tryDispatch_only ..) rfl ?_
    refine onlyParts.after (State.updRt_only ..) rfl ?_
    exact onlyParts.rfl'
  · refine onlyParts.after (State.staleReply_only ..) rfl ?_
    exact onlyParts.rfl'

theorem State.tryDcue_only (s : Sys2Proof.Machine.State) (q : ℕ) : onlyParts [.fns, .mem, .marks, .flaws, .hostMem, .pool, .quads, .sv, .fab, .mg, .ctr] s (State.tryDcue s q) := by
  unfold State.tryDcue
  try dsimp only
  split
  · exact onlyParts.rfl'
  try dsimp only
  refine onlyParts.ite ?_ (fun h1 => ?_)
  · refine onlyParts.ite ?_ (fun h2 => ?_)
    · refine onlyParts.after (State.post_only ..) rfl ?_
      refine onlyParts.after (State.updRt_only ..) rfl ?_
      exact onlyParts.rfl'
    · refine onlyParts.after (State.updRt_only ..) rfl ?_
      exact onlyParts.rfl'
  · exact onlyParts.rfl'

theorem State.answerIn_only (s : Sys2Proof.Machine.State) (q : ℕ) (tag : ℕ) (d : ℕ) (row : List Sys2Proof.Byte) (pois : List (ℕ × ℕ)) : onlyParts [.fns, .mem, .marks, .flaws, .hostMem, .pool, .quads, .sv, .fab, .mg, .ctr] s (State.answerIn s q tag d row pois) := by
  unfold State.answerIn
  try dsimp only
  split
  · try dsimp only
    refine onlyParts.after (State.staleReply_only ..) rfl ?_
    exact onlyParts.rfl'
  · try dsimp only
    refine onlyParts.ite ?_ (fun h1 => ?_)
    · refine onlyParts.after (State.tryDcue_only ..) rfl ?_
      refine onlyParts.after (State.updRt_only ..) rfl ?_
      refine onlyParts.after (State.devPut_only ..) rfl ?_
      exact onlyParts.rfl'
    · refine onlyParts.after (State.staleReply_only ..) rfl ?_
      exact onlyParts.rfl'

theorem State.answerToken_only (s : Sys2Proof.Machine.State) (q : ℕ) (t : Sys2Proof.Tok) : onlyParts [.fns, .mem, .marks, .flaws, .hostMem, .pool, .quads, .sv, .fab, .mg, .ctr] s (State.answerToken s q t) := by
  unfold State.answerToken
  split
  · exact onlyParts.rfl'
  extract_lets r part
  split
  · exact onlyParts.after (State.updRt_only ..) rfl onlyParts.rfl'
  · rename_i s1 m0 _
    have h1 : onlyParts [.fns, .mem, .marks, .flaws, .hostMem, .pool, .quads, .sv, .fab, .mg, .ctr] s s1 := onlyParts.mono (State.updRt_only ..) rfl
    split
    · exact h1
    · split
      · exact onlyParts.after (State.answerIn_only ..) rfl h1
      · extract_lets m
        split
        have h2 := onlyParts.after (State.issue_only' (by assumption)) rfl h1
        split
        · exact h2
        · exact onlyParts.after (State.endJob_only ..) rfl (onlyParts.after (State.bump_only ..) rfl h2)

theorem State.sendRecords_only (s : Sys2Proof.Machine.State) (q : ℕ) (j : Sys2Proof.Machine.Job) (p : Sys2Proof.Machine.Prod) : onlyParts [.fns, .mem, .marks, .flaws, .hostMem, .pool, .quads, .sv, .fab, .mg, .ctr] s (State.sendRecords s q j p) := by
  unfold State.sendRecords
  extract_lets rt r ent tag src me recs homes send m5 s1 m6
  have hs : ∀ (u : Sys2Proof.Machine.State) (pos : ℕ) (m : Msg),
      onlyParts [.fns, .mem, .marks, .flaws, .hostMem, .pool, .quads, .sv, .fab, .mg, .ctr] s u →
      onlyParts [.fns, .mem, .marks, .flaws, .hostMem, .pool, .quads, .sv, .fab, .mg, .ctr] s (send u pos m) := by
    intro u pos m h
    simp only [send]
    split
    · exact onlyParts.after (State.issue_only ..) rfl h
    · refine onlyParts.after (State.endJob_only ..) rfl ?_
      exact onlyParts.after (State.bump_only ..) rfl (onlyParts.after (State.issue_only ..) rfl h)
  clear_value send
  have h1 : onlyParts [.fns, .mem, .marks, .flaws, .hostMem, .pool, .quads, .sv, .fab, .mg, .ctr] s s1 := by
    refine onlyParts.foldl onlyParts.rfl' (fun u x h => ?_)
    obtain ⟨d, row, k, e, w, ps⟩ := x
    dsimp only
    split
    · refine onlyParts.after (State.recordIn_only ..) rfl ?_
      refine onlyParts.after (State.expCount_only ..) rfl ?_
      exact onlyParts.after (State.noteReads_only ..) rfl h
    · refine hs _ _ _ ?_
      refine onlyParts.after (State.expCount_only ..) rfl ?_
      exact onlyParts.after (State.noteReads_only ..) rfl h
  refine onlyParts.foldl h1 (fun u x h => ?_)
  obtain ⟨pos, hq⟩ := x
  dsimp only
  split
  · exact onlyParts.after (State.endIn_only ..) rfl h
  · exact hs _ _ _ h

theorem State.publish_only (s : Sys2Proof.Machine.State) (q : ℕ) : onlyParts [.fns, .mem, .marks, .flaws, .hostMem, .pool, .quads, .sv, .fab, .mg, .ctr] s (State.publish s q) := by
  unfold State.publish
  try dsimp only
  split
  · exact onlyParts.rfl'
  try dsimp only
  refine onlyParts.ite ?_ (fun h1 => ?_)
  · refine onlyParts.after (State.tryDcue_only ..) rfl ?_
    refine onlyParts.after (State.tryDispatch_only ..) rfl ?_
    refine onlyParts.after (State.sendRecords_only ..) rfl ?_
    refine onlyParts.after (State.postWorks_only ..) rfl ?_
    refine onlyParts.after (State.bump_only ..) rfl ?_
    refine onlyParts.foldl ?_ (fun _ _ h4 => ?_)
    · refine onlyParts.after (State.openDsp_only ..) rfl ?_
      refine onlyParts.after (State.updQuad_only ..) rfl ?_
      refine onlyParts.after (State.post_only ..) rfl ?_
      refine onlyParts.after (State.updRt_only ..) rfl ?_
      refine onlyParts.after (State.writeWorks_only ..) rfl ?_
      refine onlyParts.foldl ?_ (fun _ _ h3 => ?_)
      · refine onlyParts.foldl (onlyParts.rfl') (fun _ _ h2 => ?_)
        try dsimp only
        · try dsimp only
          refine onlyParts.after (State.devWrite_only ..) rfl ?_
          exact h2
      · try dsimp only
        refine onlyParts.after (State.devWrite_only ..) rfl ?_
        exact h3
    · try dsimp only
      refine onlyParts.after (State.expCount_only ..) rfl ?_
      exact h4
  · refine onlyParts.after (State.endJob_only ..) rfl ?_
    exact onlyParts.rfl'

theorem State.startPass_only (s : Sys2Proof.Machine.State) (q : ℕ) (pass : ℕ) (batch : ℕ) (skips : List ℕ) (skipThis : List Bool) (r : Sys2Proof.Machine.RoutePar) : onlyParts [.quads] s (State.startPass s q pass batch skips skipThis r) := by
  unfold State.startPass
  try dsimp only
  refine onlyParts.after (State.updRt_only ..) rfl ?_
  exact onlyParts.rfl'

theorem State.passes_only : ∀ (k : ℕ) (s : Sys2Proof.Machine.State),
    onlyParts [.fns, .mem, .marks, .flaws, .hostMem, .pool, .quads, .sv, .fab, .mg, .ctr] s (State.passes k s)
  | 0, _ => onlyParts.rfl'
  | k + 1, s => by
    unfold State.passes
    split
    · exact onlyParts.rfl'
    · split
      · exact onlyParts.rfl'
      · dsimp only
        refine onlyParts.after (State.passes_only k _) rfl ?_
        split
        · exact onlyParts.mono (State.publish_only ..) rfl
        · split
          · exact onlyParts.mono (State.startPass_only ..) rfl
          · exact onlyParts.mono (State.updRt_only ..) rfl

theorem State.goOn_only (s : Sys2Proof.Machine.State) : onlyParts [.fns, .mem, .marks, .flaws, .hostMem, .pool, .quads, .sv, .fab, .mg, .ctr] s (State.goOn s) := by
  unfold State.goOn
  try dsimp only
  refine onlyParts.after (State.passes_only ..) rfl ?_
  exact onlyParts.rfl'

/-! ### Machine/Grid.lean -/

theorem State.progress_only (s : Sys2Proof.Machine.State) (q : ℕ) : onlyParts [.quads] s (State.progress s q) := by
  unfold State.progress
  try dsimp only
  refine onlyParts.after (State.updQuad_only ..) rfl ?_
  exact onlyParts.rfl'

theorem State.worked_only (s : Sys2Proof.Machine.State) (q : ℕ) (lanes : ℕ) (cells : ℕ) : onlyParts [.quads] s (State.worked s q lanes cells) := by
  unfold State.worked
  try dsimp only
  refine onlyParts.after (State.updQuad_only ..) rfl ?_
  exact onlyParts.rfl'

theorem State.setCredit_only (s : Sys2Proof.Machine.State) (src : Sys2Proof.Src) (d : Sys2Proof.Machine.Dest) (n : ℕ) : onlyParts [.quads] s (State.setCredit s src d n) := by
  unfold State.setCredit
  try dsimp only
  refine onlyParts.after (State.updQuad_only ..) rfl ?_
  exact onlyParts.rfl'

theorem State.oweTo_only (s : Sys2Proof.Machine.State) (src : Sys2Proof.Src) (slot : ℕ) (q : ℕ) (row : ℕ) (col : ℕ) (dq : ℕ) : onlyParts [.quads] s (State.oweTo s src slot q row col dq) := by
  unfold State.oweTo
  try dsimp only
  split
  · exact onlyParts.rfl'
  try dsimp only
  refine onlyParts.after (State.updQuad_only ..) rfl ?_
  exact onlyParts.rfl'

theorem State.owe_only (s : Sys2Proof.Machine.State) (q : ℕ) (row : ℕ) (col : ℕ) (dq : ℕ) (slot : ℕ) : onlyParts [.quads] s (State.owe s q row col dq slot) := by
  unfold State.owe
  try dsimp only
  split
  · exact onlyParts.rfl'
  try dsimp only
  refine onlyParts.after (State.oweTo_only ..) rfl ?_
  exact onlyParts.rfl'

theorem State.popIn_only (s : Sys2Proof.Machine.State) (q : ℕ) (row : ℕ) (col : ℕ) (dq : ℕ) : onlyParts [.quads] s (State.popIn s q row col dq) := by
  unfold State.popIn
  try dsimp only
  refine onlyParts.after (State.owe_only ..) rfl ?_
  refine onlyParts.after (State.updQuad_only ..) rfl ?_
  exact onlyParts.rfl'

theorem State.deliver_only (s : Sys2Proof.Machine.State) (q : ℕ) (row : ℕ) (col : ℕ) (dq : ℕ) (tok : Sys2Proof.Tok) (src : Sys2Proof.Src) (arrived : ℕ) : onlyParts [.fns, .mem, .marks, .flaws, .hostMem, .pool, .quads, .sv, .fab, .mg, .ctr] s (State.deliver s q row col dq tok src arrived) := by
  unfold State.deliver
  try dsimp only
  refine onlyParts.ite ?_ (fun h1 => ?_)
  · refine onlyParts.ite ?_ (fun h2 => ?_)
    · refine onlyParts.after (State.progress_only ..) rfl ?_
      refine onlyParts.after (State.updQuad_only ..) rfl ?_
      exact onlyParts.rfl'
    · split
      · try dsimp only
        refine onlyParts.after (State.updQuad_only ..) rfl ?_
        exact onlyParts.rfl'
      · exact onlyParts.rfl'
  · refine onlyParts.ite ?_ (fun h3 => ?_)
    · refine onlyParts.ite ?_ (fun h4 => ?_)
      · refine onlyParts.after (State.oweTo_only ..) rfl ?_
        refine onlyParts.after (State.bump_only ..) rfl ?_
        exact onlyParts.rfl'
      · refine onlyParts.after (State.updQuad_only ..) rfl ?_
        exact onlyParts.rfl'
    · refine onlyParts.after (State.goOn_only ..) rfl ?_
      refine onlyParts.after (State.oweTo_only ..) rfl ?_
      refine onlyParts.after (State.answerToken_only ..) rfl ?_
      exact onlyParts.rfl'

theorem State.fencedDrop_only (s : Sys2Proof.Machine.State) (q : ℕ) (row : ℕ) (col : ℕ) (p : ℕ) : onlyParts [.ctr] s (State.fencedDrop s q row col p) := by
  unfold State.fencedDrop
  try dsimp only
  refine onlyParts.after (State.bump_only ..) rfl ?_
  exact onlyParts.rfl'

theorem State.fanOut_only (s : Sys2Proof.Machine.State) (q : ℕ) (row : ℕ) (col : ℕ) (code : ℕ) (c : ℕ) (tok : Sys2Proof.Tok) (src : Sys2Proof.Src) (at_ : ℕ) (off : ℕ) : onlyParts [.fns, .mem, .marks, .flaws, .hostMem, .pool, .quads, .sv, .fab, .mg, .ctr] s (State.fanOut s q row col code c tok src at_ off) := by
  unfold State.fanOut
  try dsimp only
  refine onlyParts.foldl ?_ (fun _ _ h2 => ?_)
  · refine onlyParts.ite ?_ (fun h1 => ?_)
    · refine onlyParts.after (State.updQuad_only ..) rfl ?_
      exact onlyParts.rfl'
    · refine onlyParts.after (State.deliver_only ..) rfl ?_
      exact h1
  · try dsimp only
    refine onlyParts.ite h2 (fun h3 => ?_)
    split
    · try dsimp only
      refine onlyParts.after (State.updQuad_only ..) rfl ?_
      exact h3
    · try dsimp only
      refine onlyParts.ite ?_ (fun h4 => ?_)
      · refine onlyParts.ite ?_ (fun h5 => ?_)
        · refine onlyParts.after (State.updQuad_only ..) rfl ?_
          exact h3
        · exact h3
      · refine onlyParts.after (State.fencedDrop_only ..) rfl ?_
        exact h3

theorem State.enablePath_only (s : Sys2Proof.Machine.State) (slot : ℕ) (src : Sys2Proof.Src) (cs : List ℕ) : onlyParts [.quads] s (State.enablePath s slot src cs) := by
  unfold State.enablePath
  try dsimp only
  split
  · try dsimp only
    refine onlyParts.after (State.updQuad_only ..) rfl ?_
    exact onlyParts.rfl'
  · try dsimp only
    refine onlyParts.foldl ?_ (fun _ _ h1 => ?_)
    · refine onlyParts.after (State.updQuad_only ..) rfl ?_
      exact onlyParts.rfl'
    · try dsimp only
      refine onlyParts.after (State.setCredit_only ..) rfl ?_
      exact h1
  · try dsimp only
    refine onlyParts.foldl ?_ (fun _ _ h2 => ?_)
    · refine onlyParts.after (State.updQuad_only ..) rfl ?_
      refine onlyParts.after (State.updQuad_only ..) rfl ?_
      exact onlyParts.rfl'
    · try dsimp only
      refine onlyParts.after (State.setCredit_only ..) rfl ?_
      exact h2

theorem execPathEnable_only {src : Sys2Proof.Src} {s : Sys2Proof.Machine.State} {t0 : State} (e0 : execPathEnable src s = .next t0) : onlyParts [.quads] s t0 := by
  unfold execPathEnable at e0
  injection e0 with e0
  rw [← e0]
  clear e0
  try dsimp only
  refine onlyParts.ite ?_ (fun h1 => ?_)
  · split
    · try dsimp only
      refine onlyParts.foldl (onlyParts.rfl') (fun _ _ h2 => ?_)
      try dsimp only
      refine onlyParts.ite ?_ (fun h3 => ?_)
      · refine onlyParts.after (State.enablePath_only ..) rfl ?_
        exact h2
      · exact h2
    · try dsimp only
      refine onlyParts.ite ?_ (fun h4 => ?_)
      · refine onlyParts.after (State.enablePath_only ..) rfl ?_
        exact onlyParts.rfl'
      · exact onlyParts.rfl'
  · exact onlyParts.rfl'

theorem State.spend_only (s : Sys2Proof.Machine.State) (src : Sys2Proof.Src) (ds : List Sys2Proof.Machine.Dest) : onlyParts [.quads] s (State.spend s src ds) := by
  unfold State.spend
  try dsimp only
  refine onlyParts.foldl (onlyParts.rfl') (fun _ _ h1 => ?_)
  try dsimp only
  refine onlyParts.after (State.setCredit_only ..) rfl ?_
  exact h1

theorem State.noteSent_only (s : Sys2Proof.Machine.State) (d : Sys2Proof.Machine.Dest) (tn : ℕ) (due : ℕ) : onlyParts [.quads] s (State.noteSent s d tn due) := by
  unfold State.noteSent
  try dsimp only
  refine onlyParts.after (State.updQuad_only ..) rfl ?_
  exact onlyParts.rfl'

theorem State.injectOut_only (s : Sys2Proof.Machine.State) (k : Sys2Proof.Site) (n : ℕ) : onlyParts [.fns, .mem, .marks, .flaws, .hostMem, .pool, .quads, .sv, .fab, .mg, .ctr] s (State.injectOut s k n) := by
  unfold State.injectOut
  try dsimp only
  split
  · exact onlyParts.rfl'
  try dsimp only
  refine onlyParts.ite ?_ (fun h1 => ?_)
  · split
    · try dsimp only
      refine onlyParts.ite .rfl' (fun h2 => ?_)
      refine onlyParts.after (State.fanOut_only ..) rfl ?_
      refine onlyParts.after (State.updQuad_only ..) rfl ?_
      refine onlyParts.after (State.spend_only ..) rfl ?_
      exact h2
    · try dsimp only
      refine onlyParts.ite ?_ (fun h3 => ?_)
      · split
        · try dsimp only
          refine onlyParts.ite .rfl' (fun h4 => ?_)
          refine onlyParts.after (State.fanOut_only ..) rfl ?_
          refine onlyParts.after (State.updQuad_only ..) rfl ?_
          refine onlyParts.after (State.noteSent_only ..) rfl ?_
          refine onlyParts.after (State.spend_only ..) rfl ?_
          exact h4
        · exact onlyParts.rfl'
      · refine onlyParts.ite .rfl' (fun h5 => ?_)
        refine onlyParts.after (State.fanOut_only ..) rfl ?_
        refine onlyParts.after (State.updQuad_only ..) rfl ?_
        refine onlyParts.after (State.updQuad_only ..) rfl ?_
        refine onlyParts.after (State.bump_only ..) rfl ?_
        exact h5
  · exact onlyParts.rfl'

theorem State.injectTrap_only (s : Sys2Proof.Machine.State) (k : Sys2Proof.Site) (t : ℕ) : onlyParts [.fns, .mem, .marks, .flaws, .hostMem, .pool, .quads, .sv, .fab, .mg, .ctr] s (State.injectTrap s k t) := by
  unfold State.injectTrap
  try dsimp only
  split
  · try dsimp only
    refine onlyParts.ite ?_ (fun h1 => ?_)
    · refine onlyParts.after (State.fanOut_only ..) rfl ?_
      refine onlyParts.after (State.updQuad_only ..) rfl ?_
      exact onlyParts.rfl'
    · exact onlyParts.rfl'
  · exact onlyParts.rfl'

theorem State.gwSend_only (s : Sys2Proof.Machine.State) (q : ℕ) (l : ℕ) (i : ℕ) (g : Sys2Proof.Machine.GwTok) : onlyParts [.quads] s (State.gwSend s q l i g) := by
  unfold State.gwSend
  try dsimp only
  · try dsimp only
    refine onlyParts.after (State.updQuad_only ..) rfl ?_
    split
    · try dsimp only
      refine onlyParts.ite ?_ (fun h1 => ?_)
      · refine onlyParts.after (State.updQuad_only ..) rfl ?_
        exact onlyParts.rfl'
      · refine onlyParts.after (State.updQuad_only ..) rfl ?_
        exact h1
    · try dsimp only
      refine onlyParts.after (State.updQuad_only ..) rfl ?_
      exact onlyParts.rfl'

theorem State.dropStaleReply_only (s : Sys2Proof.Machine.State) (q : ℕ) (l : ℕ) : onlyParts [.quads, .ctr] s (State.dropStaleReply s q l) := by
  unfold State.dropStaleReply
  try dsimp only
  refine onlyParts.ite .rfl' (fun h1 => ?_)
  split
  · try dsimp only
    refine onlyParts.after (State.bump_only ..) rfl ?_
    refine onlyParts.after (State.updQuad_only ..) rfl ?_
    exact h1
  · try dsimp only
    refine onlyParts.after (State.updQuad_only ..) rfl ?_
    exact h1

theorem execTokenHop_only {q : ℕ} {n : ℕ} {s : Sys2Proof.Machine.State} {t0 : State} (e0 : execTokenHop q n s = .next t0) : onlyParts [.fns, .mem, .marks, .flaws, .hostMem, .pool, .quads, .sv, .fab, .mg, .ctr] s t0 := by
  unfold execTokenHop at e0
  injection e0 with e0
  rw [← e0]
  clear e0
  try dsimp only
  split
  · exact onlyParts.rfl'
  try dsimp only
  refine onlyParts.ite .rfl' (fun h1 => ?_)
  refine onlyParts.ite ?_ (fun h2 => ?_)
  · refine onlyParts.ite ?_ (fun h3 => ?_)
    · refine onlyParts.ite ?_ (fun h4 => ?_)
      · refine onlyParts.after (State.fanOut_only ..) rfl ?_
        refine onlyParts.after (State.updQuad_only ..) rfl ?_
        exact h1
      · refine onlyParts.after (State.addDiscards_only ..) rfl ?_
        refine onlyParts.after (State.bump_only ..) rfl ?_
        refine onlyParts.after (State.bump_only ..) rfl ?_
        refine onlyParts.after (State.updQuad_only ..) rfl ?_
        exact h1
    · refine onlyParts.after (State.fencedDrop_only ..) rfl ?_
      refine onlyParts.after (State.updQuad_only ..) rfl ?_
      exact h1
  · refine onlyParts.after (State.deliver_only ..) rfl ?_
    refine onlyParts.after (State.updQuad_only ..) rfl ?_
    exact h1

theorem execCreditReturn_only {q : ℕ} {n : ℕ} {s : Sys2Proof.Machine.State} {t0 : State} (e0 : execCreditReturn q n s = .next t0) : onlyParts [.fns, .mem, .marks, .flaws, .hostMem, .pool, .quads, .sv, .fab, .mg, .ctr] s t0 := by
  unfold execCreditReturn at e0
  injection e0 with e0
  rw [← e0]
  clear e0
  try dsimp only
  split
  · exact onlyParts.rfl'
  try dsimp only
  refine onlyParts.ite .rfl' (fun h1 => ?_)
  split
  · try dsimp only
    refine onlyParts.foldl ?_ (fun _ _ h3 => ?_)
    · refine onlyParts.after (State.updQuad_only ..) rfl ?_
      refine onlyParts.ite ?_ (fun h2 => ?_)
      · refine onlyParts.after (State.updQuad_only ..) rfl ?_
        exact h1
      · refine onlyParts.after (State.setCredit_only ..) rfl ?_
        exact h2
    · try dsimp only
      · try dsimp only
        refine onlyParts.foldl (h3) (fun _ _ h4 => ?_)
        try dsimp only
        refine onlyParts.after (State.teDone_only ..) rfl ?_
        exact h4
  · try dsimp only
    refine onlyParts.ite ?_ (fun h5 => ?_)
    · refine onlyParts.after (State.updQuad_only ..) rfl ?_
      exact h1
    · refine onlyParts.after (State.setCredit_only ..) rfl ?_
      exact h5

/-! ### Machine/Fence.lean -/

theorem State.remap_only (s : Sys2Proof.Machine.State) (q : ℕ) (row : ℕ) (col : ℕ) : onlyParts [.mem, .marks, .flaws, .quads] s (State.remap s q row col) := by
  unfold State.remap
  try dsimp only
  split
  · try dsimp only
    refine onlyParts.after (State.updQuad_only ..) rfl ?_
    exact onlyParts.rfl'
  · try dsimp only
    split
    · try dsimp only
      refine onlyParts.after (State.updQuad_only ..) rfl ?_
      refine onlyParts.after (State.updQuad_only ..) rfl ?_
      exact onlyParts.rfl'
    · try dsimp only
      refine onlyParts.set_mem_marks ?_ rfl
      refine onlyParts.after (State.mend_only ..) rfl ?_
      refine onlyParts.after (State.updQuad_only ..) rfl ?_
      refine onlyParts.after (State.updQuad_only ..) rfl ?_
      exact onlyParts.rfl'

theorem State.fence_only (s : Sys2Proof.Machine.State) (q : ℕ) (row : ℕ) (col : ℕ) (st : ℕ) (reason : ℕ) : onlyParts [.quads] s (State.fence s q row col st reason).2 := by
  unfold State.fence
  try dsimp only
  split
  · try dsimp only
    refine onlyParts.after (State.updQuad_only ..) rfl ?_
    exact onlyParts.rfl'
  · try dsimp only
    split
    · try dsimp only
      split
      · try dsimp only
        refine onlyParts.after (State.updQuad_only ..) rfl ?_
        refine onlyParts.after (State.updQuad_only ..) rfl ?_
        exact onlyParts.rfl'
      · try dsimp only
        refine onlyParts.after (State.updQuad_only ..) rfl ?_
        exact onlyParts.rfl'
    · try dsimp only
      refine onlyParts.after (State.updQuad_only ..) rfl ?_
      exact onlyParts.rfl'

theorem State.fence_only' {s : Sys2Proof.Machine.State} {q : ℕ} {row : ℕ} {col : ℕ} {st : ℕ} {reason : ℕ} {t0 : State} {o0 : _} (e0 : State.fence s q row col st reason = (o0, t0)) : onlyParts [.quads] s t0 := by
  have h := State.fence_only s q row col st reason
  rw [e0] at h
  exact h

theorem State.declareDead_only (s : Sys2Proof.Machine.State) (q : ℕ) (row : ℕ) (col : ℕ) (reason : ℕ) : onlyParts [.mem, .marks, .flaws, .quads] s (State.declareDead s q row col reason) := by
  unfold State.declareDead
  try dsimp only
  refine onlyParts.ite ?_ (fun h1 => ?_)
  · split
    · try dsimp only
      refine onlyParts.after (State.remap_only ..) rfl ?_
      refine onlyParts.after (State.fence_only' (by assumption)) rfl ?_
      exact onlyParts.rfl'
    · try dsimp only
      refine onlyParts.after (State.fence_only' (by assumption)) rfl ?_
      exact onlyParts.rfl'
  · exact onlyParts.rfl'

theorem State.remapDue_only (s : Sys2Proof.Machine.State) (q : ℕ) : onlyParts [.mem, .marks, .flaws, .quads] s (State.remapDue s q) := by
  unfold State.remapDue
  try dsimp only
  refine onlyParts.foldl (onlyParts.rfl') (fun _ _ h1 => ?_)
  try dsimp only
  refine onlyParts.after (State.remap_only ..) rfl ?_
  exact h1

theorem State.unitDies_only (s : Sys2Proof.Machine.State) (q : ℕ) (row : ℕ) (col : ℕ) (reason : ℕ) : onlyParts [.bt, .fns, .mem, .marks, .flaws, .hostMem, .pool, .quads, .sv, .fab, .mg, .ctr] s (State.unitDies s q row col reason) := by
  unfold State.unitDies
  split
  · exact onlyParts.rfl'
  · extract_lets s1 s2
    have h1 : onlyParts [.bt, .fns, .mem, .marks, .flaws, .hostMem, .pool, .quads, .sv, .fab, .mg, .ctr] s s1 := onlyParts.mono (State.endJobAt_only ..) rfl
    have h2 : onlyParts [.bt, .fns, .mem, .marks, .flaws, .hostMem, .pool, .quads, .sv, .fab, .mg, .ctr] s s2 :=
      onlyParts.ite h1 (fun _ => onlyParts.after (State.cutNow_only ..) rfl h1)
    have h3 := State.fence_only s2 q row col 3 reason
    generalize State.fence s2 q row col 3 reason = v at h3
    obtain ⟨k, s3⟩ := v
    have h4 := onlyParts.after h3 rfl h2
    dsimp only
    refine onlyParts.after (State.quadReset_only ..) rfl (onlyParts.after (State.raise_only ..) rfl ?_)
    cases k with
    | none => exact h4
    | some k => exact onlyParts.after (State.updQuad_only ..) rfl h4

theorem State.eccCount_only (s : Sys2Proof.Machine.State) (k : Sys2Proof.Site) (i : ℕ) : onlyParts [.ctr] s (State.eccCount s k i) := by
  unfold State.eccCount
  try dsimp only
  refine onlyParts.ite ?_ (fun h1 => ?_)
  · refine onlyParts.after (State.muCount_only ..) rfl ?_
    exact onlyParts.rfl'
  · refine onlyParts.after (State.cuCount_only ..) rfl ?_
    exact onlyParts.rfl'

theorem State.noteError_only (s : Sys2Proof.Machine.State) (k : Sys2Proof.Site) : onlyParts [.quads] s (State.noteError s k) := by
  unfold State.noteError
  try dsimp only
  refine onlyParts.after (State.updQuad_only ..) rfl ?_
  exact onlyParts.rfl'

theorem State.reap_only (s : Sys2Proof.Machine.State) (q : ℕ) : onlyParts [.bt, .fns, .mem, .marks, .flaws, .hostMem, .pool, .quads, .sv, .fab, .mg, .ctr] s (State.reap s q) := by
  unfold State.reap
  try dsimp only
  split
  · try dsimp only
    refine onlyParts.after (State.unitDies_only ..) rfl ?_
    exact onlyParts.rfl'
  · exact onlyParts.rfl'

theorem State.lineEcc_only (s : Sys2Proof.Machine.State) (k : Sys2Proof.Site) (ecc : Sys2Proof.ScrubKind) : onlyParts [.bt, .fns, .mem, .marks, .flaws, .hostMem, .pool, .quads, .sv, .fab, .mg, .ctr] s (State.lineEcc s k ecc) := by
  unfold State.lineEcc
  try dsimp only
  split
  · exact onlyParts.rfl'
  · try dsimp only
    refine onlyParts.after (State.muCount_only ..) rfl ?_
    exact onlyParts.rfl'
  · try dsimp only
    refine onlyParts.after (State.reap_only ..) rfl ?_
    refine onlyParts.after (State.noteError_only ..) rfl ?_
    refine onlyParts.after (State.muCount_only ..) rfl ?_
    exact onlyParts.rfl'

theorem execQueueEccError_only {k : Sys2Proof.Site} {queue : ℕ} {pos : ℕ} {kind : Sys2Proof.EccKind} {s : Sys2Proof.Machine.State} {t0 : State} (e0 : execQueueEccError k queue pos kind s = .next t0) : onlyParts [.bt, .fns, .mem, .marks, .flaws, .hostMem, .pool, .quads, .sv, .fab, .mg, .ctr] s t0 := by
  unfold execQueueEccError at e0
  injection e0 with e0
  rw [← e0]
  clear e0
  try dsimp only
  split
  · exact onlyParts.rfl'
  try dsimp only
  refine onlyParts.ite ?_ (fun h1 => ?_)
  · split
    · try dsimp only
      refine onlyParts.after (State.eccCount_only ..) rfl ?_
      exact onlyParts.rfl'
    · try dsimp only
      refine onlyParts.after (State.reap_only ..) rfl ?_
      refine onlyParts.after (State.noteError_only ..) rfl ?_
      refine onlyParts.after (State.eccCount_only ..) rfl ?_
      refine onlyParts.after (State.updQuad_only ..) rfl ?_
      exact onlyParts.rfl'
    · try dsimp only
      refine onlyParts.after (State.reap_only ..) rfl ?_
      refine onlyParts.after (State.noteError_only ..) rfl ?_
      refine onlyParts.after (State.raise_only ..) rfl ?_
      refine onlyParts.after (State.eccCount_only ..) rfl ?_
      refine onlyParts.after (State.eccCount_only ..) rfl ?_
      refine onlyParts.ite ?_ (fun h2 => ?_)
      · refine onlyParts.after (State.updQuad_only ..) rfl ?_
        exact onlyParts.rfl'
      · refine onlyParts.after (State.owe_only ..) rfl ?_
        exact h2
  · exact onlyParts.rfl'

theorem execStatusPoll_only {q : ℕ} {missed : List (ℕ × ℕ)} {s : Sys2Proof.Machine.State} {t0 : State} (e0 : execStatusPoll q missed s = .next t0) : onlyParts [.bt, .fns, .mem, .marks, .flaws, .hostMem, .pool, .quads, .sv, .fab, .mg, .ctr] s t0 := by
  unfold execStatusPoll at e0
  injection e0 with e0
  rw [← e0]
  clear e0
  try dsimp only
  refine onlyParts.ite ?_ (fun h1 => ?_)
  · refine onlyParts.foldl ?_ (fun _ _ h2 => ?_)
    · refine onlyParts.after (State.updQuad_only ..) rfl ?_
      exact onlyParts.rfl'
    · try dsimp only
      refine onlyParts.after (State.unitDies_only ..) rfl ?_
      exact h2
  · exact onlyParts.rfl'

/-! ### Machine/MemUnit.lean -/

theorem State.rangeFault_only (s : Sys2Proof.Machine.State) (k : Sys2Proof.Site) (ag : ℕ) : onlyParts [.fns, .quads, .mg, .ctr] s (State.rangeFault s k ag) := by
  unfold State.rangeFault
  try dsimp only
  refine onlyParts.ite ?_ (fun h1 => ?_)
  · refine onlyParts.after (State.raise_only ..) rfl ?_
    refine onlyParts.after (State.updQuad_only ..) rfl ?_
    refine onlyParts.after (State.muCount_only ..) rfl ?_
    exact onlyParts.rfl'
  · refine onlyParts.after (State.muCount_only ..) rfl ?_
    exact onlyParts.rfl'

theorem State.agIssue_only (s : Sys2Proof.Machine.State) (k : Sys2Proof.Site) (ag : ℕ) : onlyParts [.fns, .quads, .mg, .ctr] s (State.agIssue s k ag) := by
  unfold State.agIssue
  try dsimp only
  split
  · exact onlyParts.rfl'
  try dsimp only
  refine onlyParts.ite ?_ (fun h1 => ?_)
  · refine onlyParts.after (State.progress_only ..) rfl ?_
    refine onlyParts.after (State.updQuad_only ..) rfl ?_
    refine onlyParts.ite ?_ (fun h2 => ?_)
    · refine onlyParts.ite ?_ (fun h3 => ?_)
      · refine onlyParts.after (State.updQuad_only ..) rfl ?_
        exact onlyParts.rfl'
      · refine onlyParts.after (State.rangeFault_only ..) rfl ?_
        exact h3
    · refine onlyParts.after (State.updQuad_only ..) rfl ?_
      exact h2
  · exact onlyParts.rfl'

theorem State.agTake_only (s : Sys2Proof.Machine.State) (k : Sys2Proof.Site) (ag : ℕ) : onlyParts [.quads] s (State.agTake s k ag) := by
  unfold State.agTake
  try dsimp only
  split
  · exact onlyParts.rfl'
  try dsimp only
  refine onlyParts.ite ?_ (fun h1 => ?_)
  · split
    · try dsimp only
      refine onlyParts.ite ?_ (fun h2 => ?_)
      · refine onlyParts.after (State.popIn_only ..) rfl ?_
        refine onlyParts.after (State.updQuad_only ..) rfl ?_
        exact onlyParts.rfl'
      · exact onlyParts.rfl'
    · exact onlyParts.rfl'
  · exact onlyParts.rfl'

theorem State.agStep_only (s : Sys2Proof.Machine.State) (k : Sys2Proof.Site) (ag : ℕ) : onlyParts [.fns, .quads, .mg, .ctr] s (State.agStep s k ag) := by
  unfold State.agStep
  try dsimp only
  refine onlyParts.after (State.agTake_only ..) rfl ?_
  refine onlyParts.after (State.agIssue_only ..) rfl ?_
  exact onlyParts.rfl'

theorem execAgIssue_only {k : Sys2Proof.Site} {ag : ℕ} {s : Sys2Proof.Machine.State} {t0 : State} (e0 : execAgIssue k ag s = .next t0) : onlyParts [.fns, .quads, .mg, .ctr] s t0 := by
  unfold execAgIssue at e0
  injection e0 with e0
  rw [← e0]
  clear e0
  try dsimp only
  refine onlyParts.ite .rfl' (fun h1 => ?_)
  refine onlyParts.after (State.agStep_only ..) rfl ?_
  exact h1

theorem execGatherIndex_only {k : Sys2Proof.Site} {ag : ℕ} {s : Sys2Proof.Machine.State} {t0 : State} (e0 : execGatherIndex k ag s = .next t0) : onlyParts [.quads] s t0 := by
  unfold execGatherIndex at e0
  injection e0 with e0
  rw [← e0]
  clear e0
  try dsimp only
  split
  · exact onlyParts.rfl'
  try dsimp only
  refine onlyParts.ite .rfl' (fun h1 => ?_)
  split
  · try dsimp only
    refine onlyParts.after (State.popIn_only ..) rfl ?_
    refine onlyParts.after (State.updQuad_only ..) rfl ?_
    exact h1
  · try dsimp only
    exact h1

theorem State.headerStep_only (s : Sys2Proof.Machine.State) (k : Sys2Proof.Site) (ag : ℕ) : onlyParts [.fns, .quads, .mg, .ctr] s (State.headerStep s k ag) := by
  unfold State.headerStep
  try dsimp only
  split
  · exact onlyParts.rfl'
  try dsimp only
  refine onlyParts.ite ?_ (fun h1 => ?_)
  · split
    · exact onlyParts.rfl'
    try dsimp only
    refine onlyParts.ite ?_ (fun h2 => ?_)
    · refine onlyParts.after (State.updQuad_only ..) rfl ?_
      refine onlyParts.after (State.popIn_only ..) rfl ?_
      exact onlyParts.rfl'
    · refine onlyParts.after (State.rangeFault_only ..) rfl ?_
      refine onlyParts.after (State.popIn_only ..) rfl ?_
      exact onlyParts.rfl'
  · refine onlyParts.after (State.agStep_only ..) rfl ?_
    exact onlyParts.rfl'

theorem execSetDown_only {k : Sys2Proof.Site} {ag : ℕ} {s : Sys2Proof.Machine.State} {t0 : State} (e0 : execSetDown k ag s = .next t0) : onlyParts [.fns, .quads, .mg, .ctr] s t0 := by
  unfold execSetDown at e0
  injection e0 with e0
  rw [← e0]
  clear e0
  try dsimp only
  refine onlyParts.ite .rfl' (fun h1 => ?_)
  refine onlyParts.after (State.headerStep_only ..) rfl ?_
  exact h1

theorem execPickUp_only {k : Sys2Proof.Site} {ag : ℕ} {s : Sys2Proof.Machine.State} {t0 : State} (e0 : execPickUp k ag s = .next t0) : onlyParts [.fns, .quads, .mg, .ctr] s t0 := by
  unfold execPickUp at e0
  injection e0 with e0
  rw [← e0]
  clear e0
  try dsimp only
  refine onlyParts.ite .rfl' (fun h1 => ?_)
  refine onlyParts.after (State.headerStep_only ..) rfl ?_
  exact h1

theorem State.trapWriteAsk_only (s : Sys2Proof.Machine.State) (k : Sys2Proof.Site) : onlyParts [.quads] s (State.trapWriteAsk s k) := by
  unfold State.trapWriteAsk
  try dsimp only
  split
  · try dsimp only
    refine onlyParts.after (State.updQuad_only ..) rfl ?_
    exact onlyParts.rfl'
  · exact onlyParts.rfl'

theorem State.trapReadAsk_only (s : Sys2Proof.Machine.State) (k : Sys2Proof.Site) : onlyParts [.quads] s (State.trapReadAsk s k) := by
  unfold State.trapReadAsk
  try dsimp only
  split
  · try dsimp only
    split
    · exact onlyParts.rfl'
    try dsimp only
    refine onlyParts.after (State.updQuad_only ..) rfl ?_
    refine onlyParts.after (State.spend_only ..) rfl ?_
    exact onlyParts.rfl'
  · exact onlyParts.rfl'

theorem State.trapServe_only (s : Sys2Proof.Machine.State) (k : Sys2Proof.Site) (i : ℕ) (a : Sys2Proof.Machine.Access) (key : ℕ × ℕ × ℕ × ℕ) : onlyParts [.mem, .marks, .flaws, .quads, .ctr] s (State.trapServe s k i a key) := by
  unfold State.trapServe
  try dsimp only
  refine onlyParts.ite ?_ (fun h1 => ?_)
  · refine onlyParts.after (State.updQuad_only ..) rfl ?_
    exact onlyParts.rfl'
  · split
    · exact onlyParts.rfl'
    try dsimp only
    refine onlyParts.after (State.progress_only ..) rfl ?_
    refine onlyParts.after (State.devWrite_only ..) rfl ?_
    refine onlyParts.after (State.devWrite_only ..) rfl ?_
    refine onlyParts.after (State.setCtr_only ..) rfl ?_
    refine onlyParts.after (State.updQuad_only ..) rfl ?_
    exact onlyParts.rfl'

theorem State.bankWait_only (s : Sys2Proof.Machine.State) (k : Sys2Proof.Site) (port : ℕ) : onlyParts [.quads, .ctr] s (State.bankWait s k port) := by
  unfold State.bankWait
  try dsimp only
  refine onlyParts.ite ?_ (fun h1 => ?_)
  · refine onlyParts.after (State.muCount_only ..) rfl ?_
    refine onlyParts.after (State.updQuad_only ..) rfl ?_
    exact onlyParts.rfl'
  · exact onlyParts.rfl'

theorem State.serveHead_only (s : Sys2Proof.Machine.State) (k : Sys2Proof.Site) (port : ℕ) : onlyParts [.bt, .fns, .mem, .marks, .flaws, .hostMem, .pool, .quads, .sv, .fab, .mg, .ctr] s (State.serveHead s k port) := by
  unfold State.serveHead
  try dsimp only
  split
  · try dsimp only
    refine onlyParts.ite ?_ (fun h1 => ?_)
    · refine onlyParts.ite ?_ (fun h2 => ?_)
      · refine onlyParts.after (State.lineEcc_only ..) rfl ?_
        split
        · try dsimp only
          refine onlyParts.after (State.trapServe_only ..) rfl ?_
          refine onlyParts.after (State.updQuad_only ..) rfl ?_
          exact onlyParts.rfl'
        · try dsimp only
          refine onlyParts.ite ?_ (fun h3 => ?_)
          · refine onlyParts.after (State.updQuad_only ..) rfl ?_
            refine onlyParts.after (State.updQuad_only ..) rfl ?_
            exact onlyParts.rfl'
          · refine onlyParts.after (State.lineWrite_only ..) rfl ?_
            refine onlyParts.after (State.updQuad_only ..) rfl ?_
            exact onlyParts.rfl'
      · split
        · try dsimp only
          refine onlyParts.after (State.trapServe_only ..) rfl ?_
          refine onlyParts.after (State.updQuad_only ..) rfl ?_
          exact onlyParts.rfl'
        · try dsimp only
          refine onlyParts.ite ?_ (fun h4 => ?_)
          · refine onlyParts.after (State.updQuad_only ..) rfl ?_
            refine onlyParts.after (State.updQuad_only ..) rfl ?_
            exact onlyParts.rfl'
          · refine onlyParts.after (State.lineWrite_only ..) rfl ?_
            refine onlyParts.after (State.updQuad_only ..) rfl ?_
            exact onlyParts.rfl'
    · refine onlyParts.after (State.bankWait_only ..) rfl ?_
      exact onlyParts.rfl'
  · exact onlyParts.rfl'

theorem execBankAccess_only {k : Sys2Proof.Site} {port : ℕ} {s : Sys2Proof.Machine.State} {t0 : State} (e0 : execBankAccess k port s = .next t0) : onlyParts [.bt, .fns, .mem, .marks, .flaws, .hostMem, .pool, .quads, .sv, .fab, .mg, .ctr] s t0 := by
  unfold execBankAccess at e0
  injection e0 with e0
  rw [← e0]
  clear e0
  try dsimp only
  refine onlyParts.ite ?_ (fun h1 => ?_)
  · refine onlyParts.after (State.serveHead_only ..) rfl ?_
    refine onlyParts.ite ?_ (fun h2 => ?_)
    · refine onlyParts.ite .rfl' (fun h3 => ?_)
      refine onlyParts.after (State.trapReadAsk_only ..) rfl ?_
      exact h3
    · refine onlyParts.after (State.trapWriteAsk_only ..) rfl ?_
      exact onlyParts.rfl'
  · exact onlyParts.rfl'

theorem State.engineTake_only (s : Sys2Proof.Machine.State) (a : ℕ) (n : ℕ) (write : Bool) : onlyParts [.quads] s (State.engineTake s a n write) := by
  unfold State.engineTake
  try dsimp only
  refine onlyParts.foldl (onlyParts.rfl') (fun _ _ h1 => ?_)
  try dsimp only
  refine onlyParts.after (State.updQuad_only ..) rfl ?_
  exact h1

theorem execEngineMuAccess_only {k : Sys2Proof.Site} {line : ℕ} {acc : Sys2Proof.LineAccess} {s : Sys2Proof.Machine.State} {t0 : State} (e0 : execEngineMuAccess k line acc s = .next t0) : onlyParts [.mem, .marks, .flaws, .quads, .ctr, .readData] s t0 := by
  unfold execEngineMuAccess at e0
  injection e0 with e0
  rw [← e0]
  clear e0
  try dsimp only
  split
  · exact onlyParts.rfl'
  try dsimp only
  refine onlyParts.ite .rfl' (fun h1 => ?_)
  refine onlyParts.ite ?_ (fun h2 => ?_)
  · split
    · try dsimp only
      refine onlyParts.after (State.devWrite_only ..) rfl ?_
      refine onlyParts.after (State.updQuad_only ..) rfl ?_
      exact h1
    · try dsimp only
      refine onlyParts.set_readData ?_ rfl
      refine onlyParts.after (State.updQuad_only ..) rfl ?_
      exact h1
  · refine onlyParts.after (State.bankWait_only ..) rfl ?_
    exact h1

/-! ### Machine/Vector.lean -/

theorem execVectorFiring_only {k : Sys2Proof.Site} {s : Sys2Proof.Machine.State} {t0 : State} (e0 : execVectorFiring k s = .next t0) : onlyParts [.quads, .ctr] s t0 := by
  unfold execVectorFiring at e0
  injection e0 with e0
  rw [← e0]
  clear e0
  try dsimp only
  split
  · exact onlyParts.rfl'
  try dsimp only
  refine onlyParts.ite .rfl' (fun h1 => ?_)
  split
  · try dsimp only
    · try dsimp only
      refine onlyParts.after (State.progress_only ..) rfl ?_
      refine onlyParts.after (State.worked_only ..) rfl ?_
      refine onlyParts.after (State.cuCount_only ..) rfl ?_
      split
      · try dsimp only
        refine onlyParts.after (State.popIn_only ..) rfl ?_
        refine onlyParts.ite ?_ (fun h2 => ?_)
        · refine onlyParts.after (State.updQuad_only ..) rfl ?_
          exact h1
        · refine onlyParts.after (State.popIn_only ..) rfl ?_
          exact h2
      · try dsimp only
        refine onlyParts.ite ?_ (fun h3 => ?_)
        · refine onlyParts.after (State.updQuad_only ..) rfl ?_
          exact h1
        · refine onlyParts.after (State.popIn_only ..) rfl ?_
          exact h3
  · try dsimp only
    exact h1

/-! ### Machine/Matrix.lean -/

theorem State.sideFill_only (s : Sys2Proof.Machine.State) (k : Sys2Proof.Site) (g : Sys2Proof.Machine.SiteCfg) (m : Sys2Proof.Machine.MWord) (sideB : Bool) : onlyParts [.quads] s (State.sideFill s k g m sideB) := by
  unfold State.sideFill
  try dsimp only
  split
  · try dsimp only
    refine onlyParts.after (State.popIn_only ..) rfl ?_
    refine onlyParts.after (State.updQuad_only ..) rfl ?_
    exact onlyParts.rfl'
  · exact onlyParts.rfl'

theorem State.elemFill_only (k : Site) (g : SiteCfg) (m : MWord) (b : Bool) : ∀ (n : ℕ) (s : Sys2Proof.Machine.State),
    onlyParts [.quads] s (State.elemFill k g m b n s)
  | 0, _ => onlyParts.rfl'
  | n + 1, s => by
    unfold State.elemFill
    split
    · exact onlyParts.after (State.elemFill_only k g m b n _) rfl (State.sideFill_only ..)
    · exact onlyParts.rfl'

theorem execOperandFill_only {k : Sys2Proof.Site} {s : Sys2Proof.Machine.State} {t0 : State} (e0 : execOperandFill k s = .next t0) : onlyParts [.quads] s t0 := by
  unfold execOperandFill at e0
  injection e0 with e0
  rw [← e0]
  clear e0
  try dsimp only
  split
  · exact onlyParts.rfl'
  try dsimp only
  refine onlyParts.ite ?_ (fun h1 => ?_)
  · split
    · try dsimp only
      refine onlyParts.after (State.updQuad_only ..) rfl ?_
      refine onlyParts.after (State.sideFill_only ..) rfl ?_
      refine onlyParts.after (State.sideFill_only ..) rfl ?_
      exact onlyParts.rfl'
    · try dsimp only
      refine onlyParts.after (State.updQuad_only ..) rfl ?_
      refine onlyParts.after (State.elemFill_only ..) rfl ?_
      exact onlyParts.rfl'
    · try dsimp only
      refine onlyParts.after (State.updQuad_only ..) rfl ?_
      refine onlyParts.after (State.elemFill_only ..) rfl ?_
      exact onlyParts.rfl'
    · exact onlyParts.rfl'
  · exact onlyParts.rfl'

theorem execSideToken_only {k : Sys2Proof.Site} {sideB : Bool} {s : Sys2Proof.Machine.State} {t0 : State} (e0 : execSideToken k sideB s = .next t0) : onlyParts [.quads] s t0 := by
  unfold execSideToken at e0
  injection e0 with e0
  rw [← e0]
  clear e0
  try dsimp only
  split
  · exact onlyParts.rfl'
  try dsimp only
  split
  · exact onlyParts.rfl'
  · try dsimp only
    refine onlyParts.ite ?_ (fun h1 => ?_)
    · refine onlyParts.after (State.updQuad_only ..) rfl ?_
      refine onlyParts.after (State.sideFill_only ..) rfl ?_
      exact onlyParts.rfl'
    · exact onlyParts.rfl'
  · exact onlyParts.rfl'

theorem execMatrixStep_only {k : Sys2Proof.Site} {s : Sys2Proof.Machine.State} {t0 : State} (e0 : execMatrixStep k s = .next t0) : onlyParts [.quads, .ctr] s t0 := by
  unfold execMatrixStep at e0
  injection e0 with e0
  rw [← e0]
  clear e0
  try dsimp only
  split
  · exact onlyParts.rfl'
  try dsimp only
  · try dsimp only
    refine onlyParts.ite ?_ (fun h1 => ?_)
    · refine onlyParts.ite ?_ (fun h2 => ?_)
      · refine onlyParts.ite .rfl' (fun h3 => ?_)
        · try dsimp only
          · try dsimp only
            refine onlyParts.after (State.progress_only ..) rfl ?_
            refine onlyParts.after (State.worked_only ..) rfl ?_
            refine onlyParts.ite ?_ (fun h4 => ?_)
            · refine onlyParts.after (State.cuCount_only ..) rfl ?_
              refine onlyParts.ite ?_ (fun h5 => ?_)
              · refine onlyParts.after (State.cuCount_only ..) rfl ?_
                refine onlyParts.ite ?_ (fun h6 => ?_)
                · refine onlyParts.after (State.cuCount_only ..) rfl ?_
                  refine onlyParts.ite ?_ (fun h7 => ?_)
                  · refine onlyParts.after (State.cuCount_only ..) rfl ?_
                    refine onlyParts.ite ?_ (fun h8 => ?_)
                    · refine onlyParts.after (State.cuCount_only ..) rfl ?_
                      refine onlyParts.after (State.updQuad_only ..) rfl ?_
                      exact h3
                    · refine onlyParts.after (State.updQuad_only ..) rfl ?_
                      exact h3
                  · refine onlyParts.ite ?_ (fun h9 => ?_)
                    · refine onlyParts.after (State.cuCount_only ..) rfl ?_
                      refine onlyParts.after (State.updQuad_only ..) rfl ?_
                      exact h3
                    · refine onlyParts.after (State.updQuad_only ..) rfl ?_
                      exact h3
                · refine onlyParts.ite ?_ (fun h10 => ?_)
                  · refine onlyParts.after (State.cuCount_only ..) rfl ?_
                    refine onlyParts.ite ?_ (fun h11 => ?_)
                    · refine onlyParts.after (State.cuCount_only ..) rfl ?_
                      refine onlyParts.after (State.updQuad_only ..) rfl ?_
                      exact h3
                    · refine onlyParts.after (State.updQuad_only ..) rfl ?_
                      exact h3
                  · refine onlyParts.ite ?_ (fun h12 => ?_)
                    · refine onlyParts.after (State.cuCount_only ..) rfl ?_
                      refine onlyParts.after (State.updQuad_only ..) rfl ?_
                      exact h3
                    · refine onlyParts.after (State.updQuad_only ..) rfl ?_
                      exact h3
              · refine onlyParts.ite ?_ (fun h13 => ?_)
                · refine onlyParts.after (State.cuCount_only ..) rfl ?_
                  refine onlyParts.ite ?_ (fun h14 => ?_)
                  · refine onlyParts.after (State.cuCount_only ..) rfl ?_
                    refine onlyParts.ite ?_ (fun h15 => ?_)
                    · refine onlyParts.after (State.cuCount_only ..) rfl ?_
                      refine onlyParts.after (State.updQuad_only ..) rfl ?_
                      exact h3
                    · refine onlyParts.after (State.updQuad_only ..) rfl ?_
                      exact h3
                  · refine onlyParts.ite ?_ (fun h16 => ?_)
                    · refine onlyParts.after (State.cuCount_only ..) rfl ?_
                      refine onlyParts.after (State.updQuad_only ..) rfl ?_
                      exact h3
                    · refine onlyParts.after (State.updQuad_only ..) rfl ?_
                      exact h3
                · refine onlyParts.ite ?_ (fun h17 => ?_)
                  · refine onlyParts.after (State.cuCount_only ..) rfl ?_
                    refine onlyParts.ite ?_ (fun h18 => ?_)
                    · refine onlyParts.after (State.cuCount_only ..) rfl ?_
                      refine onlyParts.after (State.updQuad_only ..) rfl ?_
                      exact h3
                    · refine onlyParts.after (State.updQuad_only ..) rfl ?_
                      exact h3
                  · refine onlyParts.ite ?_ (fun h19 => ?_)
                    · refine onlyParts.after (State.cuCount_only ..) rfl ?_
                      refine onlyParts.after (State.updQuad_only ..) rfl ?_
                      exact h3
                    · refine onlyParts.after (State.updQuad_only ..) rfl ?_
                      exact h3
            · refine onlyParts.ite ?_ (fun h20 => ?_)
              · refine onlyParts.after (State.cuCount_only ..) rfl ?_
                refine onlyParts.ite ?_ (fun h21 => ?_)
                · refine onlyParts.after (State.cuCount_only ..) rfl ?_
                  refine onlyParts.ite ?_ (fun h22 => ?_)
                  · refine onlyParts.after (State.cuCount_only ..) rfl ?_
                    refine onlyParts.ite ?_ (fun h23 => ?_)
                    · refine onlyParts.after (State.cuCount_only ..) rfl ?_
                      refine onlyParts.after (State.updQuad_only ..) rfl ?_
                      exact h3
                    · refine onlyParts.after (State.updQuad_only ..) rfl ?_
                      exact h3
                  · refine onlyParts.ite ?_ (fun h24 => ?_)
                    · refine onlyParts.after (State.cuCount_only ..) rfl ?_
                      refine onlyParts.after (State.updQuad_only ..) rfl ?_
                      exact h3
                    · refine onlyParts.after (State.updQuad_only ..) rfl ?_
                      exact h3
                · refine onlyParts.ite ?_ (fun h25 => ?_)
                  · refine onlyParts.after (State.cuCount_only ..) rfl ?_
                    refine onlyParts.ite ?_ (fun h26 => ?_)
                    · refine onlyParts.after (State.cuCount_only ..) rfl ?_
                      refine onlyParts.after (State.updQuad_only ..) rfl ?_
                      exact h3
                    · refine onlyParts.after (State.updQuad_only ..) rfl ?_
                      exact h3
                  · refine onlyParts.ite ?_ (fun h27 => ?_)
                    · refine onlyParts.after (State.cuCount_only ..) rfl ?_
                      refine onlyParts.after (State.updQuad_only ..) rfl ?_
                      exact h3
                    · refine onlyParts.after (State.updQuad_only ..) rfl ?_
                      exact h3
              · refine onlyParts.ite ?_ (fun h28 => ?_)
                · refine onlyParts.after (State.cuCount_only ..) rfl ?_
                  refine onlyParts.ite ?_ (fun h29 => ?_)
                  · refine onlyParts.after (State.cuCount_only ..) rfl ?_
                    refine onlyParts.ite ?_ (fun h30 => ?_)
                    · refine onlyParts.after (State.cuCount_only ..) rfl ?_
                      refine onlyParts.after (State.updQuad_only ..) rfl ?_
                      exact h3
                    · refine onlyParts.after (State.updQuad_only ..) rfl ?_
                      exact h3
                  · refine onlyParts.ite ?_ (fun h31 => ?_)
                    · refine onlyParts.after (State.cuCount_only ..) rfl ?_
                      refine onlyParts.after (State.updQuad_only ..) rfl ?_
                      exact h3
                    · refine onlyParts.after (State.updQuad_only ..) rfl ?_
                      exact h3
                · refine onlyParts.ite ?_ (fun h32 => ?_)
                  · refine onlyParts.after (State.cuCount_only ..) rfl ?_
                    refine onlyParts.ite ?_ (fun h33 => ?_)
                    · refine onlyParts.after (State.cuCount_only ..) rfl ?_
                      refine onlyParts.after (State.updQuad_only ..) rfl ?_
                      exact h3
                    · refine onlyParts.after (State.updQuad_only ..) rfl ?_
                      exact h3
                  · refine onlyParts.ite ?_ (fun h34 => ?_)
                    · refine onlyParts.after (State.cuCount_only ..) rfl ?_
                      refine onlyParts.after (State.updQuad_only ..) rfl ?_
                      exact h3
                    · refine onlyParts.after (State.updQuad_only ..) rfl ?_
                      exact h3
      · refine onlyParts.ite .rfl' (fun h35 => ?_)
        refine onlyParts.after (State.cuCount_only ..) rfl ?_
        refine onlyParts.after (State.updQuad_only ..) rfl ?_
        exact h35
    · exact onlyParts.rfl'

theorem State.drainOne_only (s : Sys2Proof.Machine.State) (k : Sys2Proof.Site) (g : Sys2Proof.Machine.SiteCfg) : onlyParts [.quads, .ctr] s (State.drainOne s k g) := by
  unfold State.drainOne
  try dsimp only
  split
  · try dsimp only
    refine onlyParts.ite ?_ (fun h1 => ?_)
    · refine onlyParts.ite ?_ (fun h2 => ?_)
      · refine onlyParts.ite .rfl' (fun h3 => ?_)
        refine onlyParts.after (State.updQuad_only ..) rfl ?_
        exact h3
      · refine onlyParts.ite .rfl' (fun h4 => ?_)
        refine onlyParts.ite ?_ (fun h5 => ?_)
        · refine onlyParts.after (State.progress_only ..) rfl ?_
          refine onlyParts.after (State.updQuad_only ..) rfl ?_
          exact h4
        · refine onlyParts.after (State.cuCount_only ..) rfl ?_
          refine onlyParts.after (State.updQuad_only ..) rfl ?_
          exact h4
    · exact onlyParts.rfl'
  · exact onlyParts.rfl'

theorem execTileDrain_only {k : Sys2Proof.Site} {s : Sys2Proof.Machine.State} {t0 : State} (e0 : execTileDrain k s = .next t0) : onlyParts [.quads, .ctr] s t0 := by
  unfold execTileDrain at e0
  injection e0 with e0
  rw [← e0]
  clear e0
  try dsimp only
  split
  · exact onlyParts.rfl'
  try dsimp only
  refine onlyParts.after (State.drainOne_only ..) rfl ?_
  exact onlyParts.rfl'

end Sys2Proof.Machine
end

