-- ==== Sys2Proof/Laws/FramesCommands.lean ====
section
/-! SUPPORT. Frames of commands of scenes, the pool, productions, tier engines, serving, fabric, power, firmware and management: X_only says which parts of
the state X can change, every other part being as it was. -/

namespace Sys2Proof.Machine

/-! ### Machine/Scene.lean -/

theorem State.failStage_only (s : Sys2Proof.Machine.State) (num : ℕ) (status : ℕ) (off : ℕ) : onlyParts [.fns, .pool, .quads, .sv, .fab, .mg, .ctr] s (State.failStage s num status off) := by
  unfold State.failStage
  try dsimp only
  split
  · exact onlyParts.rfl'
  try dsimp only
  refine onlyParts.after (State.completeAs_only ..) rfl ?_
  refine onlyParts.set_sv ?_ rfl
  refine onlyParts.after (State.discardWork_only ..) rfl ?_
  refine onlyParts.after (State.unholdAll_only ..) rfl ?_
  refine onlyParts.foldl (onlyParts.rfl') (fun _ _ h1 => ?_)
  try dsimp only
  refine onlyParts.after (State.dropPlacing_only ..) rfl ?_
  exact h1

theorem State.refuseLoad_only (s : Sys2Proof.Machine.State) (q : ℕ) (status : ℕ) : onlyParts [.fns, .pool, .quads, .sv, .fab, .mg, .ctr] s (State.refuseLoad s q status) := by
  unfold State.refuseLoad
  try dsimp only
  refine onlyParts.foldl (onlyParts.rfl') (fun _ _ h1 => ?_)
  try dsimp only
  refine onlyParts.after (State.failStage_only ..) rfl ?_
  exact h1

theorem State.storeScene_only (s : Sys2Proof.Machine.State) (q : ℕ) (slot : ℕ) (sc : Sys2Proof.Machine.Scene) (hs : List ((ℕ × ℕ) × ℕ)) : onlyParts [.quads, .ctr] s (State.storeScene s q slot sc hs) := by
  unfold State.storeScene
  try dsimp only
  refine onlyParts.after (State.setCtr_only ..) rfl ?_
  refine onlyParts.after (State.updQuad_only ..) rfl ?_
  exact onlyParts.rfl'

theorem execLoadComplete_only {q : ℕ} {slot : ℕ} {reroute : Option Sys2Proof.Tables} {s : Sys2Proof.Machine.State} {t0 : State} (e0 : execLoadComplete q slot reroute s = .next t0) : onlyParts [.fns, .pool, .quads, .sv, .fab, .mg, .ctr] s t0 := by
  unfold execLoadComplete at e0
  injection e0 with e0
  rw [← e0]
  clear e0
  try dsimp only
  split
  · exact onlyParts.rfl'
  try dsimp only
  refine onlyParts.ite ?_ (fun h1 => ?_)
  · refine onlyParts.ite ?_ (fun h2 => ?_)
    · refine onlyParts.ite ?_ (fun h3 => ?_)
      · refine onlyParts.ite ?_ (fun h4 => ?_)
        · split
          · try dsimp only
            refine onlyParts.after (State.refuseLoad_only ..) rfl ?_
            refine onlyParts.after (State.updQuad_only ..) rfl ?_
            exact onlyParts.rfl'
          · try dsimp only
            refine onlyParts.ite ?_ (fun h5 => ?_)
            · refine onlyParts.after (State.refuseLoad_only ..) rfl ?_
              refine onlyParts.after (State.updQuad_only ..) rfl ?_
              exact onlyParts.rfl'
            · refine onlyParts.after (State.storeScene_only ..) rfl ?_
              refine onlyParts.after (State.updQuad_only ..) rfl ?_
              exact onlyParts.rfl'
        · refine onlyParts.after (State.storeScene_only ..) rfl ?_
          refine onlyParts.after (State.updQuad_only ..) rfl ?_
          exact onlyParts.rfl'
      · refine onlyParts.after (State.refuseLoad_only ..) rfl ?_
        refine onlyParts.after (State.updQuad_only ..) rfl ?_
        exact onlyParts.rfl'
    · refine onlyParts.after (State.refuseLoad_only ..) rfl ?_
      refine onlyParts.after (State.updQuad_only ..) rfl ?_
      exact onlyParts.rfl'
  · exact onlyParts.rfl'

theorem State.openDisps_only (s : Sys2Proof.Machine.State) (q : ℕ) (id : ℕ) : onlyParts [.quads, .ctr] s (State.openDisps s q id) := by
  unfold State.openDisps
  try dsimp only
  refine onlyParts.after (State.updQuad_only ..) rfl ?_
  refine onlyParts.foldl (onlyParts.rfl') (fun _ _ h1 => ?_)
  try dsimp only
  · try dsimp only
    refine onlyParts.ite h1 (fun h2 => ?_)
    refine onlyParts.after (State.bump_only ..) rfl ?_
    exact h2

/-- What holds of both ends of an if holds of it. -/

theorem ite_some {α : Type _} {P : Prop} {c : Prop} [Decidable c] {a b : Option α} {t : α} (h : (if c then a else b) = some t)
    (ha : a = some t → P) (hb : b = some t → P) : P := by
  by_cases k : c
  · exact ha (by simpa [k] using h)
  · exact hb (by simpa [k] using h)
/-- What an entry of the array engine can change as it starts. -/

theorem State.aeBegin_only (s : Sys2Proof.Machine.State) (q : ℕ) (op : AeOp) (t : Sys2Proof.Machine.State) (h : State.aeBegin s q op = some t) :
    onlyParts [.fns, .mem, .marks, .flaws, .hostMem, .pool, .quads, .sv, .fab, .mg, .ctr] s t := by
  cases op with
  | load slot addr len =>
    replace h : s.startLoad q slot addr len = some t := h
    unfold State.startLoad at h
    extract_lets x gone sc at h
    refine ite_some h (fun h => nomatch h) (fun h => ite_some h (fun h => ?_) (fun h => ite_some h (fun h => ?_) (fun h => ?_)))
    · cases h
      exact onlyParts.after (State.updQuad_only ..) rfl (State.endJobAt_only ..)
    · cases h
      exact onlyParts.after (State.updQuad_only ..) rfl (onlyParts.mono (State.refuseLoad_only ..) rfl)
    · cases h
      exact onlyParts.mono (State.updQuad_only ..) rfl
  | run slot first =>
    replace h : s.startRun q slot first = some t := h
    unfold State.startRun at h
    extract_lets x at h
    split at h
    · cases h
    · extract_lets behind composed r s1 s2 at h
      refine ite_some h (fun h => ?_) (fun h => nomatch h)
      cases h
      refine onlyParts.after (State.openDisps_only ..) rfl ?_
      refine onlyParts.after (State.updQuad_only ..) rfl ?_
      exact onlyParts.mono (State.updQuad_only ..) rfl
  | change slot cut =>
    replace h : s.startChange q slot cut = some t := h
    unfold State.startChange at h
    extract_lets x c atOnce at h
    refine ite_some h (fun h => nomatch h) (fun h => ite_some h (fun h => ?_) (fun h => ite_some h (fun h => nomatch h)
      (fun h => ite_some h (fun h => ?_) (fun h => ?_))))
    all_goals
      cases h
      exact onlyParts.mono (State.updQuad_only ..) rfl

theorem State.aeGo_only (q aq : ℕ) : ∀ (n : ℕ) (s : Sys2Proof.Machine.State),
    onlyParts [.fns, .mem, .marks, .flaws, .hostMem, .pool, .quads, .sv, .fab, .mg, .ctr] s (State.aeGo q aq n s)
  | 0, _ => onlyParts.rfl'
  | n + 1, s => by
    unfold State.aeGo
    extract_lets es i
    split
    · exact onlyParts.rfl'
    · extract_lets t
      split
      · refine onlyParts.after (State.aeGo_only q aq n _) rfl ?_
        exact onlyParts.after (State.aeBegin_only _ _ _ _ (by assumption)) rfl (onlyParts.mono (State.updQuad_only ..) rfl)
      · exact onlyParts.rfl'

theorem State.aePush_only (s : Sys2Proof.Machine.State) (q : ℕ) (aq : ℕ) (op : Sys2Proof.Machine.AeOp) : onlyParts [.fns, .mem, .marks, .flaws, .hostMem, .pool, .quads, .sv, .fab, .mg, .ctr] s (State.aePush s q aq op) := by
  unfold State.aePush
  try dsimp only
  refine onlyParts.ite ?_ (fun h1 => ?_)
  · refine onlyParts.after (State.aeGo_only ..) rfl ?_
    refine onlyParts.after (State.updQuad_only ..) rfl ?_
    exact onlyParts.rfl'
  · exact onlyParts.rfl'

theorem State.aeStart_only (s : Sys2Proof.Machine.State) (q : ℕ) : onlyParts [.fns, .mem, .marks, .flaws, .hostMem, .pool, .quads, .sv, .fab, .mg, .ctr] s (State.aeStart s q) := by
  unfold State.aeStart
  try dsimp only
  refine onlyParts.ite .rfl' (fun h1 => ?_)
  refine onlyParts.foldl (h1) (fun _ _ h2 => ?_)
  try dsimp only
  refine onlyParts.after (State.aeGo_only ..) rfl ?_
  exact h2

theorem execLoad_only {q : ℕ} {aq : ℕ} {slot : ℕ} {addr : ℕ} {len : ℕ} {s : Sys2Proof.Machine.State} {t0 : State} (e0 : execLoad q aq slot addr len s = .next t0) : onlyParts [.fns, .mem, .marks, .flaws, .hostMem, .pool, .quads, .sv, .fab, .mg, .ctr] s t0 := by
  unfold execLoad at e0
  injection e0 with e0
  rw [← e0]
  clear e0
  try dsimp only
  refine onlyParts.ite .rfl' (fun h1 => ?_)
  refine onlyParts.after (State.aePush_only ..) rfl ?_
  exact h1

theorem execRun_only {q : ℕ} {aq : ℕ} {slot : ℕ} {first : Bool} {s : Sys2Proof.Machine.State} {t0 : State} (e0 : execRun q aq slot first s = .next t0) : onlyParts [.fns, .mem, .marks, .flaws, .hostMem, .pool, .quads, .sv, .fab, .mg, .ctr] s t0 := by
  unfold execRun at e0
  injection e0 with e0
  rw [← e0]
  clear e0
  try dsimp only
  refine onlyParts.ite .rfl' (fun h1 => ?_)
  refine onlyParts.after (State.aePush_only ..) rfl ?_
  exact h1

theorem State.sealIfOver_only (s : Sys2Proof.Machine.State) (q : ℕ) : onlyParts [.pool, .sv, .ctr] s (State.sealIfOver s q) := by
  unfold State.sealIfOver
  try dsimp only
  refine onlyParts.ite .rfl' (fun h1 => ?_)
  refine onlyParts.after (State.sealStep_only ..) rfl ?_
  exact h1

theorem execRunRetire_only {q : ℕ} {s : Sys2Proof.Machine.State} {t0 : State} (e0 : execRunRetire q s = .next t0) : onlyParts [.pool, .quads, .sv, .ctr] s t0 := by
  unfold execRunRetire at e0
  injection e0 with e0
  rw [← e0]
  clear e0
  try dsimp only
  split
  · exact onlyParts.rfl'
  try dsimp only
  refine onlyParts.ite .rfl' (fun h1 => ?_)
  refine onlyParts.after (State.sealIfOver_only ..) rfl ?_
  refine onlyParts.after (State.bump_only ..) rfl ?_
  refine onlyParts.after (State.updQuad_only ..) rfl ?_
  exact h1

theorem execChange_only {q : ℕ} {aq : ℕ} {slot : ℕ} {cut : Bool} {s : Sys2Proof.Machine.State} {t0 : State} (e0 : execChange q aq slot cut s = .next t0) : onlyParts [.fns, .mem, .marks, .flaws, .hostMem, .pool, .quads, .sv, .fab, .mg, .ctr] s t0 := by
  unfold execChange at e0
  injection e0 with e0
  rw [← e0]
  clear e0
  try dsimp only
  refine onlyParts.ite .rfl' (fun h1 => ?_)
  refine onlyParts.after (State.aePush_only ..) rfl ?_
  exact h1

theorem State.finishChange_only (s : Sys2Proof.Machine.State) (q : ℕ) (c : Sys2Proof.Machine.ChangeSt) : onlyParts [.pool, .quads, .sv, .ctr] s (State.finishChange s q c) := by
  unfold State.finishChange
  try dsimp only
  refine onlyParts.after (State.sealIfOver_only ..) rfl ?_
  refine onlyParts.after (State.setCtr_only ..) rfl ?_
  refine onlyParts.after (State.setCtr_only ..) rfl ?_
  refine onlyParts.after (State.bump_only ..) rfl ?_
  refine onlyParts.after (State.updQuad_only ..) rfl ?_
  split
  · try dsimp only
    refine onlyParts.after (State.bump_only ..) rfl ?_
    exact onlyParts.rfl'
  · exact onlyParts.rfl'

theorem execSiteSwitch_only {k : Sys2Proof.Site} {s : Sys2Proof.Machine.State} {t0 : State} (e0 : execSiteSwitch k s = .next t0) : onlyParts [.pool, .quads, .sv, .ctr] s t0 := by
  unfold execSiteSwitch at e0
  injection e0 with e0
  rw [← e0]
  clear e0
  try dsimp only
  split
  · exact onlyParts.rfl'
  try dsimp only
  refine onlyParts.ite .rfl' (fun h1 => ?_)
  refine onlyParts.ite ?_ (fun h2 => ?_)
  · refine onlyParts.after (State.updQuad_only ..) rfl ?_
    exact h1
  · refine onlyParts.after (State.finishChange_only ..) rfl ?_
    exact h2

/-! ### Machine/Stall.lean -/

theorem State.stallJob_only (s : Sys2Proof.Machine.State) (q : ℕ) : onlyParts [.mem, .marks, .flaws, .quads, .sv, .fab, .ctr] s (State.stallJob s q) := by
  unfold State.stallJob
  try dsimp only
  split
  · exact onlyParts.rfl'
  try dsimp only
  refine onlyParts.ite ?_ (fun h1 => ?_)
  · refine onlyParts.after (State.cutJob_only ..) rfl ?_
    exact onlyParts.rfl'
  · refine onlyParts.after (State.updJob_only ..) rfl ?_
    refine onlyParts.after (State.tellMembers_only ..) rfl ?_
    exact h1

theorem execStallStrikeCommit_only {q : ℕ} {s : Sys2Proof.Machine.State} {t0 : State} (e0 : execStallStrikeCommit q s = .next t0) : onlyParts [.bt, .fns, .mem, .marks, .flaws, .hostMem, .pool, .quads, .sv, .fab, .mg, .ctr] s t0 := by
  unfold execStallStrikeCommit at e0
  injection e0 with e0
  rw [← e0]
  clear e0
  try dsimp only
  split
  · exact onlyParts.rfl'
  try dsimp only
  refine onlyParts.ite ?_ (fun h1 => ?_)
  · refine onlyParts.after (State.quadReset_only ..) rfl ?_
    refine onlyParts.after (State.endJobAt_only ..) rfl ?_
    refine onlyParts.after (State.raise_only ..) rfl ?_
    split
    · try dsimp only
      refine onlyParts.after (State.updQuad_only ..) rfl ?_
      refine onlyParts.after (State.commitPlacing_only ..) rfl ?_
      exact onlyParts.rfl'
    · exact onlyParts.rfl'
  · exact onlyParts.rfl'

/-! ### Machine/Place.lean -/

theorem State.placeNow_only (s : Sys2Proof.Machine.State) (r : Sys2Proof.Machine.Rec) (p : Sys2Proof.Machine.Placing) (noEvict : Bool) : onlyParts [.pw, .pool, .ctr] s (State.placeNow s r p noEvict).2 := by
  unfold State.placeNow
  split
  · dsimp only
    split
    · exact onlyParts.foldl onlyParts.rfl' (fun _ _ h => onlyParts.after (State.wake_only ..) rfl h)
    · exact onlyParts.rfl'
  · have h := State.reserveIn_only r noEvict (maskList r.qmask 4) s
    unfold State.reserve
    generalize State.reserveIn s r noEvict (maskList r.qmask 4) = v at h
    obtain ⟨o, u⟩ := v
    cases o with
    | none =>
      dsimp only
      split
      · exact onlyParts.set_pool (onlyParts.mono h.1 rfl) rfl
      · exact onlyParts.mono h.1 rfl
    | some t => exact onlyParts.after (State.startPlacing_only ..) rfl (onlyParts.mono (h.2 t rfl) rfl)

theorem State.placeNow_only' {s : Sys2Proof.Machine.State} {r : Sys2Proof.Machine.Rec} {p : Sys2Proof.Machine.Placing} {noEvict : Bool} {t0 : State} {o0 : _} (e0 : State.placeNow s r p noEvict = (o0, t0)) : onlyParts [.pw, .pool, .ctr] s t0 := by
  have h := State.placeNow_only s r p noEvict
  rw [e0] at h
  exact h

theorem State.updProd_only (s : Sys2Proof.Machine.State) (num : ℕ) (g : Sys2Proof.Machine.Prod → Sys2Proof.Machine.Prod) : onlyParts [.sv] s (State.updProd s num g) := by
  unfold State.updProd
  try dsimp only
  refine onlyParts.set_sv ?_ rfl
  exact onlyParts.rfl'

theorem State.failProdLoad_only (s : Sys2Proof.Machine.State) (num : ℕ) (status : ℕ) : onlyParts [.fns, .sv, .mg, .ctr] s (State.failProdLoad s num status) := by
  unfold State.failProdLoad
  try dsimp only
  split
  · exact onlyParts.rfl'
  try dsimp only
  refine onlyParts.after (State.completeAs_only ..) rfl ?_
  refine onlyParts.set_sv ?_ rfl
  exact onlyParts.rfl'

theorem State.startResident_only (s : Sys2Proof.Machine.State) (num : ℕ) : onlyParts [.fns, .quads, .sv, .mg, .ctr] s (State.startResident s num) := by
  unfold State.startResident
  try dsimp only
  split
  · exact onlyParts.rfl'
  try dsimp only
  refine onlyParts.after (State.residentDone_only ..) rfl ?_
  refine onlyParts.after (State.queueSheets_only ..) rfl ?_
  refine onlyParts.after (State.updProd_only ..) rfl ?_
  exact onlyParts.rfl'

theorem State.finishStage_only (s : Sys2Proof.Machine.State) (num : ℕ) : onlyParts [.fns, .pool, .quads, .sv, .fab, .mg, .ctr] s (State.finishStage s num) := by
  unfold State.finishStage
  try dsimp only
  split
  · exact onlyParts.rfl'
  try dsimp only
  refine onlyParts.ite ?_ (fun h1 => ?_)
  · refine onlyParts.ite ?_ (fun h2 => ?_)
    · refine onlyParts.ite ?_ (fun h3 => ?_)
      · refine onlyParts.after (State.startResident_only ..) rfl ?_
        refine onlyParts.after (State.updProd_only ..) rfl ?_
        refine onlyParts.foldl (onlyParts.rfl') (fun _ _ h4 => ?_)
        try dsimp only
        refine onlyParts.after (State.unhold_only ..) rfl ?_
        exact h4
      · refine onlyParts.after (State.completeOpt_only ..) rfl ?_
        refine onlyParts.after (State.updProd_only ..) rfl ?_
        refine onlyParts.after (State.updProd_only ..) rfl ?_
        refine onlyParts.foldl (onlyParts.rfl') (fun _ _ h5 => ?_)
        try dsimp only
        refine onlyParts.after (State.unhold_only ..) rfl ?_
        exact h5
    · refine onlyParts.after (State.completeOpt_only ..) rfl ?_
      refine onlyParts.after (State.updProd_only ..) rfl ?_
      refine onlyParts.after (State.updProd_only ..) rfl ?_
      refine onlyParts.foldl (onlyParts.rfl') (fun _ _ h6 => ?_)
      try dsimp only
      refine onlyParts.after (State.unhold_only ..) rfl ?_
      exact h6
  · refine onlyParts.after (State.failStage_only ..) rfl ?_
    refine onlyParts.after (State.updProd_only ..) rfl ?_
    refine onlyParts.foldl (onlyParts.rfl') (fun _ _ h7 => ?_)
    try dsimp only
    refine onlyParts.after (State.unhold_only ..) rfl ?_
    exact h7

theorem State.stageHold_only (s : Sys2Proof.Machine.State) (num : ℕ) (oid : ℕ) : onlyParts [.pool, .sv] s (State.stageHold s num oid) := by
  unfold State.stageHold
  try dsimp only
  refine onlyParts.after (State.updProd_only ..) rfl ?_
  refine onlyParts.after (State.hold_only ..) rfl ?_
  exact onlyParts.rfl'

theorem State.stageFrom_only (num : ℕ) (f : ℕ) : ∀ (l : List Sys2Proof.Machine.ObjEnt) (b : ℕ) (s : Sys2Proof.Machine.State),
    onlyParts [.pw, .fns, .pool, .quads, .sv, .fab, .mg, .ctr] s (State.stageFrom num f l b s)
  | [], _, s => onlyParts.rfl'
  | o :: rest, b, s => by
    unfold State.stageFrom
    split
    · exact State.stageFrom_only num f rest _ s
    · split
      · exact onlyParts.after (State.stageFrom_only num f rest _ _) rfl (onlyParts.mono (State.stageHold_only ..) rfl)
      · split
        have h := State.placeNow_only' (by assumption)
        split
        · exact onlyParts.after (State.stageFrom_only num f rest _ _) rfl (onlyParts.mono h rfl)
        · exact onlyParts.after (State.failStage_only ..) rfl (onlyParts.mono h rfl)

theorem State.stageNext_only (s : Sys2Proof.Machine.State) (num : ℕ) : onlyParts [.pw, .fns, .pool, .quads, .sv, .fab, .mg, .ctr] s (State.stageNext s num) := by
  unfold State.stageNext
  try dsimp only
  split
  · exact onlyParts.rfl'
  try dsimp only
  split
  · try dsimp only
    refine onlyParts.ite ?_ (fun h1 => ?_)
    · refine onlyParts.after (State.stageFrom_only ..) rfl ?_
      exact onlyParts.rfl'
    · refine onlyParts.after (State.finishStage_only ..) rfl ?_
      exact h1
  · try dsimp only
    refine onlyParts.after (State.stageFrom_only ..) rfl ?_
    exact onlyParts.rfl'

theorem State.stagedOne_only (s : Sys2Proof.Machine.State) (num : ℕ) (oid : ℕ) : onlyParts [.pw, .fns, .pool, .quads, .sv, .fab, .mg, .ctr] s (State.stagedOne s num oid) := by
  unfold State.stagedOne
  try dsimp only
  refine onlyParts.after (State.stageNext_only ..) rfl ?_
  refine onlyParts.after (State.stageHold_only ..) rfl ?_
  exact onlyParts.rfl'

theorem State.updTaken_only (s : Sys2Proof.Machine.State) (id : ℕ) (g : Sys2Proof.Machine.LoanTaken → Sys2Proof.Machine.LoanTaken) : onlyParts [.pool] s (State.updTaken s id g) := by
  unfold State.updTaken
  try dsimp only
  refine onlyParts.set_pool ?_ rfl
  exact onlyParts.rfl'

theorem State.loanEvicted_only (l : Sys2Proof.Machine.LoanTaken) (s : Sys2Proof.Machine.State) (oid : ℕ) : onlyParts [.fab, .ctr] s (State.loanEvicted l s oid) := by
  unfold State.loanEvicted
  try dsimp only
  refine onlyParts.after (State.issue_only ..) rfl ?_
  exact onlyParts.rfl'

theorem State.moveCommit_only (s : Sys2Proof.Machine.State) (p : Sys2Proof.Machine.Placing) : onlyParts [.mem, .marks, .flaws, .pool, .quads, .ctr] s (State.moveCommit s p).2 := by
  unfold State.moveCommit
  try dsimp only
  refine onlyParts.after (State.commitPlacing_only ..) rfl ?_
  refine onlyParts.after (State.engineTake_only ..) rfl ?_
  exact onlyParts.rfl'

theorem State.moveCommit_only' {s : Sys2Proof.Machine.State} {p : Sys2Proof.Machine.Placing} {t0 : State} {o0 : _} (e0 : State.moveCommit s p = (o0, t0)) : onlyParts [.mem, .marks, .flaws, .pool, .quads, .ctr] s t0 := by
  have h := State.moveCommit_only s p
  rw [e0] at h
  exact h

/-! ### Machine/PoolCmds.lean -/

theorem State.pinRule_only (p : Sys2Proof.Machine.Pkt) (s : Sys2Proof.Machine.State) : onlyParts [.pool] s (State.pinRule p s).1 := by
  unfold State.pinRule
  try dsimp only
  iterate 5
    split
    · exact onlyParts.rfl'
  try dsimp only
  split
  · try dsimp only
    refine onlyParts.set_pool ?_ rfl
    exact onlyParts.rfl'
  · try dsimp only
    iterate 2
      split
      · exact onlyParts.rfl'
    try dsimp only
    refine onlyParts.set_pool ?_ rfl
    exact onlyParts.rfl'

theorem State.pinRule_only' {p : Sys2Proof.Machine.Pkt} {s : Sys2Proof.Machine.State} {t0 : State} {o0 : _} (e0 : State.pinRule p s = (t0, o0)) : onlyParts [.pool] s t0 := by
  have h := State.pinRule_only p s
  rw [e0] at h
  exact h

theorem execPin_only {f : ℕ} {slot : ℕ} {s : Sys2Proof.Machine.State} {t0 : State} (e0 : execPin f slot s = .next t0) : onlyParts [.pw, .fns, .pool, .mg, .ctr] s t0 := by
  unfold execPin at e0
  injection e0 with e0
  rw [← e0]
  exact State.command_only (fun _ _ => onlyParts.mono (State.pinRule_only ..) rfl) rfl

theorem State.freeGiven_only (s : Sys2Proof.Machine.State) (id : ℕ) : onlyParts [.pool] s (State.freeGiven s id) := by
  unfold State.freeGiven
  try dsimp only
  refine onlyParts.set_pool ?_ rfl
  refine onlyParts.foldl (onlyParts.rfl') (fun _ _ h1 => ?_)
  try dsimp only
  refine onlyParts.after (State.dropPlacing_only ..) rfl ?_
  exact h1

theorem State.dropOffers_only (s : Sys2Proof.Machine.State) (peer : ℕ) : onlyParts [.pool] s (State.dropOffers s peer) := by
  unfold State.dropOffers
  try dsimp only
  refine onlyParts.set_pool ?_ rfl
  exact onlyParts.rfl'

theorem State.endTaken_only (s : Sys2Proof.Machine.State) (id : ℕ) : onlyParts [.pool] s (State.endTaken s id) := by
  unfold State.endTaken
  try dsimp only
  refine onlyParts.set_pool ?_ rfl
  exact onlyParts.rfl'

theorem execLoanTermExpiry_only {loan : ℕ} {lender : Bool} {s : Sys2Proof.Machine.State} {t0 : State} (e0 : execLoanTermExpiry loan lender s = .next t0) : onlyParts [.pool] s t0 := by
  unfold execLoanTermExpiry at e0
  injection e0 with e0
  rw [← e0]
  clear e0
  try dsimp only
  refine onlyParts.ite ?_ (fun h1 => ?_)
  · refine onlyParts.ite ?_ (fun h2 => ?_)
    · split
      · try dsimp only
        refine onlyParts.ite ?_ (fun h3 => ?_)
        · refine onlyParts.after (State.endTaken_only ..) rfl ?_
          exact onlyParts.rfl'
        · exact onlyParts.rfl'
      · exact onlyParts.rfl'
    · split
      · try dsimp only
        refine onlyParts.ite .rfl' (fun h4 => ?_)
        refine onlyParts.after (State.freeGiven_only ..) rfl ?_
        exact h4
      · exact onlyParts.rfl'
  · exact onlyParts.rfl'

theorem execLoanRecallFree_only {loan : ℕ} {s : Sys2Proof.Machine.State} {t0 : State} (e0 : execLoanRecallFree loan s = .next t0) : onlyParts [.pool] s t0 := by
  unfold execLoanRecallFree at e0
  injection e0 with e0
  rw [← e0]
  clear e0
  try dsimp only
  split
  · try dsimp only
    split
    · try dsimp only
      refine onlyParts.ite .rfl' (fun h1 => ?_)
      refine onlyParts.after (State.freeGiven_only ..) rfl ?_
      exact h1
    · exact onlyParts.rfl'
  · exact onlyParts.rfl'

theorem execWingsSweep_only {s : Sys2Proof.Machine.State} {t0 : State} (e0 : execWingsSweep s = .next t0) : onlyParts [.fns, .hostMem, .pool, .sv, .mg, .ctr] s t0 := by
  unfold execWingsSweep at e0
  injection e0 with e0
  rw [← e0]
  clear e0
  try dsimp only
  refine onlyParts.ite ?_ (fun h1 => ?_)
  · refine onlyParts.after (State.loseGone_only ..) rfl ?_
    refine onlyParts.foldl (onlyParts.rfl') (fun _ _ h2 => ?_)
    try dsimp only
    refine onlyParts.after (State.bump_only ..) rfl ?_
    refine onlyParts.set_pool ?_ rfl
    exact h2
  · exact onlyParts.rfl'

theorem execPatrolScrub_only {addr : ℕ} {kind : Sys2Proof.ScrubKind} {s : Sys2Proof.Machine.State} {t0 : State} (e0 : execPatrolScrub addr kind s = .next t0) : onlyParts [.fns, .marks, .flaws, .mg, .ctr] s t0 := by
  unfold execPatrolScrub at e0
  injection e0 with e0
  rw [← e0]
  clear e0
  try dsimp only
  split
  · exact onlyParts.rfl'
  try dsimp only
  refine onlyParts.ite ?_ (fun h1 => ?_)
  · refine onlyParts.ite ?_ (fun h2 => ?_)
    · split
      · try dsimp only
        refine onlyParts.ite .rfl' (fun h3 => ?_)
        refine onlyParts.after (State.bump_only ..) rfl ?_
        exact h3
      · try dsimp only
        refine onlyParts.after (State.bump_only ..) rfl ?_
        refine onlyParts.after (State.mend_only ..) rfl ?_
        refine onlyParts.ite .rfl' (fun h4 => ?_)
        refine onlyParts.after (State.bump_only ..) rfl ?_
        exact h4
      · try dsimp only
        refine onlyParts.after (State.raise_only ..) rfl ?_
        refine onlyParts.set_marks ?_ rfl
        refine onlyParts.after (State.bump_only ..) rfl ?_
        refine onlyParts.after (State.bump_only ..) rfl ?_
        refine onlyParts.after (State.mend_only ..) rfl ?_
        refine onlyParts.ite .rfl' (fun h5 => ?_)
        refine onlyParts.after (State.bump_only ..) rfl ?_
        exact h5
    · refine onlyParts.after (State.bump_only ..) rfl ?_
      refine onlyParts.ite .rfl' (fun h6 => ?_)
      refine onlyParts.after (State.bump_only ..) rfl ?_
      exact h6
  · exact onlyParts.rfl'

theorem State.cxlServe_only (s : Sys2Proof.Machine.State) (a : Sys2Proof.Machine.CxlAcc) : onlyParts [.mem, .marks, .flaws, .quads, .ctr, .readData] s (State.cxlServe s a) := by
  unfold State.cxlServe
  try dsimp only
  split
  · try dsimp only
    refine onlyParts.ite ?_ (fun h1 => ?_)
    · refine onlyParts.set_readData ?_ rfl
      refine onlyParts.after (State.noteReads_only ..) rfl ?_
      exact onlyParts.rfl'
    · refine onlyParts.after (State.bump_only ..) rfl ?_
      refine onlyParts.set_readData ?_ rfl
      exact onlyParts.rfl'
  · try dsimp only
    refine onlyParts.ite ?_ (fun h2 => ?_)
    · refine onlyParts.foldl (onlyParts.rfl') (fun _ _ h3 => ?_)
      try dsimp only
      refine onlyParts.after (State.devWrite_only ..) rfl ?_
      exact h3
    · refine onlyParts.after (State.bump_only ..) rfl ?_
      exact onlyParts.rfl'

theorem State.cxlTake_only (s : Sys2Proof.Machine.State) (a : Sys2Proof.Machine.CxlAcc) : onlyParts [.pw, .mem, .marks, .flaws, .quads, .ctr, .readData] s (State.cxlTake s a) := by
  unfold State.cxlTake
  try dsimp only
  refine onlyParts.ite ?_ (fun h1 => ?_)
  · refine onlyParts.ite ?_ (fun h2 => ?_)
    · refine onlyParts.after (State.cxlServe_only ..) rfl ?_
      exact onlyParts.rfl'
    · refine onlyParts.set_pw ?_ rfl
      refine onlyParts.foldl (onlyParts.rfl') (fun _ _ h3 => ?_)
      try dsimp only
      refine onlyParts.after (State.wake_only ..) rfl ?_
      exact h3
  · exact onlyParts.rfl'

theorem State.cxlDrain_only (s : Sys2Proof.Machine.State) : onlyParts [.pw, .mem, .marks, .flaws, .quads, .ctr, .readData] s (State.cxlDrain s) := by
  unfold State.cxlDrain
  try dsimp only
  refine onlyParts.foldl ?_ (fun _ _ h1 => ?_)
  · refine onlyParts.set_pw ?_ rfl
    exact onlyParts.rfl'
  · try dsimp only
    refine onlyParts.ite ?_ (fun h2 => ?_)
    · refine onlyParts.after (State.cxlServe_only ..) rfl ?_
      exact h1
    · refine onlyParts.set_pw ?_ rfl
      exact h1

theorem execCxlMemRead_only {off : ℕ} {len : ℕ} {s : Sys2Proof.Machine.State} {t0 : State} (e0 : execCxlMemRead off len s = .next t0) : onlyParts [.pw, .mem, .marks, .flaws, .quads, .ctr, .readData] s t0 := by
  unfold execCxlMemRead at e0
  injection e0 with e0
  rw [← e0]
  clear e0
  try dsimp only
  refine onlyParts.after (State.cxlTake_only ..) rfl ?_
  exact onlyParts.rfl'

theorem execCxlMemWrite_only {off : ℕ} {data : List Sys2Proof.Byte} {s : Sys2Proof.Machine.State} {t0 : State} (e0 : execCxlMemWrite off data s = .next t0) : onlyParts [.pw, .mem, .marks, .flaws, .quads, .ctr, .readData] s t0 := by
  unfold execCxlMemWrite at e0
  injection e0 with e0
  rw [← e0]
  clear e0
  try dsimp only
  refine onlyParts.after (State.cxlTake_only ..) rfl ?_
  exact onlyParts.rfl'

theorem execHostSnoop_only {addr : ℕ} {s : Sys2Proof.Machine.State} {t0 : State} (e0 : execHostSnoop addr s = .next t0) : onlyParts [.fns] s t0 := by
  unfold execHostSnoop at e0
  injection e0 with e0
  rw [← e0]
  clear e0
  try dsimp only
  refine onlyParts.ite .rfl' (fun h1 => ?_)
  refine onlyParts.set_fns ?_ rfl
  exact h1

/-! ### Machine/Stage.lean -/

theorem State.readNamed_only (s : Sys2Proof.Machine.State) (f : ℕ) (a : ℕ) (n : ℕ) : onlyParts [.fns, .ctr] s (State.readNamed s f a n).2 := by
  unfold State.readNamed
  try dsimp only
  split
  · try dsimp only
    refine onlyParts.after (State.dmaRead_only ..) rfl ?_
    exact onlyParts.rfl'
  · exact onlyParts.rfl'

theorem State.readNamed_only' {s : Sys2Proof.Machine.State} {f : ℕ} {a : ℕ} {n : ℕ} {t0 : State} {o0 : _} (e0 : State.readNamed s f a n = (o0, t0)) : onlyParts [.fns, .ctr] s t0 := by
  have h := State.readNamed_only s f a n
  rw [e0] at h
  exact h

theorem State.onStageRule_only (p : Sys2Proof.Machine.Pkt) (s : Sys2Proof.Machine.State) : onlyParts [.pw, .fns, .pool, .quads, .sv, .fab, .mg, .ctr] s (State.onStageRule p s).1 := by
  unfold State.onStageRule
  try dsimp only
  iterate 6
    split
    · exact onlyParts.rfl'
  try dsimp only
  refine onlyParts.after (State.stageNext_only ..) rfl ?_
  refine onlyParts.after (State.updProd_only ..) rfl ?_
  refine onlyParts.foldl (onlyParts.rfl') (fun _ _ h1 => ?_)
  try dsimp only
  refine onlyParts.after (State.hold_only ..) rfl ?_
  exact h1

theorem State.onStageRule_only' {p : Sys2Proof.Machine.Pkt} {s : Sys2Proof.Machine.State} {t0 : State} {o0 : _} (e0 : State.onStageRule p s = (t0, o0)) : onlyParts [.pw, .fns, .pool, .quads, .sv, .fab, .mg, .ctr] s t0 := by
  have h := State.onStageRule_only p s
  rw [e0] at h
  exact h

theorem execOnStage_only {f : ℕ} {slot : ℕ} {s : Sys2Proof.Machine.State} {t0 : State} (e0 : execOnStage f slot s = .next t0) : onlyParts [.pw, .fns, .pool, .quads, .sv, .fab, .mg, .ctr] s t0 := by
  unfold execOnStage at e0
  injection e0 with e0
  rw [← e0]
  exact State.command_only (fun _ _ => onlyParts.mono (State.onStageRule_only ..) rfl) rfl

theorem State.dropLoads_only (s : Sys2Proof.Machine.State) (num : ℕ) : onlyParts [.pool] s (State.dropLoads s num) := by
  unfold State.dropLoads
  try dsimp only
  refine onlyParts.foldl (onlyParts.rfl') (fun _ _ h1 => ?_)
  try dsimp only
  refine onlyParts.after (State.dropPlacing_only ..) rfl ?_
  exact h1

theorem State.offStageRule_only (p : Sys2Proof.Machine.Pkt) (s : Sys2Proof.Machine.State) : onlyParts [.fns, .pool, .quads, .sv, .fab, .mg, .ctr] s (State.offStageRule p s).1 := by
  unfold State.offStageRule
  try dsimp only
  iterate 2
    split
    · exact onlyParts.rfl'
  try dsimp only
  refine onlyParts.after (State.failStage_only ..) rfl ?_
  refine onlyParts.after (State.dropLoads_only ..) rfl ?_
  exact onlyParts.rfl'

theorem State.offStageRule_only' {p : Sys2Proof.Machine.Pkt} {s : Sys2Proof.Machine.State} {t0 : State} {o0 : _} (e0 : State.offStageRule p s = (t0, o0)) : onlyParts [.fns, .pool, .quads, .sv, .fab, .mg, .ctr] s t0 := by
  have h := State.offStageRule_only p s
  rw [e0] at h
  exact h

theorem execOffStage_only {f : ℕ} {slot : ℕ} {s : Sys2Proof.Machine.State} {t0 : State} (e0 : execOffStage f slot s = .next t0) : onlyParts [.pw, .fns, .pool, .quads, .sv, .fab, .mg, .ctr] s t0 := by
  unfold execOffStage at e0
  injection e0 with e0
  rw [← e0]
  exact State.command_only (fun _ _ => onlyParts.mono (State.offStageRule_only ..) rfl) rfl

theorem State.applyChange_only (s : Sys2Proof.Machine.State) (num : ℕ) (old : ℕ) (new : ℕ) (evictOld : Bool) : onlyParts [.pool, .quads, .sv] s (State.applyChange s num old new evictOld) := by
  unfold State.applyChange
  split
  · exact onlyParts.rfl'
  · extract_lets resident s1 s2 s3 s4 s5
    have h4 : onlyParts [.pool, .quads, .sv] s s4 := by
      refine onlyParts.after (State.updProd_only ..) rfl ?_
      refine onlyParts.after (State.unhold_only ..) rfl ?_
      refine onlyParts.after (State.unhold_only ..) rfl ?_
      exact onlyParts.after (State.hold_only ..) rfl onlyParts.rfl'
    have h5 : onlyParts [.pool, .quads, .sv] s s5 := onlyParts.set_quads h4 rfl
    split
    · exact onlyParts.set_pool h5 rfl
    · exact h5

theorem State.changeoverRule_only (p : Sys2Proof.Machine.Pkt) (s : Sys2Proof.Machine.State) : onlyParts [.pool, .quads, .sv] s (State.changeoverRule p s).1 := by
  unfold State.changeoverRule
  try dsimp only
  iterate 3
    split
    · exact onlyParts.rfl'
  try dsimp only
  split
  · try dsimp only
    split
    · try dsimp only
      refine onlyParts.set_sv ?_ rfl
      refine onlyParts.after (State.hold_only ..) rfl ?_
      exact onlyParts.rfl'
    · try dsimp only
      refine onlyParts.after (State.applyChange_only ..) rfl ?_
      exact onlyParts.rfl'
  · try dsimp only
    refine onlyParts.after (State.applyChange_only ..) rfl ?_
    exact onlyParts.rfl'

theorem State.changeoverRule_only' {p : Sys2Proof.Machine.Pkt} {s : Sys2Proof.Machine.State} {t0 : State} {o0 : _} (e0 : State.changeoverRule p s = (t0, o0)) : onlyParts [.pool, .quads, .sv] s t0 := by
  have h := State.changeoverRule_only p s
  rw [e0] at h
  exact h

theorem execChangeover_only {f : ℕ} {slot : ℕ} {s : Sys2Proof.Machine.State} {t0 : State} (e0 : execChangeover f slot s = .next t0) : onlyParts [.pw, .fns, .pool, .quads, .sv, .mg, .ctr] s t0 := by
  unfold execChangeover at e0
  injection e0 with e0
  rw [← e0]
  exact State.command_only (fun _ _ => onlyParts.mono (State.changeoverRule_only ..) rfl) rfl

theorem State.endStepChanges_only (s : Sys2Proof.Machine.State) (jid : ℕ) (step : ℕ) : onlyParts [.fns, .pool, .quads, .sv, .mg, .ctr] s (State.endStepChanges s jid step) := by
  unfold State.endStepChanges
  try dsimp only
  refine onlyParts.foldl ?_ (fun _ _ h1 => ?_)
  · refine onlyParts.set_sv ?_ rfl
    exact onlyParts.rfl'
  · try dsimp only
    refine onlyParts.after (State.complete_only ..) rfl ?_
    refine onlyParts.after (State.applyChange_only ..) rfl ?_
    exact h1

theorem State.prodDropRule_only (p : Sys2Proof.Machine.Pkt) (s : Sys2Proof.Machine.State) : onlyParts [.pool, .sv] s (State.prodDropRule p s).1 := by
  unfold State.prodDropRule
  try dsimp only
  iterate 2
    split
    · exact onlyParts.rfl'
  try dsimp only
  refine onlyParts.set_pool_sv ?_ rfl
  exact onlyParts.rfl'

theorem State.prodDropRule_only' {p : Sys2Proof.Machine.Pkt} {s : Sys2Proof.Machine.State} {t0 : State} {o0 : _} (e0 : State.prodDropRule p s = (t0, o0)) : onlyParts [.pool, .sv] s t0 := by
  have h := State.prodDropRule_only p s
  rw [e0] at h
  exact h

theorem execProductionDrop_only {f : ℕ} {slot : ℕ} {s : Sys2Proof.Machine.State} {t0 : State} (e0 : execProductionDrop f slot s = .next t0) : onlyParts [.pw, .fns, .pool, .sv, .mg, .ctr] s t0 := by
  unfold execProductionDrop at e0
  injection e0 with e0
  rw [← e0]
  exact State.command_only (fun _ _ => onlyParts.mono (State.prodDropRule_only ..) rfl) rfl

/-! ### Machine/SessionOps.lean -/

theorem State.closeJob_only (s : Sys2Proof.Machine.State) (reason : ℕ) (j : Sys2Proof.Machine.Job) : onlyParts [.sv] s (State.closeJob s reason j) := by
  unfold State.closeJob
  try dsimp only
  split
  · try dsimp only
    refine onlyParts.ite ?_ (fun h1 => ?_)
    · refine onlyParts.after (State.holdJob_only ..) rfl ?_
      refine onlyParts.after (State.updJob_only ..) rfl ?_
      exact onlyParts.rfl'
    · refine onlyParts.after (State.updJob_only ..) rfl ?_
      exact onlyParts.rfl'
  · try dsimp only
    refine onlyParts.after (State.holdJob_only ..) rfl ?_
    exact onlyParts.rfl'
  · try dsimp only
    refine onlyParts.after (State.updJob_only ..) rfl ?_
    exact onlyParts.rfl'
  · try dsimp only
    refine onlyParts.after (State.updJob_only ..) rfl ?_
    refine onlyParts.after (State.jobTo_only ..) rfl ?_
    exact onlyParts.rfl'
  · try dsimp only
    refine onlyParts.after (State.updJob_only ..) rfl ?_
    exact onlyParts.rfl'
  · exact onlyParts.rfl'

theorem State.cancelPlacing_only (s : Sys2Proof.Machine.State) (p : Sys2Proof.Machine.Placing) : onlyParts [.fns, .pool, .quads, .sv, .fab, .mg, .ctr] s (State.cancelPlacing s p) := by
  unfold State.cancelPlacing
  try dsimp only
  split
  · try dsimp only
    refine onlyParts.after (State.complete_only ..) rfl ?_
    refine onlyParts.after (State.dropPlacing_only ..) rfl ?_
    exact onlyParts.rfl'
  · try dsimp only
    refine onlyParts.after (State.complete_only ..) rfl ?_
    refine onlyParts.after (State.dropPlacing_only ..) rfl ?_
    exact onlyParts.rfl'
  · try dsimp only
    refine onlyParts.after (State.failProdLoad_only ..) rfl ?_
    refine onlyParts.after (State.dropPlacing_only ..) rfl ?_
    exact onlyParts.rfl'
  · try dsimp only
    refine onlyParts.after (State.failStage_only ..) rfl ?_
    refine onlyParts.after (State.dropPlacing_only ..) rfl ?_
    exact onlyParts.rfl'
  · try dsimp only
    refine onlyParts.after (State.dropPlacing_only ..) rfl ?_
    exact onlyParts.rfl'
  · try dsimp only
    refine onlyParts.after (State.dropPlacing_only ..) rfl ?_
    exact onlyParts.rfl'
  · try dsimp only
    refine onlyParts.after (State.dropPlacing_only ..) rfl ?_
    exact onlyParts.rfl'
  · try dsimp only
    refine onlyParts.after (State.dropPlacing_only ..) rfl ?_
    exact onlyParts.rfl'
  · try dsimp only
    refine onlyParts.after (State.dropPlacing_only ..) rfl ?_
    exact onlyParts.rfl'
  · try dsimp only
    refine onlyParts.after (State.dropPlacing_only ..) rfl ?_
    exact onlyParts.rfl'

theorem State.closeSession_only (s : Sys2Proof.Machine.State) (f : ℕ) (reason : ℕ) (ending : Bool) : onlyParts [.fns, .mem, .marks, .flaws, .hostMem, .pool, .quads, .sv, .fab, .mg, .ctr] s (State.closeSession s f reason ending) := by
  unfold State.closeSession
  try dsimp only
  refine onlyParts.foldl ?_ (fun _ _ h4 => ?_)
  · refine onlyParts.foldl ?_ (fun _ _ h1 => ?_)
    · refine onlyParts.after (State.updFn_only ..) rfl ?_
      exact onlyParts.rfl'
    · try dsimp only
      refine onlyParts.ite ?_ (fun h2 => ?_)
      · refine onlyParts.after (State.closeJob_only ..) rfl ?_
        exact h1
      · refine onlyParts.ite ?_ (fun h3 => ?_)
        · refine onlyParts.after (State.endJob_only ..) rfl ?_
          exact h1
        · refine onlyParts.after (State.updJob_only ..) rfl ?_
          exact h1
  · try dsimp only
    refine onlyParts.after (State.cancelPlacing_only ..) rfl ?_
    exact h4

theorem State.openSession_only (s : Sys2Proof.Machine.State) (p : Sys2Proof.Machine.Pkt) : onlyParts [.fns, .hostMem, .mg, .ctr] s (State.openSession s p) := by
  unfold State.openSession
  try dsimp only
  refine onlyParts.after (State.flushKept_only ..) rfl ?_
  refine onlyParts.after (State.complete_only ..) rfl ?_
  refine onlyParts.ite ?_ (fun h1 => ?_)
  · refine onlyParts.after (State.dmaWrite_only ..) rfl ?_
    refine onlyParts.after (State.bump_only ..) rfl ?_
    refine onlyParts.after (State.updFn_only ..) rfl ?_
    exact onlyParts.rfl'
  · refine onlyParts.after (State.bump_only ..) rfl ?_
    refine onlyParts.after (State.updFn_only ..) rfl ?_
    exact onlyParts.rfl'

theorem State.settleClose_only (s : Sys2Proof.Machine.State) (f : ℕ) : onlyParts [.fns, .hostMem, .mg, .ctr] s (State.settleClose s f) := by
  unfold State.settleClose
  try dsimp only
  refine onlyParts.ite ?_ (fun h1 => ?_)
  · refine onlyParts.foldl ?_ (fun _ _ h2 => ?_)
    · refine onlyParts.after (State.updFn_only ..) rfl ?_
      exact onlyParts.rfl'
    · try dsimp only
      refine onlyParts.ite ?_ (fun h3 => ?_)
      · refine onlyParts.after (State.complete_only ..) rfl ?_
        exact h2
      · refine onlyParts.after (State.openSession_only ..) rfl ?_
        exact h2
  · exact onlyParts.rfl'

theorem State.settleCloses_only (s : Sys2Proof.Machine.State) : onlyParts [.fns, .hostMem, .mg, .ctr] s (State.settleCloses s) := by
  unfold State.settleCloses
  try dsimp only
  refine onlyParts.foldl (onlyParts.rfl') (fun _ _ h1 => ?_)
  try dsimp only
  refine onlyParts.after (State.settleClose_only ..) rfl ?_
  exact h1

/-! ### Machine/NearStack.lean -/

theorem State.nearCount_only (s : Sys2Proof.Machine.State) (ts : List Sys2Proof.Machine.NearTok) : onlyParts [.shared, .quads, .ctr] s (State.nearCount s ts) := by
  unfold State.nearCount
  try dsimp only
  refine onlyParts.foldl ?_ (fun _ _ h1 => ?_)
  · refine onlyParts.after (State.noteReads_only ..) rfl ?_
    exact onlyParts.rfl'
  · try dsimp only
    · try dsimp only
      refine onlyParts.ite ?_ (fun h2 => ?_)
      · refine onlyParts.after (State.pulse_only ..) rfl ?_
        iterate 6 refine onlyParts.after (State.bump_only ..) rfl ?_
        exact h1
      · iterate 6 refine onlyParts.after (State.bump_only ..) rfl ?_
        exact h1

/-! ### Machine/TierEngine.lean -/

theorem State.updTq_only (s : Sys2Proof.Machine.State) (q : ℕ) (tq : ℕ) (g : Sys2Proof.Machine.TeQueue → Sys2Proof.Machine.TeQueue) : onlyParts [.quads] s (State.updTq s q tq g) := by
  unfold State.updTq
  try dsimp only
  refine onlyParts.after (State.updQuad_only ..) rfl ?_
  exact onlyParts.rfl'

theorem State.updEnt_only (s : Sys2Proof.Machine.State) (q : ℕ) (tq : ℕ) (n : ℕ) (g : Sys2Proof.Machine.TeEnt → Sys2Proof.Machine.TeEnt) : onlyParts [.quads] s (State.updEnt s q tq n g) := by
  unfold State.updEnt
  try dsimp only
  refine onlyParts.after (State.updTq_only ..) rfl ?_
  exact onlyParts.rfl'

theorem State.loopEnd_only (s : Sys2Proof.Machine.State) (q : ℕ) (tq : ℕ) : onlyParts [.fns, .mem, .marks, .flaws, .hostMem, .pool, .quads, .sv, .fab, .mg, .ctr] s (State.loopEnd s q tq) := by
  unfold State.loopEnd
  try dsimp only
  split
  · exact onlyParts.rfl'
  try dsimp only
  refine onlyParts.ite .rfl' (fun h1 => ?_)
  refine onlyParts.after (State.teDone_only ..) rfl ?_
  exact h1

theorem State.teStart_only (s : Sys2Proof.Machine.State) (q : ℕ) (tq : ℕ) (n : ℕ) : onlyParts [.fns, .mem, .marks, .flaws, .hostMem, .pool, .quads, .sv, .fab, .mg, .ctr] s (State.teStart s q tq n) := by
  unfold State.teStart
  try dsimp only
  refine onlyParts.after (State.loopEnd_only ..) rfl ?_
  refine onlyParts.after (State.updTq_only ..) rfl ?_
  refine onlyParts.after (State.updEnt_only ..) rfl ?_
  exact onlyParts.rfl'

theorem State.teFail_only (s : Sys2Proof.Machine.State) (e : Sys2Proof.Machine.TeEnt) (status : ℕ) : onlyParts [.fns, .mem, .marks, .flaws, .hostMem, .pool, .quads, .sv, .fab, .mg, .ctr] s (State.teFail s e status) := by
  unfold State.teFail
  try dsimp only
  refine onlyParts.ite ?_ (fun h1 => ?_)
  · refine onlyParts.after (State.endJob_only ..) rfl ?_
    exact onlyParts.rfl'
  · refine onlyParts.after (State.failStage_only ..) rfl ?_
    refine onlyParts.foldl (onlyParts.rfl') (fun _ _ h2 => ?_)
    try dsimp only
    refine onlyParts.after (State.endJob_only ..) rfl ?_
    exact h2

theorem State.noteSource_only (s : Sys2Proof.Machine.State) (q : ℕ) (f : ℕ) (host : Bool) (ps : List Sys2Proof.Machine.Piece) : onlyParts [.quads, .ctr] s (State.noteSource s q f host ps) := by
  unfold State.noteSource
  try dsimp only
  refine onlyParts.ite ?_ (fun h1 => ?_)
  · refine onlyParts.after (State.noteReads_only ..) rfl ?_
    exact onlyParts.rfl'
  · refine onlyParts.ite .rfl' (fun h2 => ?_)
    refine onlyParts.after (State.bump_only ..) rfl ?_
    exact h2

theorem State.teData_only (s : Sys2Proof.Machine.State) (q : ℕ) (e : Sys2Proof.Machine.TeEnt) (i : ℕ) (k : ℕ) : onlyParts [.shared, .quads, .ctr] s (State.teData s q e i k).2 := by
  unfold State.teData
  try dsimp only
  split
  · try dsimp only
    split
    · try dsimp only
      refine onlyParts.after (State.noteReads_only ..) rfl ?_
      exact onlyParts.rfl'
    · try dsimp only
      split
      · try dsimp only
        refine onlyParts.foldl (onlyParts.rfl') (fun _ _ h1 => ?_)
        try dsimp only
        refine onlyParts.after (State.nearCount_only ..) rfl ?_
        exact h1
      · try dsimp only
        refine onlyParts.after (State.noteReads_only ..) rfl ?_
        exact onlyParts.rfl'
  · try dsimp only
    refine onlyParts.after (State.noteSource_only ..) rfl ?_
    exact onlyParts.rfl'

theorem State.teData_only' {s : Sys2Proof.Machine.State} {q : ℕ} {e : Sys2Proof.Machine.TeEnt} {i : ℕ} {k : ℕ} {t0 : State} {o0 : _} (e0 : State.teData s q e i k = (o0, t0)) : onlyParts [.shared, .quads, .ctr] s t0 := by
  have h := State.teData_only s q e i k
  rw [e0] at h
  exact h

theorem State.gwQueue_only (s : Sys2Proof.Machine.State) (q : ℕ) (link : ℕ) (ts : List Sys2Proof.Machine.GwTok) : onlyParts [.quads] s (State.gwQueue s q link ts) := by
  unfold State.gwQueue
  try dsimp only
  refine onlyParts.after (State.updQuad_only ..) rfl ?_
  exact onlyParts.rfl'

theorem State.putLines_only (s : Sys2Proof.Machine.State) (a : ℕ) (ls : List Sys2Proof.Machine.Line) : onlyParts [.mem, .marks, .flaws] s (State.putLines s a ls) := by
  unfold State.putLines
  try dsimp only
  refine onlyParts.foldl (onlyParts.rfl') (fun _ _ h1 => ?_)
  try dsimp only
  · try dsimp only
    refine onlyParts.after (State.devWrite_only ..) rfl ?_
    exact h1

theorem State.teMoveOps_only (s : Sys2Proof.Machine.State) (q : ℕ) (tq : ℕ) (k : ℕ) (e : Sys2Proof.Machine.TeEnt) : onlyParts [.shared, .mem, .marks, .flaws, .quads, .ctr] s (State.teMoveOps s q tq k e) := by
  unfold State.teMoveOps
  extract_lets i s1
  have h1 : onlyParts [.shared, .mem, .marks, .flaws, .quads, .ctr] s s1 := by
    simp only [s1]
    split
    · exact onlyParts.rfl'
    · exact onlyParts.mono (State.engineTake_only ..) rfl
  clear_value s1
  split
  have h2 := onlyParts.after (State.teData_only' (by assumption)) rfl h1
  extract_lets s3 slot dst head
  have h3 : onlyParts [.shared, .mem, .marks, .flaws, .quads, .ctr] s s3 :=
    onlyParts.after (State.updEnt_only ..) rfl (onlyParts.after (State.bump_only ..) rfl h2)
  split
  · exact onlyParts.after (State.putLines_only ..) rfl h3
  · exact onlyParts.after (State.gwQueue_only ..) rfl h3

theorem State.teMove_only (s : Sys2Proof.Machine.State) (q : ℕ) (tq : ℕ) (e : Sys2Proof.Machine.TeEnt) : onlyParts [.fns, .shared, .mem, .marks, .flaws, .hostMem, .pool, .quads, .sv, .fab, .mg, .ctr] s (State.teMove s q tq e) := by
  unfold State.teMove
  try dsimp only
  refine onlyParts.ite ?_ (fun h1 => ?_)
  · refine onlyParts.ite ?_ (fun h2 => ?_)
    · refine onlyParts.ite ?_ (fun h3 => ?_)
      · refine onlyParts.after (State.teStart_only ..) rfl ?_
        refine onlyParts.after (State.teMoveOps_only ..) rfl ?_
        exact onlyParts.rfl'
      · exact onlyParts.rfl'
    · refine onlyParts.after (State.teFail_only ..) rfl ?_
      refine onlyParts.after (State.bump_only ..) rfl ?_
      exact onlyParts.rfl'
  · refine onlyParts.after (State.teFail_only ..) rfl ?_
    exact onlyParts.rfl'

theorem execMove_only {q : ℕ} {tq : ℕ} {h : Sys2Proof.HostView} {s : Sys2Proof.Machine.State} {t0 : State} (e0 : execMove q tq h s = .next t0) : onlyParts [.fns, .shared, .mem, .marks, .flaws, .hostMem, .hostMarks, .pool, .quads, .sv, .fab, .mg, .ctr] s t0 := by
  unfold execMove at e0
  injection e0 with e0
  rw [← e0]
  clear e0
  try dsimp only
  split
  · try dsimp only
    refine onlyParts.after (State.teMove_only ..) rfl ?_
    refine onlyParts.after (State.withHost_only ..) rfl ?_
    exact onlyParts.rfl'
  · exact onlyParts.rfl'

theorem execStream_only {q : ℕ} {tq : ℕ} {h : Sys2Proof.HostView} {s : Sys2Proof.Machine.State} {t0 : State} (e0 : execStream q tq h s = .next t0) : onlyParts [.fns, .shared, .mem, .marks, .flaws, .hostMem, .hostMarks, .pool, .quads, .sv, .fab, .mg, .ctr] s t0 := by
  unfold execStream at e0
  injection e0 with e0
  rw [← e0]
  clear e0
  try dsimp only
  split
  · try dsimp only
    refine onlyParts.after (State.teMove_only ..) rfl ?_
    refine onlyParts.after (State.withHost_only ..) rfl ?_
    exact onlyParts.rfl'
  · exact onlyParts.rfl'

theorem State.takeIn_only (s : Sys2Proof.Machine.State) (q : ℕ) (link : ℕ) : onlyParts [.quads] s (State.takeIn s q link) := by
  unfold State.takeIn
  try dsimp only
  split
  · try dsimp only
    · try dsimp only
      refine onlyParts.after (State.oweTo_only ..) rfl ?_
      refine onlyParts.after (State.updQuad_only ..) rfl ?_
      exact onlyParts.rfl'
  · exact onlyParts.rfl'

theorem State.collected_only (s : Sys2Proof.Machine.State) (q : ℕ) (tq : ℕ) (e : Sys2Proof.Machine.TeEnt) : onlyParts [.fns, .mem, .marks, .flaws, .hostMem, .pool, .quads, .sv, .fab, .mg, .ctr] s (State.collected s q tq e) := by
  unfold State.collected
  try dsimp only
  refine onlyParts.ite ?_ (fun h1 => ?_)
  · refine onlyParts.ite ?_ (fun h2 => ?_)
    · iterate 3 refine onlyParts.after (State.updEnt_only ..) rfl ?_
      refine onlyParts.after (State.bump_only ..) rfl ?_
      exact onlyParts.rfl'
    · refine onlyParts.after (State.updEnt_only ..) rfl ?_
      refine onlyParts.after (State.bump_only ..) rfl ?_
      exact onlyParts.rfl'
  · refine onlyParts.after (State.teDone_only ..) rfl ?_
    refine onlyParts.after (State.updEnt_only ..) rfl ?_
    refine onlyParts.after (State.bump_only ..) rfl ?_
    exact onlyParts.rfl'

theorem execCollect_only {q : ℕ} {tq : ℕ} {s : Sys2Proof.Machine.State} {t0 : State} (e0 : execCollect q tq s = .next t0) : onlyParts [.fns, .mem, .marks, .flaws, .hostMem, .pool, .quads, .sv, .fab, .mg, .ctr] s t0 := by
  unfold execCollect at e0
  injection e0 with e0
  rw [← e0]
  clear e0
  try dsimp only
  split
  · try dsimp only
    refine onlyParts.after (State.collected_only ..) rfl ?_
    refine onlyParts.after (State.takeIn_only ..) rfl ?_
    refine onlyParts.after (State.putLines_only ..) rfl ?_
    exact onlyParts.rfl'
  · try dsimp only
    split
    · exact onlyParts.rfl'
    try dsimp only
    refine onlyParts.ite ?_ (fun h1 => ?_)
    · refine onlyParts.ite ?_ (fun h2 => ?_)
      · refine onlyParts.after (State.teStart_only ..) rfl ?_
        refine onlyParts.after (State.updEnt_only ..) rfl ?_
        exact onlyParts.rfl'
      · refine onlyParts.after (State.teFail_only ..) rfl ?_
        refine onlyParts.after (State.bump_only ..) rfl ?_
        exact onlyParts.rfl'
    · refine onlyParts.after (State.teFail_only ..) rfl ?_
      exact onlyParts.rfl'

theorem execPost_only {q : ℕ} {tq : ℕ} {s : Sys2Proof.Machine.State} {t0 : State} (e0 : execPost q tq s = .next t0) : onlyParts [.fns, .mem, .marks, .flaws, .hostMem, .pool, .quads, .sv, .fab, .mg, .ctr] s t0 := by
  unfold execPost at e0
  injection e0 with e0
  rw [← e0]
  clear e0
  try dsimp only
  split
  · try dsimp only
    refine onlyParts.after (State.teDone_only ..) rfl ?_
    refine onlyParts.after (State.teStart_only ..) rfl ?_
    exact onlyParts.rfl'
  · exact onlyParts.rfl'

theorem execWait_only {q : ℕ} {tq : ℕ} {s : Sys2Proof.Machine.State} {t0 : State} (e0 : execWait q tq s = .next t0) : onlyParts [.fns, .mem, .marks, .flaws, .hostMem, .pool, .quads, .sv, .fab, .mg, .ctr] s t0 := by
  unfold execWait at e0
  injection e0 with e0
  rw [← e0]
  clear e0
  try dsimp only
  split
  · try dsimp only
    refine onlyParts.after (State.teDone_only ..) rfl ?_
    refine onlyParts.after (State.teStart_only ..) rfl ?_
    exact onlyParts.rfl'
  · exact onlyParts.rfl'

theorem execDset_only {q : ℕ} {tq : ℕ} {s : Sys2Proof.Machine.State} {t0 : State} (e0 : execDset q tq s = .next t0) : onlyParts [.fns, .mem, .marks, .flaws, .hostMem, .pool, .quads, .sv, .fab, .mg, .ctr] s t0 := by
  unfold execDset at e0
  injection e0 with e0
  rw [← e0]
  clear e0
  try dsimp only
  split
  · try dsimp only
    refine onlyParts.ite ?_ (fun h1 => ?_)
    · refine onlyParts.ite ?_ (fun h2 => ?_)
      · refine onlyParts.ite ?_ (fun h3 => ?_)
        · refine onlyParts.after (State.teDone_only ..) rfl ?_
          refine onlyParts.after (State.teStart_only ..) rfl ?_
          refine onlyParts.after (State.updQuad_only ..) rfl ?_
          exact onlyParts.rfl'
        · refine onlyParts.after (State.teFail_only ..) rfl ?_
          refine onlyParts.after (State.bump_only ..) rfl ?_
          exact onlyParts.rfl'
      · refine onlyParts.after (State.teFail_only ..) rfl ?_
        exact onlyParts.rfl'
    · exact onlyParts.rfl'
  · exact onlyParts.rfl'

theorem execCreset_only {q : ℕ} {tq : ℕ} {s : Sys2Proof.Machine.State} {t0 : State} (e0 : execCreset q tq s = .next t0) : onlyParts [.fns, .mem, .marks, .flaws, .hostMem, .pool, .quads, .sv, .fab, .mg, .ctr] s t0 := by
  unfold execCreset at e0
  injection e0 with e0
  rw [← e0]
  clear e0
  try dsimp only
  split
  · try dsimp only
    refine onlyParts.after (State.teDone_only ..) rfl ?_
    refine onlyParts.after (State.teStart_only ..) rfl ?_
    refine onlyParts.after (State.updQuad_only ..) rfl ?_
    exact onlyParts.rfl'
  · exact onlyParts.rfl'

theorem execLoop_only {q : ℕ} {tq : ℕ} {s : Sys2Proof.Machine.State} {t0 : State} (e0 : execLoop q tq s = .next t0) : onlyParts [.fns, .mem, .marks, .flaws, .hostMem, .pool, .quads, .sv, .fab, .mg, .ctr] s t0 := by
  unfold execLoop at e0
  injection e0 with e0
  rw [← e0]
  clear e0
  try dsimp only
  split
  · try dsimp only
    refine onlyParts.after (State.teStart_only ..) rfl ?_
    refine onlyParts.after (State.updTq_only ..) rfl ?_
    exact onlyParts.rfl'
  · exact onlyParts.rfl'

theorem execLoopIteration_only {q : ℕ} {tq : ℕ} {s : Sys2Proof.Machine.State} {t0 : State} (e0 : execLoopIteration q tq s = .next t0) : onlyParts [.fns, .mem, .marks, .flaws, .hostMem, .pool, .quads, .sv, .fab, .mg, .ctr] s t0 := by
  unfold execLoopIteration at e0
  injection e0 with e0
  rw [← e0]
  clear e0
  try dsimp only
  split
  · exact onlyParts.rfl'
  try dsimp only
  refine onlyParts.ite ?_ (fun h1 => ?_)
  · refine onlyParts.ite ?_ (fun h2 => ?_)
    · refine onlyParts.after (State.updTq_only ..) rfl ?_
      exact onlyParts.rfl'
    · refine onlyParts.after (State.teFail_only ..) rfl ?_
      refine onlyParts.after (State.bump_only ..) rfl ?_
      exact onlyParts.rfl'
  · exact onlyParts.rfl'

theorem execTrackerRetry_only {q : ℕ} {tq : ℕ} {s : Sys2Proof.Machine.State} {t0 : State} (e0 : execTrackerRetry q tq s = .next t0) : onlyParts [.fns, .shared, .mem, .marks, .flaws, .hostMem, .pool, .quads, .sv, .fab, .mg, .ctr] s t0 := by
  unfold execTrackerRetry at e0
  injection e0 with e0
  rw [← e0]
  clear e0
  try dsimp only
  refine onlyParts.ite ?_ (fun h1 => ?_)
  · split
    · try dsimp only
      refine onlyParts.ite ?_ (fun h2 => ?_)
      · refine onlyParts.ite ?_ (fun h3 => ?_)
        · refine onlyParts.ite ?_ (fun h4 => ?_)
          · refine onlyParts.ite ?_ (fun h5 => ?_)
            · refine onlyParts.after (State.teMoveOps_only ..) rfl ?_
              exact onlyParts.rfl'
            · exact onlyParts.rfl'
          · refine onlyParts.after (State.teFail_only ..) rfl ?_
            exact onlyParts.rfl'
        · exact onlyParts.rfl'
      · refine onlyParts.after (State.updEnt_only ..) rfl ?_
        refine onlyParts.after (State.updEnt_only ..) rfl ?_
        exact onlyParts.rfl'
    · try dsimp only
      refine onlyParts.ite ?_ (fun h6 => ?_)
      · refine onlyParts.after (State.updEnt_only ..) rfl ?_
        exact onlyParts.rfl'
      · exact onlyParts.rfl'
    · exact onlyParts.rfl'
  · exact onlyParts.rfl'

theorem execEntryComplete_only {q : ℕ} {tq : ℕ} {n : ℕ} {s : Sys2Proof.Machine.State} {t0 : State} (e0 : execEntryComplete q tq n s = .next t0) : onlyParts [.fns, .mem, .marks, .flaws, .hostMem, .pool, .quads, .sv, .fab, .mg, .ctr] s t0 := by
  unfold execEntryComplete at e0
  injection e0 with e0
  rw [← e0]
  clear e0
  try dsimp only
  split
  · try dsimp only
    refine onlyParts.ite ?_ (fun h1 => ?_)
    · refine onlyParts.ite ?_ (fun h2 => ?_)
      · refine onlyParts.after (State.teDone_only ..) rfl ?_
        exact onlyParts.rfl'
      · refine onlyParts.after (State.updEnt_only ..) rfl ?_
        exact onlyParts.rfl'
    · exact onlyParts.rfl'
  · exact onlyParts.rfl'

theorem execDispenserClaim_only {q : ℕ} {link : ℕ} {s : Sys2Proof.Machine.State} {t0 : State} (e0 : execDispenserClaim q link s = .next t0) : onlyParts [.quads, .ctr] s t0 := by
  unfold execDispenserClaim at e0
  injection e0 with e0
  rw [← e0]
  clear e0
  try dsimp only
  split
  · try dsimp only
    refine onlyParts.ite ?_ (fun h1 => ?_)
    · refine onlyParts.ite ?_ (fun h2 => ?_)
      · refine onlyParts.ite ?_ (fun h3 => ?_)
        · refine onlyParts.after (State.gwQueue_only ..) rfl ?_
          refine onlyParts.after (State.updQuad_only ..) rfl ?_
          refine onlyParts.ite ?_ (fun h4 => ?_)
          · refine onlyParts.after (State.bump_only ..) rfl ?_
            refine onlyParts.after (State.bump_only ..) rfl ?_
            refine onlyParts.ite ?_ (fun h5 => ?_)
            · refine onlyParts.after (State.takeIn_only ..) rfl ?_
              exact onlyParts.rfl'
            · refine onlyParts.after (State.bump_only ..) rfl ?_
              exact h5
          · refine onlyParts.after (State.bump_only ..) rfl ?_
            exact h4
        · refine onlyParts.after (State.bump_only ..) rfl ?_
          refine onlyParts.after (State.takeIn_only ..) rfl ?_
          exact onlyParts.rfl'
      · refine onlyParts.after (State.bump_only ..) rfl ?_
        refine onlyParts.after (State.takeIn_only ..) rfl ?_
        exact onlyParts.rfl'
    · exact onlyParts.rfl'
  · exact onlyParts.rfl'

/-! ### Machine/Routing.lean -/

theorem State.routeRow_only (s : Sys2Proof.Machine.State) (q : ℕ) (j : Sys2Proof.Machine.Job) (p : Sys2Proof.Machine.Prod) (ts : List Sys2Proof.Tok) : onlyParts [.quads, .ctr] s (State.routeRow s q j p ts) := by
  unfold State.routeRow
  try dsimp only
  refine onlyParts.ite ?_ (fun h1 => ?_)
  · refine onlyParts.ite ?_ (fun h2 => ?_)
    · skip
      · try dsimp only
        · try dsimp only
          refine onlyParts.after (State.updRt_only ..) rfl ?_
          refine onlyParts.foldl ?_ (fun _ _ h6 => ?_)
          · refine onlyParts.ite ?_ (fun h3 => ?_)
            · refine onlyParts.after (State.bump_only ..) rfl ?_
              refine onlyParts.ite ?_ (fun h4 => ?_)
              · refine onlyParts.after (State.bump_only ..) rfl ?_
                exact onlyParts.rfl'
              · refine onlyParts.after (State.bump_only ..) rfl ?_
                exact h4
            · refine onlyParts.ite ?_ (fun h5 => ?_)
              · refine onlyParts.after (State.bump_only ..) rfl ?_
                exact onlyParts.rfl'
              · refine onlyParts.after (State.bump_only ..) rfl ?_
                exact h5
          · try dsimp only
            · try dsimp only
              split
              · try dsimp only
                refine onlyParts.after (State.expCount_only ..) rfl ?_
                refine onlyParts.after (State.expCount_only ..) rfl ?_
                exact h6
              · try dsimp only
                refine onlyParts.after (State.expCount_only ..) rfl ?_
                refine onlyParts.after (State.expCount_only ..) rfl ?_
                exact h6
              · try dsimp only
                refine onlyParts.after (State.expCount_only ..) rfl ?_
                refine onlyParts.after (State.expCount_only ..) rfl ?_
                exact h6
    · refine onlyParts.after (State.updRt_only ..) rfl ?_
      refine onlyParts.after (State.bump_only ..) rfl ?_
      exact onlyParts.rfl'
  · refine onlyParts.after (State.updRt_only ..) rfl ?_
    refine onlyParts.after (State.bump_only ..) rfl ?_
    refine onlyParts.after (State.bump_only ..) rfl ?_
    exact onlyParts.rfl'

theorem execScoreToken_only {q : ℕ} {s : Sys2Proof.Machine.State} {t0 : State} (e0 : execScoreToken q s = .next t0) : onlyParts [.fns, .mem, .marks, .flaws, .hostMem, .pool, .quads, .sv, .fab, .mg, .ctr] s t0 := by
  unfold execScoreToken at e0
  injection e0 with e0
  rw [← e0]
  clear e0
  try dsimp only
  iterate 2
    split
    · exact onlyParts.rfl'
  try dsimp only
  refine onlyParts.ite ?_ (fun h1 => ?_)
  · refine onlyParts.ite ?_ (fun h2 => ?_)
    · refine onlyParts.ite ?_ (fun h3 => ?_)
      · refine onlyParts.ite ?_ (fun h4 => ?_)
        · refine onlyParts.after (State.routeRow_only ..) rfl ?_
          refine onlyParts.ite ?_ (fun h5 => ?_)
          · refine onlyParts.after (State.takeIn_only ..) rfl ?_
            exact onlyParts.rfl'
          · refine onlyParts.after (State.updRt_only ..) rfl ?_
            exact h5
        · refine onlyParts.after (State.goOn_only ..) rfl ?_
          refine onlyParts.after (State.publish_only ..) rfl ?_
          exact h4
      · refine onlyParts.after (State.updRt_only ..) rfl ?_
        refine onlyParts.ite ?_ (fun h6 => ?_)
        · refine onlyParts.after (State.takeIn_only ..) rfl ?_
          exact onlyParts.rfl'
        · refine onlyParts.after (State.updRt_only ..) rfl ?_
          exact h6
    · refine onlyParts.after (State.bump_only ..) rfl ?_
      refine onlyParts.after (State.takeIn_only ..) rfl ?_
      exact onlyParts.rfl'
  · exact onlyParts.rfl'

theorem execRoutedClaim_only {q : ℕ} {link : ℕ} {s : Sys2Proof.Machine.State} {t0 : State} (e0 : execRoutedClaim q link s = .next t0) : onlyParts [.fns, .mem, .marks, .flaws, .hostMem, .pool, .quads, .sv, .fab, .mg, .ctr] s t0 := by
  unfold execRoutedClaim at e0
  injection e0 with e0
  rw [← e0]
  clear e0
  try dsimp only
  split
  · try dsimp only
    refine onlyParts.ite ?_ (fun h1 => ?_)
    · refine onlyParts.ite ?_ (fun h2 => ?_)
      · refine onlyParts.ite ?_ (fun h3 => ?_)
        · refine onlyParts.ite ?_ (fun h4 => ?_)
          · split
            · try dsimp only
              refine onlyParts.ite ?_ (fun h5 => ?_)
              · refine onlyParts.ite ?_ (fun h6 => ?_)
                · refine onlyParts.after (State.updRt_only ..) rfl ?_
                  refine onlyParts.after (State.bump_only ..) rfl ?_
                  exact onlyParts.rfl'
                · exact onlyParts.rfl'
              · skip
                · try dsimp only
                  refine onlyParts.after (State.goOn_only ..) rfl ?_
                  refine onlyParts.after (State.gwQueue_only ..) rfl ?_
                  refine onlyParts.after (State.updRt_only ..) rfl ?_
                  refine onlyParts.after (State.takeIn_only ..) rfl ?_
                  refine onlyParts.after (State.updQuad_only ..) rfl ?_
                  refine onlyParts.after (State.bump_only ..) rfl ?_
                  refine onlyParts.after (State.bump_only ..) rfl ?_
                  exact onlyParts.rfl'
            · try dsimp only
              refine onlyParts.ite ?_ (fun h7 => ?_)
              · refine onlyParts.after (State.gwQueue_only ..) rfl ?_
                refine onlyParts.after (State.updRt_only ..) rfl ?_
                refine onlyParts.after (State.takeIn_only ..) rfl ?_
                refine onlyParts.after (State.bump_only ..) rfl ?_
                refine onlyParts.after (State.bump_only ..) rfl ?_
                exact onlyParts.rfl'
              · refine onlyParts.ite ?_ (fun h8 => ?_)
                · refine onlyParts.after (State.updRt_only ..) rfl ?_
                  refine onlyParts.after (State.bump_only ..) rfl ?_
                  exact onlyParts.rfl'
                · exact onlyParts.rfl'
          · refine onlyParts.ite ?_ (fun h9 => ?_)
            · refine onlyParts.after (State.updRt_only ..) rfl ?_
              refine onlyParts.after (State.bump_only ..) rfl ?_
              exact onlyParts.rfl'
            · exact onlyParts.rfl'
        · refine onlyParts.after (State.bump_only ..) rfl ?_
          refine onlyParts.after (State.takeIn_only ..) rfl ?_
          exact onlyParts.rfl'
      · refine onlyParts.after (State.bump_only ..) rfl ?_
        refine onlyParts.after (State.takeIn_only ..) rfl ?_
        exact onlyParts.rfl'
    · exact onlyParts.rfl'
  · exact onlyParts.rfl'

theorem State.setShard_only (s : Sys2Proof.Machine.State) (q : ℕ) (r : Sys2Proof.Machine.RoutePar) (f : Sys2Proof.Machine.Fetch) (shard : ℕ) (off : ℕ) (ls : List Sys2Proof.Machine.Line) : onlyParts [.quads] s (State.setShard s q r f shard off ls) := by
  unfold State.setShard
  try dsimp only
  refine onlyParts.after (State.gwQueue_only ..) rfl ?_
  refine onlyParts.after (State.updTq_only ..) rfl ?_
  exact onlyParts.rfl'

theorem execShardComplete_only {q : ℕ} {s : Sys2Proof.Machine.State} {t0 : State} (e0 : execShardComplete q s = .next t0) : onlyParts [.fns, .mem, .marks, .flaws, .hostMem, .pool, .quads, .sv, .fab, .mg, .ctr] s t0 := by
  unfold execShardComplete at e0
  injection e0 with e0
  rw [← e0]
  clear e0
  try dsimp only
  iterate 2
    split
    · exact onlyParts.rfl'
  try dsimp only
  refine onlyParts.ite ?_ (fun h1 => ?_)
  · refine onlyParts.after (State.goOn_only ..) rfl ?_
    refine onlyParts.after (State.postWorks_only ..) rfl ?_
    refine onlyParts.after (State.updRt_only ..) rfl ?_
    exact onlyParts.rfl'
  · exact onlyParts.rfl'

theorem execDoneToken_only {q : ℕ} {s : Sys2Proof.Machine.State} {t0 : State} (e0 : execDoneToken q s = .next t0) : onlyParts [.fns, .mem, .marks, .flaws, .hostMem, .pool, .quads, .sv, .fab, .mg, .ctr] s t0 := by
  unfold execDoneToken at e0
  injection e0 with e0
  rw [← e0]
  clear e0
  try dsimp only
  iterate 2
    split
    · exact onlyParts.rfl'
  try dsimp only
  refine onlyParts.ite ?_ (fun h1 => ?_)
  · split
    · try dsimp only
      refine onlyParts.ite ?_ (fun h2 => ?_)
      · refine onlyParts.after (State.goOn_only ..) rfl ?_
        refine onlyParts.after (State.updRt_only ..) rfl ?_
        refine onlyParts.after (State.takeIn_only ..) rfl ?_
        exact onlyParts.rfl'
      · refine onlyParts.after (State.bump_only ..) rfl ?_
        refine onlyParts.after (State.takeIn_only ..) rfl ?_
        exact onlyParts.rfl'
    · try dsimp only
      refine onlyParts.after (State.bump_only ..) rfl ?_
      refine onlyParts.after (State.takeIn_only ..) rfl ?_
      exact onlyParts.rfl'
  · exact onlyParts.rfl'

theorem execGenerationBump_only {s : Sys2Proof.Machine.State} {t0 : State} (e0 : execGenerationBump s = .next t0) : onlyParts [.sv, .ctr] s t0 := by
  unfold execGenerationBump at e0
  injection e0 with e0
  rw [← e0]
  clear e0
  try dsimp only
  refine onlyParts.ite .rfl' (fun h1 => ?_)
  refine onlyParts.after (State.takeBumps_only ..) rfl ?_
  exact h1

/-! ### Machine/Serve.lean -/

theorem State.reqOpenRule_only (p : Sys2Proof.Machine.Pkt) (s : Sys2Proof.Machine.State) : onlyParts [.sv] s (State.reqOpenRule p s).1 := by
  unfold State.reqOpenRule
  try dsimp only
  iterate 4
    split
    · exact onlyParts.rfl'
  try dsimp only
  refine onlyParts.set_sv ?_ rfl
  exact onlyParts.rfl'

theorem State.reqOpenRule_only' {p : Sys2Proof.Machine.Pkt} {s : Sys2Proof.Machine.State} {t0 : State} {o0 : _} (e0 : State.reqOpenRule p s = (t0, o0)) : onlyParts [.sv] s t0 := by
  have h := State.reqOpenRule_only p s
  rw [e0] at h
  exact h

theorem execRequestOpen_only {f : ℕ} {slot : ℕ} {s : Sys2Proof.Machine.State} {t0 : State} (e0 : execRequestOpen f slot s = .next t0) : onlyParts [.pw, .fns, .sv, .mg, .ctr] s t0 := by
  unfold execRequestOpen at e0
  injection e0 with e0
  rw [← e0]
  exact State.command_only (fun _ _ => onlyParts.mono (State.reqOpenRule_only ..) rfl) rfl

theorem State.reqCancelRule_only (p : Sys2Proof.Machine.Pkt) (s : Sys2Proof.Machine.State) : onlyParts [.fns, .mem, .marks, .flaws, .hostMem, .pool, .quads, .sv, .fab, .mg, .ctr] s (State.reqCancelRule p s).1 := by
  unfold State.reqCancelRule
  try dsimp only
  split
  · exact onlyParts.rfl'
  try dsimp only
  split
  · try dsimp only
    split
    · try dsimp only
      refine onlyParts.after (State.cancelReq_only ..) rfl ?_
      exact onlyParts.rfl'
    · try dsimp only
      refine onlyParts.after (State.loseReq_only ..) rfl ?_
      exact onlyParts.rfl'
  · try dsimp only
    refine onlyParts.after (State.boundaryIfIdle_only ..) rfl ?_
    refine onlyParts.after (State.updReq_only ..) rfl ?_
    exact onlyParts.rfl'

theorem State.reqCancelRule_only' {p : Sys2Proof.Machine.Pkt} {s : Sys2Proof.Machine.State} {t0 : State} {o0 : _} (e0 : State.reqCancelRule p s = (t0, o0)) : onlyParts [.fns, .mem, .marks, .flaws, .hostMem, .pool, .quads, .sv, .fab, .mg, .ctr] s t0 := by
  have h := State.reqCancelRule_only p s
  rw [e0] at h
  exact h

theorem execRequestCancel_only {f : ℕ} {slot : ℕ} {s : Sys2Proof.Machine.State} {t0 : State} (e0 : execRequestCancel f slot s = .next t0) : onlyParts [.pw, .fns, .mem, .marks, .flaws, .hostMem, .pool, .quads, .sv, .fab, .mg, .ctr] s t0 := by
  unfold execRequestCancel at e0
  injection e0 with e0
  rw [← e0]
  exact State.command_only (fun _ _ => onlyParts.mono (State.reqCancelRule_only ..) rfl) rfl

theorem State.reqParkRule_only (p : Sys2Proof.Machine.Pkt) (s : Sys2Proof.Machine.State) : onlyParts [.fns, .mem, .marks, .flaws, .hostMem, .pool, .quads, .sv, .fab, .mg, .ctr] s (State.reqParkRule p s).1 := by
  unfold State.reqParkRule
  try dsimp only
  iterate 5
    split
    · exact onlyParts.rfl'
  try dsimp only
  refine onlyParts.after (State.boundaryIfIdle_only ..) rfl ?_
  refine onlyParts.after (State.updReq_only ..) rfl ?_
  exact onlyParts.rfl'

theorem State.reqParkRule_only' {p : Sys2Proof.Machine.Pkt} {s : Sys2Proof.Machine.State} {t0 : State} {o0 : _} (e0 : State.reqParkRule p s = (t0, o0)) : onlyParts [.fns, .mem, .marks, .flaws, .hostMem, .pool, .quads, .sv, .fab, .mg, .ctr] s t0 := by
  have h := State.reqParkRule_only p s
  rw [e0] at h
  exact h

theorem execRequestPark_only {f : ℕ} {slot : ℕ} {s : Sys2Proof.Machine.State} {t0 : State} (e0 : execRequestPark f slot s = .next t0) : onlyParts [.pw, .fns, .mem, .marks, .flaws, .hostMem, .pool, .quads, .sv, .fab, .mg, .ctr] s t0 := by
  unfold execRequestPark at e0
  injection e0 with e0
  rw [← e0]
  exact State.command_only (fun _ _ => onlyParts.mono (State.reqParkRule_only ..) rfl) rfl

theorem State.resumeEvicted_only (s : Sys2Proof.Machine.State) (p : Sys2Proof.Machine.Pkt) : onlyParts [.fns, .hostMem, .pool, .sv, .mg, .ctr] s (State.resumeEvicted s p).1 := by
  unfold State.resumeEvicted
  try dsimp only
  refine onlyParts.ite ?_ (fun h1 => ?_)
  · refine onlyParts.set_sv ?_ rfl
    refine onlyParts.after (State.endReq_only ..) rfl ?_
    exact onlyParts.rfl'
  · refine onlyParts.after (State.serve51_only ..) rfl ?_
    exact h1

theorem State.resumeEvicted_only' {s : Sys2Proof.Machine.State} {p : Sys2Proof.Machine.Pkt} {t0 : State} {o0 : _} (e0 : State.resumeEvicted s p = (t0, o0)) : onlyParts [.fns, .hostMem, .pool, .sv, .mg, .ctr] s t0 := by
  have h := State.resumeEvicted_only s p
  rw [e0] at h
  exact h

theorem State.writeAncestors_only (s : Sys2Proof.Machine.State) (r : Sys2Proof.Machine.Req) : onlyParts [.mem, .marks, .flaws] s (State.writeAncestors s r) := by
  unfold State.writeAncestors
  try dsimp only
  refine onlyParts.ite ?_ (fun h1 => ?_)
  · refine onlyParts.after (State.devWrite_only ..) rfl ?_
    exact onlyParts.rfl'
  · exact onlyParts.rfl'

theorem State.takeDrafts_only (s : Sys2Proof.Machine.State) (jid : ℕ) (m : Sys2Proof.Machine.Manifest) (drafts : List (ℕ × List (ℕ × ℕ))) : onlyParts [.sv] s (State.takeDrafts s jid m drafts) := by
  unfold State.takeDrafts
  try dsimp only
  refine onlyParts.ite ?_ (fun h1 => ?_)
  · refine onlyParts.foldl (onlyParts.rfl') (fun _ _ h2 => ?_)
    try dsimp only
    split
    · try dsimp only
      refine onlyParts.ite h2 (fun h3 => ?_)
      refine onlyParts.after (State.updReq_only ..) rfl ?_
      exact h3
    · try dsimp only
      exact h2
  · exact onlyParts.rfl'

theorem State.ownCache_only (s : Sys2Proof.Machine.State) (n : ℕ) (q : ℕ) : onlyParts [.quads] s (State.ownCache s n q) := by
  unfold State.ownCache
  try dsimp only
  refine onlyParts.after (State.updRt_only ..) rfl ?_
  exact onlyParts.rfl'

theorem State.beginStep_only (s : Sys2Proof.Machine.State) (jid : ℕ) (rowsQ : List ℕ) : onlyParts [.fns, .mem, .marks, .flaws, .hostMem, .pool, .quads, .sv, .fab, .mg, .ctr] s (State.beginStep s jid rowsQ) := by
  unfold State.beginStep
  try dsimp only
  iterate 2
    split
    · exact onlyParts.rfl'
  try dsimp only
  refine onlyParts.ite ?_ (fun h1 => ?_)
  · refine onlyParts.ite ?_ (fun h2 => ?_)
    · refine onlyParts.after (State.goOn_only ..) rfl ?_
      refine onlyParts.foldl ?_ (fun _ _ h6 => ?_)
      · refine onlyParts.foldl ?_ (fun _ _ h5 => ?_)
        · refine onlyParts.ite ?_ (fun h3 => ?_)
          · refine onlyParts.after (State.updJob_only ..) rfl ?_
            refine onlyParts.after (State.writeSheets_only ..) rfl ?_
            refine onlyParts.ite .rfl' (fun h4 => ?_)
            refine onlyParts.after (State.startResident_only ..) rfl ?_
            exact h4
          · refine onlyParts.after (State.sePut_only ..) rfl ?_
            exact h3
        · try dsimp only
          refine onlyParts.after (State.updQuad_only ..) rfl ?_
          refine onlyParts.after (State.ownCache_only ..) rfl ?_
          exact h5
      · try dsimp only
        refine onlyParts.after (State.startPass_only ..) rfl ?_
        refine onlyParts.after (State.updRt_only ..) rfl ?_
        exact h6
    · refine onlyParts.after (State.endJob_only ..) rfl ?_
      refine onlyParts.foldl ?_ (fun _ _ h9 => ?_)
      · refine onlyParts.ite ?_ (fun h7 => ?_)
        · refine onlyParts.after (State.updJob_only ..) rfl ?_
          refine onlyParts.after (State.writeSheets_only ..) rfl ?_
          refine onlyParts.ite .rfl' (fun h8 => ?_)
          refine onlyParts.after (State.startResident_only ..) rfl ?_
          exact h8
        · refine onlyParts.after (State.sePut_only ..) rfl ?_
          exact h7
      · try dsimp only
        refine onlyParts.after (State.updQuad_only ..) rfl ?_
        refine onlyParts.after (State.ownCache_only ..) rfl ?_
        exact h9
  · refine onlyParts.foldl ?_ (fun _ _ h13 => ?_)
    · refine onlyParts.foldl ?_ (fun _ _ h12 => ?_)
      · refine onlyParts.ite ?_ (fun h10 => ?_)
        · refine onlyParts.after (State.updJob_only ..) rfl ?_
          refine onlyParts.after (State.writeSheets_only ..) rfl ?_
          refine onlyParts.ite .rfl' (fun h11 => ?_)
          refine onlyParts.after (State.startResident_only ..) rfl ?_
          exact h11
        · refine onlyParts.after (State.sePut_only ..) rfl ?_
          exact h10
      · try dsimp only
        refine onlyParts.after (State.updQuad_only ..) rfl ?_
        refine onlyParts.after (State.ownCache_only ..) rfl ?_
        exact h12
    · try dsimp only
      refine onlyParts.after (State.updRt_only ..) rfl ?_
      exact h13

theorem State.compact_only (s : Sys2Proof.Machine.State) (r : Sys2Proof.Machine.Req) (m : Sys2Proof.Machine.Manifest) (path : List ℕ) : onlyParts [.mem, .marks, .flaws, .quads, .ctr] s (State.compact s r m path) := by
  unfold State.compact
  try dsimp only
  refine onlyParts.foldl (onlyParts.rfl') (fun _ _ h1 => ?_)
  try dsimp only
  · try dsimp only
    refine onlyParts.ite ?_ (fun h2 => ?_)
    · refine onlyParts.foldl (h1) (fun _ _ h3 => ?_)
      try dsimp only
      refine onlyParts.after (State.devCopy_only ..) rfl ?_
      exact h3
    · exact h1

theorem State.deliverOut_only (s : Sys2Proof.Machine.State) (r : Sys2Proof.Machine.Req) (m : Sys2Proof.Machine.Manifest) (step : ℕ) (ds : List Sys2Proof.Machine.Deliver) : onlyParts [.fns, .hostMem, .sv, .ctr] s (State.deliverOut s r m step ds) := by
  unfold State.deliverOut
  try dsimp only
  refine onlyParts.after (State.updReq_only ..) rfl ?_
  refine onlyParts.after (State.updJob_only ..) rfl ?_
  refine onlyParts.foldl (onlyParts.rfl') (fun _ _ h1 => ?_)
  try dsimp only
  · try dsimp only
    refine onlyParts.after (State.dmaPost_only ..) rfl ?_
    exact h1

theorem State.endRows_only (s : Sys2Proof.Machine.State) (r : Sys2Proof.Machine.Req) (m : Sys2Proof.Machine.Manifest) (step : ℕ) (res : Sys2Proof.RowResult) : onlyParts [.fns, .mem, .marks, .flaws, .hostMem, .pool, .quads, .sv, .ctr] s (State.endRows s r m step res).2 := by
  unfold State.endRows
  try dsimp only
  split
  · try dsimp only
    split
    · try dsimp only
      split
      · try dsimp only
        refine onlyParts.after (State.updReq_only ..) rfl ?_
        exact onlyParts.rfl'
      · try dsimp only
        refine onlyParts.after (State.sealFull_only ..) rfl ?_
        refine onlyParts.after (State.enter_only ..) rfl ?_
        refine onlyParts.after (State.updReq_only ..) rfl ?_
        refine onlyParts.after (State.deliverOut_only ..) rfl ?_
        refine onlyParts.after (State.updReq_only ..) rfl ?_
        exact onlyParts.rfl'
    · try dsimp only
      refine onlyParts.after (State.sealFull_only ..) rfl ?_
      refine onlyParts.after (State.updReq_only ..) rfl ?_
      exact onlyParts.rfl'
  · try dsimp only
    · try dsimp only
      refine onlyParts.after (State.sealFull_only ..) rfl ?_
      refine onlyParts.after (State.updReq_only ..) rfl ?_
      refine onlyParts.after (State.serve51_only ..) rfl ?_
      refine onlyParts.after (State.serve51_only ..) rfl ?_
      refine onlyParts.after (State.deliverOut_only ..) rfl ?_
      refine onlyParts.after (State.compact_only ..) rfl ?_
      exact onlyParts.rfl'

theorem State.endRows_only' {s : Sys2Proof.Machine.State} {r : Sys2Proof.Machine.Req} {m : Sys2Proof.Machine.Manifest} {step : ℕ} {res : Sys2Proof.RowResult} {t0 : State} {o0 : _} (e0 : State.endRows s r m step res = (o0, t0)) : onlyParts [.fns, .mem, .marks, .flaws, .hostMem, .pool, .quads, .sv, .ctr] s t0 := by
  have h := State.endRows_only s r m step res
  rw [e0] at h
  exact h

theorem State.completeTurn_only (s : Sys2Proof.Machine.State) (m : Sys2Proof.Machine.Manifest) (rid : ℕ) : onlyParts [.fns, .hostMem, .pool, .sv, .mg, .ctr] s (State.completeTurn s m rid) := by
  unfold State.completeTurn
  try dsimp only
  split
  · exact onlyParts.rfl'
  try dsimp only
  refine onlyParts.ite ?_ (fun h1 => ?_)
  · refine onlyParts.ite ?_ (fun h2 => ?_)
    · refine onlyParts.after (State.completeAll_only ..) rfl ?_
      refine onlyParts.after (State.endReq_only ..) rfl ?_
      refine onlyParts.after (State.enter_only ..) rfl ?_
      refine onlyParts.after (State.writeEnd_only ..) rfl ?_
      exact onlyParts.rfl'
    · refine onlyParts.after (State.enter_only ..) rfl ?_
      refine onlyParts.after (State.writeEnd_only ..) rfl ?_
      exact onlyParts.rfl'
  · refine onlyParts.after (State.completeAll_only ..) rfl ?_
    refine onlyParts.after (State.endReq_only ..) rfl ?_
    exact onlyParts.rfl'

theorem State.addTimes_only (s : Sys2Proof.Machine.State) (cid : ℕ) (t : Sys2Proof.EngineTimes) : onlyParts [.sv] s (State.addTimes s cid t) := by
  unfold State.addTimes
  try dsimp only
  refine onlyParts.after (State.updClient_only ..) rfl ?_
  exact onlyParts.rfl'

theorem State.closeStep_only (s : Sys2Proof.Machine.State) (j : Sys2Proof.Machine.Job) (r : Sys2Proof.Machine.RoutePar) : onlyParts [.quads, .sv] s (State.closeStep s j r) := by
  unfold State.closeStep
  try dsimp only
  refine onlyParts.foldl ?_ (fun _ _ h1 => ?_)
  · refine onlyParts.after (State.updJob_only ..) rfl ?_
    exact onlyParts.rfl'
  · try dsimp only
    refine onlyParts.after (State.updRt_only ..) rfl ?_
    exact h1

theorem State.act1_only (s : Sys2Proof.Machine.State) (jid : ℕ) (m : Sys2Proof.Machine.Manifest) : onlyParts [.fns, .hostMem, .pool, .sv, .mg, .ctr] s (State.act1 s jid m) := by
  unfold State.act1
  try dsimp only
  split
  · exact onlyParts.rfl'
  try dsimp only
  refine onlyParts.after (State.updJob_only ..) rfl ?_
  refine onlyParts.foldl (onlyParts.rfl') (fun _ _ h1 => ?_)
  try dsimp only
  refine onlyParts.after (State.completeTurn_only ..) rfl ?_
  exact h1

theorem State.finishStep_only (s : Sys2Proof.Machine.State) (jid : ℕ) (m : Sys2Proof.Machine.Manifest) : onlyParts [.fns, .mem, .marks, .flaws, .hostMem, .pool, .quads, .sv, .fab, .mg, .ctr] s (State.finishStep s jid m) := by
  unfold State.finishStep
  try dsimp only
  split
  · exact onlyParts.rfl'
  try dsimp only
  refine onlyParts.after (State.settleCloses_only ..) rfl ?_
  refine onlyParts.after (State.boundary_only ..) rfl ?_
  refine onlyParts.after (State.endStepChanges_only ..) rfl ?_
  split
  · try dsimp only
    refine onlyParts.after (State.act1_only ..) rfl ?_
    refine onlyParts.after (State.markBoundary_only ..) rfl ?_
    refine onlyParts.after (State.updJob_only ..) rfl ?_
    exact onlyParts.rfl'
  · try dsimp only
    refine onlyParts.ite ?_ (fun h1 => ?_)
    · refine onlyParts.after (State.updJob_only ..) rfl ?_
      refine onlyParts.after (State.act1_only ..) rfl ?_
      refine onlyParts.after (State.markBoundary_only ..) rfl ?_
      refine onlyParts.after (State.updJob_only ..) rfl ?_
      exact onlyParts.rfl'
    · refine onlyParts.after (State.tellMembers_only ..) rfl ?_
      exact h1

theorem execPageSealCommit_only {req : ℕ} {layer : ℕ} {page : ℕ} {s : Sys2Proof.Machine.State} {t0 : State} (e0 : execPageSealCommit req layer page s = .next t0) : onlyParts [.mem, .marks, .flaws, .pool, .quads, .sv, .ctr] s t0 := by
  unfold execPageSealCommit at e0
  injection e0 with e0
  rw [← e0]
  clear e0
  try dsimp only
  split
  · exact onlyParts.rfl'
  try dsimp only
  refine onlyParts.ite ?_ (fun h1 => ?_)
  · split
    · try dsimp only
      refine onlyParts.after (State.serve51_only ..) rfl ?_
      refine onlyParts.after (State.updReq_only ..) rfl ?_
      refine onlyParts.after (State.seDone_only ..) rfl ?_
      refine onlyParts.after (State.hold_only ..) rfl ?_
      refine onlyParts.after (State.moveCommit_only ..) rfl ?_
      exact onlyParts.rfl'
    · try dsimp only
      refine onlyParts.after (State.updReq_only ..) rfl ?_
      refine onlyParts.after (State.seDone_only ..) rfl ?_
      refine onlyParts.after (State.hold_only ..) rfl ?_
      refine onlyParts.after (State.moveCommit_only ..) rfl ?_
      exact onlyParts.rfl'
  · exact onlyParts.rfl'

theorem execParkCommit_only {req : ℕ} {s : Sys2Proof.Machine.State} {t0 : State} (e0 : execParkCommit req s = .next t0) : onlyParts [.fns, .mem, .marks, .flaws, .pool, .quads, .sv, .mg, .ctr] s t0 := by
  unfold execParkCommit at e0
  injection e0 with e0
  rw [← e0]
  clear e0
  try dsimp only
  split
  · try dsimp only
    refine onlyParts.ite ?_ (fun h1 => ?_)
    · refine onlyParts.after (State.serve51_only ..) rfl ?_
      refine onlyParts.after (State.completeOpt_only ..) rfl ?_
      refine onlyParts.after (State.enter_only ..) rfl ?_
      refine onlyParts.after (State.updReq_only ..) rfl ?_
      refine onlyParts.after (State.releasePages_only ..) rfl ?_
      refine onlyParts.after (State.unhold_only ..) rfl ?_
      refine onlyParts.set_pool ?_ rfl
      refine onlyParts.after (State.commitPlacing_only ..) rfl ?_
      exact onlyParts.rfl'
    · exact onlyParts.rfl'
  · exact onlyParts.rfl'

theorem execResumeCommit_only {req : ℕ} {s : Sys2Proof.Machine.State} {t0 : State} (e0 : execResumeCommit req s = .next t0) : onlyParts [.fns, .mem, .marks, .flaws, .pool, .quads, .sv, .mg, .ctr] s t0 := by
  unfold execResumeCommit at e0
  injection e0 with e0
  rw [← e0]
  clear e0
  try dsimp only
  split
  · exact onlyParts.rfl'
  try dsimp only
  split
  · try dsimp only
    refine onlyParts.ite ?_ (fun h1 => ?_)
    · refine onlyParts.after (State.completeOpt_only ..) rfl ?_
      refine onlyParts.after (State.enter_only ..) rfl ?_
      refine onlyParts.after (State.updReq_only ..) rfl ?_
      refine onlyParts.set_pool ?_ rfl
      refine onlyParts.after (State.unhold_only ..) rfl ?_
      refine onlyParts.after (State.copyTail_only ..) rfl ?_
      refine onlyParts.foldl (onlyParts.rfl') (fun _ _ h2 => ?_)
      try dsimp only
      refine onlyParts.after (State.hold_only ..) rfl ?_
      refine onlyParts.after (State.commitPlacing_only ..) rfl ?_
      exact h2
    · exact onlyParts.rfl'
  · exact onlyParts.rfl'

/-! ### Machine/Jobs.lean -/

theorem State.latencyArrives_only (s : Sys2Proof.Machine.State) : onlyParts [.fns, .pool, .sv, .fab, .mg, .ctr] s (State.latencyArrives s) := by
  unfold State.latencyArrives
  try dsimp only
  refine onlyParts.foldl (onlyParts.rfl') (fun _ _ h1 => ?_)
  try dsimp only
  refine onlyParts.ite h1 (fun h2 => ?_)
  refine onlyParts.after (State.beginPreempt_only ..) rfl ?_
  exact h2

theorem State.submitResume_only (s : Sys2Proof.Machine.State) (p : Sys2Proof.Machine.Pkt) : onlyParts [.fns, .mem, .marks, .flaws, .hostMem, .pool, .quads, .sv, .fab, .mg, .ctr] s (State.submitResume s p).1 := by
  unfold State.submitResume
  try dsimp only
  iterate 6
    split
    · exact onlyParts.rfl'
  try dsimp only
  split
  · try dsimp only
    split
    · try dsimp only
      refine onlyParts.after (State.complete_only ..) rfl ?_
      refine onlyParts.after (State.endJob_only ..) rfl ?_
      refine onlyParts.after (State.firstReply_only ..) rfl ?_
      exact onlyParts.rfl'
    · try dsimp only
      split
      · try dsimp only
        refine onlyParts.after (State.act5_only ..) rfl ?_
        refine onlyParts.after (State.complete_only ..) rfl ?_
        refine onlyParts.after (State.updJob_only ..) rfl ?_
        refine onlyParts.after (State.jobTo_only ..) rfl ?_
        refine onlyParts.after (State.firstReply_only ..) rfl ?_
        exact onlyParts.rfl'
      · try dsimp only
        refine onlyParts.after (State.latencyArrives_only ..) rfl ?_
        refine onlyParts.after (State.complete_only ..) rfl ?_
        refine onlyParts.after (State.updJob_only ..) rfl ?_
        refine onlyParts.after (State.jobTo_only ..) rfl ?_
        refine onlyParts.after (State.firstReply_only ..) rfl ?_
        exact onlyParts.rfl'
  · try dsimp only
    split
    · try dsimp only
      refine onlyParts.ite ?_ (fun h1 => ?_)
      · refine onlyParts.after (State.joinLedger_only ..) rfl ?_
        refine onlyParts.after (State.updJob_only ..) rfl ?_
        refine onlyParts.after (State.firstReply_only ..) rfl ?_
        exact onlyParts.rfl'
      · refine onlyParts.after (State.updJob_only ..) rfl ?_
        refine onlyParts.after (State.firstReply_only ..) rfl ?_
        exact onlyParts.rfl'
    · exact onlyParts.rfl'
  · exact onlyParts.rfl'
  · exact onlyParts.rfl'
  · exact onlyParts.rfl'
  · exact onlyParts.rfl'

theorem State.submitResume_only' {s : Sys2Proof.Machine.State} {p : Sys2Proof.Machine.Pkt} {t0 : State} {o0 : _} (e0 : State.submitResume s p = (t0, o0)) : onlyParts [.fns, .mem, .marks, .flaws, .hostMem, .pool, .quads, .sv, .fab, .mg, .ctr] s t0 := by
  have h := State.submitResume_only s p
  rw [e0] at h
  exact h

theorem State.jobEndRule_only (p : Sys2Proof.Machine.Pkt) (s : Sys2Proof.Machine.State) : onlyParts [.fns, .mem, .marks, .flaws, .hostMem, .pool, .quads, .sv, .fab, .mg, .ctr] s (State.jobEndRule p s).1 := by
  unfold State.jobEndRule
  try dsimp only
  split
  · exact onlyParts.rfl'
  try dsimp only
  split
  · try dsimp only
    split
    · try dsimp only
      refine onlyParts.after (State.endJob_only ..) rfl ?_
      exact onlyParts.rfl'
    · try dsimp only
      refine onlyParts.after (State.boundaryIfIdle_only ..) rfl ?_
      refine onlyParts.after (State.updJob_only ..) rfl ?_
      exact onlyParts.rfl'
  · try dsimp only
    refine onlyParts.after (State.updJob_only ..) rfl ?_
    exact onlyParts.rfl'
  · try dsimp only
    refine onlyParts.after (State.updJob_only ..) rfl ?_
    exact onlyParts.rfl'
  · try dsimp only
    refine onlyParts.after (State.endJob_only ..) rfl ?_
    exact onlyParts.rfl'
  · try dsimp only
    refine onlyParts.after (State.endJob_only ..) rfl ?_
    exact onlyParts.rfl'
  · try dsimp only
    refine onlyParts.after (State.endJob_only ..) rfl ?_
    exact onlyParts.rfl'

theorem State.jobEndRule_only' {p : Sys2Proof.Machine.Pkt} {s : Sys2Proof.Machine.State} {t0 : State} {o0 : _} (e0 : State.jobEndRule p s = (t0, o0)) : onlyParts [.fns, .mem, .marks, .flaws, .hostMem, .pool, .quads, .sv, .fab, .mg, .ctr] s t0 := by
  have h := State.jobEndRule_only p s
  rw [e0] at h
  exact h

theorem execJobEnd_only {f : ℕ} {slot : ℕ} {s : Sys2Proof.Machine.State} {t0 : State} (e0 : execJobEnd f slot s = .next t0) : onlyParts [.pw, .fns, .mem, .marks, .flaws, .hostMem, .pool, .quads, .sv, .fab, .mg, .ctr] s t0 := by
  unfold execJobEnd at e0
  injection e0 with e0
  rw [← e0]
  exact State.command_only (fun _ _ => onlyParts.mono (State.jobEndRule_only ..) rfl) rfl

theorem State.jobPreemptRule_only (p : Sys2Proof.Machine.Pkt) (s : Sys2Proof.Machine.State) : onlyParts [.fns, .pool, .sv, .fab, .mg, .ctr] s (State.jobPreemptRule p s).1 := by
  unfold State.jobPreemptRule
  try dsimp only
  iterate 2
    split
    · exact onlyParts.rfl'
  try dsimp only
  split
  · exact onlyParts.rfl'
  · exact onlyParts.rfl'
  · exact onlyParts.rfl'
  · exact onlyParts.rfl'
  · try dsimp only
    split
    · try dsimp only
      refine onlyParts.after (State.beginPreempt_only ..) rfl ?_
      refine onlyParts.after (State.updJob_only ..) rfl ?_
      exact onlyParts.rfl'
    · exact onlyParts.rfl'
  · try dsimp only
    split
    · exact onlyParts.rfl'
    try dsimp only
    refine onlyParts.ite ?_ (fun h1 => ?_)
    · refine onlyParts.after (State.beginPreempt_only ..) rfl ?_
      refine onlyParts.after (State.updJob_only ..) rfl ?_
      exact onlyParts.rfl'
    · refine onlyParts.after (State.updJob_only ..) rfl ?_
      exact onlyParts.rfl'

theorem State.jobPreemptRule_only' {p : Sys2Proof.Machine.Pkt} {s : Sys2Proof.Machine.State} {t0 : State} {o0 : _} (e0 : State.jobPreemptRule p s = (t0, o0)) : onlyParts [.fns, .pool, .sv, .fab, .mg, .ctr] s t0 := by
  have h := State.jobPreemptRule_only p s
  rw [e0] at h
  exact h

theorem execJobPreempt_only {f : ℕ} {slot : ℕ} {s : Sys2Proof.Machine.State} {t0 : State} (e0 : execJobPreempt f slot s = .next t0) : onlyParts [.pw, .fns, .pool, .sv, .fab, .mg, .ctr] s t0 := by
  unfold execJobPreempt at e0
  injection e0 with e0
  rw [← e0]
  exact State.command_only (fun _ _ => onlyParts.mono (State.jobPreemptRule_only ..) rfl) rfl

theorem State.jobQueryRule_only (p : Sys2Proof.Machine.Pkt) (s : Sys2Proof.Machine.State) : onlyParts [] s (State.jobQueryRule p s).1 := by
  unfold State.jobQueryRule
  try dsimp only
  iterate 2
    split
    · exact onlyParts.rfl'
  exact onlyParts.rfl'

theorem State.jobQueryRule_only' {p : Sys2Proof.Machine.Pkt} {s : Sys2Proof.Machine.State} {t0 : State} {o0 : _} (e0 : State.jobQueryRule p s = (t0, o0)) : onlyParts [] s t0 := by
  have h := State.jobQueryRule_only p s
  rw [e0] at h
  exact h

theorem execJobQuery_only {f : ℕ} {slot : ℕ} {s : Sys2Proof.Machine.State} {t0 : State} (e0 : execJobQuery f slot s = .next t0) : onlyParts [.pw, .fns, .mg, .ctr] s t0 := by
  unfold execJobQuery at e0
  injection e0 with e0
  rw [← e0]
  exact State.command_only (fun _ _ => onlyParts.mono (State.jobQueryRule_only ..) rfl) rfl

theorem State.classSetRule_only (p : Sys2Proof.Machine.Pkt) (s : Sys2Proof.Machine.State) : onlyParts [.sv] s (State.classSetRule p s).1 := by
  unfold State.classSetRule
  try dsimp only
  split
  · exact onlyParts.rfl'
  try dsimp only
  split
  · try dsimp only
    iterate 3
      split
      · exact onlyParts.rfl'
    try dsimp only
    refine onlyParts.set_sv ?_ rfl
    exact onlyParts.rfl'
  · try dsimp only
    iterate 3
      split
      · exact onlyParts.rfl'
    try dsimp only
    refine onlyParts.after (State.updClient_only ..) rfl ?_
    exact onlyParts.rfl'

theorem State.classSetRule_only' {p : Sys2Proof.Machine.Pkt} {s : Sys2Proof.Machine.State} {t0 : State} {o0 : _} (e0 : State.classSetRule p s = (t0, o0)) : onlyParts [.sv] s t0 := by
  have h := State.classSetRule_only p s
  rw [e0] at h
  exact h

theorem execClassSet_only {f : ℕ} {slot : ℕ} {s : Sys2Proof.Machine.State} {t0 : State} (e0 : execClassSet f slot s = .next t0) : onlyParts [.pw, .fns, .sv, .mg, .ctr] s t0 := by
  unfold execClassSet at e0
  injection e0 with e0
  rw [← e0]
  exact State.command_only (fun _ _ => onlyParts.mono (State.classSetRule_only ..) rfl) rfl

theorem State.takeStage_only (s : Sys2Proof.Machine.State) (j : Sys2Proof.Machine.Job) : onlyParts [.fns, .quads, .sv, .mg, .ctr] s (State.takeStage s j) := by
  unfold State.takeStage
  try dsimp only
  split
  · exact onlyParts.rfl'
  try dsimp only
  refine onlyParts.ite ?_ (fun h1 => ?_)
  · refine onlyParts.set_sv ?_ rfl
    exact onlyParts.rfl'
  · refine onlyParts.after (State.startResident_only ..) rfl ?_
    exact h1

theorem State.startLocal_only (s : Sys2Proof.Machine.State) (jid : ℕ) : onlyParts [.fns, .quads, .sv, .fab, .mg, .ctr] s (State.startLocal s jid) := by
  unfold State.startLocal
  try dsimp only
  split
  · exact onlyParts.rfl'
  try dsimp only
  refine onlyParts.after (State.updJob_only ..) rfl ?_
  refine onlyParts.foldl ?_ (fun _ _ h1 => ?_)
  · refine onlyParts.set_fab ?_ rfl
    refine onlyParts.after (State.takeStage_only ..) rfl ?_
    exact onlyParts.rfl'
  · try dsimp only
    refine onlyParts.after (State.ownCache_only ..) rfl ?_
    exact h1

theorem State.abandonOps_only (s : Sys2Proof.Machine.State) (jid : ℕ) : onlyParts [.sv, .fab, .ctr] s (State.abandonOps s jid) := by
  unfold State.abandonOps
  try dsimp only
  refine onlyParts.ite ?_ (fun h1 => ?_)
  · refine onlyParts.after (State.bumpGen_only ..) rfl ?_
    refine onlyParts.after (State.updJob_only ..) rfl ?_
    refine onlyParts.set_fab ?_ rfl
    exact onlyParts.rfl'
  · exact onlyParts.rfl'

theorem execPreemptHoldExpiry_only {jid : ℕ} {s : Sys2Proof.Machine.State} {t0 : State} (e0 : execPreemptHoldExpiry jid s = .next t0) : onlyParts [.sv, .fab, .ctr] s t0 := by
  unfold execPreemptHoldExpiry at e0
  injection e0 with e0
  rw [← e0]
  clear e0
  try dsimp only
  split
  · exact onlyParts.rfl'
  try dsimp only
  refine onlyParts.ite .rfl' (fun h1 => ?_)
  refine onlyParts.after (State.abandonOps_only ..) rfl ?_
  exact h1

theorem State.commitBytes_only (s : Sys2Proof.Machine.State) (oid : ℕ) (cells : Sys2Proof.Mem) (pois : List (ℕ × ℕ)) : onlyParts [.mem, .marks, .flaws, .pool, .quads, .ctr] s (State.commitBytes s oid cells pois) := by
  unfold State.commitBytes
  try dsimp only
  split
  · try dsimp only
    refine onlyParts.after (State.commitPlacing_only ..) rfl ?_
    exact onlyParts.rfl'
  · exact onlyParts.rfl'

theorem State.strikeLocal_only (s : Sys2Proof.Machine.State) (jid : ℕ) : onlyParts [.mem, .marks, .flaws, .pool, .quads, .sv, .fab, .ctr] s (State.strikeLocal s jid) := by
  unfold State.strikeLocal
  try dsimp only
  split
  · exact onlyParts.rfl'
  try dsimp only
  split
  · try dsimp only
    refine onlyParts.after (State.commitBytes_only ..) rfl ?_
    refine onlyParts.foldl ?_ (fun _ _ h1 => ?_)
    · refine onlyParts.set_quads_fab ?_ rfl
      refine onlyParts.after (State.updJob_only ..) rfl ?_
      exact onlyParts.rfl'
    · try dsimp only
      · try dsimp only
        refine onlyParts.after (State.commitBytes_only ..) rfl ?_
        exact h1
  · try dsimp only
    refine onlyParts.foldl ?_ (fun _ _ h2 => ?_)
    · refine onlyParts.set_quads_fab ?_ rfl
      refine onlyParts.after (State.updJob_only ..) rfl ?_
      exact onlyParts.rfl'
    · try dsimp only
      · try dsimp only
        refine onlyParts.after (State.commitBytes_only ..) rfl ?_
        exact h2

theorem execJobRecordCommit_only {jid : ℕ} {s : Sys2Proof.Machine.State} {t0 : State} (e0 : execJobRecordCommit jid s = .next t0) : onlyParts [.fns, .mem, .marks, .flaws, .hostMem, .pool, .quads, .sv, .fab, .mg, .ctr] s t0 := by
  unfold execJobRecordCommit at e0
  injection e0 with e0
  rw [← e0]
  clear e0
  try dsimp only
  split
  · exact onlyParts.rfl'
  try dsimp only
  refine onlyParts.ite ?_ (fun h1 => ?_)
  · refine onlyParts.ite ?_ (fun h2 => ?_)
    · refine onlyParts.after (State.settleCloses_only ..) rfl ?_
      refine onlyParts.ite ?_ (fun h3 => ?_)
      · refine onlyParts.after (State.completeOpt_only ..) rfl ?_
        refine onlyParts.after (State.updClient_only ..) rfl ?_
        refine onlyParts.after (State.updJob_only ..) rfl ?_
        refine onlyParts.after (State.jobTo_only ..) rfl ?_
        refine onlyParts.after (State.strikeLocal_only ..) rfl ?_
        exact onlyParts.rfl'
      · refine onlyParts.after (State.endJob_only ..) rfl ?_
        exact h3
    · refine onlyParts.after (State.tell_only ..) rfl ?_
      refine onlyParts.after (State.updClient_only ..) rfl ?_
      refine onlyParts.after (State.updJob_only ..) rfl ?_
      refine onlyParts.after (State.jobTo_only ..) rfl ?_
      refine onlyParts.after (State.strikeLocal_only ..) rfl ?_
      exact onlyParts.rfl'
  · exact onlyParts.rfl'

theorem State.setQuad_only (s : Sys2Proof.Machine.State) (j : Sys2Proof.Machine.Job) (q : ℕ) : onlyParts [.mem, .marks, .flaws, .quads] s (State.setQuad s j q) := by
  unfold State.setQuad
  try dsimp only
  split
  · try dsimp only
    split
    · try dsimp only
      refine onlyParts.after (State.updQuad_only ..) rfl ?_
      exact onlyParts.rfl'
    · exact onlyParts.rfl'
  · try dsimp only
    · try dsimp only
      · try dsimp only
        refine onlyParts.after (State.fill_only ..) rfl ?_
        refine onlyParts.after (State.fill_only ..) rfl ?_
        split
        · try dsimp only
          refine onlyParts.after (State.updQuad_only ..) rfl ?_
          exact onlyParts.rfl'
        · exact onlyParts.rfl'

theorem State.setLocal_only (s : Sys2Proof.Machine.State) (jid : ℕ) (gen : ℕ) : onlyParts [.fns, .mem, .marks, .flaws, .pool, .quads, .sv, .mg, .ctr] s (State.setLocal s jid gen) := by
  unfold State.setLocal
  try dsimp only
  split
  · exact onlyParts.rfl'
  try dsimp only
  split
  · try dsimp only
    refine onlyParts.ite ?_ (fun h1 => ?_)
    · refine onlyParts.foldl ?_ (fun _ _ h4 => ?_)
      · refine onlyParts.foldl ?_ (fun _ _ h2 => ?_)
        · refine onlyParts.after (State.updJob_only ..) rfl ?_
          refine onlyParts.after (State.jobTo_only ..) rfl ?_
          exact onlyParts.rfl'
        · try dsimp only
          refine onlyParts.ite ?_ (fun h3 => ?_)
          · refine onlyParts.after (State.hold_only ..) rfl ?_
            exact h2
          · exact h2
      · try dsimp only
        refine onlyParts.after (State.setQuad_only ..) rfl ?_
        exact h4
    · refine onlyParts.after (State.startResident_only ..) rfl ?_
      exact h1
  · try dsimp only
    refine onlyParts.foldl ?_ (fun _ _ h7 => ?_)
    · refine onlyParts.foldl ?_ (fun _ _ h5 => ?_)
      · refine onlyParts.after (State.updJob_only ..) rfl ?_
        refine onlyParts.after (State.jobTo_only ..) rfl ?_
        exact onlyParts.rfl'
      · try dsimp only
        refine onlyParts.ite ?_ (fun h6 => ?_)
        · refine onlyParts.after (State.hold_only ..) rfl ?_
          exact h5
        · exact h5
    · try dsimp only
      refine onlyParts.after (State.setQuad_only ..) rfl ?_
      exact h7

theorem execSet_only {jid : ℕ} {s : Sys2Proof.Machine.State} {t0 : State} (e0 : execSet jid s = .next t0) : onlyParts [.pw, .fns, .mem, .marks, .flaws, .pool, .quads, .sv, .fab, .mg, .ctr] s t0 := by
  unfold execSet at e0
  injection e0 with e0
  rw [← e0]
  clear e0
  try dsimp only
  split
  · exact onlyParts.rfl'
  try dsimp only
  refine onlyParts.ite ?_ (fun h1 => ?_)
  · refine onlyParts.ite ?_ (fun h2 => ?_)
    · refine onlyParts.after (State.setLocal_only ..) rfl ?_
      refine onlyParts.ite ?_ (fun h3 => ?_)
      · refine onlyParts.after (State.bumpGen_only ..) rfl ?_
        exact onlyParts.rfl'
      · refine onlyParts.after (State.tellMembers_only ..) rfl ?_
        exact h3
    · refine onlyParts.foldl (onlyParts.rfl') (fun _ _ h4 => ?_)
      try dsimp only
      refine onlyParts.after (State.wake_only ..) rfl ?_
      exact h4
  · exact onlyParts.rfl'

theorem State.requeue_only (s : Sys2Proof.Machine.State) (jid : ℕ) (imgs : List (ℕ × Sys2Proof.Machine.Quad)) : onlyParts [.quads] s (State.requeue s jid imgs) := by
  unfold State.requeue
  try dsimp only
  refine onlyParts.foldl (onlyParts.rfl') (fun _ _ h1 => ?_)
  try dsimp only
  · try dsimp only
    refine onlyParts.after (State.updQuad_only ..) rfl ?_
    exact h1

theorem State.requeueX_only (s : Sys2Proof.Machine.State) (es : List Sys2Proof.Machine.XEnt) : onlyParts [.fab] s (State.requeueX s es) := by
  unfold State.requeueX
  try dsimp only
  refine onlyParts.set_fab ?_ rfl
  refine onlyParts.foldl (onlyParts.rfl') (fun _ _ h1 => ?_)
  try dsimp only
  refine onlyParts.set_fab ?_ rfl
  exact h1

theorem State.finishSet_only (s : Sys2Proof.Machine.State) (j : Sys2Proof.Machine.Job) : onlyParts [.pool, .quads, .sv, .fab] s (State.finishSet s j) := by
  unfold State.finishSet
  try dsimp only
  refine onlyParts.after (State.toCompose_only ..) rfl ?_
  refine onlyParts.after (State.jobTo_only ..) rfl ?_
  refine onlyParts.after (State.updJob_only ..) rfl ?_
  refine onlyParts.after (State.dropImages_only ..) rfl ?_
  refine onlyParts.after (State.unholdAll_only ..) rfl ?_
  refine onlyParts.after (State.requeueX_only ..) rfl ?_
  refine onlyParts.after (State.requeue_only ..) rfl ?_
  refine onlyParts.set_fab ?_ rfl
  exact onlyParts.rfl'

theorem execSetComplete_only {jid : ℕ} {s : Sys2Proof.Machine.State} {t0 : State} (e0 : execSetComplete jid s = .next t0) : onlyParts [.fns, .mem, .marks, .flaws, .hostMem, .pool, .quads, .sv, .fab, .mg, .ctr] s t0 := by
  unfold execSetComplete at e0
  injection e0 with e0
  rw [← e0]
  clear e0
  try dsimp only
  split
  · exact onlyParts.rfl'
  try dsimp only
  refine onlyParts.ite ?_ (fun h1 => ?_)
  · refine onlyParts.ite ?_ (fun h2 => ?_)
    · refine onlyParts.ite ?_ (fun h3 => ?_)
      · refine onlyParts.ite ?_ (fun h4 => ?_)
        · refine onlyParts.after (State.completeOpt_only ..) rfl ?_
          refine onlyParts.after (State.finishSet_only ..) rfl ?_
          exact onlyParts.rfl'
        · refine onlyParts.after (State.tellMembers_only ..) rfl ?_
          exact h4
      · refine onlyParts.after (State.holdJob_only ..) rfl ?_
        exact h3
    · refine onlyParts.after (State.endJob_only ..) rfl ?_
      refine onlyParts.ite ?_ (fun h5 => ?_)
      · refine onlyParts.after (State.completeOpt_only ..) rfl ?_
        refine onlyParts.after (State.finishSet_only ..) rfl ?_
        exact onlyParts.rfl'
      · refine onlyParts.after (State.tellMembers_only ..) rfl ?_
        exact h5
  · exact onlyParts.rfl'

/-! ### Machine/Ports.lean -/

theorem State.leaveUp_only (s : Sys2Proof.Machine.State) (p : ℕ) (st : Sys2Proof.Machine.PortSt) : onlyParts [.bt, .fns, .fab, .mg, .ctr] s (State.leaveUp s p st) := by
  unfold State.leaveUp
  try dsimp only
  refine onlyParts.after (State.setRdy_only ..) rfl ?_
  refine onlyParts.after (State.updPort_only ..) rfl ?_
  exact onlyParts.rfl'

theorem State.endLoans_only (s : Sys2Proof.Machine.State) (lost : ℕ → Bool) : onlyParts [.pool] s (State.endLoans s lost) := by
  unfold State.endLoans
  try dsimp only
  refine onlyParts.set_pool ?_ rfl
  exact onlyParts.rfl'

theorem State.lossEvent_only (s : Sys2Proof.Machine.State) (p : ℕ) : onlyParts [.fns, .mg, .ctr] s (State.lossEvent s p) := by
  unfold State.lossEvent
  try dsimp only
  refine onlyParts.after (State.raise_only ..) rfl ?_
  exact onlyParts.rfl'

theorem State.portDown_only (s : Sys2Proof.Machine.State) (p : ℕ) : onlyParts [.bt, .fns, .pool, .fab, .mg, .ctr] s (State.portDown s p) := by
  unfold State.portDown
  try dsimp only
  refine onlyParts.after (State.endLoans_only ..) rfl ?_
  refine onlyParts.foldl ?_ (fun _ _ h1 => ?_)
  · refine onlyParts.after (State.bump_only ..) rfl ?_
    refine onlyParts.after (State.lossEvent_only ..) rfl ?_
    refine onlyParts.after (State.updPort_only ..) rfl ?_
    refine onlyParts.after (State.leaveUp_only ..) rfl ?_
    exact onlyParts.rfl'
  · try dsimp only
    split
    · try dsimp only
      refine onlyParts.after (State.emit_only ..) rfl ?_
      exact h1
    · try dsimp only
      exact h1

theorem State.sendWaiting_only (s : Sys2Proof.Machine.State) (p : ℕ) : onlyParts [.fab, .ctr] s (State.sendWaiting s p) := by
  unfold State.sendWaiting
  try dsimp only
  refine onlyParts.foldl (onlyParts.rfl') (fun _ _ h1 => ?_)
  try dsimp only
  refine onlyParts.ite h1 (fun h2 => ?_)
  refine onlyParts.after (State.emit_only ..) rfl ?_
  refine onlyParts.after (State.bump_only ..) rfl ?_
  refine onlyParts.set_fab ?_ rfl
  exact h2

theorem State.portUp_only (s : Sys2Proof.Machine.State) (p : ℕ) (half : Bool) (peer : Sys2Proof.PeerId) : onlyParts [.bt, .fns, .fab, .mg, .ctr] s (State.portUp s p half peer) := by
  unfold State.portUp
  try dsimp only
  refine onlyParts.after (State.sendWaiting_only ..) rfl ?_
  refine onlyParts.ite ?_ (fun h1 => ?_)
  · refine onlyParts.after (State.setRdy_only ..) rfl ?_
    refine onlyParts.ite ?_ (fun h2 => ?_)
    · refine onlyParts.after (State.updPort_only ..) rfl ?_
      exact onlyParts.rfl'
    · refine onlyParts.after (State.lossEvent_only ..) rfl ?_
      refine onlyParts.after (State.bump_only ..) rfl ?_
      exact h2
  · refine onlyParts.after (State.broadcast_only ..) rfl ?_
    exact h1

theorem State.trainFail_only (s : Sys2Proof.Machine.State) (p : ℕ) : onlyParts [.bt, .fns, .pool, .fab, .mg, .ctr] s (State.trainFail s p) := by
  unfold State.trainFail
  try dsimp only
  refine onlyParts.ite ?_ (fun h1 => ?_)
  · refine onlyParts.after (State.leaveUp_only ..) rfl ?_
    exact onlyParts.rfl'
  · refine onlyParts.after (State.portDown_only ..) rfl ?_
    exact onlyParts.rfl'

theorem execTrainingEnd_only {p : ℕ} {r : Sys2Proof.TrainResult} {peer : Sys2Proof.PeerId} {s : Sys2Proof.Machine.State} {t0 : State} (e0 : execTrainingEnd p r peer s = .next t0) : onlyParts [.bt, .fns, .pool, .fab, .mg, .ctr] s t0 := by
  unfold execTrainingEnd at e0
  injection e0 with e0
  rw [← e0]
  clear e0
  try dsimp only
  refine onlyParts.ite .rfl' (fun h1 => ?_)
  split
  · try dsimp only
    refine onlyParts.after (State.trainFail_only ..) rfl ?_
    refine onlyParts.after (State.updPort_only ..) rfl ?_
    exact h1
  · try dsimp only
    refine onlyParts.ite ?_ (fun h2 => ?_)
    · refine onlyParts.after (State.portUp_only ..) rfl ?_
      refine onlyParts.after (State.updPort_only ..) rfl ?_
      exact h1
    · refine onlyParts.after (State.bump_only ..) rfl ?_
      refine onlyParts.after (State.trainFail_only ..) rfl ?_
      refine onlyParts.after (State.updPort_only ..) rfl ?_
      exact h1

theorem execTrainingRetry_only {p : ℕ} {s : Sys2Proof.Machine.State} {t0 : State} (e0 : execTrainingRetry p s = .next t0) : onlyParts [.fab] s t0 := by
  unfold execTrainingRetry at e0
  injection e0 with e0
  rw [← e0]
  clear e0
  try dsimp only
  refine onlyParts.ite .rfl' (fun h1 => ?_)
  refine onlyParts.after (State.updPort_only ..) rfl ?_
  exact h1

theorem State.retrainPort_only (s : Sys2Proof.Machine.State) (p : ℕ) : onlyParts [.bt, .fns, .fab, .mg, .ctr] s (State.retrainPort s p) := by
  unfold State.retrainPort
  try dsimp only
  refine onlyParts.ite .rfl' (fun h1 => ?_)
  refine onlyParts.after (State.bump_only ..) rfl ?_
  refine onlyParts.after (State.leaveUp_only ..) rfl ?_
  exact h1

theorem execRetrain_only {p : ℕ} {s : Sys2Proof.Machine.State} {t0 : State} (e0 : execRetrain p s = .next t0) : onlyParts [.bt, .fns, .fab, .mg, .ctr] s t0 := by
  unfold execRetrain at e0
  injection e0 with e0
  rw [← e0]
  clear e0
  try dsimp only
  refine onlyParts.ite .rfl' (fun h1 => ?_)
  refine onlyParts.after (State.retrainPort_only ..) rfl ?_
  exact h1

theorem execRetrainTimeout_only {p : ℕ} {s : Sys2Proof.Machine.State} {t0 : State} (e0 : execRetrainTimeout p s = .next t0) : onlyParts [.bt, .fns, .pool, .fab, .mg, .ctr] s t0 := by
  unfold execRetrainTimeout at e0
  injection e0 with e0
  rw [← e0]
  clear e0
  try dsimp only
  refine onlyParts.ite .rfl' (fun h1 => ?_)
  refine onlyParts.after (State.portDown_only ..) rfl ?_
  exact h1

theorem State.flitControl_only (s : Sys2Proof.Machine.State) (p : ℕ) (fl : Sys2Proof.Flit) : onlyParts [.fab, .ctr] s (State.flitControl s p fl) := by
  unfold State.flitControl
  try dsimp only
  refine onlyParts.after (State.sendWaiting_only ..) rfl ?_
  refine onlyParts.ite ?_ (fun h1 => ?_)
  · refine onlyParts.after (State.updPort_only ..) rfl ?_
    exact onlyParts.rfl'
  · refine onlyParts.after (State.bump_only ..) rfl ?_
    exact h1

theorem State.flitData_only (s : Sys2Proof.Machine.State) (p : ℕ) (fl : Sys2Proof.Flit) : onlyParts [.fab, .ctr] s (State.flitData s p fl) := by
  unfold State.flitData
  try dsimp only
  refine onlyParts.ite ?_ (fun h1 => ?_)
  · refine onlyParts.ite .rfl' (fun h2 => ?_)
    refine onlyParts.after (State.updPort_only ..) rfl ?_
    exact h2
  · refine onlyParts.after (State.updPort_only ..) rfl ?_
    refine onlyParts.ite .rfl' (fun h3 => ?_)
    refine onlyParts.after (State.bump_only ..) rfl ?_
    exact h3

theorem execFlitReceive_only {p : ℕ} {fl : Sys2Proof.Flit} {s : Sys2Proof.Machine.State} {t0 : State} (e0 : execFlitReceive p fl s = .next t0) : onlyParts [.fab, .ctr] s t0 := by
  unfold execFlitReceive at e0
  injection e0 with e0
  rw [← e0]
  clear e0
  try dsimp only
  refine onlyParts.ite .rfl' (fun h1 => ?_)
  refine onlyParts.ite ?_ (fun h2 => ?_)
  · refine onlyParts.ite ?_ (fun h3 => ?_)
    · refine onlyParts.after (State.flitControl_only ..) rfl ?_
      refine onlyParts.after (State.bump_only ..) rfl ?_
      exact h1
    · refine onlyParts.after (State.flitData_only ..) rfl ?_
      exact h3
  · refine onlyParts.after (State.bump_only ..) rfl ?_
    refine onlyParts.after (State.updPort_only ..) rfl ?_
    refine onlyParts.after (State.bump_only ..) rfl ?_
    exact h1

/-! ### Machine/XferOps.lean -/

theorem State.xpost_only (s : Sys2Proof.Machine.State) (c : ℕ) (jid : ℕ) : onlyParts [.fns, .mem, .marks, .flaws, .hostMem, .pool, .quads, .sv, .fab, .mg, .ctr] s (State.xpost s c jid) := by
  unfold State.xpost
  try dsimp only
  refine onlyParts.ite ?_ (fun h1 => ?_)
  · refine onlyParts.ite ?_ (fun h2 => ?_)
    · refine onlyParts.set_fab ?_ rfl
      exact onlyParts.rfl'
    · refine onlyParts.after (State.endJob_only ..) rfl ?_
      exact onlyParts.rfl'
  · exact onlyParts.rfl'

theorem State.dropOps_only (s : Sys2Proof.Machine.State) (gone : Sys2Proof.Machine.XOp → Bool) : onlyParts [.fab] s (State.dropOps s gone) := by
  unfold State.dropOps
  try dsimp only
  refine onlyParts.set_fab ?_ rfl
  exact onlyParts.rfl'

theorem State.xdrop_only (s : Sys2Proof.Machine.State) (xq : ℕ) (gone : Sys2Proof.Machine.XEnt → Bool) : onlyParts [.fab] s (State.xdrop s xq gone) := by
  unfold State.xdrop
  try dsimp only
  refine onlyParts.set_fab ?_ rfl
  exact onlyParts.rfl'

theorem State.loanPlaced_only (s : Sys2Proof.Machine.State) (o : Sys2Proof.Machine.XOp) (lines : ℕ) : onlyParts [.fns, .pool, .mg, .ctr] s (State.loanPlaced s o lines) := by
  unfold State.loanPlaced
  try dsimp only
  split
  · exact onlyParts.rfl'
  try dsimp only
  refine onlyParts.ite ?_ (fun h1 => ?_)
  · refine onlyParts.after (State.complete_only ..) rfl ?_
    exact onlyParts.rfl'
  · refine onlyParts.after (State.complete_only ..) rfl ?_
    refine onlyParts.set_pool ?_ rfl
    refine onlyParts.after (State.updTaken_only ..) rfl ?_
    exact onlyParts.rfl'

theorem State.opDone_only (s : Sys2Proof.Machine.State) (o : Sys2Proof.Machine.XOp) (lines : ℕ) : onlyParts [.fns, .mem, .marks, .flaws, .hostMem, .pool, .quads, .sv, .fab, .mg, .ctr] s (State.opDone s o lines) := by
  unfold State.opDone
  try dsimp only
  refine onlyParts.ite ?_ (fun h1 => ?_)
  · refine onlyParts.ite ?_ (fun h2 => ?_)
    · split
      · try dsimp only
        refine onlyParts.after (State.dropOps_only ..) rfl ?_
        exact onlyParts.rfl'
      · try dsimp only
        refine onlyParts.ite ?_ (fun h3 => ?_)
        · refine onlyParts.after (State.xpost_only ..) rfl ?_
          refine onlyParts.after (State.xdrop_only ..) rfl ?_
          refine onlyParts.after (State.dropOps_only ..) rfl ?_
          exact onlyParts.rfl'
        · refine onlyParts.after (State.dropOps_only ..) rfl ?_
          exact onlyParts.rfl'
    · refine onlyParts.after (State.loanPlaced_only ..) rfl ?_
      refine onlyParts.after (State.dropOps_only ..) rfl ?_
      exact onlyParts.rfl'
  · refine onlyParts.ite ?_ (fun h4 => ?_)
    · refine onlyParts.after (State.dropOps_only ..) rfl ?_
      exact onlyParts.rfl'
    · refine onlyParts.set_fab ?_ rfl
      exact h4

theorem State.opFail_only (s : Sys2Proof.Machine.State) (o : Sys2Proof.Machine.XOp) (status : ℕ) : onlyParts [.fns, .mem, .marks, .flaws, .hostMem, .pool, .quads, .sv, .fab, .mg, .ctr] s (State.opFail s o status) := by
  unfold State.opFail
  try dsimp only
  split
  · try dsimp only
    refine onlyParts.after (State.completeAs_only ..) rfl ?_
    refine onlyParts.ite ?_ (fun h1 => ?_)
    · refine onlyParts.after (State.dropOps_only ..) rfl ?_
      exact onlyParts.rfl'
    · refine onlyParts.after (State.bump_only ..) rfl ?_
      exact h1
  · try dsimp only
    refine onlyParts.ite ?_ (fun h2 => ?_)
    · refine onlyParts.after (State.endJob_only ..) rfl ?_
      refine onlyParts.ite ?_ (fun h3 => ?_)
      · refine onlyParts.after (State.dropOps_only ..) rfl ?_
        exact onlyParts.rfl'
      · refine onlyParts.after (State.bump_only ..) rfl ?_
        exact h3
    · refine onlyParts.ite ?_ (fun h4 => ?_)
      · refine onlyParts.after (State.dropOps_only ..) rfl ?_
        exact onlyParts.rfl'
      · refine onlyParts.after (State.bump_only ..) rfl ?_
        exact h4

theorem State.leaveTroupe_only (s : Sys2Proof.Machine.State) : onlyParts [.fab] s (State.leaveTroupe s) := by
  unfold State.leaveTroupe
  try dsimp only
  refine onlyParts.set_fab ?_ rfl
  exact onlyParts.rfl'

theorem State.leadLost_only (s : Sys2Proof.Machine.State) : onlyParts [.fns, .mem, .marks, .flaws, .quads, .sv, .fab, .mg, .ctr] s (State.leadLost s) := by
  unfold State.leadLost
  try dsimp only
  refine onlyParts.after (State.leaveTroupe_only ..) rfl ?_
  refine onlyParts.foldl ?_ (fun _ _ h1 => ?_)
  · refine onlyParts.after (State.lossEvent_only ..) rfl ?_
    exact onlyParts.rfl'
  · try dsimp only
    refine onlyParts.after (State.holdJob_only ..) rfl ?_
    refine onlyParts.after (State.updJob_only ..) rfl ?_
    refine onlyParts.after (State.cutJob_only ..) rfl ?_
    refine onlyParts.after (State.bump_only ..) rfl ?_
    refine onlyParts.after (State.dropOps_only ..) rfl ?_
    exact h1

theorem State.memberLost_only (s : Sys2Proof.Machine.State) (pos : ℕ) : onlyParts [.fns, .mem, .marks, .flaws, .hostMem, .pool, .quads, .sv, .fab, .mg, .ctr] s (State.memberLost s pos) := by
  unfold State.memberLost
  try dsimp only
  refine onlyParts.set_fab ?_ rfl
  refine onlyParts.foldl ?_ (fun _ _ h1 => ?_)
  · refine onlyParts.after (State.lossEvent_only ..) rfl ?_
    exact onlyParts.rfl'
  · try dsimp only
    refine onlyParts.after (State.endJob_only ..) rfl ?_
    refine onlyParts.ite ?_ (fun h2 => ?_)
    · refine onlyParts.after (State.bumpGen_only ..) rfl ?_
      exact h1
    · exact h1

theorem State.lostPeers_only (s : Sys2Proof.Machine.State) : onlyParts [.fns, .mem, .marks, .flaws, .hostMem, .pool, .quads, .sv, .fab, .mg, .ctr] s (State.lostPeers s) := by
  unfold State.lostPeers
  try dsimp only
  split
  · exact onlyParts.rfl'
  · try dsimp only
    refine onlyParts.ite .rfl' (fun h1 => ?_)
    refine onlyParts.after (State.leadLost_only ..) rfl ?_
    exact h1
  · try dsimp only
    refine onlyParts.foldl (onlyParts.rfl') (fun _ _ h2 => ?_)
    try dsimp only
    refine onlyParts.after (State.memberLost_only ..) rfl ?_
    exact h2

theorem execLinkTimeout_only {op : ℕ} {s : Sys2Proof.Machine.State} {t0 : State} (e0 : execLinkTimeout op s = .next t0) : onlyParts [.fns, .mem, .marks, .flaws, .hostMem, .pool, .quads, .sv, .fab, .mg, .ctr] s t0 := by
  unfold execLinkTimeout at e0
  injection e0 with e0
  rw [← e0]
  clear e0
  try dsimp only
  split
  · try dsimp only
    refine onlyParts.ite .rfl' (fun h1 => ?_)
    refine onlyParts.after (State.lostPeers_only ..) rfl ?_
    refine onlyParts.after (State.opFail_only ..) rfl ?_
    exact h1
  · exact onlyParts.rfl'

theorem execCreditTimeout_only {op : ℕ} {s : Sys2Proof.Machine.State} {t0 : State} (e0 : execCreditTimeout op s = .next t0) : onlyParts [.fns, .mem, .marks, .flaws, .hostMem, .pool, .quads, .sv, .fab, .mg, .ctr] s t0 := by
  unfold execCreditTimeout at e0
  injection e0 with e0
  rw [← e0]
  clear e0
  try dsimp only
  split
  · try dsimp only
    split
    · try dsimp only
      refine onlyParts.ite .rfl' (fun h1 => ?_)
      refine onlyParts.after (State.opFail_only ..) rfl ?_
      exact h1
    · exact onlyParts.rfl'
  · exact onlyParts.rfl'

theorem execReduceResend_only {op : ℕ} {s : Sys2Proof.Machine.State} {t0 : State} (e0 : execReduceResend op s = .next t0) : onlyParts [.fns, .mem, .marks, .flaws, .hostMem, .pool, .quads, .sv, .fab, .mg, .ctr] s t0 := by
  unfold execReduceResend at e0
  injection e0 with e0
  rw [← e0]
  clear e0
  try dsimp only
  split
  · try dsimp only
    split
    · try dsimp only
      refine onlyParts.ite .rfl' (fun h1 => ?_)
      split
      · try dsimp only
        refine onlyParts.after (State.emit_only ..) rfl ?_
        refine onlyParts.set_fab ?_ rfl
        exact h1
      · try dsimp only
        refine onlyParts.after (State.opFail_only ..) rfl ?_
        refine onlyParts.after (State.bump_only ..) rfl ?_
        refine onlyParts.set_fab ?_ rfl
        exact h1
    · exact onlyParts.rfl'
  · exact onlyParts.rfl'

theorem State.fenceSelf_only (s : Sys2Proof.Machine.State) : onlyParts [.bt, .fns, .mem, .marks, .flaws, .hostMem, .pool, .quads, .sv, .fab, .mg, .ctr] s (State.fenceSelf s) := by
  unfold State.fenceSelf
  try dsimp only
  refine onlyParts.after (State.raise_only ..) rfl ?_
  refine onlyParts.after (State.setRdy_only ..) rfl ?_
  refine onlyParts.set_fab ?_ rfl
  refine onlyParts.after (State.endLoans_only ..) rfl ?_
  refine onlyParts.foldl ?_ (fun _ _ h2 => ?_)
  · refine onlyParts.after (State.bumpGen_only ..) rfl ?_
    refine onlyParts.foldl ?_ (fun _ _ h1 => ?_)
    · refine onlyParts.after (State.dropOps_only ..) rfl ?_
      refine onlyParts.set_fab ?_ rfl
      exact onlyParts.rfl'
    · try dsimp only
      refine onlyParts.after (State.complete_only ..) rfl ?_
      exact h1
  · try dsimp only
    refine onlyParts.after (State.endJob_only ..) rfl ?_
    exact h2

theorem State.fenceStale_only (s : Sys2Proof.Machine.State) (a : ℕ) (e : ℕ) : onlyParts [.fab, .ctr] s (State.fenceStale s a e) := by
  unfold State.fenceStale
  try dsimp only
  refine onlyParts.ite ?_ (fun h1 => ?_)
  · refine onlyParts.after (State.bump_only ..) rfl ?_
    refine onlyParts.after (State.broadcast_only ..) rfl ?_
    refine onlyParts.set_fab ?_ rfl
    exact onlyParts.rfl'
  · exact onlyParts.rfl'

theorem State.fencePos_only (s : Sys2Proof.Machine.State) (pos : ℕ) (e : ℕ) : onlyParts [.fab, .ctr] s (State.fencePos s pos e) := by
  unfold State.fencePos
  try dsimp only
  refine onlyParts.ite ?_ (fun h1 => ?_)
  · refine onlyParts.after (State.bump_only ..) rfl ?_
    refine onlyParts.after (State.tell_only ..) rfl ?_
    refine onlyParts.set_fab ?_ rfl
    exact onlyParts.rfl'
  · exact onlyParts.rfl'

theorem State.setDir_only (s : Sys2Proof.Machine.State) (a : ℕ) (e : ℕ) : onlyParts [.fns, .mem, .marks, .flaws, .hostMem, .pool, .quads, .sv, .fab, .mg, .ctr] s (State.setDir s a e) := by
  unfold State.setDir
  try dsimp only
  refine onlyParts.ite ?_ (fun h1 => ?_)
  · refine onlyParts.set_fab ?_ rfl
    exact onlyParts.rfl'
  · refine onlyParts.after (State.endLoans_only ..) rfl ?_
    refine onlyParts.foldl (h1) (fun _ _ h2 => ?_)
    try dsimp only
    refine onlyParts.ite h2 (fun h3 => ?_)
    refine onlyParts.after (State.opFail_only ..) rfl ?_
    exact h3

theorem State.learn_only (s : Sys2Proof.Machine.State) (a e : ℕ) (t : Sys2Proof.Machine.State) (h : s.learn a e = some t) :
    onlyParts [.fns, .mem, .marks, .flaws, .hostMem, .pool, .quads, .sv, .fab, .mg, .ctr] s t := by
  unfold State.learn at h
  split at h
  · cases h
  · split at h
    · cases h
      exact State.setDir_only ..
    · split at h
      · cases h
        exact State.setDir_only ..
      · split at h
        · cases h
          exact onlyParts.rfl'
        · cases h

theorem State.screen_only (s : Sys2Proof.Machine.State) (p : ℕ) (m : Sys2Proof.Msg) : onlyParts [.fns, .mem, .marks, .flaws, .hostMem, .pool, .quads, .sv, .fab, .mg, .ctr] s (State.screen s p m).2 := by
  unfold State.screen
  extract_lets s1
  have h1 : onlyParts [.fns, .mem, .marks, .flaws, .hostMem, .pool, .quads, .sv, .fab, .mg, .ctr] s s1 := onlyParts.mono (State.bump_only ..) rfl
  clear_value s1
  split
  · split
    · exact onlyParts.after (State.bump_only ..) rfl h1
    · split
      · exact h1
      · split
        · exact onlyParts.after (State.fencePos_only ..) rfl (onlyParts.after (State.bump_only ..) rfl h1)
        · split
          · exact onlyParts.after (State.bump_only ..) rfl h1
          · exact h1
  · split
    · split
      · exact h1
      · exact onlyParts.after (State.bump_only ..) rfl h1
    · split
      · exact onlyParts.after (State.bump_only ..) rfl h1
      · split
        · exact onlyParts.after (State.tell_only ..) rfl (onlyParts.after (State.bump_only ..) rfl h1)
        · split
          · exact h1
          · split
            · exact onlyParts.after (State.learn_only _ _ _ _ (by assumption)) rfl h1
            · exact onlyParts.after (State.fenceStale_only ..) rfl (onlyParts.after (State.bump_only ..) rfl h1)

theorem State.screen_only' {s : Sys2Proof.Machine.State} {p : ℕ} {m : Sys2Proof.Msg} {t0 : State} {o0 : _} (e0 : State.screen s p m = (o0, t0)) : onlyParts [.fns, .mem, .marks, .flaws, .hostMem, .pool, .quads, .sv, .fab, .mg, .ctr] s t0 := by
  have h := State.screen_only s p m
  rw [e0] at h
  exact h

theorem State.receive_only {A : List Part} {s : Sys2Proof.Machine.State} {p : ℕ} {m : Sys2Proof.Msg} {act : Sys2Proof.Machine.State → Sys2Proof.Machine.State}
    (ha : ∀ u, onlyParts A u (act u)) (hA : partsIn [.fns, .mem, .marks, .flaws, .hostMem, .pool, .quads, .sv, .fab, .mg, .ctr] A = true) : onlyParts A s (State.receive s p m act) := by
  have hs : ∀ u : Sys2Proof.Machine.State, onlyParts A u (u.screen p m).2 := fun u => onlyParts.mono (B := [.fns, .mem, .marks, .flaws, .hostMem, .pool, .quads, .sv, .fab, .mg, .ctr]) (onlyParts.mono (State.screen_only ..) rfl) hA
  unfold State.receive
  dsimp only
  split
  · exact onlyParts.rfl'
  split
  · exact onlyParts.mono (B := [.fns, .mem, .marks, .flaws, .hostMem, .pool, .quads, .sv, .fab, .mg, .ctr]) (onlyParts.set_fab onlyParts.rfl' rfl) hA
  · split
    · exact ⟨fun q hq => Part.same_trans ((hs s).same q hq) ((ha _).same q hq)⟩
    · exact hs s

/-! ### Machine/Messages.lean -/

theorem State.readTier0_only (s : Sys2Proof.Machine.State) (a : ℕ) (n : ℕ) : onlyParts [.quads, .ctr] s (State.readTier0 s a n).2 := by
  unfold State.readTier0
  try dsimp only
  split
  · try dsimp only
    refine onlyParts.after (State.engineTake_only ..) rfl ?_
    exact onlyParts.rfl'
  · try dsimp only
    refine onlyParts.after (State.holeAccess_only ..) rfl ?_
    exact onlyParts.rfl'

theorem State.readTier0_only' {s : Sys2Proof.Machine.State} {a : ℕ} {n : ℕ} {t0 : State} {o0 : _} (e0 : State.readTier0 s a n = (o0, t0)) : onlyParts [.quads, .ctr] s t0 := by
  have h := State.readTier0_only s a n
  rw [e0] at h
  exact h

theorem State.writeTier0_only (s : Sys2Proof.Machine.State) (a : ℕ) (bs : List Sys2Proof.Byte) (pois : List (ℕ × ℕ)) : onlyParts [.mem, .marks, .flaws, .quads, .ctr] s (State.writeTier0 s a bs pois) := by
  unfold State.writeTier0
  try dsimp only
  refine onlyParts.ite ?_ (fun h1 => ?_)
  · refine onlyParts.after (State.holeAccess_only ..) rfl ?_
    exact onlyParts.rfl'
  · refine onlyParts.after (State.devPut_only ..) rfl ?_
    refine onlyParts.after (State.engineTake_only ..) rfl ?_
    exact onlyParts.rfl'

theorem State.putMsg_only (s : Sys2Proof.Machine.State) (m : Sys2Proof.Msg) : onlyParts [.fns, .mem, .marks, .flaws, .hostMem, .pool, .quads, .sv, .fab, .mg, .ctr] s (State.putMsg s m) := by
  unfold State.putMsg
  try dsimp only
  refine onlyParts.ite ?_ (fun h1 => ?_)
  · refine onlyParts.ite ?_ (fun h2 => ?_)
    · refine onlyParts.after (State.ackMsg_only ..) rfl ?_
      refine onlyParts.after (State.xpost_only ..) rfl ?_
      refine onlyParts.after (State.writeTier0_only ..) rfl ?_
      exact onlyParts.rfl'
    · refine onlyParts.after (State.errMsg_only ..) rfl ?_
      exact onlyParts.rfl'
  · refine onlyParts.after (State.errMsg_only ..) rfl ?_
    exact onlyParts.rfl'

theorem State.readRec_only (s : Sys2Proof.Machine.State) (r : Sys2Proof.Machine.Rec) (off : ℕ) (n : ℕ) : onlyParts [.quads, .ctr] s (State.readRec s r off n).2 := by
  unfold State.readRec
  try dsimp only
  · try dsimp only
    refine onlyParts.after (State.noteReads_only ..) rfl ?_
    exact onlyParts.rfl'

theorem State.readRec_only' {s : Sys2Proof.Machine.State} {r : Sys2Proof.Machine.Rec} {off : ℕ} {n : ℕ} {t0 : State} {o0 : _} (e0 : State.readRec s r off n = (o0, t0)) : onlyParts [.quads, .ctr] s t0 := by
  have h := State.readRec_only s r off n
  rw [e0] at h
  exact h

theorem State.setRedn_only (s : Sys2Proof.Machine.State) (r : Sys2Proof.Machine.Redn) : onlyParts [.fab] s (State.setRedn s r) := by
  unfold State.setRedn
  try dsimp only
  refine onlyParts.set_fab ?_ rfl
  exact onlyParts.rfl'

theorem State.applyRed_only (s : Sys2Proof.Machine.State) (m : Sys2Proof.Msg) : onlyParts [.fns, .mem, .marks, .flaws, .hostMem, .pool, .quads, .sv, .fab, .mg, .ctr] s (State.applyRed s m) := by
  unfold State.applyRed
  try dsimp only
  refine onlyParts.after (State.ackMsg_only ..) rfl ?_
  refine onlyParts.ite ?_ (fun h1 => ?_)
  · refine onlyParts.set_mem_marks ?_ rfl
    refine onlyParts.after (State.engineTake_only ..) rfl ?_
    exact onlyParts.rfl'
  · refine onlyParts.after (State.xpost_only ..) rfl ?_
    exact h1

theorem State.updGiven_only (s : Sys2Proof.Machine.State) (id : ℕ) (g : Sys2Proof.Machine.LoanGiven → Sys2Proof.Machine.LoanGiven) : onlyParts [.pool] s (State.updGiven s id g) := by
  unfold State.updGiven
  try dsimp only
  refine onlyParts.set_pool ?_ rfl
  exact onlyParts.rfl'

theorem State.reserveBlocks_only (s : Sys2Proof.Machine.State) (g : Sys2Proof.Machine.LoanGiven) (q : ℕ) (ext : List (ℕ × ℕ)) : onlyParts [.pool] s (State.reserveBlocks s g q ext) := by
  unfold State.reserveBlocks
  try dsimp only
  refine onlyParts.set_pool ?_ rfl
  exact onlyParts.rfl'

theorem State.giveBack_only (s : Sys2Proof.Machine.State) (g : Sys2Proof.Machine.LoanGiven) (r : Sys2Proof.Machine.Rec) : onlyParts [.pool] s (State.giveBack s g r) := by
  unfold State.giveBack
  try dsimp only
  refine onlyParts.after (State.updGiven_only ..) rfl ?_
  refine onlyParts.after (State.reserveBlocks_only ..) rfl ?_
  refine onlyParts.set_pool ?_ rfl
  exact onlyParts.rfl'

theorem State.loanSpace_only (s : Sys2Proof.Machine.State) (g : Sys2Proof.Machine.LoanGiven) (q : ℕ) (len : ℕ) : onlyParts [.pool, .ctr] s (State.loanSpace s g q len).2 := by
  unfold State.loanSpace
  try dsimp only
  split
  · try dsimp only
    refine onlyParts.after (State.reserveBlocks_only ..) rfl ?_
    refine onlyParts.after (State.allocEvict_only' (by assumption)) rfl ?_
    refine onlyParts.set_pool ?_ rfl
    exact onlyParts.rfl'
  · try dsimp only
    refine onlyParts.set_pool ?_ rfl
    refine onlyParts.after (State.allocEvict_only' (by assumption)) rfl ?_
    refine onlyParts.set_pool ?_ rfl
    exact onlyParts.rfl'

theorem State.loanSpace_only' {s : Sys2Proof.Machine.State} {g : Sys2Proof.Machine.LoanGiven} {q : ℕ} {len : ℕ} {t0 : State} {o0 : _} (e0 : State.loanSpace s g q len = (o0, t0)) : onlyParts [.pool, .ctr] s t0 := by
  have h := State.loanSpace_only s g q len
  rw [e0] at h
  exact h

theorem State.borrowMsg_only (s : Sys2Proof.Machine.State) (m : Sys2Proof.Msg) : onlyParts [.pool, .fab, .ctr] s (State.borrowMsg s m) := by
  unfold State.borrowMsg
  try dsimp only
  split
  · try dsimp only
    refine onlyParts.after (State.errMsg_only ..) rfl ?_
    exact onlyParts.rfl'
  · try dsimp only
    refine onlyParts.after (State.reply_only ..) rfl ?_
    refine onlyParts.set_pool ?_ rfl
    exact onlyParts.rfl'

theorem State.renewMsg_only (s : Sys2Proof.Machine.State) (m : Sys2Proof.Msg) : onlyParts [.pool, .fab, .ctr] s (State.renewMsg s m) := by
  unfold State.renewMsg
  try dsimp only
  split
  · try dsimp only
    refine onlyParts.after (State.errMsg_only ..) rfl ?_
    exact onlyParts.rfl'
  · try dsimp only
    refine onlyParts.after (State.reply_only ..) rfl ?_
    refine onlyParts.set_pool ?_ rfl
    exact onlyParts.rfl'

theorem State.dispatchRecMsg_only (s : Sys2Proof.Machine.State) (m : Sys2Proof.Msg) : onlyParts [.fns, .mem, .marks, .flaws, .hostMem, .pool, .quads, .sv, .fab, .mg, .ctr] s (State.dispatchRecMsg s m) := by
  unfold State.dispatchRecMsg
  try dsimp only
  refine onlyParts.ite ?_ (fun h1 => ?_)
  · refine onlyParts.after (State.goOn_only ..) rfl ?_
    refine onlyParts.after (State.ackMsg_only ..) rfl ?_
    refine onlyParts.after (State.recordIn_only ..) rfl ?_
    exact onlyParts.rfl'
  · refine onlyParts.after (State.errMsg_only ..) rfl ?_
    exact onlyParts.rfl'

theorem State.dispatchEndMsg_only (s : Sys2Proof.Machine.State) (m : Sys2Proof.Msg) : onlyParts [.fns, .mem, .marks, .flaws, .hostMem, .pool, .quads, .sv, .fab, .mg, .ctr] s (State.dispatchEndMsg s m) := by
  unfold State.dispatchEndMsg
  try dsimp only
  refine onlyParts.ite ?_ (fun h1 => ?_)
  · refine onlyParts.after (State.goOn_only ..) rfl ?_
    refine onlyParts.after (State.ackMsg_only ..) rfl ?_
    refine onlyParts.after (State.endIn_only ..) rfl ?_
    exact onlyParts.rfl'
  · refine onlyParts.after (State.errMsg_only ..) rfl ?_
    exact onlyParts.rfl'

theorem State.dispatchAnsMsg_only (s : Sys2Proof.Machine.State) (m : Sys2Proof.Msg) : onlyParts [.fns, .mem, .marks, .flaws, .hostMem, .pool, .quads, .sv, .fab, .mg, .ctr] s (State.dispatchAnsMsg s m) := by
  unfold State.dispatchAnsMsg
  try dsimp only
  refine onlyParts.ite ?_ (fun h1 => ?_)
  · refine onlyParts.after (State.goOn_only ..) rfl ?_
    refine onlyParts.after (State.ackMsg_only ..) rfl ?_
    refine onlyParts.ite ?_ (fun h2 => ?_)
    · refine onlyParts.after (State.answerIn_only ..) rfl ?_
      exact onlyParts.rfl'
    · refine onlyParts.after (State.xpost_only ..) rfl ?_
      exact h2
  · refine onlyParts.after (State.errMsg_only ..) rfl ?_
    exact onlyParts.rfl'

theorem State.onReply_only {A : List Part} {s : Sys2Proof.Machine.State} {m : Sys2Proof.Msg} {act : Sys2Proof.Machine.XOp → Sys2Proof.Machine.State → Sys2Proof.Machine.State}
    (ha : ∀ o u, onlyParts A u (act o u)) (hA : partsIn [.ctr] A = true) : onlyParts A s (State.onReply s m act) := by
  unfold State.onReply
  split
  · exact ha _ _
  · exact onlyParts.mono (State.bump_only ..) hA

theorem State.fetchReply_only (s : Sys2Proof.Machine.State) (o : Sys2Proof.Machine.XOp) (f : ℕ × ℕ × ℕ) (m : Sys2Proof.Msg) (ls : List Sys2Proof.Machine.Line) : onlyParts [.quads, .fab, .ctr] s (State.fetchReply s o f m ls) := by
  unfold State.fetchReply
  try dsimp only
  · try dsimp only
    split
    · try dsimp only
      refine onlyParts.ite ?_ (fun h1 => ?_)
      · refine onlyParts.after (State.staleReply_only ..) rfl ?_
        refine onlyParts.after (State.dropOps_only ..) rfl ?_
        exact onlyParts.rfl'
      · refine onlyParts.after (State.setShard_only ..) rfl ?_
        refine onlyParts.after (State.dropOps_only ..) rfl ?_
        exact onlyParts.rfl'
    · try dsimp only
      refine onlyParts.after (State.staleReply_only ..) rfl ?_
      refine onlyParts.after (State.dropOps_only ..) rfl ?_
      exact onlyParts.rfl'

theorem State.answerAnn_only (s : Sys2Proof.Machine.State) (a : ℕ) : onlyParts [.fab, .ctr] s (State.answerAnn s a) := by
  unfold State.answerAnn
  try dsimp only
  refine onlyParts.ite ?_ (fun h1 => ?_)
  · refine onlyParts.after (State.tell_only ..) rfl ?_
    refine onlyParts.set_fab ?_ rfl
    exact onlyParts.rfl'
  · exact onlyParts.rfl'

theorem State.withdrawn_only (s : Sys2Proof.Machine.State) (p : ℕ) (m : Sys2Proof.Msg) : onlyParts [.fns, .mem, .marks, .flaws, .hostMem, .pool, .quads, .sv, .fab, .mg, .ctr] s (State.withdrawn s p m) := by
  unfold State.withdrawn
  try dsimp only
  refine onlyParts.ite .rfl' (fun h1 => ?_)
  refine onlyParts.after (State.endLoans_only ..) rfl ?_
  refine onlyParts.foldl ?_ (fun _ _ h2 => ?_)
  · refine onlyParts.set_fab ?_ rfl
    refine onlyParts.after (State.lossEvent_only ..) rfl ?_
    exact h1
  · try dsimp only
    refine onlyParts.ite h2 (fun h3 => ?_)
    refine onlyParts.after (State.opFail_only ..) rfl ?_
    exact h3

theorem State.fenced_only (s : Sys2Proof.Machine.State) (m : Sys2Proof.Msg) : onlyParts [.bt, .fns, .mem, .marks, .flaws, .hostMem, .pool, .quads, .sv, .fab, .mg, .ctr] s (State.fenced s m) := by
  unfold State.fenced
  try dsimp only
  refine onlyParts.ite ?_ (fun h1 => ?_)
  · refine onlyParts.ite .rfl' (fun h2 => ?_)
    refine onlyParts.after (State.fenceSelf_only ..) rfl ?_
    exact h2
  · refine onlyParts.ite .rfl' (fun h3 => ?_)
    refine onlyParts.after (State.leadLost_only ..) rfl ?_
    exact h3

theorem State.recalled_only (s : Sys2Proof.Machine.State) (m : Sys2Proof.Msg) : onlyParts [.pool] s (State.recalled s m) := by
  unfold State.recalled
  try dsimp only
  refine onlyParts.ite .rfl' (fun h1 => ?_)
  refine onlyParts.after (State.endTaken_only ..) rfl ?_
  exact h1

/-! ### Machine/Flash.lean -/

theorem State.queuePage_only (s : Sys2Proof.Machine.State) (page : List Sys2Proof.Byte) (slot : Option (ℕ × ℕ)) (val : ℕ) : onlyParts [.bt] s (State.queuePage s page slot val) := by
  unfold State.queuePage
  try dsimp only
  refine onlyParts.set_bt ?_ rfl
  exact onlyParts.rfl'

theorem State.queueSettings_only (s : Sys2Proof.Machine.State) (slot : Option (ℕ × ℕ)) (val : ℕ) (g : Sys2Proof.Machine.Settings → Sys2Proof.Machine.Settings) : onlyParts [.bt] s (State.queueSettings s slot val g) := by
  unfold State.queueSettings
  try dsimp only
  refine onlyParts.after (State.queuePage_only ..) rfl ?_
  exact onlyParts.rfl'

theorem State.calReadRule_only (p : Sys2Proof.Machine.Pkt) (s : Sys2Proof.Machine.State) : onlyParts [.hostMem, .ctr] s (State.calReadRule p s).1 := by
  unfold State.calReadRule
  try dsimp only
  iterate 2
    split
    · exact onlyParts.rfl'
  try dsimp only
  refine onlyParts.after (State.report_only ..) rfl ?_
  exact onlyParts.rfl'

theorem State.calReadRule_only' {p : Sys2Proof.Machine.Pkt} {s : Sys2Proof.Machine.State} {t0 : State} {o0 : _} (e0 : State.calReadRule p s = (t0, o0)) : onlyParts [.hostMem, .ctr] s t0 := by
  have h := State.calReadRule_only p s
  rw [e0] at h
  exact h

theorem execCalibrationRead_only {f : ℕ} {slot : ℕ} {s : Sys2Proof.Machine.State} {t0 : State} (e0 : execCalibrationRead f slot s = .next t0) : onlyParts [.pw, .fns, .hostMem, .mg, .ctr] s t0 := by
  unfold execCalibrationRead at e0
  injection e0 with e0
  rw [← e0]
  exact State.command_only (fun _ _ => onlyParts.mono (State.calReadRule_only ..) rfl) rfl

theorem State.queueCal_only (s : Sys2Proof.Machine.State) (page : List Sys2Proof.Byte) (slot : Option (ℕ × ℕ)) : onlyParts [.bt] s (State.queueCal s page slot) := by
  unfold State.queueCal
  try dsimp only
  refine onlyParts.set_bt ?_ rfl
  exact onlyParts.rfl'

theorem execCalibrationProgram_only {s : Sys2Proof.Machine.State} {t0 : State} (e0 : execCalibrationProgram s = .next t0) : onlyParts [.bt] s t0 := by
  unfold execCalibrationProgram at e0
  injection e0 with e0
  rw [← e0]
  clear e0
  try dsimp only
  refine onlyParts.ite .rfl' (fun h1 => ?_)
  refine onlyParts.set_bt ?_ rfl
  exact h1

theorem execFlashOperationComplete_only {s : Sys2Proof.Machine.State} {t0 : State} (e0 : execFlashOperationComplete s = .next t0) : onlyParts [.bt, .fns, .mg, .ctr] s t0 := by
  unfold execFlashOperationComplete at e0
  injection e0 with e0
  rw [← e0]
  clear e0
  try dsimp only
  split
  · exact onlyParts.rfl'
  try dsimp only
  refine onlyParts.ite ?_ (fun h1 => ?_)
  · refine onlyParts.after (State.completeOpt_only ..) rfl ?_
    refine onlyParts.set_bt ?_ rfl
    exact onlyParts.rfl'
  · exact onlyParts.rfl'

/-! ### Machine/Troupe.lean -/

theorem State.linkPlanRule_only (p : Sys2Proof.Machine.Pkt) (s : Sys2Proof.Machine.State) : onlyParts [.bt] s (State.linkPlanRule p s).1 := by
  unfold State.linkPlanRule
  try dsimp only
  split
  · exact onlyParts.rfl'
  try dsimp only
  refine onlyParts.after (State.queueSettings_only ..) rfl ?_
  exact onlyParts.rfl'

theorem State.linkPlanRule_only' {p : Sys2Proof.Machine.Pkt} {s : Sys2Proof.Machine.State} {t0 : State} {o0 : _} (e0 : State.linkPlanRule p s = (t0, o0)) : onlyParts [.bt] s t0 := by
  have h := State.linkPlanRule_only p s
  rw [e0] at h
  exact h

theorem execLinkPlan_only {f : ℕ} {slot : ℕ} {s : Sys2Proof.Machine.State} {t0 : State} (e0 : execLinkPlan f slot s = .next t0) : onlyParts [.pw, .bt, .fns, .mg, .ctr] s t0 := by
  unfold execLinkPlan at e0
  injection e0 with e0
  rw [← e0]
  exact State.command_only (fun _ _ => onlyParts.mono (State.linkPlanRule_only ..) rfl) rfl

theorem State.discoverRule_only (p : Sys2Proof.Machine.Pkt) (s : Sys2Proof.Machine.State) : onlyParts [.bt, .fns, .pool, .fab, .mg, .ctr] s (State.discoverRule p s).1 := by
  unfold State.discoverRule
  try dsimp only
  iterate 4
    split
    · exact onlyParts.rfl'
  try dsimp only
  refine onlyParts.after (State.broadcast_only ..) rfl ?_
  refine onlyParts.ite ?_ (fun h1 => ?_)
  · refine onlyParts.set_fab ?_ rfl
    refine onlyParts.after (State.endLoans_only ..) rfl ?_
    exact onlyParts.rfl'
  · refine onlyParts.after (State.setRdy_only ..) rfl ?_
    exact h1

theorem State.discoverRule_only' {p : Sys2Proof.Machine.Pkt} {s : Sys2Proof.Machine.State} {t0 : State} {o0 : _} (e0 : State.discoverRule p s = (t0, o0)) : onlyParts [.bt, .fns, .pool, .fab, .mg, .ctr] s t0 := by
  have h := State.discoverRule_only p s
  rw [e0] at h
  exact h

theorem execDiscover_only {f : ℕ} {slot : ℕ} {s : Sys2Proof.Machine.State} {t0 : State} (e0 : execDiscover f slot s = .next t0) : onlyParts [.pw, .bt, .fns, .pool, .fab, .mg, .ctr] s t0 := by
  unfold execDiscover at e0
  injection e0 with e0
  rw [← e0]
  exact State.command_only (fun _ _ => onlyParts.mono (State.discoverRule_only ..) rfl) rfl

theorem State.closePort_only (s : Sys2Proof.Machine.State) (p : ℕ) : onlyParts [.bt, .fns, .fab, .mg, .ctr] s (State.closePort s p) := by
  unfold State.closePort
  try dsimp only
  refine onlyParts.ite ?_ (fun h1 => ?_)
  · refine onlyParts.foldl ?_ (fun _ _ h2 => ?_)
    · refine onlyParts.after (State.updPort_only ..) rfl ?_
      refine onlyParts.after (State.leaveUp_only ..) rfl ?_
      exact onlyParts.rfl'
    · try dsimp only
      split
      · try dsimp only
        refine onlyParts.after (State.emit_only ..) rfl ?_
        exact h2
      · try dsimp only
        exact h2
  · exact onlyParts.rfl'

theorem State.openPort_only (s : Sys2Proof.Machine.State) (p : ℕ) : onlyParts [.fab] s (State.openPort s p) := by
  unfold State.openPort
  try dsimp only
  refine onlyParts.ite .rfl' (fun h1 => ?_)
  refine onlyParts.after (State.updPort_only ..) rfl ?_
  exact h1

theorem State.sliceSetRule_only (p : Sys2Proof.Machine.Pkt) (s : Sys2Proof.Machine.State) : onlyParts [.bt, .fns, .fab, .mg, .ctr] s (State.sliceSetRule p s).1 := by
  unfold State.sliceSetRule
  try dsimp only
  iterate 2
    split
    · exact onlyParts.rfl'
  try dsimp only
  split
  · try dsimp only
    refine onlyParts.after (State.queueSettings_only ..) rfl ?_
    refine onlyParts.set_fab ?_ rfl
    refine onlyParts.foldl (onlyParts.rfl') (fun _ _ h1 => ?_)
    try dsimp only
    refine onlyParts.ite ?_ (fun h2 => ?_)
    · refine onlyParts.after (State.openPort_only ..) rfl ?_
      exact h1
    · refine onlyParts.after (State.closePort_only ..) rfl ?_
      exact h1
  · try dsimp only
    refine onlyParts.set_fab ?_ rfl
    refine onlyParts.foldl (onlyParts.rfl') (fun _ _ h3 => ?_)
    try dsimp only
    refine onlyParts.ite ?_ (fun h4 => ?_)
    · refine onlyParts.after (State.openPort_only ..) rfl ?_
      exact h3
    · refine onlyParts.after (State.closePort_only ..) rfl ?_
      exact h3

theorem State.sliceSetRule_only' {p : Sys2Proof.Machine.Pkt} {s : Sys2Proof.Machine.State} {t0 : State} {o0 : _} (e0 : State.sliceSetRule p s = (t0, o0)) : onlyParts [.bt, .fns, .fab, .mg, .ctr] s t0 := by
  have h := State.sliceSetRule_only p s
  rw [e0] at h
  exact h

theorem execSliceSet_only {f : ℕ} {slot : ℕ} {s : Sys2Proof.Machine.State} {t0 : State} (e0 : execSliceSet f slot s = .next t0) : onlyParts [.pw, .bt, .fns, .fab, .mg, .ctr] s t0 := by
  unfold execSliceSet at e0
  injection e0 with e0
  rw [← e0]
  exact State.command_only (fun _ _ => onlyParts.mono (State.sliceSetRule_only ..) rfl) rfl

theorem State.sawEpoch_only (s : Sys2Proof.Machine.State) (e : ℕ) : onlyParts [.fab] s (State.sawEpoch s e) := by
  unfold State.sawEpoch
  try dsimp only
  refine onlyParts.ite .rfl' (fun h1 => ?_)
  refine onlyParts.set_fab ?_ rfl
  exact h1

theorem State.joinTroupe_only (s : Sys2Proof.Machine.State) (mask : ℕ) (epoch : ℕ) : onlyParts [.fab] s (State.joinTroupe s mask epoch) := by
  unfold State.joinTroupe
  try dsimp only
  refine onlyParts.set_fab ?_ rfl
  refine onlyParts.after (State.sawEpoch_only ..) rfl ?_
  exact onlyParts.rfl'

theorem State.endForming_only (s : Sys2Proof.Machine.State) (status : ℕ) (val : ℕ) : onlyParts [.fns, .fab, .mg, .ctr] s (State.endForming s status val) := by
  unfold State.endForming
  try dsimp only
  split
  · exact onlyParts.rfl'
  try dsimp only
  refine onlyParts.after (State.completeOpt_only ..) rfl ?_
  refine onlyParts.set_fab ?_ rfl
  exact onlyParts.rfl'

theorem State.settleForming_only (s : Sys2Proof.Machine.State) : onlyParts [.fns, .fab, .mg, .ctr] s (State.settleForming s) := by
  unfold State.settleForming
  try dsimp only
  split
  · exact onlyParts.rfl'
  try dsimp only
  refine onlyParts.ite ?_ (fun h1 => ?_)
  · refine onlyParts.ite ?_ (fun h2 => ?_)
    · refine onlyParts.ite .rfl' (fun h3 => ?_)
      refine onlyParts.after (State.endForming_only ..) rfl ?_
      refine onlyParts.after (State.joinTroupe_only ..) rfl ?_
      refine onlyParts.foldl (h3) (fun _ _ h4 => ?_)
      try dsimp only
      refine onlyParts.after (State.tell_only ..) rfl ?_
      exact h4
    · refine onlyParts.ite .rfl' (fun h5 => ?_)
      refine onlyParts.after (State.endForming_only ..) rfl ?_
      refine onlyParts.after (State.leaveTroupe_only ..) rfl ?_
      exact h5
  · exact onlyParts.rfl'

theorem State.troupeFormRule_only (p : Sys2Proof.Machine.Pkt) (s : Sys2Proof.Machine.State) : onlyParts [.fns, .fab, .mg, .ctr] s (State.troupeFormRule p s).1 := by
  unfold State.troupeFormRule
  try dsimp only
  split
  · exact onlyParts.rfl'
  try dsimp only
  split
  · try dsimp only
    split
    · exact onlyParts.rfl'
    · try dsimp only
      split
      · exact onlyParts.rfl'
      try dsimp only
      refine onlyParts.after (State.leaveTroupe_only ..) rfl ?_
      exact onlyParts.rfl'
    · try dsimp only
      split
      · exact onlyParts.rfl'
      try dsimp only
      refine onlyParts.after (State.settleForming_only ..) rfl ?_
      refine onlyParts.set_fab ?_ rfl
      refine onlyParts.foldl (onlyParts.rfl') (fun _ _ h1 => ?_)
      try dsimp only
      refine onlyParts.after (State.tell_only ..) rfl ?_
      exact h1
  · try dsimp only
    iterate 3
      split
      · exact onlyParts.rfl'
    try dsimp only
    refine onlyParts.set_fab ?_ rfl
    refine onlyParts.foldl ?_ (fun _ _ h2 => ?_)
    · refine onlyParts.after (State.sawEpoch_only ..) rfl ?_
      exact onlyParts.rfl'
    · try dsimp only
      refine onlyParts.after (State.tell_only ..) rfl ?_
      exact h2

theorem State.troupeFormRule_only' {p : Sys2Proof.Machine.Pkt} {s : Sys2Proof.Machine.State} {t0 : State} {o0 : _} (e0 : State.troupeFormRule p s = (t0, o0)) : onlyParts [.fns, .fab, .mg, .ctr] s t0 := by
  have h := State.troupeFormRule_only p s
  rw [e0] at h
  exact h

theorem execTroupeForm_only {f : ℕ} {slot : ℕ} {s : Sys2Proof.Machine.State} {t0 : State} (e0 : execTroupeForm f slot s = .next t0) : onlyParts [.pw, .fns, .fab, .mg, .ctr] s t0 := by
  unfold execTroupeForm at e0
  injection e0 with e0
  rw [← e0]
  exact State.command_only (fun _ _ => onlyParts.mono (State.troupeFormRule_only ..) rfl) rfl

theorem State.formed_only (s : Sys2Proof.Machine.State) (m : Sys2Proof.Msg) : onlyParts [.fab, .ctr] s (State.formed s m) := by
  unfold State.formed
  try dsimp only
  refine onlyParts.ite ?_ (fun h1 => ?_)
  · split
    · try dsimp only
      refine onlyParts.after (State.tell_only ..) rfl ?_
      refine onlyParts.set_fab ?_ rfl
      refine onlyParts.after (State.sawEpoch_only ..) rfl ?_
      exact onlyParts.rfl'
    · try dsimp only
      refine onlyParts.ite ?_ (fun h2 => ?_)
      · split
        · try dsimp only
          refine onlyParts.ite ?_ (fun h3 => ?_)
          · refine onlyParts.after (State.tell_only ..) rfl ?_
            refine onlyParts.after (State.sawEpoch_only ..) rfl ?_
            exact onlyParts.rfl'
          · refine onlyParts.after (State.tell_only ..) rfl ?_
            refine onlyParts.set_fab ?_ rfl
            refine onlyParts.after (State.sawEpoch_only ..) rfl ?_
            exact onlyParts.rfl'
        · try dsimp only
          refine onlyParts.ite ?_ (fun h4 => ?_)
          · refine onlyParts.after (State.tell_only ..) rfl ?_
            refine onlyParts.after (State.sawEpoch_only ..) rfl ?_
            exact onlyParts.rfl'
          · refine onlyParts.after (State.tell_only ..) rfl ?_
            refine onlyParts.set_fab ?_ rfl
            refine onlyParts.after (State.sawEpoch_only ..) rfl ?_
            exact onlyParts.rfl'
      · refine onlyParts.after (State.tell_only ..) rfl ?_
        refine onlyParts.after (State.sawEpoch_only ..) rfl ?_
        exact onlyParts.rfl'
  · refine onlyParts.after (State.tell_only ..) rfl ?_
    refine onlyParts.after (State.sawEpoch_only ..) rfl ?_
    exact onlyParts.rfl'

theorem State.committed_only (s : Sys2Proof.Machine.State) (m : Sys2Proof.Msg) : onlyParts [.fns, .fab, .mg, .ctr] s (State.committed s m) := by
  unfold State.committed
  try dsimp only
  refine onlyParts.ite .rfl' (fun h1 => ?_)
  split
  · try dsimp only
    refine onlyParts.ite ?_ (fun h2 => ?_)
    · refine onlyParts.after (State.joinTroupe_only ..) rfl ?_
      exact h1
    · refine onlyParts.after (State.endForming_only ..) rfl ?_
      exact h2
  · try dsimp only
    refine onlyParts.after (State.joinTroupe_only ..) rfl ?_
    exact h1

theorem execTroupeFormTimeout_only {s : Sys2Proof.Machine.State} {t0 : State} (e0 : execTroupeFormTimeout s = .next t0) : onlyParts [.fns, .fab, .mg, .ctr] s t0 := by
  unfold execTroupeFormTimeout at e0
  injection e0 with e0
  rw [← e0]
  clear e0
  try dsimp only
  split
  · exact onlyParts.rfl'
  try dsimp only
  refine onlyParts.ite .rfl' (fun h1 => ?_)
  refine onlyParts.after (State.endForming_only ..) rfl ?_
  exact h1

theorem State.dissolved_only (s : Sys2Proof.Machine.State) (m : Sys2Proof.Msg) : onlyParts [.fab, .ctr] s (State.dissolved s m) := by
  unfold State.dissolved
  try dsimp only
  refine onlyParts.ite ?_ (fun h1 => ?_)
  · refine onlyParts.ite ?_ (fun h2 => ?_)
    · refine onlyParts.after (State.leaveTroupe_only ..) rfl ?_
      refine onlyParts.after (State.tell_only ..) rfl ?_
      exact onlyParts.rfl'
    · refine onlyParts.after (State.tell_only ..) rfl ?_
      exact onlyParts.rfl'
  · exact onlyParts.rfl'

theorem State.giveUpPreempt_only (s : Sys2Proof.Machine.State) (j : Sys2Proof.Machine.Job) : onlyParts [.fns, .pool, .sv, .fab, .mg, .ctr] s (State.giveUpPreempt s j) := by
  unfold State.giveUpPreempt
  try dsimp only
  refine onlyParts.after (State.toCompose_only ..) rfl ?_
  refine onlyParts.after (State.jobTo_only ..) rfl ?_
  refine onlyParts.after (State.updJob_only ..) rfl ?_
  refine onlyParts.after (State.dropImages_only ..) rfl ?_
  refine onlyParts.after (State.completeOpt_only ..) rfl ?_
  refine onlyParts.after (State.tellMembers_only ..) rfl ?_
  exact onlyParts.rfl'

theorem State.accepted_only (s : Sys2Proof.Machine.State) (m : Sys2Proof.Msg) : onlyParts [.fns, .sv, .fab, .mg, .ctr] s (State.accepted s m) := by
  unfold State.accepted
  try dsimp only
  split
  · try dsimp only
    refine onlyParts.ite ?_ (fun h1 => ?_)
    · refine onlyParts.ite ?_ (fun h2 => ?_)
      · refine onlyParts.after (State.updJob_only ..) rfl ?_
        exact onlyParts.rfl'
      · refine onlyParts.after (State.updJob_only ..) rfl ?_
        exact onlyParts.rfl'
    · exact onlyParts.rfl'
  · try dsimp only
    split
    · try dsimp only
      refine onlyParts.ite .rfl' (fun h3 => ?_)
      refine onlyParts.after (State.settleForming_only ..) rfl ?_
      refine onlyParts.set_fab ?_ rfl
      exact h3
    · exact onlyParts.rfl'

theorem State.refused_only (s : Sys2Proof.Machine.State) (m : Sys2Proof.Msg) : onlyParts [.fns, .pool, .sv, .fab, .mg, .ctr] s (State.refused s m) := by
  unfold State.refused
  try dsimp only
  split
  · try dsimp only
    refine onlyParts.ite .rfl' (fun h1 => ?_)
    refine onlyParts.after (State.giveUpPreempt_only ..) rfl ?_
    exact h1
  · try dsimp only
    split
    · try dsimp only
      refine onlyParts.ite .rfl' (fun h2 => ?_)
      refine onlyParts.after (State.endForming_only ..) rfl ?_
      exact h2
    · exact onlyParts.rfl'

theorem State.adoptGen_only (s : Sys2Proof.Machine.State) (g : ℕ) : onlyParts [.sv, .ctr] s (State.adoptGen s g) := by
  unfold State.adoptGen
  try dsimp only
  refine onlyParts.ite ?_ (fun h1 => ?_)
  · refine onlyParts.foldl ?_ (fun _ _ h2 => ?_)
    · refine onlyParts.set_sv ?_ rfl
      exact onlyParts.rfl'
    · try dsimp only
      refine onlyParts.after (State.bump_only ..) rfl ?_
      exact h2
  · refine onlyParts.set_sv ?_ rfl
    exact onlyParts.rfl'

theorem State.jobStarted_only (s : Sys2Proof.Machine.State) (m : Sys2Proof.Msg) : onlyParts [.fns, .quads, .sv, .fab, .mg, .ctr] s (State.jobStarted s m) := by
  unfold State.jobStarted
  try dsimp only
  refine onlyParts.ite ?_ (fun h1 => ?_)
  · refine onlyParts.after (State.startLocal_only ..) rfl ?_
    refine onlyParts.after (State.adoptGen_only ..) rfl ?_
    refine onlyParts.set_sv ?_ rfl
    exact onlyParts.rfl'
  · exact onlyParts.rfl'

theorem State.stepSent_only (s : Sys2Proof.Machine.State) (m : Sys2Proof.Msg) : onlyParts [.fns, .mem, .marks, .flaws, .hostMem, .pool, .quads, .sv, .fab, .mg, .ctr] s (State.stepSent s m) := by
  unfold State.stepSent
  try dsimp only
  split
  · exact onlyParts.rfl'
  try dsimp only
  refine onlyParts.ite ?_ (fun h1 => ?_)
  · refine onlyParts.after (State.beginStep_only ..) rfl ?_
    refine onlyParts.after (State.updJob_only ..) rfl ?_
    refine onlyParts.set_fab ?_ rfl
    exact onlyParts.rfl'
  · exact onlyParts.rfl'

theorem State.stepReported_only (s : Sys2Proof.Machine.State) (m : Sys2Proof.Msg) : onlyParts [.fns, .mem, .marks, .flaws, .hostMem, .pool, .quads, .sv, .fab, .mg, .ctr] s (State.stepReported s m) := by
  unfold State.stepReported
  try dsimp only
  split
  · try dsimp only
    refine onlyParts.ite ?_ (fun h1 => ?_)
    · refine onlyParts.ite ?_ (fun h2 => ?_)
      · refine onlyParts.after (State.updJob_only ..) rfl ?_
        exact onlyParts.rfl'
      · refine onlyParts.after (State.finishStep_only ..) rfl ?_
        exact h2
    · exact onlyParts.rfl'
  · exact onlyParts.rfl'

theorem State.biasSent_only (s : Sys2Proof.Machine.State) (m : Sys2Proof.Msg) : onlyParts [.sv] s (State.biasSent s m) := by
  unfold State.biasSent
  try dsimp only
  refine onlyParts.ite .rfl' (fun h1 => ?_)
  refine onlyParts.after (State.updJob_only ..) rfl ?_
  exact h1

theorem State.jobEnded_only (s : Sys2Proof.Machine.State) (m : Sys2Proof.Msg) : onlyParts [.fns, .mem, .marks, .flaws, .hostMem, .pool, .quads, .sv, .fab, .mg, .ctr] s (State.jobEnded s m) := by
  unfold State.jobEnded
  try dsimp only
  refine onlyParts.ite .rfl' (fun h1 => ?_)
  refine onlyParts.after (State.adoptGen_only ..) rfl ?_
  refine onlyParts.after (State.endJob_only ..) rfl ?_
  exact h1

theorem State.preemptSent_only (s : Sys2Proof.Machine.State) (m : Sys2Proof.Msg) : onlyParts [.fns, .mem, .marks, .flaws, .pool, .quads, .sv, .fab, .mg, .ctr] s (State.preemptSent s m) := by
  unfold State.preemptSent
  try dsimp only
  split
  · exact onlyParts.rfl'
  try dsimp only
  refine onlyParts.ite ?_ (fun h1 => ?_)
  · split
    · try dsimp only
      refine onlyParts.after (State.tell_only ..) rfl ?_
      refine onlyParts.after (State.beginPreempt_only ..) rfl ?_
      refine onlyParts.after (State.adoptGen_only ..) rfl ?_
      exact onlyParts.rfl'
    · try dsimp only
      refine onlyParts.after (State.setLocal_only ..) rfl ?_
      refine onlyParts.after (State.adoptGen_only ..) rfl ?_
      exact onlyParts.rfl'
    · try dsimp only
      refine onlyParts.after (State.finishSet_only ..) rfl ?_
      exact onlyParts.rfl'
    · try dsimp only
      split
      · try dsimp only
        refine onlyParts.after (State.finishSet_only ..) rfl ?_
        refine onlyParts.after (State.setLocal_only ..) rfl ?_
        exact onlyParts.rfl'
      · try dsimp only
        refine onlyParts.after (State.setLocal_only ..) rfl ?_
        exact onlyParts.rfl'
    · try dsimp only
      refine onlyParts.after (State.jobTo_only ..) rfl ?_
      refine onlyParts.after (State.updJob_only ..) rfl ?_
      refine onlyParts.after (State.dropImages_only ..) rfl ?_
      exact onlyParts.rfl'
    · exact onlyParts.rfl'
  · exact onlyParts.rfl'

/-! ### Machine/Exchange.lean -/

theorem State.updXEnt_only (s : Sys2Proof.Machine.State) (xq : ℕ) (n : ℕ) (g : Sys2Proof.Machine.XEnt → Sys2Proof.Machine.XEnt) : onlyParts [.fab] s (State.updXEnt s xq n g) := by
  unfold State.updXEnt
  try dsimp only
  refine onlyParts.set_fab ?_ rfl
  exact onlyParts.rfl'

theorem execWaitEntry_only {xq : ℕ} {s : Sys2Proof.Machine.State} {t0 : State} (e0 : execWaitEntry xq s = .next t0) : onlyParts [.fns, .mem, .marks, .flaws, .hostMem, .pool, .quads, .sv, .fab, .mg, .ctr] s t0 := by
  unfold execWaitEntry at e0
  injection e0 with e0
  rw [← e0]
  clear e0
  try dsimp only
  split
  · exact onlyParts.rfl'
  try dsimp only
  refine onlyParts.ite ?_ (fun h1 => ?_)
  · refine onlyParts.after (State.xpost_only ..) rfl ?_
    refine onlyParts.after (State.xdrop_only ..) rfl ?_
    exact onlyParts.rfl'
  · exact onlyParts.rfl'

theorem State.xreset_only (s : Sys2Proof.Machine.State) : onlyParts [.bt, .fns, .pool, .fab, .mg, .ctr] s (State.xreset s) := by
  unfold State.xreset
  try dsimp only
  refine onlyParts.after (State.setRdy_only ..) rfl ?_
  refine onlyParts.after (State.endLoans_only ..) rfl ?_
  refine onlyParts.foldl ?_ (fun _ _ h1 => ?_)
  · refine onlyParts.set_fab ?_ rfl
    exact onlyParts.rfl'
  · try dsimp only
    refine onlyParts.after (State.complete_only ..) rfl ?_
    exact h1

/-! ### Machine/Session.lean -/

theorem State.helloRule_only (p : Sys2Proof.Machine.Pkt) (s : Sys2Proof.Machine.State) : onlyParts [.fns, .mem, .marks, .flaws, .hostMem, .pool, .quads, .sv, .fab, .mg, .ctr] s (State.helloRule p s).1 := by
  unfold State.helloRule
  try dsimp only
  iterate 2
    split
    · exact onlyParts.rfl'
  try dsimp only
  split
  · try dsimp only
    iterate 2
      split
      · exact onlyParts.rfl'
    try dsimp only
    split
    · try dsimp only
      refine onlyParts.after (State.openSession_only ..) rfl ?_
      exact onlyParts.rfl'
    · try dsimp only
      split
      · try dsimp only
        refine onlyParts.after (State.settleClose_only ..) rfl ?_
        refine onlyParts.after (State.updFn_only ..) rfl ?_
        refine onlyParts.after (State.bump_only ..) rfl ?_
        refine onlyParts.after (State.closeSession_only ..) rfl ?_
        exact onlyParts.rfl'
      · exact onlyParts.rfl'
  · try dsimp only
    split
    · try dsimp only
      refine onlyParts.after (State.updFn_only ..) rfl ?_
      exact onlyParts.rfl'
    · exact onlyParts.rfl'

theorem State.helloRule_only' {p : Sys2Proof.Machine.Pkt} {s : Sys2Proof.Machine.State} {t0 : State} {o0 : _} (e0 : State.helloRule p s = (t0, o0)) : onlyParts [.fns, .mem, .marks, .flaws, .hostMem, .pool, .quads, .sv, .fab, .mg, .ctr] s t0 := by
  have h := State.helloRule_only p s
  rw [e0] at h
  exact h

theorem execHello_only {f : ℕ} {slot : ℕ} {s : Sys2Proof.Machine.State} {t0 : State} (e0 : execHello f slot s = .next t0) : onlyParts [.pw, .fns, .mem, .marks, .flaws, .hostMem, .pool, .quads, .sv, .fab, .mg, .ctr] s t0 := by
  unfold execHello at e0
  injection e0 with e0
  rw [← e0]
  exact State.command_only (fun _ _ => onlyParts.mono (State.helloRule_only ..) rfl) rfl

theorem State.leaseSetRule_only (p : Sys2Proof.Machine.Pkt) (s : Sys2Proof.Machine.State) : onlyParts [.fns] s (State.leaseSetRule p s).1 := by
  unfold State.leaseSetRule
  try dsimp only
  split
  · exact onlyParts.rfl'
  try dsimp only
  refine onlyParts.after (State.updFn_only ..) rfl ?_
  exact onlyParts.rfl'

theorem State.leaseSetRule_only' {p : Sys2Proof.Machine.Pkt} {s : Sys2Proof.Machine.State} {t0 : State} {o0 : _} (e0 : State.leaseSetRule p s = (t0, o0)) : onlyParts [.fns] s t0 := by
  have h := State.leaseSetRule_only p s
  rw [e0] at h
  exact h

theorem execLeaseSet_only {f : ℕ} {slot : ℕ} {s : Sys2Proof.Machine.State} {t0 : State} (e0 : execLeaseSet f slot s = .next t0) : onlyParts [.pw, .fns, .mg, .ctr] s t0 := by
  unfold execLeaseSet at e0
  injection e0 with e0
  rw [← e0]
  exact State.command_only (fun _ _ => onlyParts.mono (State.leaseSetRule_only ..) rfl) rfl

theorem execLeaseExpiry_only {f : ℕ} {s : Sys2Proof.Machine.State} {t0 : State} (e0 : execLeaseExpiry f s = .next t0) : onlyParts [.fns, .mem, .marks, .flaws, .hostMem, .pool, .quads, .sv, .fab, .mg, .ctr] s t0 := by
  unfold execLeaseExpiry at e0
  injection e0 with e0
  rw [← e0]
  clear e0
  try dsimp only
  refine onlyParts.ite .rfl' (fun h1 => ?_)
  refine onlyParts.after (State.settleClose_only ..) rfl ?_
  refine onlyParts.after (State.raiseAt_only ..) rfl ?_
  refine onlyParts.after (State.bump_only ..) rfl ?_
  refine onlyParts.after (State.closeSession_only ..) rfl ?_
  exact h1

theorem State.settleReadyF_only (s : Sys2Proof.Machine.State) (f : ℕ) : onlyParts [.fns, .mg, .ctr] s (State.settleReadyF s f) := by
  unfold State.settleReadyF
  try dsimp only
  refine onlyParts.foldl (onlyParts.rfl') (fun _ _ h1 => ?_)
  try dsimp only
  · try dsimp only
    refine onlyParts.ite h1 (fun h2 => ?_)
    refine onlyParts.after (State.complete_only ..) rfl ?_
    refine onlyParts.after (State.updFn_only ..) rfl ?_
    exact h2

theorem State.settleReady_only (s : Sys2Proof.Machine.State) : onlyParts [.fns, .mg, .ctr] s (State.settleReady s) := by
  unfold State.settleReady
  try dsimp only
  refine onlyParts.foldl (onlyParts.rfl') (fun _ _ h1 => ?_)
  try dsimp only
  refine onlyParts.after (State.settleReadyF_only ..) rfl ?_
  exact h1

theorem State.readinessRule_only (p : Sys2Proof.Machine.Pkt) (s : Sys2Proof.Machine.State) : onlyParts [.fns, .mg, .ctr] s (State.readinessRule p s).1 := by
  unfold State.readinessRule
  try dsimp only
  split
  · exact onlyParts.rfl'
  try dsimp only
  refine onlyParts.after (State.settleReadyF_only ..) rfl ?_
  refine onlyParts.after (State.updFn_only ..) rfl ?_
  exact onlyParts.rfl'

theorem State.readinessRule_only' {p : Sys2Proof.Machine.Pkt} {s : Sys2Proof.Machine.State} {t0 : State} {o0 : _} (e0 : State.readinessRule p s = (t0, o0)) : onlyParts [.fns, .mg, .ctr] s t0 := by
  have h := State.readinessRule_only p s
  rw [e0] at h
  exact h

theorem execReadiness_only {f : ℕ} {slot : ℕ} {s : Sys2Proof.Machine.State} {t0 : State} (e0 : execReadiness f slot s = .next t0) : onlyParts [.pw, .fns, .mg, .ctr] s t0 := by
  unfold execReadiness at e0
  injection e0 with e0
  rw [← e0]
  exact State.command_only (fun _ _ => onlyParts.mono (State.readinessRule_only ..) rfl) rfl

theorem State.resetRule_only (p : Sys2Proof.Machine.Pkt) (s : Sys2Proof.Machine.State) : onlyParts [.bt, .fns, .mem, .marks, .flaws, .pool, .quads, .sv, .fab, .mg, .ctr] s (State.resetRule p s).1 := by
  unfold State.resetRule
  try dsimp only
  split
  · try dsimp only
    iterate 2
      split
      · exact onlyParts.rfl'
    try dsimp only
    refine onlyParts.after (State.quadReset_only ..) rfl ?_
    exact onlyParts.rfl'
  · try dsimp only
    iterate 2
      split
      · exact onlyParts.rfl'
    try dsimp only
    refine onlyParts.after (State.retrainPort_only ..) rfl ?_
    exact onlyParts.rfl'
  · try dsimp only
    iterate 2
      split
      · exact onlyParts.rfl'
    try dsimp only
    refine onlyParts.after (State.xreset_only ..) rfl ?_
    exact onlyParts.rfl'
  · try dsimp only
    split
    · exact onlyParts.rfl'
    try dsimp only
    refine onlyParts.after (State.updFn_only ..) rfl ?_
    exact onlyParts.rfl'
  · exact onlyParts.rfl'

theorem State.resetRule_only' {p : Sys2Proof.Machine.Pkt} {s : Sys2Proof.Machine.State} {t0 : State} {o0 : _} (e0 : State.resetRule p s = (t0, o0)) : onlyParts [.bt, .fns, .mem, .marks, .flaws, .pool, .quads, .sv, .fab, .mg, .ctr] s t0 := by
  have h := State.resetRule_only p s
  rw [e0] at h
  exact h

theorem execResetFunction_only {f : ℕ} {slot : ℕ} {s : Sys2Proof.Machine.State} {t0 : State} (e0 : execResetFunction f slot s = .next t0) : onlyParts [.pw, .bt, .fns, .mem, .marks, .flaws, .pool, .quads, .sv, .fab, .mg, .ctr] s t0 := by
  unfold execResetFunction at e0
  injection e0 with e0
  rw [← e0]
  exact State.command_only (fun _ _ => onlyParts.mono (State.resetRule_only ..) rfl) rfl

theorem State.releaseRule_only (p : Sys2Proof.Machine.Pkt) (s : Sys2Proof.Machine.State) : onlyParts [.fns, .mem, .marks, .flaws, .hostMem, .pool, .quads, .sv, .fab, .mg, .ctr] s (State.releaseRule p s).1 := by
  unfold State.releaseRule
  try dsimp only
  refine onlyParts.after (State.settleClose_only ..) rfl ?_
  refine onlyParts.after (State.updFn_only ..) rfl ?_
  refine onlyParts.after (State.bump_only ..) rfl ?_
  refine onlyParts.after (State.closeSession_only ..) rfl ?_
  exact onlyParts.rfl'

theorem State.releaseRule_only' {p : Sys2Proof.Machine.Pkt} {s : Sys2Proof.Machine.State} {t0 : State} {o0 : _} (e0 : State.releaseRule p s = (t0, o0)) : onlyParts [.fns, .mem, .marks, .flaws, .hostMem, .pool, .quads, .sv, .fab, .mg, .ctr] s t0 := by
  have h := State.releaseRule_only p s
  rw [e0] at h
  exact h

theorem execRelease_only {f : ℕ} {slot : ℕ} {s : Sys2Proof.Machine.State} {t0 : State} (e0 : execRelease f slot s = .next t0) : onlyParts [.pw, .fns, .mem, .marks, .flaws, .hostMem, .pool, .quads, .sv, .fab, .mg, .ctr] s t0 := by
  unfold execRelease at e0
  injection e0 with e0
  rw [← e0]
  exact State.command_only (fun _ _ => onlyParts.mono (State.releaseRule_only ..) rfl) rfl

/-! ### Machine/Image.lean -/

theorem State.dropStaging_only (s : Sys2Proof.Machine.State) (g : Option Sys2Proof.Machine.Staging) : onlyParts [.pool] s (State.dropStaging s g) := by
  unfold State.dropStaging
  try dsimp only
  split
  · try dsimp only
    refine onlyParts.set_pool ?_ rfl
    exact onlyParts.rfl'
  · exact onlyParts.rfl'

/-! ### Machine/Resets.lean -/

theorem State.fuseOut_only (s : Sys2Proof.Machine.State) (k : Sys2Proof.Site) : onlyParts [.mem, .marks, .flaws, .quads] s (State.fuseOut s k) := by
  unfold State.fuseOut
  try dsimp only
  split
  · try dsimp only
    refine onlyParts.after (State.remap_only ..) rfl ?_
    refine onlyParts.after (State.fence_only' (by assumption)) rfl ?_
    exact onlyParts.rfl'
  · try dsimp only
    refine onlyParts.after (State.fence_only' (by assumption)) rfl ?_
    exact onlyParts.rfl'

theorem State.backToParked_only (s : Sys2Proof.Machine.State) (r : Sys2Proof.Machine.Req) : onlyParts [.pool, .sv] s (State.backToParked s r) := by
  unfold State.backToParked
  try dsimp only
  refine onlyParts.after (State.updReq_only ..) rfl ?_
  refine onlyParts.foldl (onlyParts.rfl') (fun _ _ h1 => ?_)
  try dsimp only
  refine onlyParts.after (State.dropPlacing_only ..) rfl ?_
  exact h1

theorem State.rebuildPool_only (s : Sys2Proof.Machine.State) : onlyParts [.pool] s (State.rebuildPool s) := by
  unfold State.rebuildPool
  try dsimp only
  refine onlyParts.set_pool ?_ rfl
  exact onlyParts.rfl'

theorem State.rebuildProds_only (s : Sys2Proof.Machine.State) : onlyParts [.sv] s (State.rebuildProds s) := by
  unfold State.rebuildProds
  try dsimp only
  refine onlyParts.set_sv ?_ rfl
  exact onlyParts.rfl'

theorem State.wipeQuad_only (s : Sys2Proof.Machine.State) (q : ℕ) : onlyParts [.mem, .marks, .flaws, .quads, .ctr] s (State.wipeQuad s q) := by
  unfold State.wipeQuad
  try dsimp only
  refine onlyParts.after (State.clearCtr_only ..) rfl ?_
  refine onlyParts.after (State.updQuad_only ..) rfl ?_
  refine onlyParts.after (State.zeroTier0_only ..) rfl ?_
  exact onlyParts.rfl'

theorem State.wholeReset_only (c : Sys2Proof.ResetCause) (s : Sys2Proof.Machine.State) : onlyParts [.pw, .bt, .fns, .shared, .mem, .marks, .flaws, .hostMem, .pool, .quads, .sv, .fab, .mg, .ctr] s (State.wholeReset c s) := by
  unfold State.wholeReset
  try dsimp only
  refine onlyParts.ite ?_ (fun h1 => ?_)
  · refine onlyParts.after (State.power_only ..) rfl ?_
    refine onlyParts.ite ?_ (fun h2 => ?_)
    · refine onlyParts.after (State.rebuildProds_only ..) rfl ?_
      refine onlyParts.after (State.loseGone_only ..) rfl ?_
      refine onlyParts.after (State.rebuildPool_only ..) rfl ?_
      refine onlyParts.foldl ?_ (fun _ _ h5 => ?_)
      · refine onlyParts.after (State.setRdyMap_only ..) rfl ?_
        refine onlyParts.set_pw_bt_fns_shared_sv_fab_mg ?_ rfl
        refine onlyParts.foldl ?_ (fun _ _ h4 => ?_)
        · refine onlyParts.foldl ?_ (fun _ _ h3 => ?_)
          · refine onlyParts.set_fns ?_ rfl
            exact onlyParts.rfl'
          · try dsimp only
            refine onlyParts.after (State.backToParked_only ..) rfl ?_
            exact h3
        · try dsimp only
          refine onlyParts.after (State.endJob_only ..) rfl ?_
          exact h4
      · try dsimp only
        refine onlyParts.after (State.wipeQuad_only ..) rfl ?_
        exact h5
    · refine onlyParts.after (State.firmware_only ..) rfl ?_
      exact h2
  · refine onlyParts.ite ?_ (fun h6 => ?_)
    · refine onlyParts.after (State.rebuildProds_only ..) rfl ?_
      refine onlyParts.after (State.loseGone_only ..) rfl ?_
      refine onlyParts.after (State.rebuildPool_only ..) rfl ?_
      refine onlyParts.foldl ?_ (fun _ _ h9 => ?_)
      · refine onlyParts.after (State.setRdyMap_only ..) rfl ?_
        refine onlyParts.set_pw_bt_fns_shared_sv_fab_mg ?_ rfl
        refine onlyParts.foldl ?_ (fun _ _ h8 => ?_)
        · refine onlyParts.foldl ?_ (fun _ _ h7 => ?_)
          · refine onlyParts.set_fns ?_ rfl
            exact onlyParts.rfl'
          · try dsimp only
            refine onlyParts.after (State.backToParked_only ..) rfl ?_
            exact h7
        · try dsimp only
          refine onlyParts.after (State.endJob_only ..) rfl ?_
          exact h8
      · try dsimp only
        refine onlyParts.after (State.wipeQuad_only ..) rfl ?_
        exact h9
    · refine onlyParts.after (State.firmware_only ..) rfl ?_
      exact h6

theorem State.azgenReset_only (c : Sys2Proof.ResetCause) (f : ℕ) (s : Sys2Proof.Machine.State) : onlyParts [.bt, .fns, .mem, .marks, .flaws, .hostMem, .pool, .quads, .sv, .fab, .mg, .ctr] s (State.azgenReset c f s) := by
  unfold State.azgenReset
  try dsimp only
  refine onlyParts.after (State.quadReset_only ..) rfl ?_
  refine onlyParts.after (State.updFn_only ..) rfl ?_
  refine onlyParts.foldl ?_ (fun _ _ h1 => ?_)
  · refine onlyParts.after (State.updFn_only ..) rfl ?_
    exact onlyParts.rfl'
  · try dsimp only
    refine onlyParts.after (State.endJob_only ..) rfl ?_
    exact h1

theorem execRdyMapBitSet_only {bit : ℕ} {s : Sys2Proof.Machine.State} {t0 : State} (e0 : execRdyMapBitSet bit s = .next t0) : onlyParts [.bt, .fns, .mem, .marks, .flaws, .quads, .mg, .ctr] s t0 := by
  unfold execRdyMapBitSet at e0
  injection e0 with e0
  rw [← e0]
  clear e0
  try dsimp only
  refine onlyParts.ite ?_ (fun h1 => ?_)
  · refine onlyParts.after (State.settleReady_only ..) rfl ?_
    refine onlyParts.ite ?_ (fun h2 => ?_)
    · refine onlyParts.after (State.setRdy_only ..) rfl ?_
      exact onlyParts.rfl'
    · refine onlyParts.after (State.remapDue_only ..) rfl ?_
      exact h2
  · exact onlyParts.rfl'

theorem execRailSequenceStop_only {enableLost : Bool} {s : Sys2Proof.Machine.State} {t0 : State} (e0 : execRailSequenceStop enableLost s = .next t0) : onlyParts [.pw] s t0 := by
  unfold execRailSequenceStop at e0
  injection e0 with e0
  rw [← e0]
  clear e0
  try dsimp only
  refine onlyParts.ite .rfl' (fun h1 => ?_)
  refine onlyParts.set_pw ?_ rfl
  exact h1

/-! ### Machine/Power.lean -/

theorem State.readTemps_only (s : Sys2Proof.Machine.State) (temps : List (ℕ × BitVec 16)) : onlyParts [.pw, .ctr] s (State.readTemps s temps) := by
  unfold State.readTemps
  try dsimp only
  split
  · try dsimp only
    refine onlyParts.after (State.setCtr_only ..) rfl ?_
    refine onlyParts.set_pw ?_ rfl
    exact onlyParts.rfl'
  · try dsimp only
    refine onlyParts.set_pw ?_ rfl
    exact onlyParts.rfl'

theorem State.setAdiv_only (s : Sys2Proof.Machine.State) (a : ℕ) : onlyParts [.pw] s (State.setAdiv s a) := by
  unfold State.setAdiv
  try dsimp only
  refine onlyParts.set_pw ?_ rfl
  exact onlyParts.rfl'

theorem execThrottleStep_only {temps : List (ℕ × BitVec 16)} {s : Sys2Proof.Machine.State} {t0 : State} (e0 : execThrottleStep temps s = .next t0) : onlyParts [.pw, .fns, .mg, .ctr] s t0 := by
  unfold execThrottleStep at e0
  injection e0 with e0
  rw [← e0]
  clear e0
  try dsimp only
  refine onlyParts.ite ?_ (fun h1 => ?_)
  · refine onlyParts.ite ?_ (fun h2 => ?_)
    · refine onlyParts.ite ?_ (fun h3 => ?_)
      · split
        · try dsimp only
          refine onlyParts.set_pw ?_ rfl
          refine onlyParts.after (State.readTemps_only ..) rfl ?_
          exact onlyParts.rfl'
        · try dsimp only
          refine onlyParts.ite ?_ (fun h4 => ?_)
          · refine onlyParts.set_pw ?_ rfl
            refine onlyParts.after (State.readTemps_only ..) rfl ?_
            exact onlyParts.rfl'
          · refine onlyParts.after (State.trackNormal_only ..) rfl ?_
            refine onlyParts.ite ?_ (fun h5 => ?_)
            · refine onlyParts.set_pw ?_ rfl
              refine onlyParts.after (State.setAdiv_only ..) rfl ?_
              exact h4
            · refine onlyParts.after (State.thermal_only ..) rfl ?_
              exact h5
      · refine onlyParts.ite ?_ (fun h6 => ?_)
        · refine onlyParts.after (State.readTemps_only ..) rfl ?_
          exact onlyParts.rfl'
        · refine onlyParts.after (State.trackNormal_only ..) rfl ?_
          refine onlyParts.ite ?_ (fun h7 => ?_)
          · refine onlyParts.set_pw ?_ rfl
            refine onlyParts.after (State.bump_only ..) rfl ?_
            refine onlyParts.after (State.setAdiv_only ..) rfl ?_
            exact h6
          · refine onlyParts.after (State.thermal_only ..) rfl ?_
            exact h7
    · refine onlyParts.after (State.readTemps_only ..) rfl ?_
      exact onlyParts.rfl'
  · exact onlyParts.rfl'

theorem State.stopClocks_only (s : Sys2Proof.Machine.State) (was : Bool) : onlyParts [.pw] s (State.stopClocks s was) := by
  unfold State.stopClocks
  try dsimp only
  refine onlyParts.set_pw ?_ rfl
  exact onlyParts.rfl'

theorem execThermalTrip_only {sensor : ℕ} {temp : BitVec 16} {s : Sys2Proof.Machine.State} {t0 : State} (e0 : execThermalTrip sensor temp s = .next t0) : onlyParts [.pw, .fns, .mg, .ctr] s t0 := by
  unfold execThermalTrip at e0
  injection e0 with e0
  rw [← e0]
  clear e0
  try dsimp only
  refine onlyParts.ite ?_ (fun h1 => ?_)
  · refine onlyParts.ite ?_ (fun h2 => ?_)
    · refine onlyParts.after (State.readTemps_only ..) rfl ?_
      exact onlyParts.rfl'
    · refine onlyParts.after (State.trackNormal_only ..) rfl ?_
      refine onlyParts.after (State.thermal_only ..) rfl ?_
      refine onlyParts.after (State.bump_only ..) rfl ?_
      refine onlyParts.set_pw ?_ rfl
      refine onlyParts.after (State.stopClocks_only ..) rfl ?_
      exact h2
  · exact onlyParts.rfl'

theorem State.readInput_only (s : Sys2Proof.Machine.State) (mv : ℕ) : onlyParts [.pw] s (State.readInput s mv) := by
  unfold State.readInput
  try dsimp only
  refine onlyParts.set_pw ?_ rfl
  exact onlyParts.rfl'

theorem execInputTrip_only {mv : ℕ} {s : Sys2Proof.Machine.State} {t0 : State} (e0 : execInputTrip mv s = .next t0) : onlyParts [.pw, .fns, .mg, .ctr] s t0 := by
  unfold execInputTrip at e0
  injection e0 with e0
  rw [← e0]
  clear e0
  try dsimp only
  refine onlyParts.ite ?_ (fun h1 => ?_)
  · refine onlyParts.ite ?_ (fun h2 => ?_)
    · refine onlyParts.after (State.readInput_only ..) rfl ?_
      exact onlyParts.rfl'
    · refine onlyParts.after (State.trackNormal_only ..) rfl ?_
      refine onlyParts.after (State.power_only ..) rfl ?_
      refine onlyParts.after (State.bump_only ..) rfl ?_
      refine onlyParts.set_pw ?_ rfl
      refine onlyParts.after (State.stopClocks_only ..) rfl ?_
      exact h2
  · exact onlyParts.rfl'

theorem execCapLoopTick_only {power : ℕ} {s : Sys2Proof.Machine.State} {t0 : State} (e0 : execCapLoopTick power s = .next t0) : onlyParts [.pw, .ctr] s t0 := by
  unfold execCapLoopTick at e0
  injection e0 with e0
  rw [← e0]
  clear e0
  try dsimp only
  refine onlyParts.ite ?_ (fun h1 => ?_)
  · refine onlyParts.after (State.trackNormal_only ..) rfl ?_
    refine onlyParts.after (State.setCtr_only ..) rfl ?_
    refine onlyParts.set_pw ?_ rfl
    exact onlyParts.rfl'
  · exact onlyParts.rfl'

theorem execInputPowerExcursion_only {power : ℕ} {s : Sys2Proof.Machine.State} {t0 : State} (e0 : execInputPowerExcursion power s = .next t0) : onlyParts [.pw, .fns, .mg, .ctr] s t0 := by
  unfold execInputPowerExcursion at e0
  injection e0 with e0
  rw [← e0]
  clear e0
  try dsimp only
  refine onlyParts.ite .rfl' (fun h1 => ?_)
  refine onlyParts.after (State.trackNormal_only ..) rfl ?_
  refine onlyParts.after (State.power_only ..) rfl ?_
  refine onlyParts.after (State.setCtr_only ..) rfl ?_
  refine onlyParts.after (State.bump_only ..) rfl ?_
  refine onlyParts.set_pw ?_ rfl
  exact h1

theorem execInputPowerExcursionEnd_only {power : ℕ} {s : Sys2Proof.Machine.State} {t0 : State} (e0 : execInputPowerExcursionEnd power s = .next t0) : onlyParts [.pw] s t0 := by
  unfold execInputPowerExcursionEnd at e0
  injection e0 with e0
  rw [← e0]
  clear e0
  try dsimp only
  refine onlyParts.ite .rfl' (fun h1 => ?_)
  refine onlyParts.after (State.trackNormal_only ..) rfl ?_
  refine onlyParts.set_pw ?_ rfl
  exact h1

theorem execPwrAlertAssert_only {s : Sys2Proof.Machine.State} {t0 : State} (e0 : execPwrAlertAssert s = .next t0) : onlyParts [.pw, .fns, .mg, .ctr] s t0 := by
  unfold execPwrAlertAssert at e0
  injection e0 with e0
  rw [← e0]
  clear e0
  try dsimp only
  refine onlyParts.ite ?_ (fun h1 => ?_)
  · refine onlyParts.set_pw ?_ rfl
    exact onlyParts.rfl'
  · refine onlyParts.after (State.trackNormal_only ..) rfl ?_
    refine onlyParts.after (State.power_only ..) rfl ?_
    refine onlyParts.after (State.bump_only ..) rfl ?_
    refine onlyParts.set_pw ?_ rfl
    exact onlyParts.rfl'

theorem execPwrAlertDeassert_only {s : Sys2Proof.Machine.State} {t0 : State} (e0 : execPwrAlertDeassert s = .next t0) : onlyParts [.pw, .fns, .mg, .ctr] s t0 := by
  unfold execPwrAlertDeassert at e0
  injection e0 with e0
  rw [← e0]
  clear e0
  try dsimp only
  refine onlyParts.ite ?_ (fun h1 => ?_)
  · refine onlyParts.set_pw ?_ rfl
    exact onlyParts.rfl'
  · refine onlyParts.after (State.trackNormal_only ..) rfl ?_
    refine onlyParts.after (State.power_only ..) rfl ?_
    refine onlyParts.set_pw ?_ rfl
    exact onlyParts.rfl'

theorem execCoolantOkLoss_only {s : Sys2Proof.Machine.State} {t0 : State} (e0 : execCoolantOkLoss s = .next t0) : onlyParts [.pw, .fns, .mg, .ctr] s t0 := by
  unfold execCoolantOkLoss at e0
  injection e0 with e0
  rw [← e0]
  clear e0
  try dsimp only
  refine onlyParts.ite ?_ (fun h1 => ?_)
  · refine onlyParts.set_pw ?_ rfl
    exact onlyParts.rfl'
  · refine onlyParts.after (State.trackNormal_only ..) rfl ?_
    refine onlyParts.after (State.thermal_only ..) rfl ?_
    refine onlyParts.set_pw ?_ rfl
    exact onlyParts.rfl'

theorem execCoolantOkRestore_only {s : Sys2Proof.Machine.State} {t0 : State} (e0 : execCoolantOkRestore s = .next t0) : onlyParts [.pw, .fns, .mg, .ctr] s t0 := by
  unfold execCoolantOkRestore at e0
  injection e0 with e0
  rw [← e0]
  clear e0
  try dsimp only
  refine onlyParts.ite ?_ (fun h1 => ?_)
  · refine onlyParts.set_pw ?_ rfl
    exact onlyParts.rfl'
  · refine onlyParts.after (State.trackNormal_only ..) rfl ?_
    refine onlyParts.after (State.thermal_only ..) rfl ?_
    refine onlyParts.set_pw ?_ rfl
    exact onlyParts.rfl'

theorem execQuadrantDark_only {q : ℕ} {s : Sys2Proof.Machine.State} {t0 : State} (e0 : execQuadrantDark q s = .next t0) : onlyParts [.pw, .bt, .fns, .mg, .ctr] s t0 := by
  unfold execQuadrantDark at e0
  injection e0 with e0
  rw [← e0]
  clear e0
  try dsimp only
  refine onlyParts.ite .rfl' (fun h1 => ?_)
  refine onlyParts.after (State.setRdyMap_only ..) rfl ?_
  refine onlyParts.after (State.updQd_only ..) rfl ?_
  exact h1

theorem execWakeComplete_only {q : ℕ} {s : Sys2Proof.Machine.State} {t0 : State} (e0 : execWakeComplete q s = .next t0) : onlyParts [.pw, .bt, .fns, .mem, .marks, .flaws, .quads, .mg, .ctr, .readData] s t0 := by
  unfold execWakeComplete at e0
  injection e0 with e0
  rw [← e0]
  clear e0
  try dsimp only
  refine onlyParts.ite .rfl' (fun h1 => ?_)
  refine onlyParts.after (State.settleReady_only ..) rfl ?_
  refine onlyParts.after (State.cxlDrain_only ..) rfl ?_
  refine onlyParts.after (State.setRdyMap_only ..) rfl ?_
  refine onlyParts.after (State.bump_only ..) rfl ?_
  refine onlyParts.after (State.updQuad_only ..) rfl ?_
  refine onlyParts.after (State.updQd_only ..) rfl ?_
  exact h1

theorem State.capRule_only (p : Sys2Proof.Machine.Pkt) (s : Sys2Proof.Machine.State) : onlyParts [.pw, .fns, .mg, .ctr] s (State.capRule p s).1 := by
  unfold State.capRule
  try dsimp only
  split
  · exact onlyParts.rfl'
  try dsimp only
  refine onlyParts.ite ?_ (fun h1 => ?_)
  · refine onlyParts.after (State.power_only ..) rfl ?_
    refine onlyParts.set_pw ?_ rfl
    exact onlyParts.rfl'
  · refine onlyParts.set_pw ?_ rfl
    exact onlyParts.rfl'

theorem State.capRule_only' {p : Sys2Proof.Machine.Pkt} {s : Sys2Proof.Machine.State} {t0 : State} {o0 : _} (e0 : State.capRule p s = (t0, o0)) : onlyParts [.pw, .fns, .mg, .ctr] s t0 := by
  have h := State.capRule_only p s
  rw [e0] at h
  exact h

theorem execPowerCapSet_only {f : ℕ} {slot : ℕ} {s : Sys2Proof.Machine.State} {t0 : State} (e0 : execPowerCapSet f slot s = .next t0) : onlyParts [.pw, .fns, .mg, .ctr] s t0 := by
  unfold execPowerCapSet at e0
  injection e0 with e0
  rw [← e0]
  exact State.command_only (fun _ _ => onlyParts.mono (State.capRule_only ..) rfl) rfl

/-! ### Machine/Firmware.lean -/

theorem State.stageBlock_only (s : Sys2Proof.Machine.State) (g : Sys2Proof.Machine.Staging) (off : ℕ) (n : ℕ) (cells : Sys2Proof.Mem) (pois : List (ℕ × ℕ)) : onlyParts [.bt, .mem, .marks, .flaws] s (State.stageBlock s g off n cells pois) := by
  unfold State.stageBlock
  try dsimp only
  split
  · exact onlyParts.rfl'
  try dsimp only
  refine onlyParts.set_bt ?_ rfl
  refine onlyParts.after (State.fill_only ..) rfl ?_
  exact onlyParts.rfl'

theorem State.imageDataRule_only (h : Sys2Proof.HostView) (p : Sys2Proof.Machine.Pkt) (s : Sys2Proof.Machine.State) : onlyParts [.bt, .mem, .marks, .flaws, .hostMem, .hostMarks] s (State.imageDataRule h p s).1 := by
  unfold State.imageDataRule
  try dsimp only
  split
  · try dsimp only
    refine onlyParts.after (State.withHost_only ..) rfl ?_
    exact onlyParts.rfl'
  · try dsimp only
    split
    · try dsimp only
      refine onlyParts.after (State.withHost_only ..) rfl ?_
      exact onlyParts.rfl'
    · try dsimp only
      split
      · try dsimp only
        refine onlyParts.after (State.withHost_only ..) rfl ?_
        exact onlyParts.rfl'
      · try dsimp only
        split
        · try dsimp only
          refine onlyParts.after (State.withHost_only ..) rfl ?_
          exact onlyParts.rfl'
        · try dsimp only
          split
          · try dsimp only
            refine onlyParts.after (State.withHost_only ..) rfl ?_
            exact onlyParts.rfl'
          · try dsimp only
            split
            · try dsimp only
              refine onlyParts.after (State.withHost_only ..) rfl ?_
              exact onlyParts.rfl'
            · try dsimp only
              refine onlyParts.after (State.stageBlock_only ..) rfl ?_
              refine onlyParts.after (State.withHost_only ..) rfl ?_
              exact onlyParts.rfl'

theorem State.imageDataRule_only' {h : Sys2Proof.HostView} {p : Sys2Proof.Machine.Pkt} {s : Sys2Proof.Machine.State} {t0 : State} {o0 : _} (e0 : State.imageDataRule h p s = (t0, o0)) : onlyParts [.bt, .mem, .marks, .flaws, .hostMem, .hostMarks] s t0 := by
  have h := State.imageDataRule_only h p s
  rw [e0] at h
  exact h

theorem execImageData_only {f : ℕ} {slot : ℕ} {h : Sys2Proof.HostView} {s : Sys2Proof.Machine.State} {t0 : State} (e0 : execImageData f slot h s = .next t0) : onlyParts [.pw, .bt, .fns, .mem, .marks, .flaws, .hostMem, .hostMarks, .mg, .ctr] s t0 := by
  unfold execImageData at e0
  injection e0 with e0
  rw [← e0]
  exact State.command_only (fun _ _ => onlyParts.mono (State.imageDataRule_only ..) rfl) rfl

theorem State.askActivation_only (s : Sys2Proof.Machine.State) : onlyParts [.bt, .fns, .mg, .ctr] s (State.askActivation s) := by
  unfold State.askActivation
  try dsimp only
  refine onlyParts.ite .rfl' (fun h1 => ?_)
  refine onlyParts.after (State.firmware_only ..) rfl ?_
  refine onlyParts.set_bt ?_ rfl
  exact h1

theorem State.activateRule_only (p : Sys2Proof.Machine.Pkt) (s : Sys2Proof.Machine.State) : onlyParts [.bt, .fns, .mg, .ctr] s (State.activateRule p s).1 := by
  unfold State.activateRule
  try dsimp only
  split
  · try dsimp only
    split
    · exact onlyParts.rfl'
    try dsimp only
    refine onlyParts.after (State.askActivation_only ..) rfl ?_
    exact onlyParts.rfl'
  · try dsimp only
    split
    · exact onlyParts.rfl'
    · try dsimp only
      refine onlyParts.after (State.firmware_only ..) rfl ?_
      refine onlyParts.set_bt ?_ rfl
      exact onlyParts.rfl'
    · exact onlyParts.rfl'
  · exact onlyParts.rfl'

theorem State.activateRule_only' {p : Sys2Proof.Machine.Pkt} {s : Sys2Proof.Machine.State} {t0 : State} {o0 : _} (e0 : State.activateRule p s = (t0, o0)) : onlyParts [.bt, .fns, .mg, .ctr] s t0 := by
  have h := State.activateRule_only p s
  rw [e0] at h
  exact h

theorem execActivate_only {f : ℕ} {slot : ℕ} {s : Sys2Proof.Machine.State} {t0 : State} (e0 : execActivate f slot s = .next t0) : onlyParts [.pw, .bt, .fns, .mg, .ctr] s t0 := by
  unfold execActivate at e0
  injection e0 with e0
  rw [← e0]
  exact State.command_only (fun _ _ => onlyParts.mono (State.activateRule_only ..) rfl) rfl

theorem execActivationStart_only {s : Sys2Proof.Machine.State} {t0 : State} (e0 : execActivationStart s = .next t0) : onlyParts [.bt, .fns, .pool, .fab, .mg, .ctr] s t0 := by
  unfold execActivationStart at e0
  injection e0 with e0
  rw [← e0]
  clear e0
  try dsimp only
  refine onlyParts.ite ?_ (fun h1 => ?_)
  · refine onlyParts.after (State.firmware_only ..) rfl ?_
    refine onlyParts.set_bt ?_ rfl
    refine onlyParts.after (State.setRdyMap_only ..) rfl ?_
    refine onlyParts.after (State.endLoans_only ..) rfl ?_
    refine onlyParts.foldl (onlyParts.rfl') (fun _ _ h2 => ?_)
    try dsimp only
    refine onlyParts.after (State.tell_only ..) rfl ?_
    exact h2
  · exact onlyParts.rfl'

theorem State.rcSet_only (s : Sys2Proof.Machine.State) (state : ℕ) (status : ℕ) : onlyParts [.bt] s (State.rcSet s state status) := by
  unfold State.rcSet
  try dsimp only
  refine onlyParts.set_bt ?_ rfl
  exact onlyParts.rfl'

theorem State.rcBegin_only (s : Sys2Proof.Machine.State) (h : List Sys2Proof.Byte) : onlyParts [.bt] s (State.rcBegin s h) := by
  unfold State.rcBegin
  try dsimp only
  refine onlyParts.ite ?_ (fun h1 => ?_)
  · refine onlyParts.set_bt ?_ rfl
    exact onlyParts.rfl'
  · refine onlyParts.after (State.rcSet_only ..) rfl ?_
    exact onlyParts.rfl'

theorem execRcBegin_only {s : Sys2Proof.Machine.State} {t0 : State} (e0 : execRcBegin s = .next t0) : onlyParts [.bt] s t0 := by
  unfold execRcBegin at e0
  injection e0 with e0
  rw [← e0]
  clear e0
  try dsimp only
  refine onlyParts.ite .rfl' (fun h1 => ?_)
  refine onlyParts.after (State.rcBegin_only ..) rfl ?_
  exact h1

theorem execRcChunk_only {s : Sys2Proof.Machine.State} {t0 : State} (e0 : execRcChunk s = .next t0) : onlyParts [.bt] s t0 := by
  unfold execRcChunk at e0
  injection e0 with e0
  rw [← e0]
  clear e0
  try dsimp only
  refine onlyParts.ite ?_ (fun h1 => ?_)
  · split
    · try dsimp only
      refine onlyParts.after (State.rcSet_only ..) rfl ?_
      exact onlyParts.rfl'
    · try dsimp only
      refine onlyParts.ite ?_ (fun h2 => ?_)
      · refine onlyParts.set_bt ?_ rfl
        exact onlyParts.rfl'
      · refine onlyParts.after (State.rcSet_only ..) rfl ?_
        exact onlyParts.rfl'
  · exact onlyParts.rfl'

theorem execRcFinish_only {s : Sys2Proof.Machine.State} {t0 : State} (e0 : execRcFinish s = .next t0) : onlyParts [.bt] s t0 := by
  unfold execRcFinish at e0
  injection e0 with e0
  rw [← e0]
  clear e0
  try dsimp only
  refine onlyParts.ite ?_ (fun h1 => ?_)
  · split
    · try dsimp only
      refine onlyParts.after (State.rcSet_only ..) rfl ?_
      exact onlyParts.rfl'
    · try dsimp only
      refine onlyParts.ite ?_ (fun h2 => ?_)
      · refine onlyParts.after (State.rcSet_only ..) rfl ?_
        exact onlyParts.rfl'
      · refine onlyParts.after (State.rcSet_only ..) rfl ?_
        exact onlyParts.rfl'
  · exact onlyParts.rfl'

theorem State.identityRule_only (p : Sys2Proof.Machine.Pkt) (s : Sys2Proof.Machine.State) : onlyParts [.hostMem, .ctr] s (State.identityRule p s).1 := by
  unfold State.identityRule
  try dsimp only
  iterate 3
    split
    · exact onlyParts.rfl'
  try dsimp only
  refine onlyParts.after (State.report_only ..) rfl ?_
  exact onlyParts.rfl'

theorem State.identityRule_only' {p : Sys2Proof.Machine.Pkt} {s : Sys2Proof.Machine.State} {t0 : State} {o0 : _} (e0 : State.identityRule p s = (t0, o0)) : onlyParts [.hostMem, .ctr] s t0 := by
  have h := State.identityRule_only p s
  rw [e0] at h
  exact h

theorem execIdentity_only {f : ℕ} {slot : ℕ} {s : Sys2Proof.Machine.State} {t0 : State} (e0 : execIdentity f slot s = .next t0) : onlyParts [.pw, .fns, .hostMem, .mg, .ctr] s t0 := by
  unfold execIdentity at e0
  injection e0 with e0
  rw [← e0]
  exact State.command_only (fun _ _ => onlyParts.mono (State.identityRule_only ..) rfl) rfl

theorem State.attestRule_only (p : Sys2Proof.Machine.Pkt) (s : Sys2Proof.Machine.State) : onlyParts [.hostMem, .ctr] s (State.attestRule p s).1 := by
  unfold State.attestRule
  try dsimp only
  split
  · exact onlyParts.rfl'
  try dsimp only
  refine onlyParts.after (State.report_only ..) rfl ?_
  exact onlyParts.rfl'

theorem State.attestRule_only' {p : Sys2Proof.Machine.Pkt} {s : Sys2Proof.Machine.State} {t0 : State} {o0 : _} (e0 : State.attestRule p s = (t0, o0)) : onlyParts [.hostMem, .ctr] s t0 := by
  have h := State.attestRule_only p s
  rw [e0] at h
  exact h

theorem execAttest_only {f : ℕ} {slot : ℕ} {s : Sys2Proof.Machine.State} {t0 : State} (e0 : execAttest f slot s = .next t0) : onlyParts [.pw, .fns, .hostMem, .mg, .ctr] s t0 := by
  unfold execAttest at e0
  injection e0 with e0
  rw [← e0]
  exact State.command_only (fun _ _ => onlyParts.mono (State.attestRule_only ..) rfl) rfl

/-! ### Machine/Mgmt.lean -/

theorem State.say_only (s : Sys2Proof.Machine.State) (name : String) (code : ℕ) (body : List Sys2Proof.Byte) : onlyParts [.mg] s (State.say s name code body) := by
  unfold State.say
  try dsimp only
  refine onlyParts.set_mg ?_ rfl
  exact onlyParts.rfl'

theorem execEntdaa_only {addr : ℕ} {s : Sys2Proof.Machine.State} {t0 : State} (e0 : execEntdaa addr s = .next t0) : onlyParts [.mg] s t0 := by
  unfold execEntdaa at e0
  injection e0 with e0
  rw [← e0]
  clear e0
  try dsimp only
  refine onlyParts.ite .rfl' (fun h1 => ?_)
  refine onlyParts.set_mg ?_ rfl
  exact h1

theorem execSetdasa_only {static : ℕ} {addr : ℕ} {s : Sys2Proof.Machine.State} {t0 : State} (e0 : execSetdasa static addr s = .next t0) : onlyParts [.mg] s t0 := by
  unfold execSetdasa at e0
  injection e0 with e0
  rw [← e0]
  clear e0
  try dsimp only
  refine onlyParts.ite .rfl' (fun h1 => ?_)
  refine onlyParts.set_mg ?_ rfl
  exact h1

theorem execMctpControl_only {code : ℕ} {body : List Sys2Proof.Byte} {s : Sys2Proof.Machine.State} {t0 : State} (e0 : execMctpControl code body s = .next t0) : onlyParts [.mg] s t0 := by
  unfold execMctpControl at e0
  injection e0 with e0
  rw [← e0]
  clear e0
  try dsimp only
  refine onlyParts.ite ?_ (fun h1 => ?_)
  · split
    · try dsimp only
      refine onlyParts.after (State.say_only ..) rfl ?_
      refine onlyParts.set_mg ?_ rfl
      exact onlyParts.rfl'
    · try dsimp only
      refine onlyParts.after (State.say_only ..) rfl ?_
      exact onlyParts.rfl'
    · try dsimp only
      refine onlyParts.after (State.say_only ..) rfl ?_
      exact onlyParts.rfl'
    · try dsimp only
      refine onlyParts.after (State.say_only ..) rfl ?_
      exact onlyParts.rfl'
    · try dsimp only
      refine onlyParts.after (State.say_only ..) rfl ?_
      exact onlyParts.rfl'
  · exact onlyParts.rfl'

theorem State.spdmErr_only (s : Sys2Proof.Machine.State) (code : ℕ) : onlyParts [.mg] s (State.spdmErr s code) := by
  unfold State.spdmErr
  try dsimp only
  refine onlyParts.after (State.say_only ..) rfl ?_
  exact onlyParts.rfl'

theorem State.spdmSay_only (s : Sys2Proof.Machine.State) (name : String) (body : List Sys2Proof.Byte) : onlyParts [.mg] s (State.spdmSay s name body) := by
  unfold State.spdmSay
  try dsimp only
  refine onlyParts.after (State.say_only ..) rfl ?_
  refine onlyParts.set_mg ?_ rfl
  exact onlyParts.rfl'

theorem execGetVersion_only {s : Sys2Proof.Machine.State} {t0 : State} (e0 : execGetVersion s = .next t0) : onlyParts [.mg] s t0 := by
  unfold execGetVersion at e0
  injection e0 with e0
  rw [← e0]
  clear e0
  try dsimp only
  refine onlyParts.ite .rfl' (fun h1 => ?_)
  refine onlyParts.after (State.spdmSay_only ..) rfl ?_
  refine onlyParts.set_mg ?_ rfl
  exact h1

theorem execGetCapabilities_only {s : Sys2Proof.Machine.State} {t0 : State} (e0 : execGetCapabilities s = .next t0) : onlyParts [.mg] s t0 := by
  unfold execGetCapabilities at e0
  injection e0 with e0
  rw [← e0]
  clear e0
  try dsimp only
  refine onlyParts.ite ?_ (fun h1 => ?_)
  · refine onlyParts.ite ?_ (fun h2 => ?_)
    · refine onlyParts.after (State.spdmErr_only ..) rfl ?_
      exact onlyParts.rfl'
    · refine onlyParts.after (State.spdmSay_only ..) rfl ?_
      exact onlyParts.rfl'
  · exact onlyParts.rfl'

theorem execNegotiateAlgorithms_only {asym : Bool} {hash : Bool} {s : Sys2Proof.Machine.State} {t0 : State} (e0 : execNegotiateAlgorithms asym hash s = .next t0) : onlyParts [.mg] s t0 := by
  unfold execNegotiateAlgorithms at e0
  injection e0 with e0
  rw [← e0]
  clear e0
  try dsimp only
  refine onlyParts.ite ?_ (fun h1 => ?_)
  · refine onlyParts.ite ?_ (fun h2 => ?_)
    · refine onlyParts.after (State.spdmErr_only ..) rfl ?_
      exact onlyParts.rfl'
    · refine onlyParts.after (State.spdmSay_only ..) rfl ?_
      refine onlyParts.set_mg ?_ rfl
      exact onlyParts.rfl'
  · exact onlyParts.rfl'

theorem execGetDigests_only {s : Sys2Proof.Machine.State} {t0 : State} (e0 : execGetDigests s = .next t0) : onlyParts [.mg] s t0 := by
  unfold execGetDigests at e0
  injection e0 with e0
  rw [← e0]
  clear e0
  try dsimp only
  refine onlyParts.ite ?_ (fun h1 => ?_)
  · refine onlyParts.ite ?_ (fun h2 => ?_)
    · refine onlyParts.after (State.spdmErr_only ..) rfl ?_
      exact onlyParts.rfl'
    · refine onlyParts.after (State.spdmSay_only ..) rfl ?_
      exact onlyParts.rfl'
  · exact onlyParts.rfl'

theorem execGetCertificate_only {slot : ℕ} {off : ℕ} {len : ℕ} {s : Sys2Proof.Machine.State} {t0 : State} (e0 : execGetCertificate slot off len s = .next t0) : onlyParts [.mg] s t0 := by
  unfold execGetCertificate at e0
  injection e0 with e0
  rw [← e0]
  clear e0
  try dsimp only
  refine onlyParts.ite ?_ (fun h1 => ?_)
  · refine onlyParts.ite ?_ (fun h2 => ?_)
    · refine onlyParts.ite ?_ (fun h3 => ?_)
      · refine onlyParts.after (State.spdmSay_only ..) rfl ?_
        exact onlyParts.rfl'
      · refine onlyParts.after (State.spdmErr_only ..) rfl ?_
        exact onlyParts.rfl'
    · refine onlyParts.after (State.spdmErr_only ..) rfl ?_
      exact onlyParts.rfl'
  · exact onlyParts.rfl'

theorem execChunkGet_only {handle : ℕ} {seq : ℕ} {s : Sys2Proof.Machine.State} {t0 : State} (e0 : execChunkGet handle seq s = .next t0) : onlyParts [.mg] s t0 := by
  unfold execChunkGet at e0
  injection e0 with e0
  rw [← e0]
  clear e0
  try dsimp only
  refine onlyParts.ite ?_ (fun h1 => ?_)
  · refine onlyParts.ite ?_ (fun h2 => ?_)
    · refine onlyParts.after (State.spdmErr_only ..) rfl ?_
      exact onlyParts.rfl'
    · refine onlyParts.after (State.say_only ..) rfl ?_
      exact onlyParts.rfl'
  · exact onlyParts.rfl'

theorem execRespondIfReady_only {token : ℕ} {s : Sys2Proof.Machine.State} {t0 : State} (e0 : execRespondIfReady token s = .next t0) : onlyParts [.mg] s t0 := by
  unfold execRespondIfReady at e0
  injection e0 with e0
  rw [← e0]
  clear e0
  try dsimp only
  refine onlyParts.ite ?_ (fun h1 => ?_)
  · split
    · try dsimp only
      refine onlyParts.after (State.spdmSay_only ..) rfl ?_
      refine onlyParts.set_mg ?_ rfl
      exact onlyParts.rfl'
    · try dsimp only
      refine onlyParts.after (State.spdmErr_only ..) rfl ?_
      exact onlyParts.rfl'
  · exact onlyParts.rfl'

theorem execGetTid_only {s : Sys2Proof.Machine.State} {t0 : State} (e0 : execGetTid s = .next t0) : onlyParts [.mg] s t0 := by
  unfold execGetTid at e0
  injection e0 with e0
  rw [← e0]
  clear e0
  try dsimp only
  refine onlyParts.ite .rfl' (fun h1 => ?_)
  refine onlyParts.after (State.say_only ..) rfl ?_
  exact h1

theorem execSetTid_only {tid : ℕ} {s : Sys2Proof.Machine.State} {t0 : State} (e0 : execSetTid tid s = .next t0) : onlyParts [.mg] s t0 := by
  unfold execSetTid at e0
  injection e0 with e0
  rw [← e0]
  clear e0
  try dsimp only
  refine onlyParts.ite ?_ (fun h1 => ?_)
  · refine onlyParts.ite ?_ (fun h2 => ?_)
    · refine onlyParts.after (State.say_only ..) rfl ?_
      exact onlyParts.rfl'
    · refine onlyParts.after (State.say_only ..) rfl ?_
      refine onlyParts.set_mg ?_ rfl
      exact onlyParts.rfl'
  · exact onlyParts.rfl'

theorem execGetPldmVersion_only {type : ℕ} {s : Sys2Proof.Machine.State} {t0 : State} (e0 : execGetPldmVersion type s = .next t0) : onlyParts [.mg] s t0 := by
  unfold execGetPldmVersion at e0
  injection e0 with e0
  rw [← e0]
  clear e0
  try dsimp only
  refine onlyParts.ite ?_ (fun h1 => ?_)
  · split
    · try dsimp only
      refine onlyParts.after (State.say_only ..) rfl ?_
      exact onlyParts.rfl'
    · try dsimp only
      refine onlyParts.after (State.say_only ..) rfl ?_
      exact onlyParts.rfl'
  · exact onlyParts.rfl'

theorem execGetPldmTypes_only {s : Sys2Proof.Machine.State} {t0 : State} (e0 : execGetPldmTypes s = .next t0) : onlyParts [.mg] s t0 := by
  unfold execGetPldmTypes at e0
  injection e0 with e0
  rw [← e0]
  clear e0
  try dsimp only
  refine onlyParts.ite .rfl' (fun h1 => ?_)
  refine onlyParts.after (State.say_only ..) rfl ?_
  exact h1

theorem execGetPldmCommands_only {type : ℕ} {s : Sys2Proof.Machine.State} {t0 : State} (e0 : execGetPldmCommands type s = .next t0) : onlyParts [.mg] s t0 := by
  unfold execGetPldmCommands at e0
  injection e0 with e0
  rw [← e0]
  clear e0
  try dsimp only
  refine onlyParts.ite ?_ (fun h1 => ?_)
  · split
    · try dsimp only
      refine onlyParts.after (State.say_only ..) rfl ?_
      exact onlyParts.rfl'
    · try dsimp only
      refine onlyParts.after (State.say_only ..) rfl ?_
      exact onlyParts.rfl'
  · exact onlyParts.rfl'

theorem execGetPdrRepositoryInfo_only {s : Sys2Proof.Machine.State} {t0 : State} (e0 : execGetPdrRepositoryInfo s = .next t0) : onlyParts [.mg] s t0 := by
  unfold execGetPdrRepositoryInfo at e0
  injection e0 with e0
  rw [← e0]
  clear e0
  try dsimp only
  refine onlyParts.ite .rfl' (fun h1 => ?_)
  refine onlyParts.after (State.say_only ..) rfl ?_
  exact h1

theorem execGetPdr_only {handle : ℕ} {s : Sys2Proof.Machine.State} {t0 : State} (e0 : execGetPdr handle s = .next t0) : onlyParts [.mg] s t0 := by
  unfold execGetPdr at e0
  injection e0 with e0
  rw [← e0]
  clear e0
  try dsimp only
  refine onlyParts.ite ?_ (fun h1 => ?_)
  · refine onlyParts.ite ?_ (fun h2 => ?_)
    · refine onlyParts.after (State.say_only ..) rfl ?_
      exact onlyParts.rfl'
    · refine onlyParts.after (State.say_only ..) rfl ?_
      exact onlyParts.rfl'
  · exact onlyParts.rfl'

theorem execGetSensorReading_only {sensor : ℕ} {s : Sys2Proof.Machine.State} {t0 : State} (e0 : execGetSensorReading sensor s = .next t0) : onlyParts [.mg] s t0 := by
  unfold execGetSensorReading at e0
  injection e0 with e0
  rw [← e0]
  clear e0
  try dsimp only
  refine onlyParts.ite ?_ (fun h1 => ?_)
  · refine onlyParts.ite ?_ (fun h2 => ?_)
    · refine onlyParts.after (State.say_only ..) rfl ?_
      exact onlyParts.rfl'
    · refine onlyParts.after (State.say_only ..) rfl ?_
      exact onlyParts.rfl'
  · exact onlyParts.rfl'

theorem execGetStateSensorReadings_only {sensor : ℕ} {s : Sys2Proof.Machine.State} {t0 : State} (e0 : execGetStateSensorReadings sensor s = .next t0) : onlyParts [.mg] s t0 := by
  unfold execGetStateSensorReadings at e0
  injection e0 with e0
  rw [← e0]
  clear e0
  try dsimp only
  refine onlyParts.ite .rfl' (fun h1 => ?_)
  refine onlyParts.after (State.say_only ..) rfl ?_
  exact h1

theorem execSetEventReceiver_only {enable : ℕ} {addr : ℕ} {s : Sys2Proof.Machine.State} {t0 : State} (e0 : execSetEventReceiver enable addr s = .next t0) : onlyParts [.mg] s t0 := by
  unfold execSetEventReceiver at e0
  injection e0 with e0
  rw [← e0]
  clear e0
  try dsimp only
  refine onlyParts.ite .rfl' (fun h1 => ?_)
  refine onlyParts.after (State.say_only ..) rfl ?_
  refine onlyParts.set_mg ?_ rfl
  exact h1

theorem execEventMessageSupported_only {s : Sys2Proof.Machine.State} {t0 : State} (e0 : execEventMessageSupported s = .next t0) : onlyParts [.mg] s t0 := by
  unfold execEventMessageSupported at e0
  injection e0 with e0
  rw [← e0]
  clear e0
  try dsimp only
  refine onlyParts.ite .rfl' (fun h1 => ?_)
  refine onlyParts.after (State.say_only ..) rfl ?_
  exact h1

theorem execEventMessageBufferSize_only {size : ℕ} {s : Sys2Proof.Machine.State} {t0 : State} (e0 : execEventMessageBufferSize size s = .next t0) : onlyParts [.mg] s t0 := by
  unfold execEventMessageBufferSize at e0
  injection e0 with e0
  rw [← e0]
  clear e0
  try dsimp only
  refine onlyParts.ite .rfl' (fun h1 => ?_)
  refine onlyParts.after (State.say_only ..) rfl ?_
  refine onlyParts.set_mg ?_ rfl
  exact h1

theorem execPlatformEventRetry_only {n : ℕ} {s : Sys2Proof.Machine.State} {t0 : State} (e0 : execPlatformEventRetry n s = .next t0) : onlyParts [.mg] s t0 := by
  unfold execPlatformEventRetry at e0
  injection e0 with e0
  rw [← e0]
  clear e0
  try dsimp only
  split
  · exact onlyParts.rfl'
  try dsimp only
  refine onlyParts.ite ?_ (fun h1 => ?_)
  · refine onlyParts.ite ?_ (fun h2 => ?_)
    · refine onlyParts.after (State.say_only ..) rfl ?_
      refine onlyParts.set_mg ?_ rfl
      exact onlyParts.rfl'
    · refine onlyParts.set_mg ?_ rfl
      exact onlyParts.rfl'
  · exact onlyParts.rfl'

theorem execEventAck_only {n : ℕ} {s : Sys2Proof.Machine.State} {t0 : State} (e0 : execEventAck n s = .next t0) : onlyParts [.mg] s t0 := by
  unfold execEventAck at e0
  injection e0 with e0
  rw [← e0]
  clear e0
  try dsimp only
  refine onlyParts.ite .rfl' (fun h1 => ?_)
  refine onlyParts.after (State.say_only ..) rfl ?_
  refine onlyParts.set_mg ?_ rfl
  exact h1

theorem State.setPldm_only (s : Sys2Proof.Machine.State) (st : Sys2Proof.Machine.Pldm) : onlyParts [.mg] s (State.setPldm s st) := by
  unfold State.setPldm
  try dsimp only
  refine onlyParts.set_mg ?_ rfl
  exact onlyParts.rfl'

theorem execQueryDeviceIdentifiers_only {s : Sys2Proof.Machine.State} {t0 : State} (e0 : execQueryDeviceIdentifiers s = .next t0) : onlyParts [.mg] s t0 := by
  unfold execQueryDeviceIdentifiers at e0
  injection e0 with e0
  rw [← e0]
  clear e0
  try dsimp only
  refine onlyParts.ite .rfl' (fun h1 => ?_)
  refine onlyParts.after (State.say_only ..) rfl ?_
  exact h1

theorem execGetFirmwareParameters_only {s : Sys2Proof.Machine.State} {t0 : State} (e0 : execGetFirmwareParameters s = .next t0) : onlyParts [.mg] s t0 := by
  unfold execGetFirmwareParameters at e0
  injection e0 with e0
  rw [← e0]
  clear e0
  try dsimp only
  refine onlyParts.ite .rfl' (fun h1 => ?_)
  refine onlyParts.after (State.say_only ..) rfl ?_
  exact h1

theorem execRequestUpdate_only {maxTransfer : ℕ} {s : Sys2Proof.Machine.State} {t0 : State} (e0 : execRequestUpdate maxTransfer s = .next t0) : onlyParts [.mg] s t0 := by
  unfold execRequestUpdate at e0
  injection e0 with e0
  rw [← e0]
  clear e0
  try dsimp only
  refine onlyParts.ite ?_ (fun h1 => ?_)
  · refine onlyParts.ite ?_ (fun h2 => ?_)
    · refine onlyParts.ite ?_ (fun h3 => ?_)
      · refine onlyParts.after (State.say_only ..) rfl ?_
        refine onlyParts.after (State.setPldm_only ..) rfl ?_
        exact onlyParts.rfl'
      · refine onlyParts.after (State.say_only ..) rfl ?_
        exact onlyParts.rfl'
    · refine onlyParts.after (State.say_only ..) rfl ?_
      exact onlyParts.rfl'
  · exact onlyParts.rfl'

theorem execPassComponentTable_only {comp : ℕ} {s : Sys2Proof.Machine.State} {t0 : State} (e0 : execPassComponentTable comp s = .next t0) : onlyParts [.mg] s t0 := by
  unfold execPassComponentTable at e0
  injection e0 with e0
  rw [← e0]
  clear e0
  try dsimp only
  refine onlyParts.ite ?_ (fun h1 => ?_)
  · refine onlyParts.ite ?_ (fun h2 => ?_)
    · refine onlyParts.after (State.say_only ..) rfl ?_
      refine onlyParts.after (State.setPldm_only ..) rfl ?_
      exact onlyParts.rfl'
    · refine onlyParts.after (State.say_only ..) rfl ?_
      exact onlyParts.rfl'
  · exact onlyParts.rfl'

theorem State.pullBody_only (s : Sys2Proof.Machine.State) (off : ℕ) (data : List Sys2Proof.Byte) : onlyParts [.bt, .mem, .marks, .flaws] s (State.pullBody s off data) := by
  unfold State.pullBody
  try dsimp only
  refine onlyParts.ite ?_ (fun h1 => ?_)
  · split
    · try dsimp only
      refine onlyParts.ite .rfl' (fun h2 => ?_)
      refine onlyParts.after (State.stageBlock_only ..) rfl ?_
      exact h2
    · exact onlyParts.rfl'
  · refine onlyParts.set_bt ?_ rfl
    exact onlyParts.rfl'

theorem execRequestFirmwareData_only {off : ℕ} {data : List Sys2Proof.Byte} {s : Sys2Proof.Machine.State} {t0 : State} (e0 : execRequestFirmwareData off data s = .next t0) : onlyParts [.bt, .mem, .marks, .flaws, .mg] s t0 := by
  unfold execRequestFirmwareData at e0
  injection e0 with e0
  rw [← e0]
  clear e0
  try dsimp only
  refine onlyParts.ite ?_ (fun h1 => ?_)
  · refine onlyParts.ite ?_ (fun h2 => ?_)
    · refine onlyParts.after (State.pullBody_only ..) rfl ?_
      refine onlyParts.set_mg ?_ rfl
      exact onlyParts.rfl'
    · refine onlyParts.set_mg ?_ rfl
      exact onlyParts.rfl'
  · exact onlyParts.rfl'

theorem State.dropPldm_only (s : Sys2Proof.Machine.State) (status : ℕ) : onlyParts [.bt, .fns, .pool, .mg, .ctr] s (State.dropPldm s status) := by
  unfold State.dropPldm
  try dsimp only
  split
  · try dsimp only
    refine onlyParts.ite .rfl' (fun h1 => ?_)
    refine onlyParts.after (State.firmware_only ..) rfl ?_
    refine onlyParts.set_bt ?_ rfl
    refine onlyParts.after (State.dropStaging_only ..) rfl ?_
    exact h1
  · exact onlyParts.rfl'

theorem execTransferComplete_only {result : ℕ} {s : Sys2Proof.Machine.State} {t0 : State} (e0 : execTransferComplete result s = .next t0) : onlyParts [.bt, .fns, .pool, .mg, .ctr] s t0 := by
  unfold execTransferComplete at e0
  injection e0 with e0
  rw [← e0]
  clear e0
  try dsimp only
  refine onlyParts.ite ?_ (fun h1 => ?_)
  · refine onlyParts.ite ?_ (fun h2 => ?_)
    · refine onlyParts.after (State.say_only ..) rfl ?_
      refine onlyParts.after (State.setPldm_only ..) rfl ?_
      refine onlyParts.after (State.dropPldm_only ..) rfl ?_
      exact onlyParts.rfl'
    · refine onlyParts.after (State.say_only ..) rfl ?_
      refine onlyParts.after (State.setPldm_only ..) rfl ?_
      exact onlyParts.rfl'
  · exact onlyParts.rfl'

theorem execApplyComplete_only {s : Sys2Proof.Machine.State} {t0 : State} (e0 : execApplyComplete s = .next t0) : onlyParts [.mg] s t0 := by
  unfold execApplyComplete at e0
  injection e0 with e0
  rw [← e0]
  clear e0
  try dsimp only
  refine onlyParts.ite .rfl' (fun h1 => ?_)
  refine onlyParts.after (State.say_only ..) rfl ?_
  refine onlyParts.after (State.setPldm_only ..) rfl ?_
  exact h1

theorem execActivateFirmware_only {selfContained : Bool} {s : Sys2Proof.Machine.State} {t0 : State} (e0 : execActivateFirmware selfContained s = .next t0) : onlyParts [.bt, .fns, .mg, .ctr] s t0 := by
  unfold execActivateFirmware at e0
  injection e0 with e0
  rw [← e0]
  clear e0
  try dsimp only
  refine onlyParts.ite ?_ (fun h1 => ?_)
  · refine onlyParts.ite ?_ (fun h2 => ?_)
    · refine onlyParts.ite ?_ (fun h3 => ?_)
      · refine onlyParts.after (State.say_only ..) rfl ?_
        refine onlyParts.after (State.setPldm_only ..) rfl ?_
        refine onlyParts.after (State.askActivation_only ..) rfl ?_
        exact onlyParts.rfl'
      · refine onlyParts.after (State.say_only ..) rfl ?_
        exact onlyParts.rfl'
    · refine onlyParts.after (State.say_only ..) rfl ?_
      exact onlyParts.rfl'
  · exact onlyParts.rfl'

theorem execGetStatus_only {s : Sys2Proof.Machine.State} {t0 : State} (e0 : execGetStatus s = .next t0) : onlyParts [.mg] s t0 := by
  unfold execGetStatus at e0
  injection e0 with e0
  rw [← e0]
  clear e0
  try dsimp only
  refine onlyParts.ite .rfl' (fun h1 => ?_)
  refine onlyParts.after (State.say_only ..) rfl ?_
  exact h1

theorem execCancelUpdateComponent_only {s : Sys2Proof.Machine.State} {t0 : State} (e0 : execCancelUpdateComponent s = .next t0) : onlyParts [.bt, .fns, .pool, .mg, .ctr] s t0 := by
  unfold execCancelUpdateComponent at e0
  injection e0 with e0
  rw [← e0]
  clear e0
  try dsimp only
  refine onlyParts.ite ?_ (fun h1 => ?_)
  · refine onlyParts.ite ?_ (fun h2 => ?_)
    · refine onlyParts.after (State.say_only ..) rfl ?_
      exact onlyParts.rfl'
    · refine onlyParts.after (State.say_only ..) rfl ?_
      refine onlyParts.after (State.setPldm_only ..) rfl ?_
      refine onlyParts.after (State.dropPldm_only ..) rfl ?_
      exact onlyParts.rfl'
  · exact onlyParts.rfl'

theorem execCancelUpdate_only {s : Sys2Proof.Machine.State} {t0 : State} (e0 : execCancelUpdate s = .next t0) : onlyParts [.bt, .fns, .pool, .mg, .ctr] s t0 := by
  unfold execCancelUpdate at e0
  injection e0 with e0
  rw [← e0]
  clear e0
  try dsimp only
  refine onlyParts.ite ?_ (fun h1 => ?_)
  · refine onlyParts.ite ?_ (fun h2 => ?_)
    · refine onlyParts.after (State.say_only ..) rfl ?_
      refine onlyParts.after (State.setPldm_only ..) rfl ?_
      refine onlyParts.after (State.dropPldm_only ..) rfl ?_
      exact onlyParts.rfl'
    · refine onlyParts.after (State.say_only ..) rfl ?_
      exact onlyParts.rfl'
  · exact onlyParts.rfl'

theorem execSettingsRead_only {s : Sys2Proof.Machine.State} {t0 : State} (e0 : execSettingsRead s = .next t0) : onlyParts [.mg] s t0 := by
  unfold execSettingsRead at e0
  injection e0 with e0
  rw [← e0]
  clear e0
  try dsimp only
  refine onlyParts.ite .rfl' (fun h1 => ?_)
  refine onlyParts.after (State.say_only ..) rfl ?_
  exact h1

theorem execSettingsWrite_only {page : List Sys2Proof.Byte} {s : Sys2Proof.Machine.State} {t0 : State} (e0 : execSettingsWrite page s = .next t0) : onlyParts [.bt, .mg] s t0 := by
  unfold execSettingsWrite at e0
  injection e0 with e0
  rw [← e0]
  clear e0
  try dsimp only
  refine onlyParts.ite ?_ (fun h1 => ?_)
  · refine onlyParts.ite ?_ (fun h2 => ?_)
    · refine onlyParts.after (State.say_only ..) rfl ?_
      exact onlyParts.rfl'
    · refine onlyParts.after (State.say_only ..) rfl ?_
      refine onlyParts.after (State.queuePage_only ..) rfl ?_
      exact onlyParts.rfl'
  · exact onlyParts.rfl'

theorem execCapSet_only {cap : ℕ} {persist : Bool} {s : Sys2Proof.Machine.State} {t0 : State} (e0 : execCapSet cap persist s = .next t0) : onlyParts [.pw, .bt, .fns, .mg, .ctr] s t0 := by
  unfold execCapSet at e0
  injection e0 with e0
  rw [← e0]
  clear e0
  try dsimp only
  refine onlyParts.ite ?_ (fun h1 => ?_)
  · refine onlyParts.ite ?_ (fun h2 => ?_)
    · refine onlyParts.after (State.say_only ..) rfl ?_
      refine onlyParts.ite ?_ (fun h3 => ?_)
      · refine onlyParts.ite ?_ (fun h4 => ?_)
        · refine onlyParts.after (State.power_only ..) rfl ?_
          refine onlyParts.set_pw ?_ rfl
          exact onlyParts.rfl'
        · refine onlyParts.set_pw ?_ rfl
          exact onlyParts.rfl'
      · refine onlyParts.after (State.queueSettings_only ..) rfl ?_
        exact h3
    · refine onlyParts.after (State.say_only ..) rfl ?_
      exact onlyParts.rfl'
  · exact onlyParts.rfl'

theorem execCalibrationTransfer_only {part : ℕ} {data : List Sys2Proof.Byte} {s : Sys2Proof.Machine.State} {t0 : State} (e0 : execCalibrationTransfer part data s = .next t0) : onlyParts [.bt, .mg] s t0 := by
  unfold execCalibrationTransfer at e0
  injection e0 with e0
  rw [← e0]
  clear e0
  try dsimp only
  refine onlyParts.ite ?_ (fun h1 => ?_)
  · refine onlyParts.ite ?_ (fun h2 => ?_)
    · refine onlyParts.ite ?_ (fun h3 => ?_)
      · refine onlyParts.ite ?_ (fun h4 => ?_)
        · refine onlyParts.ite ?_ (fun h5 => ?_)
          · refine onlyParts.after (State.say_only ..) rfl ?_
            refine onlyParts.after (State.queueCal_only ..) rfl ?_
            refine onlyParts.set_mg ?_ rfl
            exact onlyParts.rfl'
          · refine onlyParts.after (State.say_only ..) rfl ?_
            refine onlyParts.set_mg ?_ rfl
            exact onlyParts.rfl'
        · refine onlyParts.after (State.say_only ..) rfl ?_
          refine onlyParts.set_mg ?_ rfl
          exact onlyParts.rfl'
      · refine onlyParts.after (State.say_only ..) rfl ?_
        refine onlyParts.set_mg ?_ rfl
        exact onlyParts.rfl'
    · refine onlyParts.after (State.say_only ..) rfl ?_
      exact onlyParts.rfl'
  · exact onlyParts.rfl'

/-! ### Machine/Reports.lean -/

theorem State.releaseImage_only (s : Sys2Proof.Machine.State) (q : ℕ) : onlyParts [.pool, .quads] s (State.releaseImage s q) := by
  unfold State.releaseImage
  try dsimp only
  refine onlyParts.after (State.updQuad_only ..) rfl ?_
  refine onlyParts.ite ?_ (fun h1 => ?_)
  · refine onlyParts.set_pool ?_ rfl
    exact onlyParts.rfl'
  · exact onlyParts.rfl'

theorem State.readmit_only (s : Sys2Proof.Machine.State) (q : ℕ) (row : ℕ) (col : ℕ) : onlyParts [.mem, .marks, .flaws, .quads, .sv, .ctr] s (State.readmit s q row col) := by
  unfold State.readmit
  try dsimp only
  split
  · try dsimp only
    refine onlyParts.set_mem_marks ?_ rfl
    refine onlyParts.after (State.mend_only ..) rfl ?_
    refine onlyParts.set_sv ?_ rfl
    refine onlyParts.foldl ?_ (fun _ _ h1 => ?_)
    · refine onlyParts.after (State.updQuad_only ..) rfl ?_
      exact onlyParts.rfl'
    · try dsimp only
      refine onlyParts.after (State.setCtr_only ..) rfl ?_
      exact h1
  · try dsimp only
    refine onlyParts.set_sv ?_ rfl
    refine onlyParts.foldl ?_ (fun _ _ h2 => ?_)
    · refine onlyParts.after (State.updQuad_only ..) rfl ?_
      exact onlyParts.rfl'
    · try dsimp only
      refine onlyParts.after (State.setCtr_only ..) rfl ?_
      exact h2

theorem execUnitTestDone_only {q : ℕ} {pass : Bool} {s : Sys2Proof.Machine.State} {t0 : State} (e0 : execUnitTestDone q pass s = .next t0) : onlyParts [.fns, .mem, .marks, .flaws, .quads, .sv, .mg, .ctr] s t0 := by
  unfold execUnitTestDone at e0
  injection e0 with e0
  rw [← e0]
  clear e0
  try dsimp only
  split
  · exact onlyParts.rfl'
  try dsimp only
  refine onlyParts.ite ?_ (fun h1 => ?_)
  · refine onlyParts.ite ?_ (fun h2 => ?_)
    · refine onlyParts.after (State.updQuad_only ..) rfl ?_
      refine onlyParts.ite ?_ (fun h3 => ?_)
      · refine onlyParts.after (State.declareDead_only ..) rfl ?_
        exact onlyParts.rfl'
      · refine onlyParts.ite .rfl' (fun h4 => ?_)
        refine onlyParts.after (State.readmit_only ..) rfl ?_
        exact h4
    · refine onlyParts.after (State.updQuad_only ..) rfl ?_
      refine onlyParts.after (State.completeOpt_only ..) rfl ?_
      exact h2
  · exact onlyParts.rfl'

theorem State.understudyRule_only (p : Sys2Proof.Machine.Pkt) (s : Sys2Proof.Machine.State) : onlyParts [.hostMem, .ctr] s (State.understudyRule p s).1 := by
  unfold State.understudyRule
  try dsimp only
  refine onlyParts.after (State.report_only ..) rfl ?_
  exact onlyParts.rfl'

theorem State.understudyRule_only' {p : Sys2Proof.Machine.Pkt} {s : Sys2Proof.Machine.State} {t0 : State} {o0 : _} (e0 : State.understudyRule p s = (t0, o0)) : onlyParts [.hostMem, .ctr] s t0 := by
  have h := State.understudyRule_only p s
  rw [e0] at h
  exact h

theorem execUnderstudyMap_only {f : ℕ} {slot : ℕ} {s : Sys2Proof.Machine.State} {t0 : State} (e0 : execUnderstudyMap f slot s = .next t0) : onlyParts [.pw, .fns, .hostMem, .mg, .ctr] s t0 := by
  unfold execUnderstudyMap at e0
  injection e0 with e0
  rw [← e0]
  exact State.command_only (fun _ _ => onlyParts.mono (State.understudyRule_only ..) rfl) rfl

/-! ### Machine/Tick.lean -/

theorem State.deliverDue_only (s : Sys2Proof.Machine.State) (q : ℕ) : onlyParts [.quads, .ctr] s (State.deliverDue s q) := by
  unfold State.deliverDue
  try dsimp only
  refine onlyParts.ite ?_ (fun h1 => ?_)
  · refine onlyParts.foldl ?_ (fun _ _ h5 => ?_)
    · refine onlyParts.foldl (onlyParts.rfl') (fun _ _ h2 => ?_)
      try dsimp only
      · try dsimp only
        · try dsimp only
          refine onlyParts.ite h2 (fun h3 => ?_)
          refine onlyParts.ite ?_ (fun h4 => ?_)
          · refine onlyParts.after (State.cuCount_only ..) rfl ?_
            refine onlyParts.after (State.progress_only ..) rfl ?_
            refine onlyParts.after (State.updQuad_only ..) rfl ?_
            exact h3
          · refine onlyParts.after (State.progress_only ..) rfl ?_
            refine onlyParts.after (State.updQuad_only ..) rfl ?_
            exact h3
    · try dsimp only
      · try dsimp only
        · try dsimp only
          refine onlyParts.ite h5 (fun h6 => ?_)
          refine onlyParts.after (State.progress_only ..) rfl ?_
          refine onlyParts.after (State.updQuad_only ..) rfl ?_
          exact h6
  · exact onlyParts.rfl'

theorem State.countIn_only (s : Sys2Proof.Machine.State) (k : Sys2Proof.Site) (g : Option Sys2Proof.Machine.SiteCfg) (n : ℕ) : onlyParts [.ctr] s (State.countIn s k g n) := by
  unfold State.countIn
  try dsimp only
  refine onlyParts.ite ?_ (fun h1 => ?_)
  · refine onlyParts.ite ?_ (fun h2 => ?_)
    · refine onlyParts.ite .rfl' (fun h3 => ?_)
      refine onlyParts.after (State.queueCount_only ..) rfl ?_
      exact h3
    · refine onlyParts.after (State.queueCount_only ..) rfl ?_
      exact h2
  · refine onlyParts.after (State.queueCount_only ..) rfl ?_
    exact h1

theorem State.countOut_only (s : Sys2Proof.Machine.State) (k : Sys2Proof.Site) (n : ℕ) : onlyParts [.ctr] s (State.countOut s k n) := by
  unfold State.countOut
  try dsimp only
  refine onlyParts.ite ?_ (fun h1 => ?_)
  · split
    · try dsimp only
      refine onlyParts.ite ?_ (fun h2 => ?_)
      · refine onlyParts.ite ?_ (fun h3 => ?_)
        · refine onlyParts.ite .rfl' (fun h4 => ?_)
          refine onlyParts.after (State.queueCount_only ..) rfl ?_
          exact h4
        · refine onlyParts.after (State.queueCount_only ..) rfl ?_
          exact h3
      · refine onlyParts.ite ?_ (fun h5 => ?_)
        · refine onlyParts.after (State.bump_only ..) rfl ?_
          exact h2
        · refine onlyParts.after (State.queueCount_only ..) rfl ?_
          exact h5
    · try dsimp only
      refine onlyParts.ite ?_ (fun h6 => ?_)
      · refine onlyParts.ite ?_ (fun h7 => ?_)
        · refine onlyParts.ite .rfl' (fun h8 => ?_)
          refine onlyParts.after (State.queueCount_only ..) rfl ?_
          exact h8
        · refine onlyParts.after (State.queueCount_only ..) rfl ?_
          exact h7
      · refine onlyParts.after (State.queueCount_only ..) rfl ?_
        exact h6
  · refine onlyParts.ite ?_ (fun h9 => ?_)
    · refine onlyParts.ite .rfl' (fun h10 => ?_)
      refine onlyParts.after (State.queueCount_only ..) rfl ?_
      exact h10
    · refine onlyParts.after (State.queueCount_only ..) rfl ?_
      exact h9

theorem State.countAg_only (s : Sys2Proof.Machine.State) (k : Sys2Proof.Site) (g : Sys2Proof.Machine.SiteCfg) (i : ℕ) : onlyParts [.ctr] s (State.countAg s k g i) := by
  unfold State.countAg
  try dsimp only
  refine onlyParts.ite ?_ (fun h1 => ?_)
  · split
    · exact onlyParts.rfl'
    try dsimp only
    refine onlyParts.ite ?_ (fun h2 => ?_)
    · refine onlyParts.ite ?_ (fun h3 => ?_)
      · refine onlyParts.ite ?_ (fun h4 => ?_)
        · refine onlyParts.ite .rfl' (fun h5 => ?_)
          refine onlyParts.after (State.bump_only ..) rfl ?_
          exact h5
        · refine onlyParts.after (State.bump_only ..) rfl ?_
          exact onlyParts.rfl'
      · refine onlyParts.after (State.bump_only ..) rfl ?_
        exact onlyParts.rfl'
    · refine onlyParts.after (State.bump_only ..) rfl ?_
      exact onlyParts.rfl'
  · exact onlyParts.rfl'

theorem State.countSite_only (s : Sys2Proof.Machine.State) (k : Sys2Proof.Site) : onlyParts [.ctr] s (State.countSite s k) := by
  unfold State.countSite
  try dsimp only
  refine onlyParts.ite ?_ (fun h1 => ?_)
  · split
    · try dsimp only
      refine onlyParts.ite ?_ (fun h2 => ?_)
      · refine onlyParts.foldl ?_ (fun _ _ h5 => ?_)
        · refine onlyParts.foldl ?_ (fun _ _ h4 => ?_)
          · refine onlyParts.foldl (onlyParts.rfl') (fun _ _ h3 => ?_)
            try dsimp only
            refine onlyParts.after (State.countIn_only ..) rfl ?_
            exact h3
          · try dsimp only
            refine onlyParts.after (State.countOut_only ..) rfl ?_
            exact h4
        · try dsimp only
          refine onlyParts.after (State.countAg_only ..) rfl ?_
          exact h5
      · refine onlyParts.foldl ?_ (fun _ _ h7 => ?_)
        · refine onlyParts.foldl (onlyParts.rfl') (fun _ _ h6 => ?_)
          try dsimp only
          refine onlyParts.after (State.countIn_only ..) rfl ?_
          exact h6
        · try dsimp only
          refine onlyParts.after (State.countOut_only ..) rfl ?_
          exact h7
    · try dsimp only
      refine onlyParts.foldl ?_ (fun _ _ h9 => ?_)
      · refine onlyParts.foldl (onlyParts.rfl') (fun _ _ h8 => ?_)
        try dsimp only
        refine onlyParts.after (State.countIn_only ..) rfl ?_
        exact h8
      · try dsimp only
        refine onlyParts.after (State.countOut_only ..) rfl ?_
        exact h9
  · exact onlyParts.rfl'

theorem State.countWaits_only (s : Sys2Proof.Machine.State) (q : ℕ) : onlyParts [.ctr] s (State.countWaits s q) := by
  unfold State.countWaits
  try dsimp only
  refine onlyParts.ite ?_ (fun h1 => ?_)
  · refine onlyParts.foldl (onlyParts.rfl') (fun _ _ h2 => ?_)
    try dsimp only
    refine onlyParts.after (State.countSite_only ..) rfl ?_
    exact h2
  · exact onlyParts.rfl'

theorem State.countQueue_only (s : Sys2Proof.Machine.State) (q : ℕ) (tq : ℕ) (n : ℕ) : onlyParts [.ctr] s (State.countQueue s q tq n) := by
  unfold State.countQueue
  try dsimp only
  refine onlyParts.ite ?_ (fun h1 => ?_)
  · split
    · try dsimp only
      refine onlyParts.ite .rfl' (fun h2 => ?_)
      refine onlyParts.after (State.bump_only ..) rfl ?_
      exact h2
    · try dsimp only
      refine onlyParts.ite ?_ (fun h3 => ?_)
      · refine onlyParts.ite ?_ (fun h4 => ?_)
        · split
          · try dsimp only
            refine onlyParts.after (State.bump_only ..) rfl ?_
            exact onlyParts.rfl'
          · try dsimp only
            refine onlyParts.ite .rfl' (fun h5 => ?_)
            refine onlyParts.after (State.bump_only ..) rfl ?_
            exact h5
        · refine onlyParts.ite ?_ (fun h6 => ?_)
          · refine onlyParts.after (State.bump_only ..) rfl ?_
            exact onlyParts.rfl'
          · exact onlyParts.rfl'
      · exact onlyParts.rfl'
  · refine onlyParts.ite .rfl' (fun h7 => ?_)
    refine onlyParts.after (State.bump_only ..) rfl ?_
    exact h7

theorem State.starve_only (s : Sys2Proof.Machine.State) (grp : ℕ) (q : ℕ) (n : ℕ) (empty : List Bool) : onlyParts [.ctr] s (State.starve s grp q n empty) := by
  unfold State.starve
  try dsimp only
  refine onlyParts.foldl (onlyParts.rfl') (fun _ _ h1 => ?_)
  try dsimp only
  · try dsimp only
    refine onlyParts.ite h1 (fun h2 => ?_)
    refine onlyParts.after (State.bump_only ..) rfl ?_
    exact h2

theorem State.countQueues_only (s : Sys2Proof.Machine.State) (q : ℕ) (n : ℕ) : onlyParts [.ctr] s (State.countQueues s q n) := by
  unfold State.countQueues
  try dsimp only
  refine onlyParts.ite ?_ (fun h1 => ?_)
  · refine onlyParts.ite ?_ (fun h2 => ?_)
    · refine onlyParts.foldl ?_ (fun _ _ h4 => ?_)
      · refine onlyParts.ite .rfl' (fun h3 => ?_)
        refine onlyParts.after (State.starve_only ..) rfl ?_
        exact h3
      · try dsimp only
        refine onlyParts.after (State.countQueue_only ..) rfl ?_
        exact h4
    · refine onlyParts.ite .rfl' (fun h5 => ?_)
      refine onlyParts.after (State.starve_only ..) rfl ?_
      exact h5
  · exact onlyParts.rfl'

theorem State.countShared_only (s : Sys2Proof.Machine.State) (n : ℕ) : onlyParts [.ctr] s (State.countShared s n) := by
  unfold State.countShared
  try dsimp only
  refine onlyParts.ite ?_ (fun h1 => ?_)
  · refine onlyParts.after (State.starve_only ..) rfl ?_
    refine onlyParts.after (State.starve_only ..) rfl ?_
    exact onlyParts.rfl'
  · exact onlyParts.rfl'

theorem State.countUs_only (s : Sys2Proof.Machine.State) : onlyParts [.ctr] s (State.countUs s) := by
  unfold State.countUs
  try dsimp only
  refine onlyParts.ite ?_ (fun h1 => ?_)
  · refine onlyParts.foldl ?_ (fun _ _ h4 => ?_)
    · refine onlyParts.foldl ?_ (fun _ _ h2 => ?_)
      · refine onlyParts.after (State.bump_only ..) rfl ?_
        exact onlyParts.rfl'
      · try dsimp only
        refine onlyParts.ite h2 (fun h3 => ?_)
        refine onlyParts.after (State.bump_only ..) rfl ?_
        exact h3
    · try dsimp only
      refine onlyParts.ite h4 (fun h5 => ?_)
      refine onlyParts.after (State.bump_only ..) rfl ?_
      exact h5
  · refine onlyParts.after (State.bump_only ..) rfl ?_
    exact h1

theorem State.markIdle_only (s : Sys2Proof.Machine.State) (q : ℕ) : onlyParts [.pw] s (State.markIdle s q) := by
  unfold State.markIdle
  try dsimp only
  refine onlyParts.ite ?_ (fun h1 => ?_)
  · refine onlyParts.after (State.updQd_only ..) rfl ?_
    exact onlyParts.rfl'
  · exact onlyParts.rfl'

theorem State.settleDue_only (s : Sys2Proof.Machine.State) : onlyParts [.fns, .mem, .marks, .flaws, .hostMem, .pool, .quads, .sv, .fab, .mg, .ctr] s (State.settleDue s) := by
  unfold State.settleDue
  try dsimp only
  refine onlyParts.after (State.settleForming_only ..) rfl ?_
  refine onlyParts.after (State.lostPeers_only ..) rfl ?_
  refine onlyParts.after (State.settleCloses_only ..) rfl ?_
  refine onlyParts.after (State.settleReady_only ..) rfl ?_
  exact onlyParts.rfl'

theorem State.usTick_only (s : Sys2Proof.Machine.State) : onlyParts [.pw, .fns, .mem, .marks, .flaws, .hostMem, .pool, .quads, .sv, .fab, .mg, .ctr] s (State.usTick s) := by
  unfold State.usTick
  try dsimp only
  refine onlyParts.after (State.settleDue_only ..) rfl ?_
  refine onlyParts.foldl ?_ (fun _ _ h1 => ?_)
  · refine onlyParts.after (State.countUs_only ..) rfl ?_
    refine onlyParts.set_pw_quads ?_ rfl
    exact onlyParts.rfl'
  · try dsimp only
    refine onlyParts.after (State.markIdle_only ..) rfl ?_
    exact h1

theorem State.cutGoes_only (s : Sys2Proof.Machine.State) (q : ℕ) : onlyParts [.quads, .sv, .ctr] s (State.cutGoes s q) := by
  unfold State.cutGoes
  try dsimp only
  split
  · exact onlyParts.rfl'
  try dsimp only
  refine onlyParts.ite ?_ (fun h1 => ?_)
  · refine onlyParts.ite ?_ (fun h2 => ?_)
    · refine onlyParts.after (State.updQuad_only ..) rfl ?_
      exact onlyParts.rfl'
    · refine onlyParts.after (State.cutHeads_only ..) rfl ?_
      exact onlyParts.rfl'
  · exact onlyParts.rfl'

theorem State.countCycle_only (s : Sys2Proof.Machine.State) : onlyParts [.pw, .quads, .sv, .ctr] s (State.countCycle s) := by
  unfold State.countCycle
  try dsimp only
  refine onlyParts.ite ?_ (fun h1 => ?_)
  · refine onlyParts.foldl ?_ (fun _ _ h2 => ?_)
    · refine onlyParts.set_pw ?_ rfl
      exact onlyParts.rfl'
    · try dsimp only
      refine onlyParts.after (State.cutGoes_only ..) rfl ?_
      refine onlyParts.ite ?_ (fun h3 => ?_)
      · refine onlyParts.after (State.updQuad_only ..) rfl ?_
        refine onlyParts.after (State.updQuad_only ..) rfl ?_
        exact h2
      · refine onlyParts.after (State.updQuad_only ..) rfl ?_
        exact h2
  · exact onlyParts.rfl'

theorem State.countTime_only (s : Sys2Proof.Machine.State) : onlyParts [.pw, .fns, .mem, .marks, .flaws, .hostMem, .pool, .quads, .sv, .fab, .mg, .ctr] s (State.countTime s) := by
  unfold State.countTime
  try dsimp only
  refine onlyParts.ite ?_ (fun h1 => ?_)
  · refine onlyParts.after (State.usTick_only ..) rfl ?_
    refine onlyParts.set_pw ?_ rfl
    exact onlyParts.rfl'
  · refine onlyParts.set_pw ?_ rfl
    exact onlyParts.rfl'

end Sys2Proof.Machine
end

