-- ==== Sys2Proof/Laws/Memory.lean ====
section
/-! SUPPORT. Reading and writing the memories: a read after a write, and that every memory operation keeps the canonical form. -/

namespace Sys2Proof.Machine

/-! ### One byte -/

/-- An address below a bound that every listed address reaches reads 0. -/
theorem memGet_below : ∀ (m : Mem) (a : Nat), (∀ c ∈ m, a < c.1) → memGet m a = 0
  | [], _, _ => rfl
  | (k, v) :: m, a, h => by simp [memGet, h (k, v) (by simp)]

/-- The canonical form as a list rising in its addresses, with no zero byte. -/
theorem memWf_iff : ∀ m : Mem, memWf m = true ↔ m.Pairwise (fun a b => a.1 < b.1) ∧ ∀ c ∈ m, c.2 ≠ 0
  | [] => by simp [memWf]
  | [(k, v)] => by simp [memWf]
  | (k, v) :: (k', v') :: m => by
    have ih := memWf_iff ((k', v') :: m)
    simp only [memWf, Bool.and_eq_true, bne_iff_ne, ne_eq, decide_eq_true_eq, ih]
    constructor
    · rintro ⟨⟨hv, hk⟩, hp, hz⟩
      refine ⟨List.pairwise_cons.mpr ⟨fun c hc => ?_, hp⟩, ?_⟩
      · rcases List.mem_cons.mp hc with rfl | hc
        · exact hk
        · exact Nat.lt_trans hk ((List.pairwise_cons.mp hp).1 c hc)
      · intro c hc
        rcases List.mem_cons.mp hc with rfl | hc
        · exact hv
        · exact hz c hc
    · rintro ⟨hp, hz⟩
      obtain ⟨h1, h2⟩ := List.pairwise_cons.mp hp
      exact ⟨⟨hz (k, v) (by simp), h1 (k', v') (by simp)⟩, h2, fun c hc => hz c (List.mem_cons_of_mem _ hc)⟩

/-- What the tail of a canonical memory holds. -/
theorem memWf_tail {c : Host.Cell} {m : Mem} (h : memWf (c :: m) = true) : memWf m = true := by
  rw [memWf_iff] at h ⊢
  exact ⟨(List.pairwise_cons.mp h.1).2, fun d hd => h.2 d (List.mem_cons_of_mem _ hd)⟩

/-- Every address that `memPut` lists is the one written or was listed before. -/
theorem memPut_mem : ∀ (m : Mem) (a : Nat) (b : Byte) (c : Host.Cell), c ∈ memPut m a b → c = (a, b) ∧ b ≠ 0 ∨ c ∈ m
  | [], a, b, c, h => by
    unfold memPut at h
    split at h
    · simp at h
    · rename_i hb
      exact .inl ⟨by simpa using h, hb⟩
  | (k, v) :: m, a, b, c, h => by
    unfold memPut at h
    split at h
    · split at h
      · exact .inr h
      · rename_i hb
        rcases List.mem_cons.mp h with rfl | h
        · exact .inl ⟨rfl, hb⟩
        · exact .inr h
    · split at h
      · split at h
        · exact .inr (List.mem_cons_of_mem _ h)
        · rename_i hb
          rcases List.mem_cons.mp h with rfl | h
          · exact .inl ⟨rfl, hb⟩
          · exact .inr (List.mem_cons_of_mem _ h)
      · rcases List.mem_cons.mp h with rfl | h
        · exact .inr (by simp)
        · rcases memPut_mem m a b c h with h | h
          · exact .inl h
          · exact .inr (List.mem_cons_of_mem _ h)

/-- Writing a byte keeps the canonical form. -/
theorem memPut_wf : ∀ (m : Mem) (a : Nat) (b : Byte), memWf m = true → memWf (memPut m a b) = true
  | [], a, b, _ => by
    unfold memPut
    split
    · rfl
    · rename_i h
      simpa [memWf] using h
  | (k, v) :: m, a, b, h => by
    have ht := memWf_tail h
    have ih := memPut_wf m a b ht
    rw [memWf_iff] at h ih ⊢
    obtain ⟨hp, hz⟩ := h
    obtain ⟨h1, h2⟩ := List.pairwise_cons.mp hp
    unfold memPut
    split
    · rename_i hak
      split
      · exact ⟨hp, hz⟩
      · rename_i hb
        refine ⟨List.pairwise_cons.mpr ⟨fun c hc => ?_, hp⟩, fun c hc => ?_⟩
        · rcases List.mem_cons.mp hc with rfl | hc
          · exact hak
          · exact Nat.lt_trans hak (h1 c hc)
        · rcases List.mem_cons.mp hc with rfl | hc
          · exact hb
          · exact hz c hc
    · rename_i hak
      split
      · rename_i he
        split
        · exact ⟨h2, fun c hc => hz c (List.mem_cons_of_mem _ hc)⟩
        · rename_i hb
          refine ⟨List.pairwise_cons.mpr ⟨fun c hc => he ▸ h1 c hc, h2⟩, fun c hc => ?_⟩
          rcases List.mem_cons.mp hc with rfl | hc
          · exact hb
          · exact hz c (List.mem_cons_of_mem _ hc)
      · rename_i hne
        refine ⟨List.pairwise_cons.mpr ⟨fun c hc => ?_, ih.1⟩, fun c hc => ?_⟩
        · rcases memPut_mem m a b c hc with ⟨rfl, _⟩ | hc
          · show k < a
            omega
          · exact h1 c hc
        · rcases List.mem_cons.mp hc with rfl | hc
          · exact hz _ (by simp)
          · exact ih.2 c hc

/-- A byte reads as it was written, and every other byte as before. -/
theorem memGet_memPut : ∀ (m : Mem) (a i : Nat) (b : Byte), memWf m = true → memGet (memPut m a b) i = if i = a then b else memGet m i
  | [], a, i, b, _ => by
    unfold memPut
    split
    · rename_i hb
      simp [memGet, hb]
    · by_cases h : i = a
      · simp [memGet, h]
      · simp [memGet, h]
  | (k, v) :: m, a, i, b, h => by
    have ih := memGet_memPut m a i b (memWf_tail h)
    have hbelow : ∀ x, x ≤ k → memGet m x = 0 := by
      rw [memWf_iff] at h
      intro x hx
      exact memGet_below m x (fun c hc => Nat.lt_of_le_of_lt hx ((List.pairwise_cons.mp h.1).1 c hc))
    unfold memPut
    split
    · rename_i hak
      split
      · rename_i hb
        by_cases hi : i = a
        · subst hi
          simp [memGet, hak, hb]
        · simp [hi]
      · by_cases hi : i = a
        · simp [memGet, hi]
        · by_cases hl : i < a
          · have : i < k := Nat.lt_trans hl hak
            simp [memGet, hi, hl, this]
          · simp [memGet, hi, hl]
    · split
      · rename_i hak he
        subst he
        split
        · rename_i hb
          by_cases hi : i = a
          · subst hi
            simp [hb, hbelow i (Nat.le_refl i)]
          · by_cases hl : i < a
            · simp [memGet, hi, hl, hbelow i (Nat.le_of_lt hl)]
            · simp [memGet, hi, hl]
        · by_cases hi : i = a
          · simp [memGet, hi]
          · simp [memGet, hi]
      · rename_i hak hne
        by_cases hl : i < k
        · have hia : i ≠ a := by omega
          simp [memGet, hl, hia]
        · by_cases hk : i = k
          · have hia : i ≠ a := by omega
            have hka : k ≠ a := fun h => hne h.symm
            simp [memGet, hk, hka]
          · simp [memGet, hl, hk, ih]

/-! ### Several bytes -/

theorem memWrite_wf : ∀ (bs : List Byte) (m : Mem) (a : Nat), memWf m = true → memWf (memWrite m a bs) = true
  | [], _, _, h => h
  | b :: bs, m, a, h => memWrite_wf bs (memPut m a b) (a + 1) (memPut_wf m a b h)

/-- After a write of bytes from a, byte i of them stands at a + i and every address outside reads as before. -/
theorem memGet_memWrite : ∀ (bs : List Byte) (m : Mem) (a i : Nat), memWf m = true →
    memGet (memWrite m a bs) i = if a ≤ i ∧ i < a + bs.length then bs.getD (i - a) 0 else memGet m i
  | [], m, a, i, _ => by
    have : ¬ (a ≤ i ∧ i < a + ([] : List Byte).length) := by simp
    rw [if_neg this]
    rfl
  | b :: bs, m, a, i, h => by
    have ih := memGet_memWrite bs (memPut m a b) (a + 1) i (memPut_wf m a b h)
    rw [memWrite, ih, memGet_memPut m a i b h]
    simp only [List.length_cons]
    by_cases h1 : a + 1 ≤ i ∧ i < a + 1 + bs.length
    · have h2 : a ≤ i ∧ i < a + (bs.length + 1) := by omega
      rw [if_pos h1, if_pos h2]
      have h3 : i - a = (i - (a + 1)) + 1 := by omega
      rw [h3, List.getD_cons_succ]
    · rw [if_neg h1]
      by_cases h2 : i = a
      · have h3 : a ≤ i ∧ i < a + (bs.length + 1) := by omega
        rw [if_pos h2, if_pos h3, h2, Nat.sub_self]
        rfl
      · have h3 : ¬ (a ≤ i ∧ i < a + (bs.length + 1)) := by omega
        rw [if_neg h2, if_neg h3]

theorem memPuts_wf : ∀ (cs m : Mem), memWf m = true → memWf (memPuts m cs) = true
  | [], _, h => h
  | c :: cs, m, h => memPuts_wf cs (memPut m c.1 c.2) (memPut_wf m c.1 c.2 h)

/-- Removing cells keeps the canonical form. -/
theorem filter_wf (m : Mem) (p : Host.Cell → Bool) (h : memWf m = true) : memWf (m.filter p) = true := by
  rw [memWf_iff] at h ⊢
  exact ⟨h.1.filter p, fun c hc => h.2 c (List.mem_filter.mp hc).1⟩

theorem memZero_wf (m : Mem) (a n : Nat) (h : memWf m = true) : memWf (memZero m a n) = true := filter_wf m _ h

theorem memCopy_wf (dst src : Mem) (a n b : Nat) (h : memWf dst = true) : memWf (memCopy dst src a n b) = true :=
  memPuts_wf _ _ (memZero_wf dst b n h)

/-- Cells that are not listed read 0. -/
theorem memGet_absent : ∀ (m : Mem) (i : Nat), (∀ c ∈ m, c.1 ≠ i) → memGet m i = 0
  | [], _, _ => rfl
  | (k, v) :: m, i, h => by
    unfold memGet
    split
    · rfl
    · rw [if_neg (fun e => h (k, v) (by simp) e.symm)]
      exact memGet_absent m i (fun c hc => h c (List.mem_cons_of_mem _ hc))

/-- A zeroed range reads 0, and every address outside it as before. -/
theorem memGet_memZero (a n i : Nat) : ∀ m : Mem, memWf m = true → memGet (memZero m a n) i = if a ≤ i ∧ i < a + n then 0 else memGet m i
  | [], _ => by simp [memZero, memGet]
  | (k, v) :: m, h => by
    have ih := memGet_memZero a n i m (memWf_tail h)
    have hbelow : ∀ x, x ≤ k → memGet m x = 0 := by
      rw [memWf_iff] at h
      intro x hx
      exact memGet_below m x (fun c hc => Nat.lt_of_le_of_lt hx ((List.pairwise_cons.mp h.1).1 c hc))
    by_cases hk : a ≤ k ∧ k < a + n
    · have hz : memZero ((k, v) :: m) a n = memZero m a n := by simp [memZero, hk]
      rw [hz, ih]
      by_cases hi : a ≤ i ∧ i < a + n
      · simp [hi]
      · simp only [if_neg hi]
        by_cases hl : i < k
        · simp [memGet, hl, hbelow i (Nat.le_of_lt hl)]
        · have : i ≠ k := by rintro rfl; exact hi hk
          simp [memGet, hl, this]
    · have hz : memZero ((k, v) :: m) a n = (k, v) :: memZero m a n := by
        rw [memZero, List.filter_cons_of_pos (by simp; omega)]
        rfl
      rw [hz, memGet, memGet, ih]
      by_cases hl : i < k
      · simp [hl]
      · by_cases he : i = k
        · subst he
          simp [hk]
        · simp [hl, he]

/-! ### The state's memories -/

/-- The memories of the reset state are in canonical form. -/
theorem reset_memOk : State.reset.memOk := ⟨rfl, rfl⟩

/-- A device write keeps the canonical form. -/
theorem devWrite_memOk (s : State) (a : Nat) (bs : List Byte) (p : Bool) (h : s.memOk) : (s.devWrite a bs p).memOk := by
  unfold State.devWrite
  split
  · exact ⟨memWrite_wf bs s.mem a h.1, h.2⟩
  · exact h

end Sys2Proof.Machine
end

