-- ==== Sys2Proof/Laws/State.lean ====
section
/-! SUPPORT. What each update of the state leaves of every field, and what it writes, so that no proof unfolds a record update. -/

namespace Sys2Proof.Machine

/-! ### updFn -/

@[simp] theorem State.updFn_pw (s : State) (f : Nat) (g : Fn → Fn) : (s.updFn f g).pw = s.pw := rfl
@[simp] theorem State.updFn_bt (s : State) (f : Nat) (g : Fn → Fn) : (s.updFn f g).bt = s.bt := rfl
@[simp] theorem State.updFn_cores (s : State) (f : Nat) (g : Fn → Fn) : (s.updFn f g).cores = s.cores := rfl
@[simp] theorem State.updFn_shared (s : State) (f : Nat) (g : Fn → Fn) : (s.updFn f g).shared = s.shared := rfl
@[simp] theorem State.updFn_mem (s : State) (f : Nat) (g : Fn → Fn) : (s.updFn f g).mem = s.mem := rfl
@[simp] theorem State.updFn_marks (s : State) (f : Nat) (g : Fn → Fn) : (s.updFn f g).marks = s.marks := rfl
@[simp] theorem State.updFn_flaws (s : State) (f : Nat) (g : Fn → Fn) : (s.updFn f g).flaws = s.flaws := rfl
@[simp] theorem State.updFn_hostMem (s : State) (f : Nat) (g : Fn → Fn) : (s.updFn f g).hostMem = s.hostMem := rfl
@[simp] theorem State.updFn_hostMarks (s : State) (f : Nat) (g : Fn → Fn) : (s.updFn f g).hostMarks = s.hostMarks := rfl
@[simp] theorem State.updFn_pool (s : State) (f : Nat) (g : Fn → Fn) : (s.updFn f g).pool = s.pool := rfl
@[simp] theorem State.updFn_quads (s : State) (f : Nat) (g : Fn → Fn) : (s.updFn f g).quads = s.quads := rfl
@[simp] theorem State.updFn_sv (s : State) (f : Nat) (g : Fn → Fn) : (s.updFn f g).sv = s.sv := rfl
@[simp] theorem State.updFn_fab (s : State) (f : Nat) (g : Fn → Fn) : (s.updFn f g).fab = s.fab := rfl
@[simp] theorem State.updFn_mg (s : State) (f : Nat) (g : Fn → Fn) : (s.updFn f g).mg = s.mg := rfl
@[simp] theorem State.updFn_ctr (s : State) (f : Nat) (g : Fn → Fn) : (s.updFn f g).ctr = s.ctr := rfl
@[simp] theorem State.updFn_free (s : State) (f : Nat) (g : Fn → Fn) : (s.updFn f g).free = s.free := rfl
@[simp] theorem State.updFn_readData (s : State) (f : Nat) (g : Fn → Fn) : (s.updFn f g).readData = s.readData := rfl
@[simp] theorem State.updFn_pending (s : State) (f : Nat) (g : Fn → Fn) : (s.updFn f g).pending = s.pending := rfl

/-! ### updSlot -/

@[simp] theorem State.updSlot_pw (s : State) (f n : Nat) (g : Slot → Slot) : (s.updSlot f n g).pw = s.pw := rfl
@[simp] theorem State.updSlot_bt (s : State) (f n : Nat) (g : Slot → Slot) : (s.updSlot f n g).bt = s.bt := rfl
@[simp] theorem State.updSlot_cores (s : State) (f n : Nat) (g : Slot → Slot) : (s.updSlot f n g).cores = s.cores := rfl
@[simp] theorem State.updSlot_shared (s : State) (f n : Nat) (g : Slot → Slot) : (s.updSlot f n g).shared = s.shared := rfl
@[simp] theorem State.updSlot_mem (s : State) (f n : Nat) (g : Slot → Slot) : (s.updSlot f n g).mem = s.mem := rfl
@[simp] theorem State.updSlot_marks (s : State) (f n : Nat) (g : Slot → Slot) : (s.updSlot f n g).marks = s.marks := rfl
@[simp] theorem State.updSlot_flaws (s : State) (f n : Nat) (g : Slot → Slot) : (s.updSlot f n g).flaws = s.flaws := rfl
@[simp] theorem State.updSlot_hostMem (s : State) (f n : Nat) (g : Slot → Slot) : (s.updSlot f n g).hostMem = s.hostMem := rfl
@[simp] theorem State.updSlot_hostMarks (s : State) (f n : Nat) (g : Slot → Slot) : (s.updSlot f n g).hostMarks = s.hostMarks := rfl
@[simp] theorem State.updSlot_pool (s : State) (f n : Nat) (g : Slot → Slot) : (s.updSlot f n g).pool = s.pool := rfl
@[simp] theorem State.updSlot_quads (s : State) (f n : Nat) (g : Slot → Slot) : (s.updSlot f n g).quads = s.quads := rfl
@[simp] theorem State.updSlot_sv (s : State) (f n : Nat) (g : Slot → Slot) : (s.updSlot f n g).sv = s.sv := rfl
@[simp] theorem State.updSlot_fab (s : State) (f n : Nat) (g : Slot → Slot) : (s.updSlot f n g).fab = s.fab := rfl
@[simp] theorem State.updSlot_mg (s : State) (f n : Nat) (g : Slot → Slot) : (s.updSlot f n g).mg = s.mg := rfl
@[simp] theorem State.updSlot_ctr (s : State) (f n : Nat) (g : Slot → Slot) : (s.updSlot f n g).ctr = s.ctr := rfl
@[simp] theorem State.updSlot_free (s : State) (f n : Nat) (g : Slot → Slot) : (s.updSlot f n g).free = s.free := rfl
@[simp] theorem State.updSlot_readData (s : State) (f n : Nat) (g : Slot → Slot) : (s.updSlot f n g).readData = s.readData := rfl
@[simp] theorem State.updSlot_pending (s : State) (f n : Nat) (g : Slot → Slot) : (s.updSlot f n g).pending = s.pending := rfl

/-! ### updQuad -/

@[simp] theorem State.updQuad_pw (s : State) (q : Nat) (g : Quad → Quad) : (s.updQuad q g).pw = s.pw := rfl
@[simp] theorem State.updQuad_bt (s : State) (q : Nat) (g : Quad → Quad) : (s.updQuad q g).bt = s.bt := rfl
@[simp] theorem State.updQuad_fns (s : State) (q : Nat) (g : Quad → Quad) : (s.updQuad q g).fns = s.fns := rfl
@[simp] theorem State.updQuad_cores (s : State) (q : Nat) (g : Quad → Quad) : (s.updQuad q g).cores = s.cores := rfl
@[simp] theorem State.updQuad_shared (s : State) (q : Nat) (g : Quad → Quad) : (s.updQuad q g).shared = s.shared := rfl
@[simp] theorem State.updQuad_mem (s : State) (q : Nat) (g : Quad → Quad) : (s.updQuad q g).mem = s.mem := rfl
@[simp] theorem State.updQuad_marks (s : State) (q : Nat) (g : Quad → Quad) : (s.updQuad q g).marks = s.marks := rfl
@[simp] theorem State.updQuad_flaws (s : State) (q : Nat) (g : Quad → Quad) : (s.updQuad q g).flaws = s.flaws := rfl
@[simp] theorem State.updQuad_hostMem (s : State) (q : Nat) (g : Quad → Quad) : (s.updQuad q g).hostMem = s.hostMem := rfl
@[simp] theorem State.updQuad_hostMarks (s : State) (q : Nat) (g : Quad → Quad) : (s.updQuad q g).hostMarks = s.hostMarks := rfl
@[simp] theorem State.updQuad_pool (s : State) (q : Nat) (g : Quad → Quad) : (s.updQuad q g).pool = s.pool := rfl
@[simp] theorem State.updQuad_sv (s : State) (q : Nat) (g : Quad → Quad) : (s.updQuad q g).sv = s.sv := rfl
@[simp] theorem State.updQuad_fab (s : State) (q : Nat) (g : Quad → Quad) : (s.updQuad q g).fab = s.fab := rfl
@[simp] theorem State.updQuad_mg (s : State) (q : Nat) (g : Quad → Quad) : (s.updQuad q g).mg = s.mg := rfl
@[simp] theorem State.updQuad_ctr (s : State) (q : Nat) (g : Quad → Quad) : (s.updQuad q g).ctr = s.ctr := rfl
@[simp] theorem State.updQuad_free (s : State) (q : Nat) (g : Quad → Quad) : (s.updQuad q g).free = s.free := rfl
@[simp] theorem State.updQuad_readData (s : State) (q : Nat) (g : Quad → Quad) : (s.updQuad q g).readData = s.readData := rfl
@[simp] theorem State.updQuad_pending (s : State) (q : Nat) (g : Quad → Quad) : (s.updQuad q g).pending = s.pending := rfl

/-! ### updQd -/

@[simp] theorem State.updQd_bt (s : State) (q : Nat) (g : QDim → QDim) : (s.updQd q g).bt = s.bt := rfl
@[simp] theorem State.updQd_fns (s : State) (q : Nat) (g : QDim → QDim) : (s.updQd q g).fns = s.fns := rfl
@[simp] theorem State.updQd_cores (s : State) (q : Nat) (g : QDim → QDim) : (s.updQd q g).cores = s.cores := rfl
@[simp] theorem State.updQd_shared (s : State) (q : Nat) (g : QDim → QDim) : (s.updQd q g).shared = s.shared := rfl
@[simp] theorem State.updQd_mem (s : State) (q : Nat) (g : QDim → QDim) : (s.updQd q g).mem = s.mem := rfl
@[simp] theorem State.updQd_marks (s : State) (q : Nat) (g : QDim → QDim) : (s.updQd q g).marks = s.marks := rfl
@[simp] theorem State.updQd_flaws (s : State) (q : Nat) (g : QDim → QDim) : (s.updQd q g).flaws = s.flaws := rfl
@[simp] theorem State.updQd_hostMem (s : State) (q : Nat) (g : QDim → QDim) : (s.updQd q g).hostMem = s.hostMem := rfl
@[simp] theorem State.updQd_hostMarks (s : State) (q : Nat) (g : QDim → QDim) : (s.updQd q g).hostMarks = s.hostMarks := rfl
@[simp] theorem State.updQd_pool (s : State) (q : Nat) (g : QDim → QDim) : (s.updQd q g).pool = s.pool := rfl
@[simp] theorem State.updQd_quads (s : State) (q : Nat) (g : QDim → QDim) : (s.updQd q g).quads = s.quads := rfl
@[simp] theorem State.updQd_sv (s : State) (q : Nat) (g : QDim → QDim) : (s.updQd q g).sv = s.sv := rfl
@[simp] theorem State.updQd_fab (s : State) (q : Nat) (g : QDim → QDim) : (s.updQd q g).fab = s.fab := rfl
@[simp] theorem State.updQd_mg (s : State) (q : Nat) (g : QDim → QDim) : (s.updQd q g).mg = s.mg := rfl
@[simp] theorem State.updQd_ctr (s : State) (q : Nat) (g : QDim → QDim) : (s.updQd q g).ctr = s.ctr := rfl
@[simp] theorem State.updQd_free (s : State) (q : Nat) (g : QDim → QDim) : (s.updQd q g).free = s.free := rfl
@[simp] theorem State.updQd_readData (s : State) (q : Nat) (g : QDim → QDim) : (s.updQd q g).readData = s.readData := rfl
@[simp] theorem State.updQd_pending (s : State) (q : Nat) (g : QDim → QDim) : (s.updQd q g).pending = s.pending := rfl

/-! ### updPort -/

@[simp] theorem State.updPort_pw (s : State) (p : Nat) (g : Port → Port) : (s.updPort p g).pw = s.pw := rfl
@[simp] theorem State.updPort_bt (s : State) (p : Nat) (g : Port → Port) : (s.updPort p g).bt = s.bt := rfl
@[simp] theorem State.updPort_fns (s : State) (p : Nat) (g : Port → Port) : (s.updPort p g).fns = s.fns := rfl
@[simp] theorem State.updPort_cores (s : State) (p : Nat) (g : Port → Port) : (s.updPort p g).cores = s.cores := rfl
@[simp] theorem State.updPort_shared (s : State) (p : Nat) (g : Port → Port) : (s.updPort p g).shared = s.shared := rfl
@[simp] theorem State.updPort_mem (s : State) (p : Nat) (g : Port → Port) : (s.updPort p g).mem = s.mem := rfl
@[simp] theorem State.updPort_marks (s : State) (p : Nat) (g : Port → Port) : (s.updPort p g).marks = s.marks := rfl
@[simp] theorem State.updPort_flaws (s : State) (p : Nat) (g : Port → Port) : (s.updPort p g).flaws = s.flaws := rfl
@[simp] theorem State.updPort_hostMem (s : State) (p : Nat) (g : Port → Port) : (s.updPort p g).hostMem = s.hostMem := rfl
@[simp] theorem State.updPort_hostMarks (s : State) (p : Nat) (g : Port → Port) : (s.updPort p g).hostMarks = s.hostMarks := rfl
@[simp] theorem State.updPort_pool (s : State) (p : Nat) (g : Port → Port) : (s.updPort p g).pool = s.pool := rfl
@[simp] theorem State.updPort_quads (s : State) (p : Nat) (g : Port → Port) : (s.updPort p g).quads = s.quads := rfl
@[simp] theorem State.updPort_sv (s : State) (p : Nat) (g : Port → Port) : (s.updPort p g).sv = s.sv := rfl
@[simp] theorem State.updPort_mg (s : State) (p : Nat) (g : Port → Port) : (s.updPort p g).mg = s.mg := rfl
@[simp] theorem State.updPort_ctr (s : State) (p : Nat) (g : Port → Port) : (s.updPort p g).ctr = s.ctr := rfl
@[simp] theorem State.updPort_free (s : State) (p : Nat) (g : Port → Port) : (s.updPort p g).free = s.free := rfl
@[simp] theorem State.updPort_readData (s : State) (p : Nat) (g : Port → Port) : (s.updPort p g).readData = s.readData := rfl
@[simp] theorem State.updPort_pending (s : State) (p : Nat) (g : Port → Port) : (s.updPort p g).pending = s.pending := rfl

/-! ### updJob -/

@[simp] theorem State.updJob_pw (s : State) (id : Nat) (g : Job → Job) : (s.updJob id g).pw = s.pw := rfl
@[simp] theorem State.updJob_bt (s : State) (id : Nat) (g : Job → Job) : (s.updJob id g).bt = s.bt := rfl
@[simp] theorem State.updJob_fns (s : State) (id : Nat) (g : Job → Job) : (s.updJob id g).fns = s.fns := rfl
@[simp] theorem State.updJob_cores (s : State) (id : Nat) (g : Job → Job) : (s.updJob id g).cores = s.cores := rfl
@[simp] theorem State.updJob_shared (s : State) (id : Nat) (g : Job → Job) : (s.updJob id g).shared = s.shared := rfl
@[simp] theorem State.updJob_mem (s : State) (id : Nat) (g : Job → Job) : (s.updJob id g).mem = s.mem := rfl
@[simp] theorem State.updJob_marks (s : State) (id : Nat) (g : Job → Job) : (s.updJob id g).marks = s.marks := rfl
@[simp] theorem State.updJob_flaws (s : State) (id : Nat) (g : Job → Job) : (s.updJob id g).flaws = s.flaws := rfl
@[simp] theorem State.updJob_hostMem (s : State) (id : Nat) (g : Job → Job) : (s.updJob id g).hostMem = s.hostMem := rfl
@[simp] theorem State.updJob_hostMarks (s : State) (id : Nat) (g : Job → Job) : (s.updJob id g).hostMarks = s.hostMarks := rfl
@[simp] theorem State.updJob_pool (s : State) (id : Nat) (g : Job → Job) : (s.updJob id g).pool = s.pool := rfl
@[simp] theorem State.updJob_quads (s : State) (id : Nat) (g : Job → Job) : (s.updJob id g).quads = s.quads := rfl
@[simp] theorem State.updJob_fab (s : State) (id : Nat) (g : Job → Job) : (s.updJob id g).fab = s.fab := rfl
@[simp] theorem State.updJob_mg (s : State) (id : Nat) (g : Job → Job) : (s.updJob id g).mg = s.mg := rfl
@[simp] theorem State.updJob_ctr (s : State) (id : Nat) (g : Job → Job) : (s.updJob id g).ctr = s.ctr := rfl
@[simp] theorem State.updJob_free (s : State) (id : Nat) (g : Job → Job) : (s.updJob id g).free = s.free := rfl
@[simp] theorem State.updJob_readData (s : State) (id : Nat) (g : Job → Job) : (s.updJob id g).readData = s.readData := rfl
@[simp] theorem State.updJob_pending (s : State) (id : Nat) (g : Job → Job) : (s.updJob id g).pending = s.pending := rfl

/-! ### updReq -/

@[simp] theorem State.updReq_pw (s : State) (id : Nat) (g : Req → Req) : (s.updReq id g).pw = s.pw := rfl
@[simp] theorem State.updReq_bt (s : State) (id : Nat) (g : Req → Req) : (s.updReq id g).bt = s.bt := rfl
@[simp] theorem State.updReq_fns (s : State) (id : Nat) (g : Req → Req) : (s.updReq id g).fns = s.fns := rfl
@[simp] theorem State.updReq_cores (s : State) (id : Nat) (g : Req → Req) : (s.updReq id g).cores = s.cores := rfl
@[simp] theorem State.updReq_shared (s : State) (id : Nat) (g : Req → Req) : (s.updReq id g).shared = s.shared := rfl
@[simp] theorem State.updReq_mem (s : State) (id : Nat) (g : Req → Req) : (s.updReq id g).mem = s.mem := rfl
@[simp] theorem State.updReq_marks (s : State) (id : Nat) (g : Req → Req) : (s.updReq id g).marks = s.marks := rfl
@[simp] theorem State.updReq_flaws (s : State) (id : Nat) (g : Req → Req) : (s.updReq id g).flaws = s.flaws := rfl
@[simp] theorem State.updReq_hostMem (s : State) (id : Nat) (g : Req → Req) : (s.updReq id g).hostMem = s.hostMem := rfl
@[simp] theorem State.updReq_hostMarks (s : State) (id : Nat) (g : Req → Req) : (s.updReq id g).hostMarks = s.hostMarks := rfl
@[simp] theorem State.updReq_pool (s : State) (id : Nat) (g : Req → Req) : (s.updReq id g).pool = s.pool := rfl
@[simp] theorem State.updReq_quads (s : State) (id : Nat) (g : Req → Req) : (s.updReq id g).quads = s.quads := rfl
@[simp] theorem State.updReq_fab (s : State) (id : Nat) (g : Req → Req) : (s.updReq id g).fab = s.fab := rfl
@[simp] theorem State.updReq_mg (s : State) (id : Nat) (g : Req → Req) : (s.updReq id g).mg = s.mg := rfl
@[simp] theorem State.updReq_ctr (s : State) (id : Nat) (g : Req → Req) : (s.updReq id g).ctr = s.ctr := rfl
@[simp] theorem State.updReq_free (s : State) (id : Nat) (g : Req → Req) : (s.updReq id g).free = s.free := rfl
@[simp] theorem State.updReq_readData (s : State) (id : Nat) (g : Req → Req) : (s.updReq id g).readData = s.readData := rfl
@[simp] theorem State.updReq_pending (s : State) (id : Nat) (g : Req → Req) : (s.updReq id g).pending = s.pending := rfl

/-! ### updProd -/

@[simp] theorem State.updProd_pw (s : State) (n : Nat) (g : Sys2Proof.Machine.Prod → Sys2Proof.Machine.Prod) : (s.updProd n g).pw = s.pw := rfl
@[simp] theorem State.updProd_bt (s : State) (n : Nat) (g : Sys2Proof.Machine.Prod → Sys2Proof.Machine.Prod) : (s.updProd n g).bt = s.bt := rfl
@[simp] theorem State.updProd_fns (s : State) (n : Nat) (g : Sys2Proof.Machine.Prod → Sys2Proof.Machine.Prod) : (s.updProd n g).fns = s.fns := rfl
@[simp] theorem State.updProd_cores (s : State) (n : Nat) (g : Sys2Proof.Machine.Prod → Sys2Proof.Machine.Prod) : (s.updProd n g).cores = s.cores := rfl
@[simp] theorem State.updProd_shared (s : State) (n : Nat) (g : Sys2Proof.Machine.Prod → Sys2Proof.Machine.Prod) : (s.updProd n g).shared = s.shared := rfl
@[simp] theorem State.updProd_mem (s : State) (n : Nat) (g : Sys2Proof.Machine.Prod → Sys2Proof.Machine.Prod) : (s.updProd n g).mem = s.mem := rfl
@[simp] theorem State.updProd_marks (s : State) (n : Nat) (g : Sys2Proof.Machine.Prod → Sys2Proof.Machine.Prod) : (s.updProd n g).marks = s.marks := rfl
@[simp] theorem State.updProd_flaws (s : State) (n : Nat) (g : Sys2Proof.Machine.Prod → Sys2Proof.Machine.Prod) : (s.updProd n g).flaws = s.flaws := rfl
@[simp] theorem State.updProd_hostMem (s : State) (n : Nat) (g : Sys2Proof.Machine.Prod → Sys2Proof.Machine.Prod) : (s.updProd n g).hostMem = s.hostMem := rfl
@[simp] theorem State.updProd_hostMarks (s : State) (n : Nat) (g : Sys2Proof.Machine.Prod → Sys2Proof.Machine.Prod) : (s.updProd n g).hostMarks = s.hostMarks := rfl
@[simp] theorem State.updProd_pool (s : State) (n : Nat) (g : Sys2Proof.Machine.Prod → Sys2Proof.Machine.Prod) : (s.updProd n g).pool = s.pool := rfl
@[simp] theorem State.updProd_quads (s : State) (n : Nat) (g : Sys2Proof.Machine.Prod → Sys2Proof.Machine.Prod) : (s.updProd n g).quads = s.quads := rfl
@[simp] theorem State.updProd_fab (s : State) (n : Nat) (g : Sys2Proof.Machine.Prod → Sys2Proof.Machine.Prod) : (s.updProd n g).fab = s.fab := rfl
@[simp] theorem State.updProd_mg (s : State) (n : Nat) (g : Sys2Proof.Machine.Prod → Sys2Proof.Machine.Prod) : (s.updProd n g).mg = s.mg := rfl
@[simp] theorem State.updProd_ctr (s : State) (n : Nat) (g : Sys2Proof.Machine.Prod → Sys2Proof.Machine.Prod) : (s.updProd n g).ctr = s.ctr := rfl
@[simp] theorem State.updProd_free (s : State) (n : Nat) (g : Sys2Proof.Machine.Prod → Sys2Proof.Machine.Prod) : (s.updProd n g).free = s.free := rfl
@[simp] theorem State.updProd_readData (s : State) (n : Nat) (g : Sys2Proof.Machine.Prod → Sys2Proof.Machine.Prod) : (s.updProd n g).readData = s.readData := rfl
@[simp] theorem State.updProd_pending (s : State) (n : Nat) (g : Sys2Proof.Machine.Prod → Sys2Proof.Machine.Prod) : (s.updProd n g).pending = s.pending := rfl

/-! ### updClient -/

@[simp] theorem State.updClient_pw (s : State) (id : Nat) (g : Client → Client) : (s.updClient id g).pw = s.pw := rfl
@[simp] theorem State.updClient_bt (s : State) (id : Nat) (g : Client → Client) : (s.updClient id g).bt = s.bt := rfl
@[simp] theorem State.updClient_fns (s : State) (id : Nat) (g : Client → Client) : (s.updClient id g).fns = s.fns := rfl
@[simp] theorem State.updClient_cores (s : State) (id : Nat) (g : Client → Client) : (s.updClient id g).cores = s.cores := rfl
@[simp] theorem State.updClient_shared (s : State) (id : Nat) (g : Client → Client) : (s.updClient id g).shared = s.shared := rfl
@[simp] theorem State.updClient_mem (s : State) (id : Nat) (g : Client → Client) : (s.updClient id g).mem = s.mem := rfl
@[simp] theorem State.updClient_marks (s : State) (id : Nat) (g : Client → Client) : (s.updClient id g).marks = s.marks := rfl
@[simp] theorem State.updClient_flaws (s : State) (id : Nat) (g : Client → Client) : (s.updClient id g).flaws = s.flaws := rfl
@[simp] theorem State.updClient_hostMem (s : State) (id : Nat) (g : Client → Client) : (s.updClient id g).hostMem = s.hostMem := rfl
@[simp] theorem State.updClient_hostMarks (s : State) (id : Nat) (g : Client → Client) : (s.updClient id g).hostMarks = s.hostMarks := rfl
@[simp] theorem State.updClient_pool (s : State) (id : Nat) (g : Client → Client) : (s.updClient id g).pool = s.pool := rfl
@[simp] theorem State.updClient_quads (s : State) (id : Nat) (g : Client → Client) : (s.updClient id g).quads = s.quads := rfl
@[simp] theorem State.updClient_fab (s : State) (id : Nat) (g : Client → Client) : (s.updClient id g).fab = s.fab := rfl
@[simp] theorem State.updClient_mg (s : State) (id : Nat) (g : Client → Client) : (s.updClient id g).mg = s.mg := rfl
@[simp] theorem State.updClient_ctr (s : State) (id : Nat) (g : Client → Client) : (s.updClient id g).ctr = s.ctr := rfl
@[simp] theorem State.updClient_free (s : State) (id : Nat) (g : Client → Client) : (s.updClient id g).free = s.free := rfl
@[simp] theorem State.updClient_readData (s : State) (id : Nat) (g : Client → Client) : (s.updClient id g).readData = s.readData := rfl
@[simp] theorem State.updClient_pending (s : State) (id : Nat) (g : Client → Client) : (s.updClient id g).pending = s.pending := rfl

/-! ### updTaken -/

@[simp] theorem State.updTaken_pw (s : State) (id : Nat) (g : LoanTaken → LoanTaken) : (s.updTaken id g).pw = s.pw := rfl
@[simp] theorem State.updTaken_bt (s : State) (id : Nat) (g : LoanTaken → LoanTaken) : (s.updTaken id g).bt = s.bt := rfl
@[simp] theorem State.updTaken_fns (s : State) (id : Nat) (g : LoanTaken → LoanTaken) : (s.updTaken id g).fns = s.fns := rfl
@[simp] theorem State.updTaken_cores (s : State) (id : Nat) (g : LoanTaken → LoanTaken) : (s.updTaken id g).cores = s.cores := rfl
@[simp] theorem State.updTaken_shared (s : State) (id : Nat) (g : LoanTaken → LoanTaken) : (s.updTaken id g).shared = s.shared := rfl
@[simp] theorem State.updTaken_mem (s : State) (id : Nat) (g : LoanTaken → LoanTaken) : (s.updTaken id g).mem = s.mem := rfl
@[simp] theorem State.updTaken_marks (s : State) (id : Nat) (g : LoanTaken → LoanTaken) : (s.updTaken id g).marks = s.marks := rfl
@[simp] theorem State.updTaken_flaws (s : State) (id : Nat) (g : LoanTaken → LoanTaken) : (s.updTaken id g).flaws = s.flaws := rfl
@[simp] theorem State.updTaken_hostMem (s : State) (id : Nat) (g : LoanTaken → LoanTaken) : (s.updTaken id g).hostMem = s.hostMem := rfl
@[simp] theorem State.updTaken_hostMarks (s : State) (id : Nat) (g : LoanTaken → LoanTaken) : (s.updTaken id g).hostMarks = s.hostMarks := rfl
@[simp] theorem State.updTaken_quads (s : State) (id : Nat) (g : LoanTaken → LoanTaken) : (s.updTaken id g).quads = s.quads := rfl
@[simp] theorem State.updTaken_sv (s : State) (id : Nat) (g : LoanTaken → LoanTaken) : (s.updTaken id g).sv = s.sv := rfl
@[simp] theorem State.updTaken_fab (s : State) (id : Nat) (g : LoanTaken → LoanTaken) : (s.updTaken id g).fab = s.fab := rfl
@[simp] theorem State.updTaken_mg (s : State) (id : Nat) (g : LoanTaken → LoanTaken) : (s.updTaken id g).mg = s.mg := rfl
@[simp] theorem State.updTaken_ctr (s : State) (id : Nat) (g : LoanTaken → LoanTaken) : (s.updTaken id g).ctr = s.ctr := rfl
@[simp] theorem State.updTaken_free (s : State) (id : Nat) (g : LoanTaken → LoanTaken) : (s.updTaken id g).free = s.free := rfl
@[simp] theorem State.updTaken_readData (s : State) (id : Nat) (g : LoanTaken → LoanTaken) : (s.updTaken id g).readData = s.readData := rfl
@[simp] theorem State.updTaken_pending (s : State) (id : Nat) (g : LoanTaken → LoanTaken) : (s.updTaken id g).pending = s.pending := rfl

/-! ### updTq -/

@[simp] theorem State.updTq_pw (s : State) (q tq : Nat) (g : TeQueue → TeQueue) : (s.updTq q tq g).pw = s.pw := rfl
@[simp] theorem State.updTq_bt (s : State) (q tq : Nat) (g : TeQueue → TeQueue) : (s.updTq q tq g).bt = s.bt := rfl
@[simp] theorem State.updTq_fns (s : State) (q tq : Nat) (g : TeQueue → TeQueue) : (s.updTq q tq g).fns = s.fns := rfl
@[simp] theorem State.updTq_cores (s : State) (q tq : Nat) (g : TeQueue → TeQueue) : (s.updTq q tq g).cores = s.cores := rfl
@[simp] theorem State.updTq_shared (s : State) (q tq : Nat) (g : TeQueue → TeQueue) : (s.updTq q tq g).shared = s.shared := rfl
@[simp] theorem State.updTq_mem (s : State) (q tq : Nat) (g : TeQueue → TeQueue) : (s.updTq q tq g).mem = s.mem := rfl
@[simp] theorem State.updTq_marks (s : State) (q tq : Nat) (g : TeQueue → TeQueue) : (s.updTq q tq g).marks = s.marks := rfl
@[simp] theorem State.updTq_flaws (s : State) (q tq : Nat) (g : TeQueue → TeQueue) : (s.updTq q tq g).flaws = s.flaws := rfl
@[simp] theorem State.updTq_hostMem (s : State) (q tq : Nat) (g : TeQueue → TeQueue) : (s.updTq q tq g).hostMem = s.hostMem := rfl
@[simp] theorem State.updTq_hostMarks (s : State) (q tq : Nat) (g : TeQueue → TeQueue) : (s.updTq q tq g).hostMarks = s.hostMarks := rfl
@[simp] theorem State.updTq_pool (s : State) (q tq : Nat) (g : TeQueue → TeQueue) : (s.updTq q tq g).pool = s.pool := rfl
@[simp] theorem State.updTq_sv (s : State) (q tq : Nat) (g : TeQueue → TeQueue) : (s.updTq q tq g).sv = s.sv := rfl
@[simp] theorem State.updTq_fab (s : State) (q tq : Nat) (g : TeQueue → TeQueue) : (s.updTq q tq g).fab = s.fab := rfl
@[simp] theorem State.updTq_mg (s : State) (q tq : Nat) (g : TeQueue → TeQueue) : (s.updTq q tq g).mg = s.mg := rfl
@[simp] theorem State.updTq_ctr (s : State) (q tq : Nat) (g : TeQueue → TeQueue) : (s.updTq q tq g).ctr = s.ctr := rfl
@[simp] theorem State.updTq_free (s : State) (q tq : Nat) (g : TeQueue → TeQueue) : (s.updTq q tq g).free = s.free := rfl
@[simp] theorem State.updTq_readData (s : State) (q tq : Nat) (g : TeQueue → TeQueue) : (s.updTq q tq g).readData = s.readData := rfl
@[simp] theorem State.updTq_pending (s : State) (q tq : Nat) (g : TeQueue → TeQueue) : (s.updTq q tq g).pending = s.pending := rfl

/-! ### updEnt -/

@[simp] theorem State.updEnt_pw (s : State) (q tq n : Nat) (g : TeEnt → TeEnt) : (s.updEnt q tq n g).pw = s.pw := rfl
@[simp] theorem State.updEnt_bt (s : State) (q tq n : Nat) (g : TeEnt → TeEnt) : (s.updEnt q tq n g).bt = s.bt := rfl
@[simp] theorem State.updEnt_fns (s : State) (q tq n : Nat) (g : TeEnt → TeEnt) : (s.updEnt q tq n g).fns = s.fns := rfl
@[simp] theorem State.updEnt_cores (s : State) (q tq n : Nat) (g : TeEnt → TeEnt) : (s.updEnt q tq n g).cores = s.cores := rfl
@[simp] theorem State.updEnt_shared (s : State) (q tq n : Nat) (g : TeEnt → TeEnt) : (s.updEnt q tq n g).shared = s.shared := rfl
@[simp] theorem State.updEnt_mem (s : State) (q tq n : Nat) (g : TeEnt → TeEnt) : (s.updEnt q tq n g).mem = s.mem := rfl
@[simp] theorem State.updEnt_marks (s : State) (q tq n : Nat) (g : TeEnt → TeEnt) : (s.updEnt q tq n g).marks = s.marks := rfl
@[simp] theorem State.updEnt_flaws (s : State) (q tq n : Nat) (g : TeEnt → TeEnt) : (s.updEnt q tq n g).flaws = s.flaws := rfl
@[simp] theorem State.updEnt_hostMem (s : State) (q tq n : Nat) (g : TeEnt → TeEnt) : (s.updEnt q tq n g).hostMem = s.hostMem := rfl
@[simp] theorem State.updEnt_hostMarks (s : State) (q tq n : Nat) (g : TeEnt → TeEnt) : (s.updEnt q tq n g).hostMarks = s.hostMarks := rfl
@[simp] theorem State.updEnt_pool (s : State) (q tq n : Nat) (g : TeEnt → TeEnt) : (s.updEnt q tq n g).pool = s.pool := rfl
@[simp] theorem State.updEnt_sv (s : State) (q tq n : Nat) (g : TeEnt → TeEnt) : (s.updEnt q tq n g).sv = s.sv := rfl
@[simp] theorem State.updEnt_fab (s : State) (q tq n : Nat) (g : TeEnt → TeEnt) : (s.updEnt q tq n g).fab = s.fab := rfl
@[simp] theorem State.updEnt_mg (s : State) (q tq n : Nat) (g : TeEnt → TeEnt) : (s.updEnt q tq n g).mg = s.mg := rfl
@[simp] theorem State.updEnt_ctr (s : State) (q tq n : Nat) (g : TeEnt → TeEnt) : (s.updEnt q tq n g).ctr = s.ctr := rfl
@[simp] theorem State.updEnt_free (s : State) (q tq n : Nat) (g : TeEnt → TeEnt) : (s.updEnt q tq n g).free = s.free := rfl
@[simp] theorem State.updEnt_readData (s : State) (q tq n : Nat) (g : TeEnt → TeEnt) : (s.updEnt q tq n g).readData = s.readData := rfl
@[simp] theorem State.updEnt_pending (s : State) (q tq n : Nat) (g : TeEnt → TeEnt) : (s.updEnt q tq n g).pending = s.pending := rfl

/-! ### updRt -/

@[simp] theorem State.updRt_pw (s : State) (q : Nat) (g : Routing → Routing) : (s.updRt q g).pw = s.pw := rfl
@[simp] theorem State.updRt_bt (s : State) (q : Nat) (g : Routing → Routing) : (s.updRt q g).bt = s.bt := rfl
@[simp] theorem State.updRt_fns (s : State) (q : Nat) (g : Routing → Routing) : (s.updRt q g).fns = s.fns := rfl
@[simp] theorem State.updRt_cores (s : State) (q : Nat) (g : Routing → Routing) : (s.updRt q g).cores = s.cores := rfl
@[simp] theorem State.updRt_shared (s : State) (q : Nat) (g : Routing → Routing) : (s.updRt q g).shared = s.shared := rfl
@[simp] theorem State.updRt_mem (s : State) (q : Nat) (g : Routing → Routing) : (s.updRt q g).mem = s.mem := rfl
@[simp] theorem State.updRt_marks (s : State) (q : Nat) (g : Routing → Routing) : (s.updRt q g).marks = s.marks := rfl
@[simp] theorem State.updRt_flaws (s : State) (q : Nat) (g : Routing → Routing) : (s.updRt q g).flaws = s.flaws := rfl
@[simp] theorem State.updRt_hostMem (s : State) (q : Nat) (g : Routing → Routing) : (s.updRt q g).hostMem = s.hostMem := rfl
@[simp] theorem State.updRt_hostMarks (s : State) (q : Nat) (g : Routing → Routing) : (s.updRt q g).hostMarks = s.hostMarks := rfl
@[simp] theorem State.updRt_pool (s : State) (q : Nat) (g : Routing → Routing) : (s.updRt q g).pool = s.pool := rfl
@[simp] theorem State.updRt_sv (s : State) (q : Nat) (g : Routing → Routing) : (s.updRt q g).sv = s.sv := rfl
@[simp] theorem State.updRt_fab (s : State) (q : Nat) (g : Routing → Routing) : (s.updRt q g).fab = s.fab := rfl
@[simp] theorem State.updRt_mg (s : State) (q : Nat) (g : Routing → Routing) : (s.updRt q g).mg = s.mg := rfl
@[simp] theorem State.updRt_ctr (s : State) (q : Nat) (g : Routing → Routing) : (s.updRt q g).ctr = s.ctr := rfl
@[simp] theorem State.updRt_free (s : State) (q : Nat) (g : Routing → Routing) : (s.updRt q g).free = s.free := rfl
@[simp] theorem State.updRt_readData (s : State) (q : Nat) (g : Routing → Routing) : (s.updRt q g).readData = s.readData := rfl
@[simp] theorem State.updRt_pending (s : State) (q : Nat) (g : Routing → Routing) : (s.updRt q g).pending = s.pending := rfl

/-! ### bump -/

@[simp] theorem State.bump_pw (s : State) (grp scope ix n : Nat) : (s.bump grp scope ix n).pw = s.pw := rfl
@[simp] theorem State.bump_bt (s : State) (grp scope ix n : Nat) : (s.bump grp scope ix n).bt = s.bt := rfl
@[simp] theorem State.bump_fns (s : State) (grp scope ix n : Nat) : (s.bump grp scope ix n).fns = s.fns := rfl
@[simp] theorem State.bump_cores (s : State) (grp scope ix n : Nat) : (s.bump grp scope ix n).cores = s.cores := rfl
@[simp] theorem State.bump_shared (s : State) (grp scope ix n : Nat) : (s.bump grp scope ix n).shared = s.shared := rfl
@[simp] theorem State.bump_mem (s : State) (grp scope ix n : Nat) : (s.bump grp scope ix n).mem = s.mem := rfl
@[simp] theorem State.bump_marks (s : State) (grp scope ix n : Nat) : (s.bump grp scope ix n).marks = s.marks := rfl
@[simp] theorem State.bump_flaws (s : State) (grp scope ix n : Nat) : (s.bump grp scope ix n).flaws = s.flaws := rfl
@[simp] theorem State.bump_hostMem (s : State) (grp scope ix n : Nat) : (s.bump grp scope ix n).hostMem = s.hostMem := rfl
@[simp] theorem State.bump_hostMarks (s : State) (grp scope ix n : Nat) : (s.bump grp scope ix n).hostMarks = s.hostMarks := rfl
@[simp] theorem State.bump_pool (s : State) (grp scope ix n : Nat) : (s.bump grp scope ix n).pool = s.pool := rfl
@[simp] theorem State.bump_quads (s : State) (grp scope ix n : Nat) : (s.bump grp scope ix n).quads = s.quads := rfl
@[simp] theorem State.bump_sv (s : State) (grp scope ix n : Nat) : (s.bump grp scope ix n).sv = s.sv := rfl
@[simp] theorem State.bump_fab (s : State) (grp scope ix n : Nat) : (s.bump grp scope ix n).fab = s.fab := rfl
@[simp] theorem State.bump_mg (s : State) (grp scope ix n : Nat) : (s.bump grp scope ix n).mg = s.mg := rfl
@[simp] theorem State.bump_free (s : State) (grp scope ix n : Nat) : (s.bump grp scope ix n).free = s.free := rfl
@[simp] theorem State.bump_readData (s : State) (grp scope ix n : Nat) : (s.bump grp scope ix n).readData = s.readData := rfl
@[simp] theorem State.bump_pending (s : State) (grp scope ix n : Nat) : (s.bump grp scope ix n).pending = s.pending := rfl

/-! ### setCtr -/

@[simp] theorem State.setCtr_pw (s : State) (grp scope ix v : Nat) : (s.setCtr grp scope ix v).pw = s.pw := rfl
@[simp] theorem State.setCtr_bt (s : State) (grp scope ix v : Nat) : (s.setCtr grp scope ix v).bt = s.bt := rfl
@[simp] theorem State.setCtr_fns (s : State) (grp scope ix v : Nat) : (s.setCtr grp scope ix v).fns = s.fns := rfl
@[simp] theorem State.setCtr_cores (s : State) (grp scope ix v : Nat) : (s.setCtr grp scope ix v).cores = s.cores := rfl
@[simp] theorem State.setCtr_shared (s : State) (grp scope ix v : Nat) : (s.setCtr grp scope ix v).shared = s.shared := rfl
@[simp] theorem State.setCtr_mem (s : State) (grp scope ix v : Nat) : (s.setCtr grp scope ix v).mem = s.mem := rfl
@[simp] theorem State.setCtr_marks (s : State) (grp scope ix v : Nat) : (s.setCtr grp scope ix v).marks = s.marks := rfl
@[simp] theorem State.setCtr_flaws (s : State) (grp scope ix v : Nat) : (s.setCtr grp scope ix v).flaws = s.flaws := rfl
@[simp] theorem State.setCtr_hostMem (s : State) (grp scope ix v : Nat) : (s.setCtr grp scope ix v).hostMem = s.hostMem := rfl
@[simp] theorem State.setCtr_hostMarks (s : State) (grp scope ix v : Nat) : (s.setCtr grp scope ix v).hostMarks = s.hostMarks := rfl
@[simp] theorem State.setCtr_pool (s : State) (grp scope ix v : Nat) : (s.setCtr grp scope ix v).pool = s.pool := rfl
@[simp] theorem State.setCtr_quads (s : State) (grp scope ix v : Nat) : (s.setCtr grp scope ix v).quads = s.quads := rfl
@[simp] theorem State.setCtr_sv (s : State) (grp scope ix v : Nat) : (s.setCtr grp scope ix v).sv = s.sv := rfl
@[simp] theorem State.setCtr_fab (s : State) (grp scope ix v : Nat) : (s.setCtr grp scope ix v).fab = s.fab := rfl
@[simp] theorem State.setCtr_mg (s : State) (grp scope ix v : Nat) : (s.setCtr grp scope ix v).mg = s.mg := rfl
@[simp] theorem State.setCtr_free (s : State) (grp scope ix v : Nat) : (s.setCtr grp scope ix v).free = s.free := rfl
@[simp] theorem State.setCtr_readData (s : State) (grp scope ix v : Nat) : (s.setCtr grp scope ix v).readData = s.readData := rfl
@[simp] theorem State.setCtr_pending (s : State) (grp scope ix v : Nat) : (s.setCtr grp scope ix v).pending = s.pending := rfl

/-! ### clearCtr -/

@[simp] theorem State.clearCtr_pw (s : State) (grps : List Nat) (scope : Nat) : (s.clearCtr grps scope).pw = s.pw := rfl
@[simp] theorem State.clearCtr_bt (s : State) (grps : List Nat) (scope : Nat) : (s.clearCtr grps scope).bt = s.bt := rfl
@[simp] theorem State.clearCtr_fns (s : State) (grps : List Nat) (scope : Nat) : (s.clearCtr grps scope).fns = s.fns := rfl
@[simp] theorem State.clearCtr_cores (s : State) (grps : List Nat) (scope : Nat) : (s.clearCtr grps scope).cores = s.cores := rfl
@[simp] theorem State.clearCtr_shared (s : State) (grps : List Nat) (scope : Nat) : (s.clearCtr grps scope).shared = s.shared := rfl
@[simp] theorem State.clearCtr_mem (s : State) (grps : List Nat) (scope : Nat) : (s.clearCtr grps scope).mem = s.mem := rfl
@[simp] theorem State.clearCtr_marks (s : State) (grps : List Nat) (scope : Nat) : (s.clearCtr grps scope).marks = s.marks := rfl
@[simp] theorem State.clearCtr_flaws (s : State) (grps : List Nat) (scope : Nat) : (s.clearCtr grps scope).flaws = s.flaws := rfl
@[simp] theorem State.clearCtr_hostMem (s : State) (grps : List Nat) (scope : Nat) : (s.clearCtr grps scope).hostMem = s.hostMem := rfl
@[simp] theorem State.clearCtr_hostMarks (s : State) (grps : List Nat) (scope : Nat) : (s.clearCtr grps scope).hostMarks = s.hostMarks := rfl
@[simp] theorem State.clearCtr_pool (s : State) (grps : List Nat) (scope : Nat) : (s.clearCtr grps scope).pool = s.pool := rfl
@[simp] theorem State.clearCtr_quads (s : State) (grps : List Nat) (scope : Nat) : (s.clearCtr grps scope).quads = s.quads := rfl
@[simp] theorem State.clearCtr_sv (s : State) (grps : List Nat) (scope : Nat) : (s.clearCtr grps scope).sv = s.sv := rfl
@[simp] theorem State.clearCtr_fab (s : State) (grps : List Nat) (scope : Nat) : (s.clearCtr grps scope).fab = s.fab := rfl
@[simp] theorem State.clearCtr_mg (s : State) (grps : List Nat) (scope : Nat) : (s.clearCtr grps scope).mg = s.mg := rfl
@[simp] theorem State.clearCtr_free (s : State) (grps : List Nat) (scope : Nat) : (s.clearCtr grps scope).free = s.free := rfl
@[simp] theorem State.clearCtr_readData (s : State) (grps : List Nat) (scope : Nat) : (s.clearCtr grps scope).readData = s.readData := rfl
@[simp] theorem State.clearCtr_pending (s : State) (grps : List Nat) (scope : Nat) : (s.clearCtr grps scope).pending = s.pending := rfl

/-! ### updGiven -/

@[simp] theorem State.updGiven_pw (s : State) (id : Nat) (g : LoanGiven → LoanGiven) : (s.updGiven id g).pw = s.pw := rfl
@[simp] theorem State.updGiven_bt (s : State) (id : Nat) (g : LoanGiven → LoanGiven) : (s.updGiven id g).bt = s.bt := rfl
@[simp] theorem State.updGiven_fns (s : State) (id : Nat) (g : LoanGiven → LoanGiven) : (s.updGiven id g).fns = s.fns := rfl
@[simp] theorem State.updGiven_cores (s : State) (id : Nat) (g : LoanGiven → LoanGiven) : (s.updGiven id g).cores = s.cores := rfl
@[simp] theorem State.updGiven_shared (s : State) (id : Nat) (g : LoanGiven → LoanGiven) : (s.updGiven id g).shared = s.shared := rfl
@[simp] theorem State.updGiven_mem (s : State) (id : Nat) (g : LoanGiven → LoanGiven) : (s.updGiven id g).mem = s.mem := rfl
@[simp] theorem State.updGiven_marks (s : State) (id : Nat) (g : LoanGiven → LoanGiven) : (s.updGiven id g).marks = s.marks := rfl
@[simp] theorem State.updGiven_flaws (s : State) (id : Nat) (g : LoanGiven → LoanGiven) : (s.updGiven id g).flaws = s.flaws := rfl
@[simp] theorem State.updGiven_hostMem (s : State) (id : Nat) (g : LoanGiven → LoanGiven) : (s.updGiven id g).hostMem = s.hostMem := rfl
@[simp] theorem State.updGiven_hostMarks (s : State) (id : Nat) (g : LoanGiven → LoanGiven) : (s.updGiven id g).hostMarks = s.hostMarks := rfl
@[simp] theorem State.updGiven_quads (s : State) (id : Nat) (g : LoanGiven → LoanGiven) : (s.updGiven id g).quads = s.quads := rfl
@[simp] theorem State.updGiven_sv (s : State) (id : Nat) (g : LoanGiven → LoanGiven) : (s.updGiven id g).sv = s.sv := rfl
@[simp] theorem State.updGiven_fab (s : State) (id : Nat) (g : LoanGiven → LoanGiven) : (s.updGiven id g).fab = s.fab := rfl
@[simp] theorem State.updGiven_mg (s : State) (id : Nat) (g : LoanGiven → LoanGiven) : (s.updGiven id g).mg = s.mg := rfl
@[simp] theorem State.updGiven_ctr (s : State) (id : Nat) (g : LoanGiven → LoanGiven) : (s.updGiven id g).ctr = s.ctr := rfl
@[simp] theorem State.updGiven_free (s : State) (id : Nat) (g : LoanGiven → LoanGiven) : (s.updGiven id g).free = s.free := rfl
@[simp] theorem State.updGiven_readData (s : State) (id : Nat) (g : LoanGiven → LoanGiven) : (s.updGiven id g).readData = s.readData := rfl
@[simp] theorem State.updGiven_pending (s : State) (id : Nat) (g : LoanGiven → LoanGiven) : (s.updGiven id g).pending = s.pending := rfl

/-! ### updXEnt -/

@[simp] theorem State.updXEnt_pw (s : State) (xq n : Nat) (g : XEnt → XEnt) : (s.updXEnt xq n g).pw = s.pw := rfl
@[simp] theorem State.updXEnt_bt (s : State) (xq n : Nat) (g : XEnt → XEnt) : (s.updXEnt xq n g).bt = s.bt := rfl
@[simp] theorem State.updXEnt_fns (s : State) (xq n : Nat) (g : XEnt → XEnt) : (s.updXEnt xq n g).fns = s.fns := rfl
@[simp] theorem State.updXEnt_cores (s : State) (xq n : Nat) (g : XEnt → XEnt) : (s.updXEnt xq n g).cores = s.cores := rfl
@[simp] theorem State.updXEnt_shared (s : State) (xq n : Nat) (g : XEnt → XEnt) : (s.updXEnt xq n g).shared = s.shared := rfl
@[simp] theorem State.updXEnt_mem (s : State) (xq n : Nat) (g : XEnt → XEnt) : (s.updXEnt xq n g).mem = s.mem := rfl
@[simp] theorem State.updXEnt_marks (s : State) (xq n : Nat) (g : XEnt → XEnt) : (s.updXEnt xq n g).marks = s.marks := rfl
@[simp] theorem State.updXEnt_flaws (s : State) (xq n : Nat) (g : XEnt → XEnt) : (s.updXEnt xq n g).flaws = s.flaws := rfl
@[simp] theorem State.updXEnt_hostMem (s : State) (xq n : Nat) (g : XEnt → XEnt) : (s.updXEnt xq n g).hostMem = s.hostMem := rfl
@[simp] theorem State.updXEnt_hostMarks (s : State) (xq n : Nat) (g : XEnt → XEnt) : (s.updXEnt xq n g).hostMarks = s.hostMarks := rfl
@[simp] theorem State.updXEnt_pool (s : State) (xq n : Nat) (g : XEnt → XEnt) : (s.updXEnt xq n g).pool = s.pool := rfl
@[simp] theorem State.updXEnt_quads (s : State) (xq n : Nat) (g : XEnt → XEnt) : (s.updXEnt xq n g).quads = s.quads := rfl
@[simp] theorem State.updXEnt_sv (s : State) (xq n : Nat) (g : XEnt → XEnt) : (s.updXEnt xq n g).sv = s.sv := rfl
@[simp] theorem State.updXEnt_mg (s : State) (xq n : Nat) (g : XEnt → XEnt) : (s.updXEnt xq n g).mg = s.mg := rfl
@[simp] theorem State.updXEnt_ctr (s : State) (xq n : Nat) (g : XEnt → XEnt) : (s.updXEnt xq n g).ctr = s.ctr := rfl
@[simp] theorem State.updXEnt_free (s : State) (xq n : Nat) (g : XEnt → XEnt) : (s.updXEnt xq n g).free = s.free := rfl
@[simp] theorem State.updXEnt_readData (s : State) (xq n : Nat) (g : XEnt → XEnt) : (s.updXEnt xq n g).readData = s.readData := rfl
@[simp] theorem State.updXEnt_pending (s : State) (xq n : Nat) (g : XEnt → XEnt) : (s.updXEnt xq n g).pending = s.pending := rfl

/-! ### What an update writes -/

@[simp] theorem State.updFn_length (s : State) (f : Nat) (g : Fn → Fn) : (s.updFn f g).fns.length = s.fns.length := by simp [State.updFn]
@[simp] theorem State.updQuad_length (s : State) (q : Nat) (g : Quad → Quad) : (s.updQuad q g).quads.length = s.quads.length := by
  simp [State.updQuad]
@[simp] theorem State.updQd_length (s : State) (q : Nat) (g : QDim → QDim) : (s.updQd q g).pw.qd.length = s.pw.qd.length := by
  simp [State.updQd]
@[simp] theorem State.updPort_length (s : State) (p : Nat) (g : Port → Port) : (s.updPort p g).fab.ports.length = s.fab.ports.length := by
  simp [State.updPort]

/-- Element i of a list changed at k, with a default for what lies outside. -/
theorem getD_modify {α : Type} (l : List α) (k i : Nat) (g : α → α) (d : α) (h : k < l.length) :
    (l.modify k g).getD i d = if i = k then g (l.getD i d) else l.getD i d := by
  simp only [List.getD_eq_getElem?_getD, List.getElem?_modify]
  by_cases e : i = k
  · subst e
    simp [List.getElem?_eq_getElem h]
  · simp [e, Ne.symm e]

/-- A change of an element other than i. -/
theorem getD_modify_ne {α : Type} (l : List α) (k i : Nat) (g : α → α) (d : α) (h : i ≠ k) : (l.modify k g).getD i d = l.getD i d := by
  simp [List.getD_eq_getElem?_getD, Ne.symm h]

theorem State.updFn_fn (s : State) (f i : Nat) (g : Fn → Fn) (h : f < s.fns.length) : (s.updFn f g).fn i = if i = f then g (s.fn i) else s.fn i :=
  getD_modify s.fns f i g Fn.reset h
theorem State.updFn_fn_ne (s : State) (f i : Nat) (g : Fn → Fn) (h : i ≠ f) : (s.updFn f g).fn i = s.fn i := getD_modify_ne s.fns f i g Fn.reset h
theorem State.updQuad_quad (s : State) (q i : Nat) (g : Quad → Quad) (h : q < s.quads.length) :
    (s.updQuad q g).quad i = if i = q then g (s.quad i) else s.quad i := getD_modify s.quads q i g Quad.reset h
theorem State.updQuad_quad_ne (s : State) (q i : Nat) (g : Quad → Quad) (h : i ≠ q) : (s.updQuad q g).quad i = s.quad i :=
  getD_modify_ne s.quads q i g Quad.reset h
theorem State.updQd_qdim (s : State) (q i : Nat) (g : QDim → QDim) (h : q < s.pw.qd.length) :
    (s.updQd q g).qdim i = if i = q then g (s.qdim i) else s.qdim i := getD_modify s.pw.qd q i g QDim.reset h
theorem State.updPort_port (s : State) (p i : Nat) (g : Port → Port) (h : p < s.fab.ports.length) :
    (s.updPort p g).port i = if i = p then g (s.port i) else s.port i := getD_modify s.fab.ports p i g Port.reset h

/-! ### Counters -/

/-- Looking up another key after the value of k is replaced. -/
theorem look_map_ne {κ α : Type} [DecidableEq κ] (l : List (κ × α)) (k i : κ) (a : α) (h : i ≠ k) :
    look (l.map (fun e => if e.1 == k then (k, a) else e)) i = look l i := by
  unfold look
  induction l with
  | nil => rfl
  | cons x l ih =>
    by_cases hx : x.1 = k
    · have hk : ¬ k = i := fun e => h e.symm
      simpa [List.find?_cons, hx, hk] using ih
    · by_cases hi : x.1 = i
      · simp [hi, h]
      · simpa [List.find?_cons, hx, hi] using ih

/-- Looking up k after its value is replaced. -/
theorem look_map_same {κ α : Type} [DecidableEq κ] (l : List (κ × α)) (k : κ) (a : α) (h : l.any (·.1 == k) = true) :
    look (l.map (fun e => if e.1 == k then (k, a) else e)) k = some a := by
  unfold look
  induction l with
  | nil => simp at h
  | cons x l ih =>
    by_cases hx : x.1 = k
    · simp [hx]
    · have := ih (by simpa [hx] using h)
      simpa [List.find?_cons, hx] using this

/-- What a map holds for a key after `put`. -/
theorem look_put {κ α : Type} [DecidableEq κ] (l : List (κ × α)) (k i : κ) (a : α) : look (put l k a) i = if i = k then some a else look l i := by
  unfold put
  split
  · rename_i h
    split
    · rename_i e
      rw [e]
      exact look_map_same l k a h
    · rename_i e
      exact look_map_ne l k i a e
  · rename_i h
    have hn : l.find? (fun x => x.1 == k) = none := by
      rw [List.find?_eq_none]
      intro x hx he
      exact h (List.any_eq_true.mpr ⟨x, hx, he⟩)
    unfold look
    rw [List.find?_append]
    by_cases e : i = k
    · subst e
      simp [hn]
    · have hk : ¬ k = i := fun h => e h.symm
      cases hf : l.find? (fun x => x.1 == i) <;> simp [e, hk]

/-- A counter after a count: it saturates at 48 bits (R62); every other counter is as it was. -/
theorem State.counter_bump (s : State) (grp scope ix n a b c : Nat) : (s.bump grp scope ix n).counter a b c =
    if a = grp ∧ b = scope ∧ c = ix then min Config.ctrMax (s.counter a b c + n) else s.counter a b c := by
  unfold State.bump State.counter
  simp only [look_put, CKey.mk.injEq]
  split
  · rename_i h
    obtain ⟨rfl, rfl, rfl⟩ := h
    rfl
  · rfl

end Sys2Proof.Machine
end

