-- ==== Sys2Proof/Tests/Slice0.lean ====
section
/-! SUPPORT. Tests of the model: worked examples of the spec, ill-formed operands that the well-formedness check refuses, and for
every obligation a concrete state and operands that meet its hypotheses. -/

namespace Sys2Proof.Tests

open Sys2Proof Sys2Proof.Machine Sys2Proof.Config

set_option maxRecDepth 100000

/-! ### Small states -/

/-- A function with an open session of epoch 1, Bus Master Enable, and 16 MiB of host memory in its window. -/
def fnOpen : Fn :=
  { Fn.reset with opened := true, epoch := 1, bme := true
                  map := [{ hbase := 0x10000000, wpage := 0, pages := 4096, rd := true, wr := true }] }

/-- The device running, every RDY_MAP bit set, with a session open. -/
def live : State :=
  { State.reset with pw := { Power.reset with phase := .on, localUs := 1000000, cycle := 1000 }
                     bt := { Boot.reset with boot := 2, rdy := BitVec.allOnes 47 }
                     fns := fnOpen :: List.replicate 3 Fn.reset }

/-- The same with no session. -/
def shut : State := live.updFn 0 (fun x => { x with opened := false, epoch := 0 })

/-- A packet of client 1 in session 1, with parameters as (offset, bytes, value). -/
def packet (op job : Nat) (ps : List (Nat × Nat × Nat)) : Mem :=
  ((0, 2, op) :: (3, 1, 3) :: (4, 4, 7) :: (8, 2, 1) :: (0x0C, 4, job) :: (0x10, 2, 1) :: ps).foldl
    (fun m e => memWrite m e.1 (leBytes e.2.1 e.2.2)) []

/-- Slot 5 of function 0 holds a cued packet. -/
def cue (s : State) (op job : Nat) (ps : List (Nat × Nat × Nat)) : State :=
  s.updFn 0 (fun x => { x with arrivals := [5]
                               slots := x.slots.set 5 { Slot.reset with cmd := packet op job ps, st := .cued, seq := 1, goUs := 900000 } })

/-- A waiting source 3 at control core 2, of priority 9. -/
def lamp : State :=
  { live with cores := live.cores.set 2 { Target.coreReset with
      priv := Target.coreReset.priv.set 3 { pend := true, insvc := false, signalled := false, en := true, vec := 0, pri := 9 } } }

/-- Source 3 in service at control core 2. -/
def lampOn : State :=
  { live with cores := live.cores.set 2 { Target.coreReset with stack := [(3, 9)]
                                                                priv := Target.coreReset.priv.set 3
                                                                    { pend := false, insvc := true, signalled := false, en := true, vec := 0, pri := 9 } } }

/-- A rising-edge shared source. -/
def edge : State := { live with shared := [{ sharedReset 64 with sense := 1 }] }

/-- Port 3 in a state. -/
def port3 (st : PortSt) : State := { live with fab := { live.fab with ports := live.fab.ports.set 3 { Port.reset with st := st } } }

/-- A committed one-block copy in quadrant 0. -/
def rec0 (tier oid len blk : Nat) : Rec :=
  { oid := oid, len := len, tier := tier, qmask := 1, copy := 0, committed := true, expiry := 0, owner := 0, source := 0, ext := [(blk, 1)] }

/-- The device with some objects. -/
def held (rs : List Rec) : State := { live with pool := { Pool.reset with recs := rs } }

/-- A placement of object 9 into tier 2 for slot 5. -/
def pl9 : Placing :=
  { pid := 1, oid := 9, tier := 2, qmask := 1, len := 128, src := .addr 0x800000000000, pinAt := true, for_ := .slot 0 5, f := 0 }

/-- The placement's copy is reserved and its slot waits. -/
def placing9 : State :=
  let s := cue (held [{ rec0 2 9 128 600 with committed := false }]) 0x201 0 []
  { s.take 0 5 with pool := { s.pool with placing := [pl9], nextPid := 2 } }

def given1 : LoanGiven :=
  { id := 1, peer := 0x8001, tier := 1, size := 1, term := 1000, start := 0, used := 0, recalled := some 0, resv := 77, staged := [], bad := [] }

def taken1 : LoanTaken := { id := 1, peer := 0x8001, tier := 1, size := 1, term := 1000, sent := 0, objs := [], pins := [] }

/-- Port 0 is up to the device at troupe position 1, and port 17 to a rack switch that reaches every address; this device is 5, epoch 2. -/
def wired : State :=
  { live with fab := { live.fab with
      plan := 1, addr := some 5, epoch := 2, dir := [(9, 3)], mask := 3
      routes := live.fab.routes.set 0 (BitVec.ofNat 64 (2 ^ 36 + 2 ^ 35))
      ports := (live.fab.ports.set 0
          { Port.reset with st := .up, peer := some { isSwitch := false, strap := 1, serial := 7, addr := some (9, 3) } }).set 17
        { Port.reset with st := .up, peer := some { isSwitch := true, strap := 7, serial := 8, addr := none } } } }

/-- A manifest of one object, 9, which is staged into quadrant 0. -/
def man1 : Manifest :=
  { (default : Manifest) with manId := 0x51, quads := 1, layers := 2, steprows := 64, chunkmax := 64, pfmin := 32, pagetok := 64
                              kvb := 128, frames := 64, treemax := 8, maxctx := 4096, vocab := 32000, eos := 2
                              objs := [{ oid := 9, len := 128, src := 0x800000100000, role := 2, q2 := 1, q1 := 1, tag := 7 }] }

def prod1 (st : ProdSt) : Sys2Proof.Machine.Prod :=
  { num := 1, st := st, man := man1, bindings := if st = .stored then [] else [(7, 9)], slot := none, todo := [], manBytes := [], stale := false, resLoad := false }

/-- Object 9 in both tiers, the manifest object in tier 2, and production 1. -/
def shown (st : ProdSt) (rs : List Rec) : State :=
  let s := held ([rec0 2 9 128 600, rec0 2 0x51 288 601] ++ rs)
  { s with sv := { s.sv with prods := [prod1 st] } }

def job1 (st : JobSt) : Job :=
  { (default : Job) with id := 1, slot := 6, prod := 1, client := 1, st := st, started := true, images := [0, 0, 0, 0] }

def req1 (st : ReqSt) : Req :=
  { (default : Req) with id := 1, job := 1, prod := 1, st := st, home := 0, prompt := 0x800000000000, plen := 100, maxnew := 10
                         outbuf := 0x800000040000, outcap := 64, stop := [], pages := [] }

/-- Job 1 of production 1, on stage, with some requests. -/
def playing (j : Job) (rs : List Req) : State :=
  let s := shown .onStage [rec0 1 9 128 700]
  { s with sv := { s.sv with jobs := [j], nextJob := 2, reqs := rs, nextReq := 2 } }

/-- The manifest's bytes, and the host's memory that holds them. -/
def manBytes : List Byte :=
  memRead (([(0, 4, 0x50584B53), (4, 2, 1), (6, 2, 1), (8, 8, 0x51), (0x10, 1, 1), (0x11, 1, 2), (0x12, 2, 64), (0x14, 2, 64), (0x16, 2, 32)
    , (0x18, 2, 64), (0x1A, 2, 128), (0x1C, 2, 64), (0x1E, 1, 8), (0x20, 4, 4096), (0x24, 4, 32000), (0x28, 4, 2)
    , (0x100, 8, 9), (0x108, 8, 128), (0x110, 8, 0x800000100000), (0x118, 1, 2), (0x119, 1, 1), (0x11A, 1, 1), (0x11C, 2, 7)] : List (Nat × Nat ×
        Nat)).foldl
    (fun m e => memWrite m e.1 (leBytes e.2.1 e.2.2)) []) 0 288

def hostWith (off : Nat) (bs : List Byte) : HostView :=
  { cells := memWrite [] (0x10000000 + off) bs, poison := [], flaws := [] }

/-- The parked cache of request 1. -/
def parkRec : Rec :=
  { oid := 0x4000000000000001, len := 4096, tier := 2, qmask := 1, copy := 0, committed := true, expiry := 900000000, owner := 1, source := 0
    ext := [(3604480, 1)] }

/-- Request 1 is parked, with the record of its cache (R208). -/
def resumable : State :=
  let s := playing (job1 .running) [{ req1 .parked with parkObj := 0x4000000000000001 }]
  { s with pool := { s.pool with recs := parkRec :: s.pool.recs }
           mem := memWrite [] (tierBase 2 0 + 3604480 * blockBytes) (leBytes 8 1 ++ [1, 0, 0, 2, 128, 0, 64, 0]) }

def sealPl : Placing :=
  { pid := 1, oid := 0x1000000000000001, tier := 1, qmask := 1, len := 4096, src := .addr 0, pinAt := false, for_ := .seal 1 0 0, f := 0 }

def sealing : State :=
  let s := playing (job1 .running) [{ req1 .decode with pages := [{ layer := 0, page := 0, sealing := true, oid := 0 }] }]
  { s with pool := { s.pool with recs := { rec0 1 0x1000000000000001 4096 800 with committed := false } :: s.pool.recs, placing := [sealPl] } }

def parkPl : Placing :=
  { pid := 1, oid := 0x4000000000000001, tier := 2, qmask := 1, len := 4096, src := .bytes [] [], pinAt := false, for_ := .park 1, f := 0 }

def parking : State :=
  let s := playing (job1 .running) [{ req1 .parking with parkSlot := some (0, 5), parkTtl := 1000, pstate := 2 }]
  { s with pool := { s.pool with recs := { parkRec with committed := false } :: s.pool.recs, placing := [parkPl] } }

def resuming : State :=
  let s := playing (job1 .running) [{ req1 .resuming with parkObj := 0x4000000000000001, resumeSlot := some (0, 5), pstate := 2 }]
  { s with pool := { s.pool with recs := parkRec :: s.pool.recs } }

/-- The device in ROM recovery, with a header of zeros accepted. -/
def recovering : State :=
  { live with bt := { live.bt with boot := 3, rdy := 0, rc := { Recovery.reset with len := 4096, hdr := some (leBytes 0x14 0 ++ leBytes 8 0x10000) } } }

/-- A staging of no bytes, owned by the callboard. -/
def staged0 : Staging := { oid := 3 * 2 ^ 60 + 1, hdr := [], len := 0, pages := [], pldm := false }

def stagedRec : Rec := { rec0 2 (3 * 2 ^ 60 + 1) 8192 620 with committed := true }

def staging (g : Staging) : State :=
  { held [stagedRec] with bt := { live.bt with staging := some g } }

def pw (g : Power → Power) : State := { live with pw := g live.pw }

def pers4 (p : Nat) (st : PortSt) : Port := { Port.reset with st := st, since := p }

/-- An operation of a command that waits for a reply. -/
def op1 : XOp :=
  { id := 4, parent := 4, kind := 8, peer := 0x8001, sent := 0, ectr := 255, job := 0, dst := 0, msg := { (default : Msg) with type := 8, opid := 4 }
    raw := 0, off := 0, xq := none, te := none, slot := some (0, 5), waiting := none, resendAt := none }

def opState (o : XOp) : State := { wired with fab := { wired.fab with ops := [o], nextOp := 5 } }

def flit0 : Flit :=
  { good := true, ftype := 1, vc := 0, som := true, eom := true, poison := false, seq := 0, ack := 4095, nak := false, crvc := 0, crcnt := 0, paylen := 64 }

def quad0 (g : Quad → Quad) (s : State) : State := { s with quads := s.quads.modify 0 g }

/-- The same with the runs of the step over in quadrant 0. -/
def played (j : Job) (rs : List Req) : State := quad0 (fun x => { x with ran := true }) (playing j rs)

/-- Request 1 in a step that takes 32 tokens of its prompt. -/
def req32 : Req := { req1 .prefill with rows := 32, promptRows := 32 }

/-- No function closes its session. -/
theorem noClosing : ∀ f, ((played { job1 .running with inStep := true } [req32]).fn f).closing = [] := by
  intro f
  match f with
  | 0 => decide +kernel
  | 1 => decide +kernel
  | 2 => decide +kernel
  | 3 => decide +kernel
  | _ + 4 => rfl

def rec86 : StallRec :=
  { cause := 1, full := 0, empty := 0, fullCount := 0, tripUs := 0, progressUs := 0, cueAg := 0, cueIdx := 0, cueValue := 0, cueTarget := 0 }

/-- A message from address 9, epoch 3, to this device, address 5, epoch 2. -/
def msg5 (a0 a1 a2 a3 : Nat) (bs : List Byte) : Msg :=
  { (default : Msg) with dst := 5, src := 9, depoch := 2, sepoch := 3, ctr := 255, opid := 77, payload := bs
                         a0 := BitVec.ofNat 64 a0, a1 := BitVec.ofNat 64 a1, a2 := BitVec.ofNat 64 a2, a3 := BitVec.ofNat 64 a3 }

/-- The same device as a troupe position: 0 of a troupe of 0 and 1, in some role. -/
def trouped (role : Role) (lead : Nat) : State :=
  { wired with bt := { wired.bt with strap := 0 }, fab := { wired.fab with role := role, lead := lead, troupeEpoch := 6 } }

/-- A message from position 1 to position 0. -/
def msgT (a0 a1 a2 a3 : Nat) (bs : List Byte) : Msg :=
  { msg5 (256 * a0) a1 a2 a3 bs with troupe := true, dst := 0, src := 1, depoch := 6, sepoch := 6 }

def withOps (os : List XOp) (s : State) : State := { s with fab := { s.fab with ops := os, nextOp := 90 } }

/-- Operation 77 towards address 9. -/
def op77 : XOp := { op1 with id := 77, parent := 77, peer := 9, kind := 1, slot := none, job := 1, ectr := 4, xq := some (2, 8) }

def withJob (j : Job) (s : State) : State :=
  { s with sv := { (playing j []).sv with gen := 5 }, pool := (playing j []).pool }

def g8 : Forming := { mask := 3, epoch := 6, since := 0, answered := 0, proposer := none, slot := some (0, 5), dissolve := false }

/-- An exchange-sheet entry of 128 bytes to address 9. -/
def xent (op : Nat) : XEnt :=
  { n := 8, raw := BitVec.ofNat 512 (op + 2 * 2 ^ 16 + 4 * 2 ^ 24 + 9 * 2 ^ 32 + 255 * 2 ^ 48 + 0x1000 * 2 ^ 64 + 0x2000 * 2 ^ 128 + 128 * 2 ^ 256)
    started := false, done := false, job := 1, step := 1, issued := 0, parent := 0 }

def xstate (e : XEnt) : State :=
  let s := withJob { job1 .running with inStep := true } wired
  { s with fab := { s.fab with queues := s.fab.queues.set 2 [e] } }

/-- A production with four experts, in its first pass in quadrant 0. -/
def rp4 : RoutePar :=
  { (default : RoutePar) with experts := 4, choices := 2, epasses := 2, updint := 4, slots := 2, cslots := 0, nshard := 1, shard := 128, dmax := 4
                              rowbytes := 128, inbox := 0x10000, ansoff := 0x20000, actoff := 0x30000, rarea := 0x40000, fmap := 0x50000
                              scorelink := 1, donelink := 2, alink := 255, dspn := 5, fcue := 1, rcue := 2, dcue := 3, exptab := 20, biasseed :=
                                  0xFFFF }

def passing (g : Routing → Routing) (s : State) : State :=
  let s := withJob { job1 .running with inStep := true } s
  let s : State := { s with sv := { s.sv with prods := s.sv.prods.map (fun x => { x with man := { x.man with rp := rp4 } }) } }
  quad0 (fun x => { x with rt := g { Routing.reset with active := true, job := 1, rows := 32, cap := 64, expect := some (0, 0) } }) s

def ev1 (t : Nat) : MgEv := { n := 3, code := 0x30, detail := [1], tries := t, lastUs := 0 }

def mg (g : Mgmt → Mgmt) : State := { live with mg := g live.mg }

def downloading : State :=
  { staging { staged0 with len := 8192, pldm := true } with mg := { live.mg with pldm := .download, pldmOff := 8192 } }

def routed1 : Sys2Proof.Machine.Prod := { prod1 .onStage with man := { man1 with rp := rp4 } }

/-- A token of slot 0. -/
def tk (n : Nat) : Tok := { data := BitVec.ofNat 1024 n, pred := BitVec.allOnes 32, tag := 0, poison := false, last := false }

def site0 : SiteCfg :=
  { row := 0, col := 0, firing := 0, matrix := 0, consts := 0, stages := List.replicate 8 0, ags := [], traps := [0, 0], sw := 0, slots := List.replicate 32 0 }

/-- An affine or indexed descriptor: mode, port, queue, index queue. -/
def ag (mode port dq iq : Nat) : BitVec 256 :=
  BitVec.ofNat 256 (mode + port * 2 ^ 3 + dq * 2 ^ 5 + iq * 2 ^ 7 + 63 * 2 ^ 13 + 10 * 2 ^ 34 + 4 * 2 ^ 68 + 8 * 2 ^ 85 + 4 * 2 ^ 102 + 1 * 2 ^ 118)

def bf16mm : Nat := 1 + 2 ^ 4 + 4 * 2 ^ 17 + 2 ^ 27 + 2 ^ 34

/-- A scene: gateway link 0 feeds the CU at (0, 0), which feeds the MU at (0, 1); the other sites have no paths. -/
def scene0 : Scene :=
  { id := 1, period := 1, wdog := 0, retire := [(0, 1, 0)], placed := [], was := []
    sites := [
      { site0 with firing := BitVec.ofNat 64 (0 + 7 * 8 + 64), slots := (List.replicate 32 0).set 0 (BitVec.ofNat 32 (5 * 16 + 4 * 65536)) },
      { site0 with col := 1, stages := [], ags := [ag 1 0 0 0, ag 2 2 0 0, ag 3 1 1 1, ag 5 2 2 3], slots := (List.replicate 32 0).set 0 (BitVec.ofNat 32 (4 * 65536)) },
      { site0 with row := 1, stages := [], ags := [ag 6 1 0 0, 0, 0, 0] },
      { site0 with col := 2, firing := BitVec.ofNat 64 (0 + 7 * 8 + 64 + 2 ^ 10 + 2 ^ 11 + 2 * 2 ^ 14), matrix := BitVec.ofNat 64 (bf16mm + 2 ^ 42) },
      { site0 with col := 4, firing := BitVec.ofNat 64 (0 + 7 * 8 + 64 + 2 ^ 10 + 2 ^ 11 + 2 * 2 ^ 14)
                   matrix := BitVec.ofNat 64 (5 + 5 * 16 + 256 + 16 * 2 ^ 17 + 2 ^ 27 + 2 ^ 34 + 2 ^ 42) },
      { site0 with col := 6, firing := BitVec.ofNat 64 (6 + 7 * 8 + 64 + 2 ^ 10 + 2 ^ 11 + 2 * 2 ^ 14), matrix := BitVec.ofNat 64 bf16mm }] }

/-- Quadrant 0 with that scene in slots 0 and 1, slot 0 current. -/
def grid (g : Quad → Quad) : State :=
  quad0 (fun x => g { x with scenes := [some scene0, some { scene0 with id := 2 }, none, none] }) live

def at00 : Site := ⟨0, 0, 0⟩
def at01 : Site := ⟨0, 0, 1⟩
def at10 : Site := ⟨0, 1, 0⟩
def at02 : Site := ⟨0, 0, 2⟩
def at04 : Site := ⟨0, 0, 4⟩
def at06 : Site := ⟨0, 0, 6⟩

def cuIn (c q : Nat) (ts : List Tok) (x : Quad) : Quad := x.setInq 0 c q ts
def withMu (g : Mu → Mu) (x : Quad) : Quad := x.setMu 0 1 (g (x.mu 0 1))
def withCu (c : Nat) (g : Cu → Cu) (x : Quad) : Quad := x.setCu 0 c (g (x.cu 0 c))

def acc (w : Bool) : Access := { line := 7, write := w, tok := tk 12, dq := 0, trap := none, ag := 0 }
def gt : GwTok := { tok := tk 3, owner := none, lastOf := false, path := none, notBefore := 0 }
def fl : Flight := { row := 0, col := 1, port := 4, link := 0, due := 1000, bridge := false, off := 0, tok := tk 3, src := .out at00 0 }
def cr : CredRet := { slot := 0, due := 990, src := .out at00 0, dest := { q := 0, row := 0, col := 1, dq := 0, hops := 1, bridges := 0 } }
def run0 : RunSt := { slot := 0, began := 5, curtain := some 900, rstart := List.replicate 63 0, met := [] }

/-- A pick-up AG whose next line lies past the end of its unit. -/
def rangeAg : State :=
  grid (fun x => x.setMu 1 0 { x.mu 1 0 with ags := (x.mu 1 0).ags.modify 0 (fun a => { a with line := 98304, left := 1 }) })

def chg01 : ChangeSt := { target := 1, old := 0, cut := false, began := 900, gw := true, done := [] }

/-- A tier-engine entry of job 1 from its fields as (offset, bytes, value). -/
def te (op : Nat) (fields : List (Nat × Nat × Nat)) : TeEnt :=
  { teEnt (fields.foldl (fun r f => setRaw r f.1 f.2.1 f.2.2) (BitVec.ofNat 512 op)) none 1 with n := 3 }

/-- Job 1 in a step, with entries in queue 1 of quadrant 0. -/
def teState (es : List TeEnt) (ix : Nat) (g : Quad → Quad) : State :=
  withJob { job1 .running with inStep := true } (grid (fun x => g
      { x with queues := x.queues.set 1 { ents := es, nextN := 4, loopIx := ix, back := [] } }))

def teMv : TeEnt := te 1 [(2, 1, 4), (4, 2, 1), (0x18, 8, 0x78000100), (0x20, 8, 0x78000000), (0x28, 4, 128)]
def teSt : TeEnt := te 2 [(2, 1, 4), (4, 2, 1), (0x18, 8, 0x78000100), (0x28, 4, 128)]
def teCo : TeEnt :=
  { te 3 [(2, 1, 4), (4, 2, 1), (0x20, 8, 0x78000000), (0x28, 4, 256)] with started := true, dst := 0x78000000, left := 256 }
def tePl : TeEnt :=
  te 4 [(2, 1, 4), (4, 2, 1), (0x0E, 1, 1), (0x0F, 1, 2), (0x18, 8, 0x78000000), (0x20, 8, 10), (0x28, 4, 128)]
def teWt : TeEnt := te 6 [(2, 1, 4), (4, 2, 1), (6, 1, 1), (7, 1, 3), (8, 6, 5)]
def teDs : TeEnt := te 7 [(2, 1, 4), (4, 2, 1), (0x10, 8, 5), (0x18, 8, 100), (0x20, 8, 3 + 32768), (0x28, 4, 20)]
def teLp (started : Bool) : TeEnt := { te 0x0C [(2, 1, 63), (0x20, 8, 1), (0x28, 4, 3)] with started := started }
def teBody : TeEnt := { te 5 [(2, 1, 4), (4, 2, 1)] with n := 2, started := true }

/-- A token waits inbound on a link. -/
def inTok (link : Nat) (t : Tok) (x : Quad) : Quad := { x with gwIn := [(link, [(t, 995, .out at00 0)])] }
def disp3 (x : Quad) : Quad := { x with disps := x.disps.set 3 { Disp.reset with next := 4, limit := 10, links := [0] } }

/-- A routed pass in quadrant 0 whose production also skips. -/
def skipping (g : Routing → Routing) (s : State) : State :=
  let s := passing g s
  { s with sv := { s.sv with prods := s.sv.prods.map (fun (x : Sys2Proof.Machine.Prod) => { x with man := { x.man with rp := { rp4 with skip := true } } }) } }

def work0 (x : Nat) : Work :=
  { expert := x, slot := 0, kind := 0, half := 0, pass := 0, rows := [(0, 0)], round := 0, posted := false, done := false }

def fetch0 : Fetch := { expert := 1, round := 0, toCache := none, slot := 0, half := 0, shards := 0, started := false, done := false }

/-- Two published work entries, the first one posted. -/
def served (x : Routing) : Routing := { x with published := true, dspOpen := true, works := [{ work0 1 with posted := true }, work0 2] }
def disp5 (x : Quad) : Quad :=
  { x with disps := x.disps.set 5 { Disp.reset with next := 0, limit := 2, links := [0] }, cues := x.cues.set 1 { posted := 1, retired := 0 } }

def gridWith (i : Nat) (c : SiteCfg) (g : Quad → Quad) : State :=
  quad0 (fun x => g { x with scenes := [some { scene0 with sites := scene0.sites.set i c }, some { scene0 with id := 2 }, none, none] }) live

def cfg00 (f : Nat) : SiteCfg := { site0 with firing := BitVec.ofNat 64 f, slots := (scene0.sites.getD 0 default).slots }

def mm2 : MWord := mwordOf (BitVec.ofNat 64 (bf16mm + 2 ^ 42))

def stepping (n : Nat) : State := grid (withCu 2 (fun c => { c with
  stepIx := n, aCur := { c.aCur with toks := List.replicate 4 (tk 0x3F803F80) }, bCur := { c.bCur with toks := List.replicate 4 (tk 0x40003F80) } }))

def ag1 (h : Int) : State := grid (fun x =>
    { withMu (fun m => { m with ags := m.ags.modify 1 (fun a => { a with running := true, hold := some (tk 5, h) }) }) x with run := some run0 })

def trap0 : TrapSt :=
    { row := 0, col := 0, t := 0, toks := [tk 6], head := 0, coming := 0, landing := [tk 8], wroteAt := none, reading := 1, out := [], lastDue := 0, peak := 0 }

def trapAcc (w : Bool) : Access := { acc w with line := 0, trap := some (0, 0, 0, 0) }

def trapping (w : Bool) : State := grid (fun x => withMu (fun m =>
    { m with ports := if w then [[], [], [trapAcc true]] else [[], [trapAcc false], []] }) { x with traps := [trap0] })

def leftAg (col a n : Nat) : State := grid (fun x => x.setMu 0 col
    { x.mu 0 col with ags := (x.mu 0 col).ags.modify a (fun g => { g with line := 9, left := n }) })

def stepping2 (j : Job) (role : Role) : State := let s := played j [req32];
    { s with bt := (trouped role 1).bt, fab := { (trouped role 1).fab with ctrs := s.fab.ctrs } }

def tk9 : LoanTaken := { taken1 with term := 1000000000000 }

def borrowed (s : State) : State := { s with pool := { s.pool with taken := [tk9] } }

def plB : Placing := { pl9 with tier := 3, for_ := .borrow 0 5 }

def slots0 (e : Nat) : List (BitVec 32) := (List.replicate 32 0).set 0 (BitVec.ofNat 32 e)

def scDet : Scene :=
    { scene0 with retire := [(3, 2, 0)], sites := [{ siteCfgOf 3 0 [] with slots := slots0 (4 * 16) }, { siteCfgOf 3 1 [] with slots := slots0 (4 * 16) }, { siteCfgOf 3 2 [] with slots := slots0 (4 * 65536), ags := [ag 2 2 0 0, 0, 0, 0] }] }

def tsDet : Tables := [(3, 0, slots0 (4 * 256)), (3, 1, List.replicate 32 0), (4, 0, slots0 (1 * 16)), (4, 1, slots0 (4 * 16)), (4, 2, slots0 4), (3,
    2, slots0 (3 * 65536))]

def fenced31 : State := grid (fun x => { x with sites := [{ x.site 3 1 with st := 3 }], loads := [⟨2, scDet⟩] })

def chg10 : ChangeSt := { chg01 with target := 0, old := 1 }

def darken (s : State) : State := { s with pw := { s.pw with qd := s.pw.qd.modify 0 (fun d => { d with lit := false }) } }

def teMvMu : TeEnt := te 1 [(2, 1, 4), (4, 2, 1), (0x18, 8, 0), (0x20, 8, 0x78000000), (0x28, 4, 128)]

def teCo0 : TeEnt := te 3 [(2, 1, 4), (4, 2, 1), (0x20, 8, 0x78000000), (0x28, 4, 256)]

def teCo2 : TeEnt := { teCo with held := 1 }

def teCo1 : TeEnt := { teCo2 with left := 128 }

def teMvAll : TeEnt := { teMv with started := true, gone := teMv.opsAll }

def objed : State := { wired with pool := { wired.pool with recs := [rec0 2 77 128 600] } }

def trap01 : TrapSt :=
    { row := 0, col := 1, t := 0, toks := [], head := 0, coming := 0, landing := [], wroteAt := none, reading := 0, out := [], lastDue := 0, peak := 0 }

def teLp1 : TeEnt := te 0x0C [(2, 1, 63), (0x20, 8, 1), (0x28, 4, 1)]

def teMvS : TeEnt := { teMv with started := true }

def teMvL : TeEnt := { te 1 [(2, 1, 4), (4, 2, 1), (0x18, 8, 0x78000100), (0x20, 8, 0x78000000), (0x28, 4, 131072)] with started := true }

def tePlS : TeEnt :=
    { te 4 [(2, 1, 4), (4, 2, 1), (0x0E, 1, 1), (0x0F, 1, 2), (0x18, 8, 0x78000000), (0x20, 8, 10), (0x28, 4, 131072)] with started := true, held := 1 }

def trapSc (n : Nat) (e0 e1 : List Nat) : Scene := { scene0 with
  period := n
  sites := (scene0.sites.set 0 { scene0.sites.getD 0 default with slots := e0.map (BitVec.ofNat 32) }).set 1 { scene0.sites.getD 1 default with
    traps := [BitVec.ofNat 128 (1 + 256 + 17 * 2 ^ 30), 0], slots := e1.map (BitVec.ofNat 32) } }

def trapGrid (sc : Scene) (g : Quad → Quad) : State := quad0 (fun x => g { x with scenes := [some sc, none, none, none] }) live

def d01 (dq : Nat) : Dest := { q := 0, row := 0, col := 1, dq := dq, hops := 1, bridges := 0 }

def fl31 (c p : Nat) : Flight := { fl with row := 3, col := c, port := p }

def ls3 (c e : Nat) : Scene :=
    { scene0 with sites := scene0.sites ++ [{ siteCfgOf 3 c [] with slots := (List.replicate 32 0).set 0 (BitVec.ofNat 32 e) }] }

def hopping (c p e : Nat) (g : Quad → Quad) : State := quad0 (fun x => g
    { x with scenes := [some (ls3 c e), none, none, none], flights := [fl31 c p] }) live

def crGw : CredRet := { cr with src := .gw 0 0 }

def teOwed : TeEnt := { teMv with started := true, gone := teMv.opsAll, owed := [(0, [(cr.dest, 1)])] }

def man2 : Manifest := { man1 with objs := man1.objs ++ [{ oid := 10, len := 128, src := 0x800000100000, role := 2, q2 := 1, q1 := 2, tag := 8 }] }

def prod2 : Sys2Proof.Machine.Prod := { prod1 .stored with man := man2 }

def shown2 : State := let s := held [rec0 2 9 128 600, rec0 2 0x51 288 601, rec0 2 10 128 602]; { s with sv := { s.sv with prods := [prod2] } }

def jobIn : Job := { job1 .running with inStep := true }

def playing2 : State := let s := playing jobIn []; { s with pool := { s.pool with recs := rec0 1 10 128 701 :: s.pool.recs } }

def disp52 (x : Quad) : Quad :=
    { x with disps := x.disps.set 5 { Disp.reset with next := 2, limit := 2, links := [0] }, cues := x.cues.set 1 { posted := 1, retired := 0 } }

def xentP (op : Nat) : XEnt :=
    { n := 8, raw := BitVec.ofNat 512 (op + 4 * 2 ^ 24 + 1 * 2 ^ 32 + 255 * 2 ^ 48 + 0x1000 * 2 ^ 64 + 0x2000 * 2 ^ 128 + 128 * 2 ^ 256), started := false, done := false, job := 1, step := 1, issued := 0, parent := 0 }

def xstateP (e : XEnt) : State := let s := withJob { jobIn with members := 3 } wired;
    { s with fab := { s.fab with queues := s.fab.queues.set 2 [e] } }

def azgenLive : State := { live with bt := { live.bt with pers := 1 } }


/-! ### Hypotheses proved by evaluation -/

/-- A decidable hypothesis that holds. -/
theorem checks {p : Prop} [Decidable p] (h : decide p = true := by decide +kernel) : p := of_decide_eq_true h

theorem hearsBy {s : State} {f n op : Nat} (h : s.takes f n op = true ∧ (s.take f n).refuse (s.pkt f n) = none := by decide +kernel) :
    s.hears f n op := h

theorem memOkBy {s : State} (h : memWf s.mem = true ∧ memWf s.hostMem = true := by decide +kernel) : s.memOk := h

theorem roomBy {p : Pool} {tier qmask len : Nat} (h : (maskList qmask 4).all (fun q => (p.place tier q 0 len).isSome) = true := by decide +kernel) :
    p.room tier qmask len := fun q hq => List.all_eq_true.mp h q hq

theorem canPlaceBy {s : State} {pl : Placing} (h : pl.oid < 2 ^ 60 ∧ s.pool.present pl.tier pl.oid = false ∧ s.srcOk pl = true ∧
    s.placeReady pl = true := by decide +kernel) : s.canPlace pl := ⟨h.1, h.2.1, h.2.2.1, h.2.2.2⟩

theorem looksBy {s : State} {p : Nat} {m : Msg} (h : s.isOn = true ∧ (s.port p).st = .up ∧ s.holdsBack m = false ∧ s.behind p m = false ∧
    s.portBusy m = false := by decide +kernel) : s.looksAt p m := ⟨h.1, h.2.1, h.2.2.1, h.2.2.2.1, h.2.2.2.2⟩

theorem getsBy {s : State} {p : Nat} {m : Msg} (h : s.looksAt p m := by exact looksBy) (k : (s.screen p m).1 = true := by decide +kernel) :
    s.gets p m := ⟨h, k⟩

/-- A state whose passes are all still receiving scores. -/
theorem scoringBy {s : State} (h : (List.range 4).all (fun q => match s.passOf q with
    | some _ => !(s.quad q).rt.published && (s.quad q).rt.rows != 0
    | none => true) = true := by decide +kernel) : s.scoring := by
  intro q hq j r e
  have := List.all_eq_true.mp h q (List.mem_range.mpr hq)
  rw [e] at this
  simpa using this

theorem settledBy {s : State} (h : (List.range 4).all (fun q => match s.passOf q with
    | some (_, r) => !s.passOver q r.man.rp && ((s.quad q).rt.published || (s.quad q).rt.rows != 0)
    | none => true) = true := by decide +kernel) : s.settled := by
  intro q hq j r e
  have := List.all_eq_true.mp h q (List.mem_range.mpr hq)
  rw [e] at this
  simpa using this

theorem loneBy {s : State} {q tq : Nat} {e : TeEnt} (h : q < s.quads.length ∧ tq < (s.quad q).queues.length ∧ (s.tq q tq).ents = [e] ∧
    (s.tq q tq).back = [] ∧ (e.done = false ∧ e.posts = true ∧ e.job < 2 ^ 32) ∧ (e.cue < 63 → e.cue < (s.quad q).cues.length ∧
    ((s.quad q).cues.getD e.cue default).posted + e.postn ≤ 0xFFFFFFFF) := by decide +kernel) : s.lone q tq e :=
  ⟨h.1, h.2.1, h.2.2.1, h.2.2.2.1, h.2.2.2.2.1, h.2.2.2.2.2⟩

theorem aeNextBy {x : Quad} {aq : Nat} (h : (aq < 4 ∧ aq < x.aeq.length) ∧ (x.aeq.getD aq []).length < 64 ∧
    ∀ e ∈ x.aeq.getD aq [], e.started = true := by decide +kernel) : x.aeNext aq := ⟨h.1, h.2.1, h.2.2⟩

theorem noStagingBy {s : State} {q : Nat} (h : s.sv.prods.filter (fun p => p.slot.isSome && (p.st == .staging || p.st == .staged) &&
    p.man.quads.testBit q) = [] := by decide +kernel) : s.noStaging q := h

theorem heldBy {s : State} {t : Nat} (h : s.hasTarget t = true ∧ (if t < 8 then t < s.cores.length else t - 8 < s.fns.length) := by decide +kernel) :
    s.targetHeld t := h


/-- Room in a target quadrant's pool without an eviction. -/
theorem roomOrBy {p : Pool} {tier qmask len : Nat} {b : Prop}
    (h : (maskList qmask 4).all (fun q => (p.place tier q 0 len).isSome) = true := by decide +kernel) : p.room tier qmask len ∨ b := Or.inl (roomBy h)

/-- A placement's source that is a range of the host window. -/
theorem hostNamedBy {s : State} {p : Pkt} {k : Nat} (h : p.at 0x58 8 = 0 ∧ isHost (bits (p.at 0x48 8) 0 48) = true ∧
    s.reachable p.f (bits (p.at 0x48 8) 0 48) (p.at 0x50 8) false = true := by decide +kernel) : s.sourceNamed p k := Or.inl ⟨h.1, Or.inr (Or.inr h.2)⟩

/-- What holds of an option's value, if it has one. -/
theorem someAll {α : Type} {o : Option α} {P : α → Prop} [DecidablePred P] (h : (match o with | some a => decide (P a) | none => true) = true := by decide +kernel) :
    ∀ a, o = some a → P a := by
  intro a e
  subst e
  simpa using h

theorem someEx {α : Type} {o : Option α} {P : α → Prop} [DecidablePred P] (h : (match o with | some a => decide (P a) | none => false) = true := by decide +kernel) :
    ∃ a, o = some a ∧ P a := by
  cases o with
  | none => simp at h
  | some a => exact ⟨a, rfl, by simpa using h⟩

/-- The other queues of a quadrant hold no entry that waits for credits. -/
theorem othersOwe {s : State} {q tq : Nat}
    (h : (List.range 16).all (fun i => i == tq || (s.tq q i).ents.all (fun d => d.owed.isEmpty)) = true ∧ (s.quad q).queues.length ≤ 16 := by
      decide +kernel) : ∀ i, i ≠ tq → ∀ d ∈ (s.tq q i).ents, d.owed = [] := by
  intro i hi d hd
  rcases Nat.lt_or_ge i 16 with hlt | hge
  · have := List.all_eq_true.mp h.1 i (List.mem_range.mpr hlt)
    simp only [Bool.or_eq_true, beq_iff_eq, hi, false_or, List.all_eq_true, List.isEmpty_iff] at this
    exact this d hd
  · have e : s.tq q i = default := by
      unfold State.tq
      exact List.getD_eq_default _ _ (Nat.le_trans h.2 hge)
    rw [e] at hd
    exact absurd hd (by simp [default, instInhabitedTeQueue.default])

/-! ### Worked examples of the spec -/

/-- R117 and its example: MU m = 52 of quadrant 2, its first byte and its line 1,000. -/
theorem test_mu_address : lineAddr 2 52 0 = 0x127000000 ∧ lineAddr 2 52 1000 = 0x12701F400 := by decide

/-- R119 and its example: a tier-1 address of quadrant 1 lies in stack H05 (the first of quadrant 1's five). -/
theorem test_tier1_stack : stackOf 0x014040001A80 = some (0x31, 1, 0, 0x0CCCDA80) := by decide

/-- The matrix word of R98's example: MXFP8 E5M2 on both sides, blocks of 32, eight steps. -/
def e5m2 : MWord := mwordOf (BitVec.ofNat 64 (6 + 6 * 2 ^ 4 + 2 ^ 8 + 8 * 2 ^ 17 + 2 ^ 27 + 2 ^ 34))

/-- An operand slot whose lane l carries the given elements and scale. -/
def laneSlot (l : Nat) (els : List (BitVec 32)) (scale : BitVec 32) : OpSlot :=
  let t (w : BitVec 32) : Tok := { data := ofLanes (List.replicate l 0 ++ [w]), pred := BitVec.allOnes 32, tag := 0, poison := false, last := false }
  { OpSlot.empty with toks := els.map t, scales := [t scale] }

def exampleA : OpSlot := laneSlot 5 [0x1528DF5F, 0x00000307, 0, 0, 0, 0, 0, 0] 0x7C
def exampleB : OpSlot :=
  laneSlot 12 [0x15285E5E, 0x3C3C071F, 0x3C3C3C3C, 0x3C3C3C3C, 0x3C3C3C3C, 0x3C3C3C3C, 0x3C3C3C3C, 0x3C3C3C3C] 0x80

/-- R100, R101 and their example: the window drops the 2^−32 bit, so cell (5, 12) becomes 0x3980_4AA8. -/
theorem test_mxfp8_block : e5m2.cell exampleA exampleB 5 12 0 32 0 = (0x39804AA8, false) := by decide +kernel

/-- The same block on an accumulator of 1.0 rounds up. -/
theorem test_mxfp8_block_on_one : e5m2.cell exampleA exampleB 5 12 0 32 0x3F800000 = (0x3F800805, false) := by decide +kernel

/-- R104 and its example: an INT32 accumulator clamps with SAT and wraps without. -/
theorem test_int_saturates :
    accumInt true (BitVec.ofNat 32 2147483000) 1000 = (BitVec.ofNat 32 2147483647, true) ∧
    (accumInt false (BitVec.ofNat 32 2147483000) 1000).1.toInt = -2147483296 := by decide +kernel

/-- R204 and its example: the accepted path of a tree of five nodes holds nodes 1 and 4. -/
theorem test_tree_acceptance :
    acceptPath (fun _ => false) [(412, 0), (77, 0), (9, 1), (5130, 1), (61, 4)]
      (fun n => if n = 0 then 412 else if n = 1 then 5130 else 880) 5 0 = ([1, 4], false) := by decide +kernel

/-- R221 and its example: CAP of six rows with four experts, two choices and CAPFACT 256 is 3. -/
theorem test_cap : capOf { rp4 with capfact := 256, capmin := 0 } 6 = 3 := by decide

/-- R222 and its example: in row 3 expert 1 is full, so rank 0 is dropped. -/
theorem test_capacity_row3 : ((capacity 3 4 (fun _ => false) [1, 3] [2, 3, 1, 0] 0).1.map (·.1)) = [.full, .kept] := by decide

/-- R219 to R223 and their example: row 3 chooses experts 1 and 3, and expert 3 carries weight 1.0. -/
theorem test_row3_weights :
    (chooseTop 2 (fun e => if e = 1 then 0x3E800000 else 0) [(0, 0x3E000000), (1, 0x3F000000), (2, 0x3E800000), (3, 0x3EC00000)]).map (·.1) = [1, 3] ∧
    (preWeights true [0x3F000000, 0x3EC00000]).1 = [0x3F124925, 0x3EDB6DB7] ∧
    finalWeights true 0x3F800000 [0x3F124925, 0x3EDB6DB7] [false, true] = [0, 0x3F800000] := by decide +kernel

/-- The dimmer in an emergency, and ramping up (R348 and the example of R363). -/
def emerging : Power := { Power.reset with emPwr := true, dimUp := 50, dimDown := 50, dimEmerg := 250, dimFloor := 100, dimCeil := 1000 }

theorem test_emergency_fall : emerging.nextLevel 1000 1000 = 750 ∧ emerging.nextLevel 250 1000 = 100 := by decide
theorem test_ramp_up : { emerging with emPwr := false }.nextLevel 100 1000 = 150 := by decide

/-- q2's tier-1 pool in the example of R133: four objects with their stamps, one pinned and one held. -/
def exampleRec (oid blocks at_ : Nat) : Rec :=
  { oid := oid, len := blocks * blockBytes, tier := 1, qmask := 4, copy := 2, committed := true, expiry := 0, owner := 0, source := 0, ext := [(at_, blocks)] }

def examplePool : Pool :=
  { Pool.reset with
    recs := [exampleRec 0x0C 4096 512, exampleRec 0x10 8192 4608, exampleRec 0x07 16384 12800, exampleRec 0x33 24576 29184]
    stamps := [(1, 0x0C, 40), (1, 0x10, 40), (1, 0x07, 38), (1, 0x33, 41)], pins := [(1, 0x07)], holds := [{ tier := 1, oid := 0x33, who := .req 1 }] }

/-- R136 and the example of R133: 0x0C goes first, then 0x10. -/
theorem test_eviction_order :
    examplePool.victim 1 2 = some 0x0C ∧ (examplePool.clear 1 0x0C).victim 1 2 = some 0x10 ∧
    ((examplePool.clear 1 0x0C).clear 1 0x10).victim 1 2 = none := by decide +kernel

/-! ### Call lights: the example of R376 -/

/-- The host target of function 0 with a pending source and a stack. -/
def host0 (src : Nat) (stack : List (Nat × Nat)) : State :=
  live.updFn 0 (fun x => { x with tgt := { x.tgt with priv := x.tgt.priv.modify src (fun y => { y with pend := true }), stack := stack } })

/-- What a command leaves of the host target of function 0: the last CLAIM read and the stack. -/
def claimed (r : Host.Outcome State Fault Refusal) : Option (Nat × List (Nat × Nat)) :=
  match r with
  | .next t => some ((t.fn 0).tgt.lastClaim.toNat, (t.fn 0).tgt.stack)
  | .fault _ => none
  | .refused _ => none

theorem test_claim_slot_done : claimed (exec (.claim 8) (host0 1 [])) = some (0x00002001, [(1, 8)]) := by decide +kernel
theorem test_claim_thermal : claimed (exec (.claim 8) (host0 24 [(1, 8)])) = some (0x00067818, [(24, 30), (1, 8)]) := by decide +kernel
theorem test_equal_priority_waits : (claimed (exec (.claim 8) (host0 2 [(1, 8)]))).map (·.2) = some [(1, 8)] := by decide +kernel
theorem test_eoi_not_top : (claimed (exec (.eoi 8 1) (host0 2 [(24, 30), (1, 8)]))).map (·.2) = some [(24, 30), (1, 8)] := by decide +kernel
theorem test_eoi_top : (claimed (exec (.eoi 8 24) (host0 2 [(24, 30), (1, 8)]))).map (·.2) = some [(1, 8)] := by decide +kernel
theorem test_claim_none : claimed (exec (.claim 8) live) = some (0x80000000, []) := by decide +kernel

/-! ### The queue of commands -/

theorem test_step_runs_front : (match step { live with pending := [.pwrAlertAssert, .pwrAlertDeassert] } with
    | .next t => decide (t.pending = [.pwrAlertDeassert]) && t.pw.pwrAlert
    | .fault _ => false
    | .refused _ => false) = true := by decide +kernel

/-- The table gives its rows no bits. -/
theorem test_no_words : decodeTableWord 32 0 = none ∧ State.reset.withFetchWord 32 0 = State.reset := by decide +kernel

/-! ### Well-formed and ill-formed commands: each check refuses a term -/

theorem test_wf_commands : [Instr.hello 0 255, .claim 11, .retrain 17, .vectorFiring ⟨3, 15, 21⟩, .run 3 7 3 true, .putEntry 15
  , .pathEnable (.gw 0 37), .registerWrite (.shared 1023) 0].all wellFormed = true := by decide
theorem test_wf_function : wellFormed (.hello 4 0) = false ∧ wellFormed (.leaseExpiry 4) = false := by decide
theorem test_wf_slot : wellFormed (.hello 0 256) = false := by decide
theorem test_wf_target : wellFormed (.claim 12) = false ∧ wellFormed (.eoi 12 0) = false ∧ wellFormed (.swset 12 0) = false := by decide
theorem test_wf_quad : wellFormed (.runRetire 4) = false ∧ wellFormed (.move 4 0 ⟨[], [], []⟩) = false := by decide
theorem test_wf_queue : wellFormed (.move 0 8 ⟨[], [], []⟩) = false ∧ wellFormed (.run 0 8 0 true) = false ∧ wellFormed (.run 0 0 4 true) = false := by
  decide
theorem test_wf_site : wellFormed (.vectorFiring ⟨0, 16, 0⟩) = false ∧ wellFormed (.matrixStep ⟨0, 0, 22⟩) = false ∧
    wellFormed (.rcReboot [⟨4, 0, 0⟩]) = false := by decide
theorem test_wf_ag : wellFormed (.agIssue ⟨0, 0, 1⟩ 4) = false ∧ wellFormed (.bankAccess ⟨0, 0, 1⟩ 3) = false ∧
    wellFormed (.engineMuAccess ⟨0, 0, 1⟩ 98304 none) = false := by decide
theorem test_wf_source : wellFormed (.pathEnable (.out ⟨0, 0, 0⟩ 4)) = false ∧ wellFormed (.tokenInject (.trap ⟨0, 0, 0⟩ 2)) = false ∧
    wellFormed (.tokenInject (.gw 0 38)) = false := by decide
theorem test_wf_link : wellFormed (.dispenserClaim 0 38) = false ∧ wellFormed (.routedClaim 0 38) = false := by decide
theorem test_wf_register : wellFormed (.registerWrite (.bar0 0 0x100000) 0) = false ∧ wellFormed (.registerWrite (.bme 4) 0) = false ∧
    wellFormed (.registerWrite (.functionMask 4) 0) = false ∧ wellFormed (.registerWrite (.target 8 0) 0) = false ∧
    wellFormed (.registerWrite (.shared 31) 0) = false ∧ wellFormed (.registerWrite (.recovery 0x20000) 0) = false := by decide
theorem test_wf_vector : wellFormed (.msixUnmask 0 64) = false := by decide
theorem test_wf_strap : wellFormed (.powerUp 8 []) = false := by decide
theorem test_wf_port : wellFormed (.retrain 18) = false ∧ wellFormed (.put 18 default) = false := by decide
theorem test_wf_flit : wellFormed (.flitReceive 0 { flit0 with seq := 4096 }) = false ∧ wellFormed (.flitReceive 0 flit0) = true := by decide
theorem test_wf_message : wellFormed (.put 0 { (default : Msg) with dst := 16384 }) = false ∧
    wellFormed (.ack 0 { (default : Msg) with ctr := 256 }) = false := by decide
theorem test_wf_exchange : wellFormed (.putEntry 16) = false := by decide
theorem test_wf_spdm : wellFormed (.getCertificate 4 0 0) = false ∧ wellFormed (.challenge 4 []) = false := by decide
theorem test_wf_ready : wellFormed (.rdyMapBitSet 47) = false := by decide


/-! ### Every obligation applies somewhere

Each theorem's statement applies one clause of an obligation to a concrete state and operands, its hypotheses proved there by
evaluation. -/

/-- An obligation applies to the arguments that the proof `p` gives it: the proof exists only if they meet its hypotheses. -/
def Applies {P : Prop} (_ : P) : Prop := True

theorem wit_StepRunsTheFrontCommand_1 (h : Obligations.StepRunsTheFrontCommand) :
    Applies (h.1 .pwrAlertAssert [] { live with pending := [.pwrAlertAssert] } rfl) := trivial
theorem wit_StepRunsTheFrontCommand_2 (h : Obligations.StepRunsTheFrontCommand) : Applies (h.2 live rfl) := trivial
theorem wit_ExecKeepsTheQueue_1 (h : Obligations.ExecKeepsTheQueue) : Applies (h .pwrAlertAssert live _ rfl) := trivial
theorem wit_StepKeepsMemoryCanonical_1 (h : Obligations.StepKeepsMemoryCanonical) :
    Applies (h live _ memOkBy rfl) := trivial
theorem wit_StepKeepsShape_1 (h : Obligations.StepKeepsShape) : Applies (h live _ (by unfold State.shape; decide +kernel) rfl) := trivial
theorem wit_StrapIsHeld_1 (h : Obligations.StrapIsHeld) :
    Applies (h.1 { State.reset with pw := { Power.reset with vinMv := 48000 } } 5 [] (Or.inl rfl) checks checks) := trivial
theorem wit_StrapIsHeld_2 (h : Obligations.StrapIsHeld) : Applies (h.2 live _ checks rfl nofun) := trivial
theorem wit_AllocationTakesFreeBlocks_1 (h : Obligations.AllocationTakesFreeBlocks) :
    Applies (h Pool.reset 1 0 0 1000000 [(512, 4)] checks) := trivial
theorem wit_EvictionTakesTheOldest_1 (h : Obligations.EvictionTakesTheOldest) :
    Applies ((h.1 { live with pool := examplePool } 1 2 0 1000000 false).1 4 [(53760, 4)] checks checks) := trivial
theorem wit_EvictionTakesTheOldest_2 (h : Obligations.EvictionTakesTheOldest) :
    Applies ((h.1 { live with pool := examplePool } 1 2 0 0x3C00000000 false).2.1 3 0x0C checks rfl checks) := trivial
theorem wit_EvictionTakesTheOldest_3 (h : Obligations.EvictionTakesTheOldest) :
    Applies ((h.1 { live with pool := examplePool } 1 2 0 0x3C00000000 true).2.2.1 4 checks (Or.inl rfl)) := trivial
theorem wit_EvictionTakesTheOldest_4 (h : Obligations.EvictionTakesTheOldest) :
    Applies ((h.1 { live with pool := examplePool } 1 2 0 0x3C00000000 false).2.2.2 checks) := trivial
theorem wit_EvictionTakesTheOldest_5 (h : Obligations.EvictionTakesTheOldest) :
    Applies (h.2.1 examplePool 1 2 0x0C checks) := trivial
theorem wit_EvictionTakesTheOldest_6 (h : Obligations.EvictionTakesTheOldest) :
    Applies (h.2.2.1 ((examplePool.clear 1 0x0C).clear 1 0x10) 1 2 checks (exampleRec 0x33 24576 29184) checks rfl rfl rfl
      checks) := trivial
theorem wit_LevelMovesWithinRates_1 (h : Obligations.LevelMovesWithinRates) : Applies (h emerging 100 1000 checks) := trivial
theorem wit_EvictionTakesTheOldest_7 (h : Obligations.EvictionTakesTheOldest) : Applies (h.2.2.2 examplePool 1 0x0C) := trivial
theorem wit_ResetIsCanonical_1 (h : Obligations.ResetIsCanonical) : Applies h := trivial
theorem wit_SessionOpensRenewsAndLapses_1 (h : Obligations.SessionOpensRenewsAndLapses) : Applies (h.1 (cue shut 0x101 0 []) 0 5 hearsBy checks
    checks checks checks checks checks) := trivial
theorem wit_SessionOpensRenewsAndLapses_2 (h : Obligations.SessionOpensRenewsAndLapses) : Applies (h.2.1 (cue live 0x102 0 [(0x40,8,20000)]) 0 5
    hearsBy checks) := trivial
theorem wit_SessionOpensRenewsAndLapses_3 (h : Obligations.SessionOpensRenewsAndLapses) : Applies (h.2.2 live 0 checks checks checks checks checks
    checks checks checks checks) := trivial
theorem wit_LoansAndPoolReports_1 (h : Obligations.LoansAndPoolReports) : Applies (h.1.1 (cue live 0x204 0 [(0x40,8,0x800000000000),(0x48,4,416)]) 0
    5 hearsBy checks checks checks) := trivial
theorem wit_LoansAndPoolReports_2 (h : Obligations.LoansAndPoolReports) : Applies (h.1.2.1 (cue live 0x205 0
    [(0x40,2,2),(0x42,1,1),(0x44,2,1),(0x48,8,1000)]) 0 5 hearsBy checks checks checks checks checks checks checks checks checks checks) := trivial
theorem wit_LoansAndPoolReports_3 (h : Obligations.LoansAndPoolReports) : Applies (h.1.2.2 (cue wired 0x206 0
    [(0x40,2,0x8001),(0x42,1,1),(0x44,2,1)]) 0 5 hearsBy checks checks checks checks checks checks checks) := trivial
theorem wit_LoansAndPoolReports_4 (h : Obligations.LoansAndPoolReports) : Applies (h.2.1 { live with pool := { Pool.reset with given := [given1] } }
    1 given1 checks checks checks) := trivial
theorem wit_LoansAndPoolReports_5 (h : Obligations.LoansAndPoolReports) : Applies (h.2.2.1
    { live with pool := { Pool.reset with taken := [taken1] } } 1 taken1 checks checks checks) := trivial
theorem wit_LoansAndPoolReports_6 (h : Obligations.LoansAndPoolReports) : Applies (h.2.2.2.1
    { live with pool := { Pool.reset with given := [given1] } } 1 0 given1 checks checks checks checks) := trivial
theorem wit_LoansAndPoolReports_7 (h : Obligations.LoansAndPoolReports) : Applies (h.2.2.2.2.1 (held
    [{ rec0 2 (4 * 2 ^ 60 + 1) 128 3604480 with expiry := 5 }]) checks checks) := trivial
theorem wit_LoansAndPoolReports_8 (h : Obligations.LoansAndPoolReports) : Applies (h.2.2.2.2.2
    ({ resumable with pool := { resumable.pool with recs := { parkRec with expiry := 5 } :: resumable.pool.recs.drop 1 } })
    ({ req1 .parked with parkObj := 0x4000000000000001 }) ({ parkRec with expiry := 5 }) checks checks checks checks checks checks checks checks
    checks checks) := trivial
theorem wit_FlashPagesAreProgrammed_1 (h : Obligations.FlashPagesAreProgrammed) : Applies (h.1 (cue live 0x704 0 [(0x40,8,0x800000000000)]) 0 5 ⟨[],
    [], []⟩ hearsBy checks checks checks checks) := trivial
theorem wit_FlashPagesAreProgrammed_2 (h : Obligations.FlashPagesAreProgrammed) : Applies (h.2.1
    { live with bt := { live.bt with flashOps := [⟨true, [1,2], some (0, 5), false, 0⟩] } } checks checks checks checks checks) := trivial
theorem wit_FlashPagesAreProgrammed_3 (h : Obligations.FlashPagesAreProgrammed) : Applies (h.2.2
    { live with bt := { live.bt with flashOps := [⟨true, [1,2], some (0, 5), true, 0⟩] } } ⟨true, [1,2], some (0, 5), true, 0⟩ checks checks) :=
    trivial
theorem wit_CallboardStoresAndCues_1 (h : Obligations.CallboardStoresAndCues) : Applies (h.1.1 live 0 0x500 5 [1,2,3] checks checks checks checks
    checks) := trivial
theorem wit_CallboardStoresAndCues_2 (h : Obligations.CallboardStoresAndCues) : Applies (h.1.2 live 0 5 0xA5000100#32 checks checks checks checks
    checks checks checks) := trivial
theorem wit_CallboardStoresAndCues_3 (h : Obligations.CallboardStoresAndCues) : Applies (h.2.1 (cue live 0x101 0 []) 0 5 0xA5000100#32 checks checks
    checks checks checks) := trivial
theorem wit_CallboardStoresAndCues_4 (h : Obligations.CallboardStoresAndCues) : Applies (h.2.2 live 0 5 0xA4000100#32 checks checks checks) := trivial
theorem wit_UnitsCompute_1 (h : Obligations.UnitsCompute) : Applies (((h.1 (grid (cuIn 0 0 [tk 4])) at00 (scene0.sites.getD 0 default) (tk 4) checks
    checks checks checks checks checks checks).1 checks checks).1 checks) := trivial
theorem wit_UnitsCompute_2 (h : Obligations.UnitsCompute) : Applies (((h.1 (gridWith 0 (cfg00 (0 + 1*8 + 64)) (fun x => cuIn 0 1 [tk 5] (cuIn 0 0 [tk
    4] x))) at00 (cfg00 (0+1*8+64)) (tk 4) checks checks checks checks checks checks checks).1 checks checks).2.1 (tk 5) checks checks checks) :=
    trivial
theorem wit_UnitsCompute_3 (h : Obligations.UnitsCompute) : Applies (((h.1 (gridWith 0 (cfg00 (0 + 0*8 + 64)) (fun x => cuIn 0 0 [tk 4, tk 5] x))
    at00 (cfg00 (0+0*8+64)) (tk 4) checks checks checks checks checks checks checks).1 checks checks).2.2 (tk 5) checks checks) := trivial
theorem wit_UnitsCompute_4 (h : Obligations.UnitsCompute) : Applies ((h.1 (grid (withCu 6 (fun c => { c with drainq := [tk 9] }))) at06
    (scene0.sites.getD 5 default) (tk 9) checks checks checks checks checks checks checks).2 checks checks none checks) := trivial
theorem wit_UnitsCompute_5 (h : Obligations.UnitsCompute) : Applies ((h.2.1 (grid (fun x => cuIn 2 2 [tk 5] (cuIn 2 1 [tk 4] x))) at02
    (scene0.sites.getD 3 default) (mwordOf (BitVec.ofNat 64 (bf16mm + 2 ^ 42))) checks checks checks checks).1 checks checks) := trivial
theorem wit_UnitsCompute_6 (h : Obligations.UnitsCompute) : Applies ((h.2.1 (grid (fun x => cuIn 2 1 [tk 4, tk 5] x)) at02 (scene0.sites.getD 3
    default) (mwordOf (BitVec.ofNat 64 (bf16mm + 2 ^ 42))) checks checks checks checks).2.1 checks checks) := trivial
theorem wit_UnitsCompute_7 (h : Obligations.UnitsCompute) : Applies ((h.2.1 (grid (fun x => cuIn 2 2 [tk 4, tk 5] x)) at02 (scene0.sites.getD 3
    default) mm2 checks checks checks checks).2.2 checks checks) := trivial
theorem wit_UnitsCompute_8 (h : Obligations.UnitsCompute) : Applies (h.2.2.1 (grid (cuIn 4 1 [tk 4])) at04 (scene0.sites.getD 4 default) (mwordOf
    (BitVec.ofNat 64 (5 + 5 * 16 + 256 + 16 * 2 ^ 17 + 2 ^ 27 + 2 ^ 34 + 2 ^ 42))) false .scale checks checks checks checks checks checks) := trivial
theorem wit_UnitsCompute_9 (h : Obligations.UnitsCompute) : Applies (((h.2.2.2.1 (grid (withCu 2 (fun c =>
    { c with aCur := { c.aCur with toks := List.replicate 4 (tk 0x3F803F80) }, bCur := { c.bCur with toks := List.replicate 4 (tk 0x40003F80) } })))
    at02 (scene0.sites.getD 3 default) (mwordOf (BitVec.ofNat 64 (bf16mm + 2 ^ 42))) checks checks checks checks).1 checks checks checks checks
    checks checks).1 checks) := trivial
theorem wit_UnitsCompute_10 (h : Obligations.UnitsCompute) : Applies (((h.2.2.2.1 (stepping 3) at02 (scene0.sites.getD 3 default) mm2 checks checks
    checks checks).1 checks checks checks checks checks checks).2 checks checks) := trivial
theorem wit_UnitsCompute_11 (h : Obligations.UnitsCompute) : Applies ((h.2.2.2.1 (stepping 4) at02 (scene0.sites.getD 3 default) mm2 checks checks
    checks checks).2 checks checks) := trivial
theorem wit_UnitsCompute_12 (h : Obligations.UnitsCompute) : Applies ((h.2.2.2.2 (grid (withCu 2 (fun c =>
    { c with full := [{ Bank.empty with cells := List.replicate 1024 1 }], fullAt := [10] }))) at02 (scene0.sites.getD 3 default) (mwordOf
    (BitVec.ofNat 64 (bf16mm + 2 ^ 42))) { Bank.empty with cells := List.replicate 1024 1 } [] 10 [] checks checks checks checks checks checks
    checks).1 checks checks) := trivial
theorem wit_UnitsCompute_13 (h : Obligations.UnitsCompute) : Applies ((h.2.2.2.2 (grid (withCu 6 (fun c =>
    { c with full := [{ Bank.empty with cells := List.replicate 1024 1 }], fullAt := [10] }))) at06 (scene0.sites.getD 5 default) (mwordOf
    (BitVec.ofNat 64 bf16mm)) { Bank.empty with cells := List.replicate 1024 1 } [] 10 [] checks checks checks checks checks checks checks).2 checks
    checks) := trivial
theorem wit_QuadrantsDarkenAndWake_1 (h : Obligations.QuadrantsDarkenAndWake) : Applies (h.1 live 2 checks checks checks checks checks checks checks
    checks checks) := trivial
theorem wit_QuadrantsDarkenAndWake_2 (h : Obligations.QuadrantsDarkenAndWake) : Applies (h.2 (pw (fun x =>
    { x with qd := x.qd.modify 2 (fun d => { d with lit := false, waking := true }) })) 2 checks checks checks checks) := trivial
theorem wit_LedgerCommands_1 (h : Obligations.LedgerCommands) : Applies (h.1 (cue (playing (job1 .held) []) 0x504 1 []) 0 5 (job1 .held) hearsBy
    checks) := trivial
theorem wit_LedgerCommands_2 (h : Obligations.LedgerCommands) : Applies (h.2.1 (cue
    { live with sv := { live.sv with endedJobs := [(job1 .held, 3)] } } 0x504 1 []) 0 5 3 (job1 .held) hearsBy checks checks) := trivial
theorem wit_LedgerCommands_3 (h : Obligations.LedgerCommands) : Applies ((h.2.2.1 (cue live 0x505 0
    [(0x40,2,1),(0x42,2,2),(0x48,8,0x800000000000),(0x50,4,128)]) 0 5 hearsBy checks checks checks checks checks checks checks).1 checks) := trivial
theorem wit_LedgerCommands_4 (h : Obligations.LedgerCommands) : Applies ((h.2.2.1 (cue live 0x505 0
    [(0x40,2,1),(0x42,2,2),(0x44,1,1),(0x48,8,0x800000000000),(0x50,4,128)]) 0 5 hearsBy checks checks checks checks checks checks checks).2 checks)
    := trivial
theorem wit_LedgerCommands_5 (h : Obligations.LedgerCommands) : Applies (h.2.2.2.1 (cue live 0x506 0 [(0x40,2,3),(0x42,1,1),(0x44,4,50)]) 0 5 hearsBy
    checks checks checks checks checks checks) := trivial
theorem wit_LedgerCommands_6 (h : Obligations.LedgerCommands) : Applies (h.2.2.2.2 (cue live 0x506 0 []) 0 5 hearsBy checks checks checks checks) :=
    trivial
theorem wit_MessagesAreCheckedAndAddressesLearnt_1 (h : Obligations.MessagesAreCheckedAndAddressesLearnt) : Applies (h.1.1
    { wired with pw := { wired.pw with tripT := true } } 17 (msg5 0 0 0 0 [1]) checks checks checks) := trivial
theorem wit_MessagesAreCheckedAndAddressesLearnt_2 (h : Obligations.MessagesAreCheckedAndAddressesLearnt) : Applies (h.1.2.1 wired 17 5
    { msg5 0 0 0 0 [1] with dst := 6 } looksBy checks checks checks checks) := trivial
theorem wit_MessagesAreCheckedAndAddressesLearnt_3 (h : Obligations.MessagesAreCheckedAndAddressesLearnt) : Applies (h.1.2.2.1 wired 17 17
    { msg5 0 0 0 0 [1] with depoch := 1 } looksBy checks checks checks checks checks) := trivial
theorem wit_MessagesAreCheckedAndAddressesLearnt_4 (h : Obligations.MessagesAreCheckedAndAddressesLearnt) : Applies (h.1.2.2.2.1 wired 17 3
    { msg5 0 0 0 0 [1] with sepoch := 2 } looksBy checks checks checks checks checks checks checks checks checks) := trivial
theorem wit_MessagesAreCheckedAndAddressesLearnt_5 (h : Obligations.MessagesAreCheckedAndAddressesLearnt) : Applies (h.1.2.2.2.2 (trouped .lead 0) 0
    { msgT 0 0 0 0 [1] with depoch := 5 } looksBy checks checks checks checks checks) := trivial
theorem wit_MessagesAreCheckedAndAddressesLearnt_6 (h : Obligations.MessagesAreCheckedAndAddressesLearnt) : Applies (h.2.1
    { wired with pw := { wired.pw with tripT := true } } 17 (msg5 0 0 0 0 [1]) getsBy checks checks checks) := trivial
theorem wit_MessagesAreCheckedAndAddressesLearnt_7 (h : Obligations.MessagesAreCheckedAndAddressesLearnt) : Applies (h.2.2.1 wired 17 (msg5 (5 + 4 *
    65536) 0 0 0 []) getsBy checks checks checks) := trivial
theorem wit_MessagesAreCheckedAndAddressesLearnt_8 (h : Obligations.MessagesAreCheckedAndAddressesLearnt) : Applies (h.2.2.2.1 wired 17 3 (msg5 (9 +
    3 * 65536) 0 0 0 []) getsBy checks checks checks) := trivial
theorem wit_MessagesAreCheckedAndAddressesLearnt_9 (h : Obligations.MessagesAreCheckedAndAddressesLearnt) : Applies (h.2.2.2.2 wired 17 (msg5 (5 + 2
    * 65536) 0 0 0 []) getsBy checks checks checks checks) := trivial
theorem wit_ActivationAndRecovery_1 (h : Obligations.ActivationAndRecovery) : Applies (h.1.1 (cue
    { live with bt := { live.bt with armed := some staged0 } } 0x804 0 []) 0 5 hearsBy checks checks checks) := trivial
theorem wit_ActivationAndRecovery_2 (h : Obligations.ActivationAndRecovery) : Applies (h.1.2.1
    { live with bt := { live.bt with armed := some staged0, act := .waiting } } checks) := trivial
theorem wit_ActivationAndRecovery_3 (h : Obligations.ActivationAndRecovery) : Applies (h.1.2.2
    { live with bt := { live.bt with armed := some staged0, act := .loading } } false staged0 checks checks checks checks) := trivial
theorem wit_ActivationAndRecovery_4 (h : Obligations.ActivationAndRecovery) : Applies (h.2.1 recovering checks) := trivial
theorem wit_ActivationAndRecovery_5 (h : Obligations.ActivationAndRecovery) : Applies (h.2.2.1 recovering (leBytes 0x14 0 ++ leBytes 8 0x10000)
    checks checks checks checks checks checks checks) := trivial
theorem wit_ActivationAndRecovery_6 (h : Obligations.ActivationAndRecovery) : Applies (h.2.2.2 recovering (leBytes 0x14 0 ++ leBytes 8 0x10000)
    checks checks) := trivial
theorem wit_ArrayMemory_1 (h : Obligations.ArrayMemory) : Applies ((h.1 (grid (fun x =>
    { withMu (fun m => { m with ags := m.ags.modify 0 (fun a => { a with running := true }) }) x with run := some run0 })) at01 0 (agDescOf (ag 1 0 0
    0)) ⟨some 10, false, false, none⟩ checks checks checks checks checks).1 10 checks checks checks checks checks) := trivial
theorem wit_ArrayMemory_2 (h : Obligations.ArrayMemory) : Applies ((h.1 rangeAg at10 0 (agDescOf (ag 6 1 0 0)) ⟨some 98304, true, false, none⟩ checks
    checks checks checks checks).2.1 checks checks checks) := trivial
theorem wit_ArrayMemory_3 (h : Obligations.ArrayMemory) : Applies (((h.1 (ag1 10) at01 1 (agDescOf (ag 2 2 0 0)) ⟨some 10, false, false, none⟩ checks
    checks checks checks checks).2.2 (tk 5) 10 checks checks).1 checks checks) := trivial
theorem wit_ArrayMemory_4 (h : Obligations.ArrayMemory) : Applies (((h.1 (ag1 98304) at01 1 (agDescOf (ag 2 2 0 0)) ⟨some 10, false, false, none⟩
    checks checks checks checks checks).2.2 (tk 5) 98304 checks checks).2 checks) := trivial
theorem wit_ArrayMemory_5 (h : Obligations.ArrayMemory) : Applies (h.2.1 (grid (fun x =>
    { cuIn 1 0 [tk 9] (withMu (fun m => { m with ags := m.ags.modify 1 (fun a => { a with running := true }) }) x) with run := some run0 })) at01 1
    (scene0.sites.getD 1 default) ⟨some 10, false, false, none⟩ (tk 9) checks checks checks checks checks checks checks checks checks checks) :=
    trivial
theorem wit_ArrayMemory_6 (h : Obligations.ArrayMemory) : Applies (h.2.2.1 (grid (cuIn 1 1 [tk 9])) at01 2 (scene0.sites.getD 1 default) (tk 9)
    checks checks checks checks checks checks checks checks) := trivial
theorem wit_ArrayMemory_7 (h : Obligations.ArrayMemory) : Applies ((h.2.2.2.1 (leftAg 1 3 2) at01 3 5 (.setDown at01 3) (scene0.sites.getD 1 default)
    checks checks checks checks checks checks).1 checks) := trivial
theorem wit_ArrayMemory_8 (h : Obligations.ArrayMemory) : Applies (((h.2.2.2.1 (grid (cuIn 1 3 [tk (7 + 5 * 2 ^ 32)])) at01 3 5 (.setDown at01 3)
    (scene0.sites.getD 1 default) checks checks checks checks checks checks).2 (tk (7 + 5 * 2 ^ 32)) checks checks).1 checks) := trivial
theorem wit_ArrayMemory_9 (h : Obligations.ArrayMemory) : Applies (((h.2.2.2.1 (grid (fun x => x.setInq 1 0 0 [tk (7 + 5 * 2 ^ 32)])) at10 0 6
    (.pickUp at10 0) (scene0.sites.getD 2 default) checks checks checks checks checks checks).2 (tk (7 + 5 * 2 ^ 32)) checks checks).1 checks) :=
    trivial
theorem wit_ArrayMemory_10 (h : Obligations.ArrayMemory) : Applies (((h.2.2.2.1 (grid (cuIn 1 3 [tk 7])) at01 3 5 (.setDown at01 3)
    (scene0.sites.getD 1 default) checks checks checks checks checks checks).2 (tk 7) checks checks).2 checks) := trivial
theorem wit_ArrayMemory_11 (h : Obligations.ArrayMemory) : Applies ((h.2.2.2.2.1 (grid (withMu (fun m =>
    { m with ports := [[acc false], [], []], bankAt := [(7, 1000)] }))) at01 0 0 (acc false) [] memOkBy checks checks checks checks checks).1
    checks) := trivial
theorem wit_ArrayMemory_12 (h : Obligations.ArrayMemory) : Applies (((h.2.2.2.2.1 { grid (withMu (fun m =>
    { m with ports := [[acc false], [], []] })) with flaws := [(lineAddr 0 0 7, true)] } at01 0 0 (acc false) [] memOkBy checks checks checks checks checks).2 checks
    checks).1 checks checks) := trivial
theorem wit_ArrayMemory_13 (h : Obligations.ArrayMemory) : Applies (((h.2.2.2.2.1 (grid (withMu (fun m => { m with ports := [[], [], [acc true]] })))
    at01 2 0 (acc true) [] memOkBy checks checks checks checks checks).2 checks checks).2.1 checks checks checks) := trivial
theorem wit_ArrayMemory_14 (h : Obligations.ArrayMemory) : Applies ((((h.2.2.2.2.1 (trapping true) at01 2 0 (trapAcc true) [] memOkBy checks
    checks checks checks checks).2 checks checks).2.2 0 0 0 0 checks).1 (tk 8) [] checks checks checks checks checks) := trivial
theorem wit_ArrayMemory_15 (h : Obligations.ArrayMemory) : Applies ((((h.2.2.2.2.1 { trapping false with flaws := [(lineAddr 0 0 0, false)] } at01 1 0 (trapAcc false) [] memOkBy
    checks checks checks checks checks).2 checks checks).2.2 0 0 0 0 checks).2 checks) := trivial
theorem wit_ArrayMemory_16 (h : Obligations.ArrayMemory) : Applies ((h.2.2.2.2.2 (grid (withMu (fun m => { m with bankAt := [(7, 1000)] }))) at01 7 0
    none memOkBy checks checks checks checks checks checks checks checks).1 checks) := trivial
theorem wit_ArrayMemory_17 (h : Obligations.ArrayMemory) : Applies (((h.2.2.2.2.2 (grid id) at01 7 0 (some (5, true)) memOkBy checks checks checks
    checks checks checks checks checks).2 checks checks).1 5 true checks checks) := trivial
theorem wit_ArrayMemory_18 (h : Obligations.ArrayMemory) : Applies (((h.2.2.2.2.2 (grid id) at01 7 0 none memOkBy checks checks checks checks checks
    checks checks checks).2 checks checks).2 checks) := trivial
theorem wit_LoansAndDispatchByMessage_1 (h : Obligations.LoansAndDispatchByMessage) : Applies (h.1
    { wired with pool := { Pool.reset with given := [{ given1 with peer := 9 }] } } 17 { given1 with peer := 9 } (msg5 1 2 64 3 [1,2,3]) getsBy
    checks checks) := trivial
theorem wit_LoansAndDispatchByMessage_2 (h : Obligations.LoansAndDispatchByMessage) : Applies (h.2.1
    { wired with pool := { Pool.reset with offers := [⟨9, 1, 4, 1000, 77⟩] } } 17 ⟨9, 1, 4, 1000, 77⟩ (msg5 (1 + 2 * 65536) 0 0 0 []) getsBy checks)
    := trivial
theorem wit_LoansAndDispatchByMessage_3 (h : Obligations.LoansAndDispatchByMessage) : Applies (h.2.2.1
    { wired with pool := { Pool.reset with given := [{ given1 with peer := 9, recalled := none }] } } 17 { given1 with peer := 9, recalled := none }
    (msg5 1 0 0 0 []) getsBy checks) := trivial
theorem wit_LoansAndDispatchByMessage_4 (h : Obligations.LoansAndDispatchByMessage) : Applies (h.2.2.2.1
    { wired with pool := { Pool.reset with taken := [{ taken1 with peer := 9 }] } } 17 (msg5 1 0 0 0 []) getsBy checks) := trivial
theorem wit_LoansAndDispatchByMessage_5 (h : Obligations.LoansAndDispatchByMessage) : Applies (h.2.2.2.2.1 (passing id wired) 17
    { job1 .running with inStep := true } routed1 (msg5 0 0 0 0 (leBytes 4 (tagOf 0 0 0) ++ List.replicate 252 0#8)) getsBy checks scoringBy checks
    checks checks checks checks checks) := trivial
theorem wit_LoansAndDispatchByMessage_6 (h : Obligations.LoansAndDispatchByMessage) : Applies (h.2.2.2.2.2.1 (passing id wired) 17
    { msg5 3 0 0 0 [] with rtag := tagOf 0 0 0 } getsBy checks scoringBy checks checks) := trivial
theorem wit_LoansAndDispatchByMessage_7 (h : Obligations.LoansAndDispatchByMessage) : Applies (h.2.2.2.2.2.2.1 (passing id wired) 17
    { job1 .running with inStep := true } routed1 (msg5 0 0 0 0 (leBytes 4 (tagOf 0 0 0) ++ List.replicate 252 0#8)) getsBy checks scoringBy checks
    checks checks checks checks checks) := trivial
theorem wit_LoansAndDispatchByMessage_8 (h : Obligations.LoansAndDispatchByMessage) : Applies (h.2.2.2.2.2.2.2.1
    { wired with pool := { Pool.reset with taken := [{ taken1 with peer := 9 }] } } 17 (msg5 1 0 0 0 []) getsBy checks scoringBy checks) := trivial
theorem wit_LoansAndDispatchByMessage_9 (h : Obligations.LoansAndDispatchByMessage) : Applies (h.2.2.2.2.2.2.2.2.1
    { wired with pool := { Pool.reset with taken := [{ taken1 with peer := 9 }] } } 17 (msg5 1 0 0 0 []) getsBy checks scoringBy checks) := trivial
theorem wit_LoansAndDispatchByMessage_10 (h : Obligations.LoansAndDispatchByMessage) : Applies (h.2.2.2.2.2.2.2.2.2
    { wired with pool := { Pool.reset with taken := [{ taken1 with peer := 9 }] } } 17 (msg5 1 0 0 0 []) getsBy checks scoringBy checks) := trivial
theorem wit_FabricCommandsAct_1 (h : Obligations.FabricCommandsAct) : Applies (h.1 (cue live 0x601 0 [(0x40,1,2)]) 0 5 hearsBy checks) := trivial
theorem wit_FabricCommandsAct_2 (h : Obligations.FabricCommandsAct) : Applies (h.2.1 (cue { wired with bt := { wired.bt with strap := 0 } } 0x602 0
    [(0x40,1,3)]) 0 5 hearsBy checks checks checks checks checks checks checks) := trivial
theorem wit_FabricCommandsAct_3 (h : Obligations.FabricCommandsAct) : Applies (h.2.2.1 (cue wired 0x603 0 [(0x40,2,77),(0x42,2,5)]) 0 5 17 hearsBy
    checks checks checks checks) := trivial
theorem wit_FabricCommandsAct_4 (h : Obligations.FabricCommandsAct) : Applies (h.2.2.2.1 (cue wired 0x604 0 [(0x40,4,3),(0x44,1,0)]) 0 5 hearsBy
    checks checks checks checks checks checks) := trivial
theorem wit_FabricCommandsAct_5 (h : Obligations.FabricCommandsAct) : Applies (h.2.2.2.2.1 (cue wired 0x605 0
    [(0x40,1,4),(0x42,2,2),(0x48,8,0x800000000000)]) 0 5 (hostWith 0 [1,2,3,4,0,0,0,0,9]) hearsBy checks checks checks checks checks) := trivial
theorem wit_FabricCommandsAct_6 (h : Obligations.FabricCommandsAct) : Applies (h.2.2.2.2.2.1 (cue wired 0x606 0 []) 0 5 hearsBy checks) := trivial
theorem wit_FabricCommandsAct_7 (h : Obligations.FabricCommandsAct) : Applies (h.2.2.2.2.2.2 (cue wired 0x606 0
    [(0x40,8,0x800000000000),(0x48,4,64)]) 0 5 hearsBy checks checks checks) := trivial
theorem wit_StepsBeginAndEnd_1 (h : Obligations.StepsBeginAndEnd) : Applies (h.1 (playing (job1 .running) [req1 .queued]) 1 ⟨[], [], []⟩ [] (job1
    .running) (job1 .running) man1 (prod1 .onStage) checks checks checks checks checks checks checks checks checks checks checks checks checks) :=
    trivial
theorem wit_StepsBeginAndEnd_2 (h : Obligations.StepsBeginAndEnd) : Applies (h.2.1 (playing (job1 .running) [req1 .decode]) 1 ⟨[], [], []⟩ (job1
    .running) (prod1 .onStage) (req1 .decode) checks checks checks checks checks checks checks checks checks checks checks checks checks checks
    checks checks checks checks checks checks) := trivial
theorem wit_StepsBeginAndEnd_3 (h : Obligations.StepsBeginAndEnd) : Applies ((h.2.2.1 (played { job1 .running with inStep := true } [req32]) 1 []
    default ({ job1 .running with inStep := true }) man1 checks checks checks checks checks checks checks).1 checks checks) := trivial
theorem wit_StepsBeginAndEnd_4 (h : Obligations.StepsBeginAndEnd) : Applies ((h.2.2.1 (stepping2 { job1 .running with inStep := true, members := 3 }
    .lead) 1 [] default ({ job1 .running with inStep := true, members := 3 }) man1 checks checks checks checks checks checks checks).2.1 checks
    checks checks checks checks) := trivial
theorem wit_StepsBeginAndEnd_5 (h : Obligations.StepsBeginAndEnd) : Applies ((h.2.2.1 (stepping2
    { job1 .running with inStep := true, members := 3, slot := 256 } .member) 1 [] default
    ({ job1 .running with inStep := true, members := 3, slot := 256 }) man1 checks checks checks checks checks checks checks).2.2 checks checks
    checks checks checks) := trivial
theorem wit_StepsBeginAndEnd_6 (h : Obligations.StepsBeginAndEnd) : Applies (h.2.2.2 (played { job1 .running with inStep := true } [req32]) 1 []
    default ({ job1 .running with inStep := true }) man1 req32 checks checks checks checks checks checks checks checks checks checks checks checks
    checks checks checks checks checks checks checks checks checks checks checks checks checks checks noClosing) := trivial
theorem wit_VendorMessagesAct_1 (h : Obligations.VendorMessagesAct) : Applies (h.1 State.reset checks) := trivial
theorem wit_VendorMessagesAct_2 (h : Obligations.VendorMessagesAct) : Applies (h.2.1 live [1,2] checks) := trivial
theorem wit_VendorMessagesAct_3 (h : Obligations.VendorMessagesAct) : Applies (h.2.2.1 live 2000 checks checks) := trivial
theorem wit_VendorMessagesAct_4 (h : Obligations.VendorMessagesAct) : Applies (h.2.2.2.1 live 999 true checks checks checks) := trivial
theorem wit_VendorMessagesAct_5 (h : Obligations.VendorMessagesAct) : Applies (h.2.2.2.2 live 3 7 (List.replicate 4096 1#8) checks checks checks
    checks checks checks) := trivial
theorem wit_DiagnosticsAct_1 (h : Obligations.DiagnosticsAct) : Applies (h.1 (cue (quad0 (fun x => { x with stall := some rec86 }) live) 0xF02 0
    [(0x58,8,0x800000000000)]) 0 5 rec86 hearsBy checks checks checks checks checks checks checks checks) := trivial
theorem wit_DiagnosticsAct_2 (h : Obligations.DiagnosticsAct) : Applies (h.2.1 (cue live 0xF03 0 [(0x42,1,3),(0x43,1,4)]) 0 5 hearsBy checks checks
    checks checks checks checks checks checks checks) := trivial
theorem wit_DiagnosticsAct_3 (h : Obligations.DiagnosticsAct) : Applies (h.2.2 (quad0 (fun x =>
    { x with test := [(3, 4)], testSlot := some (0, 5), testOne := true, lastReset := 10, sites := [⟨3, 4, 3, 1, none, 0, 5, 0, false⟩] }) (cue live
    0xF03 0 [])) 0 3 4 0 5 checks checks checks checks checks checks checks checks) := trivial
theorem wit_EvictAndPin_1 (h : Obligations.EvictAndPin) : Applies (h.1 (cue (held [rec0 1 9 128 600]) 0x202 0 [(0x40,8,9),(0x48,1,1)]) 0 5 hearsBy
    checks checks checks checks checks) := trivial
theorem wit_EvictAndPin_2 (h : Obligations.EvictAndPin) : Applies (h.2.1 (cue (held [rec0 1 9 128 600]) 0x203 0 [(0x40,8,9),(0x48,1,1),(0x49,1,1)]) 0
    5 hearsBy checks checks checks checks checks checks checks) := trivial
theorem wit_EvictAndPin_3 (h : Obligations.EvictAndPin) : Applies (h.2.2 (cue (held [rec0 1 9 128 600]) 0x203 0 [(0x40,8,9),(0x48,1,1)]) 0 5 hearsBy
    checks checks checks checks checks checks) := trivial
theorem wit_ReadinessResetRelease_1 (h : Obligations.ReadinessResetRelease) : Applies (h.1 (cue live 0x103 0 [(0x40,8,1)]) 0 5 hearsBy checks checks)
    := trivial
theorem wit_ReadinessResetRelease_2 (h : Obligations.ReadinessResetRelease) : Applies (h.2.1 (cue (port3 .up) 0x104 0 [(0x40,1,2),(0x41,1,3)]) 0 5
    hearsBy checks checks checks checks) := trivial
theorem wit_ReadinessResetRelease_3 (h : Obligations.ReadinessResetRelease) : Applies (h.2.2.1 (cue live 0x104 0 [(0x40,1,4)]) 0 5 hearsBy checks
    checks) := trivial
theorem wit_ReadinessResetRelease_4 (h : Obligations.ReadinessResetRelease) : Applies (h.2.2.2 (cue live 0x105 0 []) 0 5 hearsBy checks checks
    checks) := trivial
theorem wit_RegisterWrites_1 (h : Obligations.RegisterWrites) : Applies (h.1 live 0x0003E80FA32#64 checks) := trivial
theorem wit_RegisterWrites_2 (h : Obligations.RegisterWrites) : Applies (h.2.1 live 3 0x15#64 checks checks checks) := trivial
theorem wit_RegisterWrites_3 (h : Obligations.RegisterWrites) : Applies (h.2.2.1 live 0 1#64 checks checks checks) := trivial
theorem wit_RegisterWrites_4 (h : Obligations.RegisterWrites) : Applies (h.2.2.2.1 live 3 0x15#64 checks) := trivial
theorem wit_RegisterWrites_5 (h : Obligations.RegisterWrites) : Applies (h.2.2.2.2 live 0 5) := trivial
theorem wit_PlacementStartsAndCommits_1 (h : Obligations.PlacementStartsAndCommits) : Applies (h.1 (cue live 0x201 0
    [(0x40,8,9),(0x48,8,0x800000000000),(0x50,8,128),(0x68,1,2),(0x69,1,1)]) 0 5 hearsBy checks checks checks checks checks checks checks hostNamedBy
    canPlaceBy roomOrBy) := trivial
theorem wit_PlacementStartsAndCommits_2 (h : Obligations.PlacementStartsAndCommits) : Applies (h.2.1 (cue (borrowed live) 0x201 0
    [(0x40,8,9),(0x48,8,0x800000000000),(0x50,8,128),(0x68,1,3),(0x6C,4,1)]) 0 5 tk9 hearsBy checks checks checks checks checks checks hostNamedBy
    checks checks checks checks checks checks checks) := trivial
theorem wit_PlacementStartsAndCommits_3 (h : Obligations.PlacementStartsAndCommits) : Applies (h.2.2.1 placing9 1 0 5 ⟨[], [], []⟩ pl9 checks checks
    checks checks checks checks) := trivial
theorem wit_PlacementStartsAndCommits_4 (h : Obligations.PlacementStartsAndCommits) : Applies (h.2.2.2 (borrowed
    { wired with pool := { wired.pool with placing := [plB] } }) 1 0 5 ⟨[], [], []⟩ plB tk9 checks checks checks checks checks checks checks checks
    checks) := trivial
theorem wit_RequestsWaitOrEnd_1 (h : Obligations.RequestsWaitOrEnd) : Applies (h.1 (cue (playing (job1 .running) [req1 .parked]) 0x403 1
    [(0x40,8,1)]) 0 5 (req1 .parked) hearsBy checks checks) := trivial
theorem wit_RequestsWaitOrEnd_2 (h : Obligations.RequestsWaitOrEnd) : Applies (h.2.1 (cue (playing { job1 .running with inStep := true } [req1
    .decode]) 0x403 1 [(0x40,8,1)]) 0 5 (req1 .decode) { job1 .running with inStep := true } hearsBy checks checks checks checks) := trivial
theorem wit_RequestsWaitOrEnd_3 (h : Obligations.RequestsWaitOrEnd) : Applies (h.2.2.1 (cue (playing (job1 .running) [req1 .decode]) 0x403 1
    [(0x40,8,1)]) 0 5 (req1 .decode) (job1 .running) hearsBy checks checks checks checks checks) := trivial
theorem wit_RequestsWaitOrEnd_4 (h : Obligations.RequestsWaitOrEnd) : Applies (h.2.2.2.1 (cue (playing { job1 .running with inStep := true } [req1
    .decode]) 0x404 1 [(0x40,8,1)]) 0 5 (req1 .decode) { job1 .running with inStep := true } hearsBy checks checks checks checks checks checks
    checks) := trivial
theorem wit_RequestsWaitOrEnd_5 (h : Obligations.RequestsWaitOrEnd) : Applies (h.2.2.2.2.1 (cue (playing (job1 .running) [req1 .decode]) 0x404 1
    [(0x40,8,1)]) 0 5 (req1 .decode) (job1 .running) man1 hearsBy checks checks checks checks checks checks checks checks checks checks checks
    checks) := trivial
theorem wit_RequestsWaitOrEnd_6 (h : Obligations.RequestsWaitOrEnd) : Applies (h.2.2.2.2.2 (cue resumable 0x405 1 [(0x40,8,1),(0x48,1,0xFF)]) 0 5
    { req1 .parked with parkObj := 0x4000000000000001 } (job1 .running) (prod1 .onStage) parkRec hearsBy checks checks checks checks checks checks
    checks checks checks checks checks checks checks) := trivial
theorem wit_LeadControlsTheJob_1 (h : Obligations.LeadControlsTheJob) : Applies (h.1 (withJob (job1 .struck) (trouped .member 1)) 0 (msgT 0 40 (1 + 3
    * 65536) 9 []) getsBy checks checks) := trivial
theorem wit_LeadControlsTheJob_2 (h : Obligations.LeadControlsTheJob) : Applies (h.2.1 (withJob (job1 .running) (trouped .member 1)) 0 (job1
    .running) (prod1 .onStage) (msgT 0 (1 + 7 * 2 ^ 32) 32 0 []) getsBy checks checks checks checks checks checks) := trivial
theorem wit_LeadControlsTheJob_3 (h : Obligations.LeadControlsTheJob) : Applies (h.2.2.1 (withJob { job1 .running with inStep := true, members := 7 }
    (trouped .lead 0)) 0 2 { job1 .running with inStep := true, members := 7 } man1 (msgT 0 (1 + 1 * 2 ^ 32) 2 0 [1,0,0,0]) getsBy checks checks
    checks checks checks checks checks checks checks checks checks) := trivial
theorem wit_LeadControlsTheJob_4 (h : Obligations.LeadControlsTheJob) : Applies (h.2.2.2.1 (withJob (job1 .running) (trouped .member 1)) 0 (job1
    .running) (msgT 0 1 0 0 [1,0,0,0]) getsBy checks checks) := trivial
theorem wit_LeadControlsTheJob_5 (h : Obligations.LeadControlsTheJob) : Applies (h.2.2.2.1 (withJob (job1 .struck) (trouped .member 1)) 0 (job1
    .struck) (msgT 1 1 9 0 []) getsBy checks checks) := trivial
theorem wit_LeadControlsTheJob_6 (h : Obligations.LeadControlsTheJob) : Applies (h.2.2.2.2.1 (withJob (job1 .struck) (trouped .member 1)) 0 (msgT 0
    40 (1 + 3 * 65536) 9 []) getsBy checks) := trivial
theorem wit_LeadControlsTheJob_7 (h : Obligations.LeadControlsTheJob) : Applies (h.2.2.2.2.1 (withJob (job1 .running) (trouped .member 1)) 0 (msgT 0
    1 9 0 []) getsBy checks) := trivial
theorem wit_LeadControlsTheJob_8 (h : Obligations.LeadControlsTheJob) : Applies (h.2.2.2.2.2.1 (withJob (job1 .struck) (trouped .member 1)) 0 (job1
    .struck) (msgT 1 1 9 0 []) getsBy checks checks checks checks) := trivial
theorem wit_LeadControlsTheJob_9 (h : Obligations.LeadControlsTheJob) : Applies (h.2.2.2.2.2.2 (withJob (job1 .struck) (trouped .member 2)) 0 (msgT 1
    1 9 0 []) getsBy checks) := trivial
theorem wit_StrikeAndSetComplete_1 (h : Obligations.StrikeAndSetComplete) : Applies (h.1 (playing { job1 .preempting with preHold := 5000 } []) 1
    { job1 .preempting with preHold := 5000 } checks checks checks checks) := trivial
theorem wit_StrikeAndSetComplete_2 (h : Obligations.StrikeAndSetComplete) : Applies ((h.2.1 (playing { job1 .preempting with preHold := 5000 } []) 1
    { job1 .preempting with preHold := 5000 } checks checks checks checks).1 checks) := trivial
theorem wit_StrikeAndSetComplete_3 (h : Obligations.StrikeAndSetComplete) : Applies ((h.2.1 (playing { job1 .preempting with endSlots := [(0, 9)] }
    []) 1 ({ job1 .preempting with endSlots := [(0, 9)] }) checks checks checks checks).2 checks checks checks) := trivial
theorem wit_StrikeAndSetComplete_4 (h : Obligations.StrikeAndSetComplete) : Applies ((h.2.2 (playing
    { job1 .setting with xctrs := List.replicate 64 3 } []) 1 { job1 .setting with xctrs := List.replicate 64 3 } checks checks checks checks checks
    checks).1 checks checks) := trivial
theorem wit_StrikeAndSetComplete_5 (h : Obligations.StrikeAndSetComplete) : Applies ((h.2.2 (playing { job1 .setting with reason := 1 } []) 1
    ({ job1 .setting with reason := 1 }) checks checks checks checks checks checks).2.1 checks checks) := trivial
theorem wit_StrikeAndSetComplete_6 (h : Obligations.StrikeAndSetComplete) : Applies ((h.2.2 (playing { job1 .setting with endSlots := [(0, 9)] } [])
    1 ({ job1 .setting with endSlots := [(0, 9)] }) checks checks checks checks checks checks).2.2 checks) := trivial
theorem wit_CallLightsAct_1 (h : Obligations.CallLightsAct) : Applies (h.1.1 lamp 2 3 9 heldBy checks checks) := trivial
theorem wit_CallLightsAct_2 (h : Obligations.CallLightsAct) : Applies (h.1.2 live 2 heldBy checks) := trivial
theorem wit_CallLightsAct_3 (h : Obligations.CallLightsAct) : Applies (h.2.1 lampOn 2 3 9 [] heldBy checks) := trivial
theorem wit_CallLightsAct_4 (h : Obligations.CallLightsAct) : Applies (h.2.2.1 live 2 0x8#32 heldBy) := trivial
theorem wit_CallLightsAct_5 (h : Obligations.CallLightsAct) : Applies (h.2.2.2.1 edge 64 true checks checks checks checks) := trivial
theorem wit_CallLightsAct_6 (h : Obligations.CallLightsAct) : Applies (h.2.2.2.2 live 0 3 checks checks checks checks checks) := trivial
theorem wit_CacheCommits_1 (h : Obligations.CacheCommits) : Applies (h.1 sealing 1 0 0 sealPl checks checks checks checks) := trivial
theorem wit_CacheCommits_2 (h : Obligations.CacheCommits) : Applies (h.2.1 parking 1 parkPl
    { req1 .parking with parkSlot := some (0, 5), parkTtl := 1000, pstate := 2 } checks checks checks) := trivial
theorem wit_CacheCommits_3 (h : Obligations.CacheCommits) : Applies (h.2.2 resuming 1
    { req1 .resuming with parkObj := 0x4000000000000001, resumeSlot := some (0, 5), pstate := 2 } man1 checks checks checks checks) := trivial
theorem wit_PortsTrainAndFlitsArrive_1 (h : Obligations.PortsTrainAndFlitsArrive) : Applies (h.1.1 (port3 .training) 3 .halfLow ⟨false, 2, 9, none⟩
    checks checks checks checks checks checks) := trivial
theorem wit_PortsTrainAndFlitsArrive_2 (h : Obligations.PortsTrainAndFlitsArrive) : Applies (h.1.1 (port3 .retrain) 3 .full ⟨false, 2, 9, none⟩
    checks checks checks checks checks checks) := trivial
theorem wit_PortsTrainAndFlitsArrive_3 (h : Obligations.PortsTrainAndFlitsArrive) : Applies (h.1.2.1 (port3 .training) 3 .full ⟨true, 2, 9, none⟩
    checks checks checks checks checks) := trivial
theorem wit_PortsTrainAndFlitsArrive_4 (h : Obligations.PortsTrainAndFlitsArrive) : Applies (h.1.2.2.1 (port3 .retrain) 3 .full ⟨true, 2, 9, none⟩
    checks checks checks checks checks) := trivial
theorem wit_PortsTrainAndFlitsArrive_5 (h : Obligations.PortsTrainAndFlitsArrive) : Applies (h.1.2.2.2.1 (port3 .down) 3 checks checks checks checks
    checks) := trivial
theorem wit_PortsTrainAndFlitsArrive_6 (h : Obligations.PortsTrainAndFlitsArrive) : Applies (h.1.2.2.2.2.1 (port3 .up) 3 checks checks checks checks
    checks) := trivial
theorem wit_PortsTrainAndFlitsArrive_7 (h : Obligations.PortsTrainAndFlitsArrive) : Applies (h.1.2.2.2.2.2 (port3 .retrain) 3 checks checks checks
    checks checks) := trivial
theorem wit_PortsTrainAndFlitsArrive_8 (h : Obligations.PortsTrainAndFlitsArrive) : Applies (h.2.1 (port3 .up) 3 { flit0 with good := false } checks
    checks checks checks checks) := trivial
theorem wit_PortsTrainAndFlitsArrive_9 (h : Obligations.PortsTrainAndFlitsArrive) : Applies (h.2.2.1 (port3 .up) 3 flit0 checks checks checks checks
    checks checks checks) := trivial
theorem wit_PortsTrainAndFlitsArrive_10 (h : Obligations.PortsTrainAndFlitsArrive) : Applies (h.2.2.2.1 (opState op1) 4 0 5 op1 checks checks checks
    checks checks checks checks checks) := trivial
theorem wit_PortsTrainAndFlitsArrive_11 (h : Obligations.PortsTrainAndFlitsArrive) : Applies (h.2.2.2.2.1 (opState { op1 with waiting := some 0 }) 4
    0 5 0 { op1 with waiting := some 0 } checks checks checks checks checks checks checks) := trivial
theorem wit_PortsTrainAndFlitsArrive_12 (h : Obligations.PortsTrainAndFlitsArrive) : Applies (h.2.2.2.2.2 (opState { op1 with resendAt := some 0 }) 4
    0 0 { op1 with resendAt := some 0 } checks checks checks checks checks) := trivial
theorem wit_ScenesLoadRunAndChange_1 (h : Obligations.ScenesLoadRunAndChange) : Applies (h.1.1 (grid (fun x =>
    { x with aeq := x.aeq.set 0 [{ op := .load 2 0 0, started := false }], loads := [⟨2, scene0⟩] })) 0 0 0 2 0 0 0 0 true false [] [] (.run 0 0 0
    true) (.run 0 true) checks checks checks checks checks checks checks checks checks checks) := trivial
theorem wit_ScenesLoadRunAndChange_2 (h : Obligations.ScenesLoadRunAndChange) : Applies ((h.1.2.1 (grid (fun x => { x with loads := [⟨2, scene0⟩] }))
    0 0 2 0 180480 checks checks aeNextBy checks).1 checks) := trivial
theorem wit_ScenesLoadRunAndChange_3 (h : Obligations.ScenesLoadRunAndChange) : Applies ((h.1.2.1 (withJob (job1 .running) (grid id)) 0 0 0 0 180480
    checks checks aeNextBy checks).2.1 checks checks (job1 .running) checks) := trivial
theorem wit_ScenesLoadRunAndChange_4 (h : Obligations.ScenesLoadRunAndChange) : Applies (((h.1.2.1 (grid id) 0 0 2 0 sceneBytes checks checks
    aeNextBy checks).2.2 checks checks checks checks).1 checks) := trivial
theorem wit_ScenesLoadRunAndChange_5 (h : Obligations.ScenesLoadRunAndChange) : Applies (((h.1.2.1 (grid id) 0 0 2 0 64 checks checks aeNextBy
    checks).2.2 checks checks checks checks).2 checks noStagingBy) := trivial
theorem wit_ScenesLoadRunAndChange_6 (h : Obligations.ScenesLoadRunAndChange) : Applies ((h.1.2.2 (grid (fun x => { x with loads := [⟨2, scene0⟩] }))
    0 2 none ⟨2, scene0⟩ checks checks checks checks).1 checks checks checks) := trivial
theorem wit_ScenesLoadRunAndChange_7 (h : Obligations.ScenesLoadRunAndChange) : Applies ((h.1.2.2 fenced31 0 2 (some tsDet) ⟨2, scDet⟩ checks checks
    checks checks).2.1 tsDet checks checks checks checks checks) := trivial
theorem wit_ScenesLoadRunAndChange_8 (h : Obligations.ScenesLoadRunAndChange) : Applies ((h.1.2.2 fenced31 0 2 none ⟨2, scDet⟩ checks checks checks
    checks).2.2 checks noStagingBy) := trivial
theorem wit_ScenesLoadRunAndChange_9 (h : Obligations.ScenesLoadRunAndChange) : Applies ((h.2.1.1 (withJob { job1 .running with inStep := true }
    (grid id)) 0 0 0 true scene0 checks checks aeNextBy checks checks checks checks checks).1 checks checks checks) := trivial
theorem wit_ScenesLoadRunAndChange_10 (h : Obligations.ScenesLoadRunAndChange) : Applies ((h.2.1.1 (grid (fun x =>
    { x with chg := some chg10, run := some { run0 with slot := 1 } })) 0 0 0 false scene0 checks checks aeNextBy checks checks checks checks
    checks).2.1 chg10 ({ run0 with slot := 1 }) checks checks checks checks checks checks checks checks) := trivial
theorem wit_ScenesLoadRunAndChange_11 (h : Obligations.ScenesLoadRunAndChange) : Applies ((h.2.1.1 (withJob (job1 .running) (grid id)) 0 0 0 true
    scene0 checks checks aeNextBy checks checks checks checks checks).2.2 checks) := trivial
theorem wit_ScenesLoadRunAndChange_12 (h : Obligations.ScenesLoadRunAndChange) : Applies (h.2.1.2 (grid (fun x =>
    { withMu (fun m => { m with ags := m.ags.modify 0 (fun a => { a with running := true, fin := true }) }) x with run := some run0 })) 0 900 run0
    checks checks checks checks checks checks checks) := trivial
theorem wit_ScenesLoadRunAndChange_13 (h : Obligations.ScenesLoadRunAndChange) : Applies ((h.2.2.1 (grid id) 0 0 2 0 checks checks aeNextBy checks).1
    checks) := trivial
theorem wit_ScenesLoadRunAndChange_14 (h : Obligations.ScenesLoadRunAndChange) : Applies (((h.2.2.1 (grid id) 0 0 0 false checks checks aeNextBy
    checks).2 checks checks).1 checks) := trivial
theorem wit_ScenesLoadRunAndChange_15 (h : Obligations.ScenesLoadRunAndChange) : Applies ((((h.2.2.1 (grid id) 0 0 1 false checks checks aeNextBy
    checks).2 checks checks).2 checks checks checks).1 checks checks) := trivial
theorem wit_ScenesLoadRunAndChange_16 (h : Obligations.ScenesLoadRunAndChange) : Applies ((((h.2.2.1 (grid (fun x =>
    { x with run := some { run0 with curtain := none } })) 0 0 1 false checks checks aeNextBy checks).2 checks checks).2 checks checks checks).2.1
    checks checks) := trivial
theorem wit_ScenesLoadRunAndChange_17 (h : Obligations.ScenesLoadRunAndChange) : Applies ((((h.2.2.1 (grid (fun x => { x with run := some run0 })) 0
    0 1 true checks checks aeNextBy checks).2 checks checks).2 checks checks checks).2.2 checks) := trivial
theorem wit_ScenesLoadRunAndChange_18 (h : Obligations.ScenesLoadRunAndChange) : Applies ((h.2.2.2.1 (grid (fun x =>
    { cuIn 0 0 [tk 4] x with run := some run0, cutFrom := some (998, 1) })) 0 998 1 checks checks checks checks).1 checks) := trivial
theorem wit_ScenesLoadRunAndChange_19 (h : Obligations.ScenesLoadRunAndChange) : Applies ((h.2.2.2.1 (teState [teCo] 0 (fun x =>
    { x with cutFrom := some (998, 1) })) 0 998 1 checks checks checks checks).2 ({ job1 .running with inStep := true }) checks checks) := trivial
theorem wit_ScenesLoadRunAndChange_20 (h : Obligations.ScenesLoadRunAndChange) : Applies (h.2.2.2.2.1 (grid (fun x =>
    { x with chg := some chg01, gwSlot := 1 })) at00 chg01 checks checks checks checks checks checks checks checks checks) := trivial
theorem wit_ScenesLoadRunAndChange_21 (h : Obligations.ScenesLoadRunAndChange) : Applies ((h.2.2.2.2.2 (grid id) (.out at00 0) checks checks
    checks).1 nofun checks checks) := trivial
theorem wit_ScenesLoadRunAndChange_22 (h : Obligations.ScenesLoadRunAndChange) : Applies ((h.2.2.2.2.2 (grid id) (.gw 0 0) checks checks checks).2 0
    0 (State.pathName (grid id) 0 (.gw 0 0) 0) checks checks checks checks) := trivial
theorem wit_MessagesReachMemory_1 (h : Obligations.MessagesReachMemory) : Applies (h.1 wired 17 { msg5 0x1000 0 0 0 [1,2,3,4] with ctr := 9 } getsBy
    checks checks checks) := trivial
theorem wit_MessagesReachMemory_2 (h : Obligations.MessagesReachMemory) : Applies (h.2.1 wired 17 (msg5 0 0x1000 0 128 []) getsBy checks checks
    checks checks checks checks) := trivial
theorem wit_MessagesReachMemory_3 (h : Obligations.MessagesReachMemory) : Applies (h.2.2.1 wired 17 (msg5 0 0x300000000 0 128 []) getsBy checks
    checks checks checks checks) := trivial
theorem wit_MessagesReachMemory_4 (h : Obligations.MessagesReachMemory) : Applies (h.2.2.2.1 (darken wired) 17 (msg5 0 0x1000 0 128 []) getsBy checks
    checks checks checks checks) := trivial
theorem wit_MessagesReachMemory_5 (h : Obligations.MessagesReachMemory) : Applies (h.2.2.2.2.1 objed 17 (rec0 2 77 128 600) (msg5 77 0 2 128 [])
    getsBy checks checks checks checks checks checks checks checks) := trivial
theorem wit_MessagesReachMemory_6 (h : Obligations.MessagesReachMemory) : Applies (h.2.2.2.2.2.1 wired 17 (msg5 77 0x1000 1 128 []) getsBy checks
    checks checks checks checks checks) := trivial
theorem wit_MessagesReachMemory_7 (h : Obligations.MessagesReachMemory) : Applies (h.2.2.2.2.2.2.1 wired 17 (msg5 0x1000 (0x100 + 0x30000) 5 128
    [1,0,0,0]) getsBy checks checks checks checks checks checks checks checks) := trivial
theorem wit_MessagesReachMemory_8 (h : Obligations.MessagesReachMemory) : Applies (h.2.2.2.2.2.2.2 wired 17 (msg5 0x1000 (0x200 + 0x30000) 5 128
    [1,0,0,0]) getsBy checks checks checks checks checks checks checks checks) := trivial
theorem wit_JobsAreSubmittedAndStarted_1 (h : Obligations.JobsAreSubmittedAndStarted) : Applies (h.1 (cue (shown .onStage [rec0 1 9 128 700]) 0x501 0
    [(0x40,2,1)]) 0 5 [] (prod1 .onStage) hearsBy checks checks checks checks checks checks checks checks checks checks) := trivial
theorem wit_JobsAreSubmittedAndStarted_2 (h : Obligations.JobsAreSubmittedAndStarted) : Applies ((h.2.1 (cue (playing
    { job1 .held with started := false } []) 0x501 1 [(0x43,1,1)]) 0 5 [] ({ job1 .held with started := false }) hearsBy checks checks checks checks
    checks checks checks).1 checks checks checks checks checks) := trivial
theorem wit_JobsAreSubmittedAndStarted_3 (h : Obligations.JobsAreSubmittedAndStarted) : Applies ((h.2.1 (cue (playing (job1 .held) []) 0x501 1
    [(0x43,1,1)]) 0 5 [] (job1 .held) hearsBy checks checks checks checks checks checks checks).2.1 checks checks checks checks checks) := trivial
theorem wit_JobsAreSubmittedAndStarted_4 (h : Obligations.JobsAreSubmittedAndStarted) : Applies ((h.2.1 (cue (playing
    { job1 .struck with kept := true } []) 0x501 1 [(0x43,1,1)]) 0 5 [] ({ job1 .struck with kept := true }) hearsBy checks checks checks checks
    checks checks checks).2.2 checks checks checks) := trivial
theorem wit_JobsAreSubmittedAndStarted_5 (h : Obligations.JobsAreSubmittedAndStarted) : Applies (h.2.2.1 (playing
    { job1 .queued with started := false } []) 1 ⟨[], [], []⟩ { job1 .queued with started := false } (prod1 .onStage) checks checks checks checks
    checks checks checks checks checks) := trivial
theorem wit_JobsAreSubmittedAndStarted_6 (h : Obligations.JobsAreSubmittedAndStarted) : Applies (h.2.2.2 (playing (job1 .struck) []) 1 (job1 .struck)
    checks checks checks checks) := trivial
theorem wit_UnitsFailAndStall_1 (h : Obligations.UnitsFailAndStall) : Applies ((h.1 (grid (cuIn 0 0 [tk 4])) at00 0 0 (tk 4) checks checks checks
    checks checks checks checks).1) := trivial
theorem wit_UnitsFailAndStall_2 (h : Obligations.UnitsFailAndStall) : Applies ((h.1 (grid (cuIn 0 0 [tk 4])) at00 0 0 (tk 4) checks checks checks
    checks checks checks checks).2.1) := trivial
theorem wit_UnitsFailAndStall_3 (h : Obligations.UnitsFailAndStall) : Applies ((h.1 (grid (cuIn 0 0 [tk 4])) at00 0 0 (tk 4) checks checks checks
    checks checks checks checks).2.2) := trivial
theorem wit_UnitsFailAndStall_4 (h : Obligations.UnitsFailAndStall) : Applies ((h.2.1 (grid (fun x => { x with run := some run0 })) 0 0 2 run0 checks
    checks checks checks checks checks).1 checks) := trivial
theorem wit_UnitsFailAndStall_5 (h : Obligations.UnitsFailAndStall) : Applies ((h.2.1 (grid (fun x =>
    { x with run := some run0, polls := [(0, 2, 2)] })) 0 0 2 run0 checks checks checks checks checks checks).2 checks) := trivial
theorem wit_UnitsFailAndStall_6 (h : Obligations.UnitsFailAndStall) : Applies (h.2.2.1 (grid (fun x => { x with run := some run0 })) 0 checks checks
    checks checks) := trivial
theorem wit_UnitsFailAndStall_7 (h : Obligations.UnitsFailAndStall) : Applies (h.2.2.2 (withJob (job1 .running) (grid (fun x =>
    { x with run := some run0, halted := true, stall := some rec86 }))) 0 rec86 (job1 .running) checks checks checks checks checks) := trivial
theorem wit_TroupesFormAndDissolve_1 (h : Obligations.TroupesFormAndDissolve) : Applies (h.1 (trouped .none 0) 0 (msgT 3 6 0 0 []) getsBy checks
    checks) := trivial
theorem wit_TroupesFormAndDissolve_2 (h : Obligations.TroupesFormAndDissolve) : Applies (h.1 (trouped .member 1) 0 (msgT 0 6 0 0 []) getsBy checks
    checks) := trivial
theorem wit_TroupesFormAndDissolve_3 (h : Obligations.TroupesFormAndDissolve) : Applies (h.2.1 (withJob (job1 .held) (trouped .none 0)) 0 (msgT 3 6 0
    0 []) getsBy checks) := trivial
theorem wit_TroupesFormAndDissolve_4 (h : Obligations.TroupesFormAndDissolve) : Applies (h.2.2.1
    { trouped .none 0 with fab := { (trouped .none 0).fab with forming := some g8 } } 0 0 5 g8 (msgT 0 6 0 0 []) getsBy checks checks checks checks
    checks checks checks checks checks checks) := trivial
theorem wit_TroupesFormAndDissolve_5 (h : Obligations.TroupesFormAndDissolve) : Applies (h.2.2.2.1
    { trouped .none 0 with fab := { (trouped .none 0).fab with forming := some { g8 with mask := 7 } } } 0 2 { g8 with mask := 7 } (msgT 0 6 0 0 [])
    getsBy checks checks checks checks checks checks checks checks checks checks) := trivial
theorem wit_TroupesFormAndDissolve_6 (h : Obligations.TroupesFormAndDissolve) : Applies (h.2.2.2.2.1
    { trouped .none 0 with fab := { (trouped .none 0).fab with forming := some g8 } } 0 0 5 g8 (msgT 0 6 0 0 []) getsBy checks checks checks checks
    checks checks checks checks) := trivial
theorem wit_TroupesFormAndDissolve_7 (h : Obligations.TroupesFormAndDissolve) : Applies (h.2.2.2.2.2.1 (trouped .none 0) 0 (msgT 3 6 0 0 []) getsBy
    checks checks) := trivial
theorem wit_TroupesFormAndDissolve_8 (h : Obligations.TroupesFormAndDissolve) : Applies (h.2.2.2.2.2.1 (withJob (job1 .held) (trouped .none 0)) 0
    (msgT 3 6 0 0 []) getsBy checks checks) := trivial
theorem wit_TroupesFormAndDissolve_9 (h : Obligations.TroupesFormAndDissolve) : Applies (h.2.2.2.2.2.2.1
    { trouped .none 0 with fab := { (trouped .none 0).fab with forming := some g8 } } 0 5 g8 checks checks checks checks checks checks checks) :=
    trivial
theorem wit_TroupesFormAndDissolve_10 (h : Obligations.TroupesFormAndDissolve) : Applies (h.2.2.2.2.2.2.2 (trouped .member 1) 0 (msgT 0 6 0 0 [])
    getsBy checks checks checks) := trivial
theorem wit_PldmUpdateRuns_1 (h : Obligations.PldmUpdateRuns) : Applies (h.1 live checks) := trivial
theorem wit_PldmUpdateRuns_2 (h : Obligations.PldmUpdateRuns) : Applies (h.1 (mg (fun x => { x with pldm := .apply })) checks) := trivial
theorem wit_PldmUpdateRuns_3 (h : Obligations.PldmUpdateRuns) : Applies (h.2.1 live checks) := trivial
theorem wit_PldmUpdateRuns_4 (h : Obligations.PldmUpdateRuns) : Applies (h.2.1 (mg (fun x => { x with pldm := .apply })) checks) := trivial
theorem wit_PldmUpdateRuns_5 (h : Obligations.PldmUpdateRuns) : Applies (h.2.2.1 live 4096 checks checks) := trivial
theorem wit_PldmUpdateRuns_6 (h : Obligations.PldmUpdateRuns) : Applies (h.2.2.2.1 (mg (fun x => { x with pldm := .learn })) 2 checks checks) :=
    trivial
theorem wit_PldmUpdateRuns_7 (h : Obligations.PldmUpdateRuns) : Applies (h.2.2.2.2.1 (mg (fun x => { x with pldm := .ready })) [] checks checks
    checks checks checks) := trivial
theorem wit_PldmUpdateRuns_8 (h : Obligations.PldmUpdateRuns) : Applies (h.2.2.2.2.2.1 downloading 8192 (List.replicate 4096 1#8)
    { staged0 with len := 8192, pldm := true } stagedRec checks checks checks checks checks checks checks checks checks checks) := trivial
theorem wit_PldmUpdateRuns_9 (h : Obligations.PldmUpdateRuns) : Applies (h.2.2.2.2.2.2.1 downloading checks checks) := trivial
theorem wit_PldmUpdateRuns_10 (h : Obligations.PldmUpdateRuns) : Applies (h.2.2.2.2.2.2.2.1
    { staging { staged0 with pldm := true } with mg := { live.mg with pldm := .verify } } [] { staged0 with pldm := true } checks checks checks
    checks checks) := trivial
theorem wit_PldmUpdateRuns_11 (h : Obligations.PldmUpdateRuns) : Applies (h.2.2.2.2.2.2.2.2.1 (mg (fun x => { x with pldm := .apply })) checks
    checks) := trivial
theorem wit_PldmUpdateRuns_12 (h : Obligations.PldmUpdateRuns) : Applies (h.2.2.2.2.2.2.2.2.2.1
    { live with bt := { live.bt with armed := some staged0 } } checks checks checks checks checks) := trivial
theorem wit_PldmUpdateRuns_13 (h : Obligations.PldmUpdateRuns) : Applies (h.2.2.2.2.2.2.2.2.2.2.1 live checks checks) := trivial
theorem wit_PldmUpdateRuns_14 (h : Obligations.PldmUpdateRuns) : Applies (h.2.2.2.2.2.2.2.2.2.2.1 (mg (fun x => { x with pldm := .apply })) checks
    checks) := trivial
theorem wit_PldmUpdateRuns_15 (h : Obligations.PldmUpdateRuns) : Applies (h.2.2.2.2.2.2.2.2.2.2.2.1 downloading checks checks) := trivial
theorem wit_PldmUpdateRuns_16 (h : Obligations.PldmUpdateRuns) : Applies (h.2.2.2.2.2.2.2.2.2.2.2.1 (mg (fun x => { x with pldm := .apply })) checks
    checks) := trivial
theorem wit_PldmUpdateRuns_17 (h : Obligations.PldmUpdateRuns) : Applies (h.2.2.2.2.2.2.2.2.2.2.2.2 downloading checks checks) := trivial
theorem wit_PldmUpdateRuns_18 (h : Obligations.PldmUpdateRuns) : Applies (h.2.2.2.2.2.2.2.2.2.2.2.2 (mg (fun x => { x with pldm := .apply })) checks
    checks) := trivial
theorem wit_RepliesCompleteOperations_1 (h : Obligations.RepliesCompleteOperations) : Applies (h.1 (withOps [op77] wired) 17 2 8 op77 (msg5 0 0 0 0
    []) getsBy checks checks checks checks checks checks checks checks checks) := trivial
theorem wit_RepliesCompleteOperations_2 (h : Obligations.RepliesCompleteOperations) : Applies (h.2.1 (withOps
    [{ op77 with kind := 2, dst := 0x1000 }, { op77 with id := 78, kind := 2 }] wired) 17 { op77 with kind := 2, dst := 0x1000 } (msg5 0 0 0 0
    [1,2,3]) getsBy checks checks checks checks checks checks checks) := trivial
theorem wit_RepliesCompleteOperations_3 (h : Obligations.RepliesCompleteOperations) : Applies (h.2.2.1 (withOps
    [{ op77 with kind := 8, slot := some (0, 5) }] wired) 17 0 5 { op77 with kind := 8, slot := some (0, 5) } (msg5 1 2 1000 0 []) getsBy checks
    checks checks checks checks checks) := trivial
theorem wit_RepliesCompleteOperations_4 (h : Obligations.RepliesCompleteOperations) : Applies (h.2.2.2.1 (withOps
    [{ op77 with kind := 8, slot := some (0, 5) }] wired) 17 0 5 { op77 with kind := 8, slot := some (0, 5) } (msg5 1 2 1000 0 []) getsBy checks
    checks checks checks checks) := trivial
theorem wit_RepliesCompleteOperations_5 (h : Obligations.RepliesCompleteOperations) : Applies (h.2.2.2.2.1 (withOps [{ op77 with kind := 3 }] wired)
    17 { op77 with kind := 3 } (msg5 BUSY 0 0 0 []) getsBy checks checks checks) := trivial
theorem wit_RepliesCompleteOperations_6 (h : Obligations.RepliesCompleteOperations) : Applies (h.2.2.2.2.2 wired 17 (msg5 0 0 0 0 []) getsBy checks)
    := trivial
theorem wit_ScrubAndStagingWindow_1 (h : Obligations.ScrubAndStagingWindow) : Applies ((h.1 live 0x10000000000 0x31 0 0 0 checks checks checks checks
    checks).1 .uncorrectable checks) := trivial
theorem wit_ScrubAndStagingWindow_2 (h : Obligations.ScrubAndStagingWindow) : Applies ((h.1 live 0x10000000000 0x31 0 0 0 checks checks checks checks
    checks).2 .correctable checks) := trivial
theorem wit_ScrubAndStagingWindow_3 (h : Obligations.ScrubAndStagingWindow) : Applies (h.2.1 live 64 [1,2,3] memOkBy checks checks checks checks) :=
    trivial
theorem wit_ScrubAndStagingWindow_4 (h : Obligations.ScrubAndStagingWindow) : Applies (h.2.2.1 live 64 4 checks checks checks checks) := trivial
theorem wit_ScrubAndStagingWindow_5 (h : Obligations.ScrubAndStagingWindow) : Applies (h.2.2.2.1 { live with bt := { live.bt with rdy := 1 } } 64 4
    checks checks checks) := trivial
theorem wit_ScrubAndStagingWindow_6 (h : Obligations.ScrubAndStagingWindow) : Applies (h.2.2.2.2.1 ({ live with bt := { live.bt with rdy := 1 } }) 64
    [1, 2, 3] checks checks checks) := trivial
theorem wit_ScrubAndStagingWindow_7 (h : Obligations.ScrubAndStagingWindow) : Applies (h.2.2.2.2.2.1 (darken live) 64 4 0 checks checks checks checks
    checks) := trivial
theorem wit_ScrubAndStagingWindow_8 (h : Obligations.ScrubAndStagingWindow) : Applies (h.2.2.2.2.2.2 live 4096 checks) := trivial
theorem wit_TierEngineMovesData_1 (h : Obligations.TierEngineMovesData) : Applies ((h.1 (teState [teMvMu] 0 (withMu (fun m =>
    { m with grantAt := [0, 1001, 0] }))) 0 1 1 ⟨[], [], []⟩ teMvMu (.move 0 1 ⟨[], [], []⟩) checks checks checks checks checks checks).1 checks) :=
    trivial
theorem wit_TierEngineMovesData_2 (h : Obligations.TierEngineMovesData) : Applies (((h.1 (teState [teMv] 0 id) 0 1 1 ⟨[], [], []⟩ teMv (.move 0 1
    ⟨[], [], []⟩) checks checks checks checks checks checks).2 checks).1 checks checks checks) := trivial
theorem wit_TierEngineMovesData_3 (h : Obligations.TierEngineMovesData) : Applies (((h.1 (teState [teMv] 0 id) 0 1 1 ⟨[], [], []⟩ teMv (.move 0 1
    ⟨[], [], []⟩) checks checks checks checks checks checks).2 checks).2.1 memOkBy checks checks) := trivial
theorem wit_TierEngineMovesData_4 (h : Obligations.TierEngineMovesData) : Applies (((h.1 (teState [teSt] 0 id) 0 1 2 ⟨[], [], []⟩ teSt (.stream 0 1
    ⟨[], [], []⟩) checks checks checks checks checks checks).2 checks).2.2 checks) := trivial
theorem wit_TierEngineMovesData_5 (h : Obligations.TierEngineMovesData) : Applies ((h.2.1 (teState [teCo2] 0 (inTok 0 (tk 3))) 0 1 teCo2 (tk 3)
    memOkBy checks checks checks checks).1 checks) := trivial
theorem wit_TierEngineMovesData_6 (h : Obligations.TierEngineMovesData) : Applies ((h.2.1 (teState [teCo1] 0 (inTok 0 (tk 3))) 0 1 teCo1 (tk 3)
    memOkBy checks checks checks checks).2 checks loneBy) := trivial
theorem wit_TierEngineMovesData_7 (h : Obligations.TierEngineMovesData) : Applies (h.2.2.1 (teState [teCo0] 0 id) 0 1 teCo0 checks checks checks
    checks checks checks checks) := trivial
theorem wit_TierEngineMovesData_8 (h : Obligations.TierEngineMovesData) : Applies (h.2.2.2.1 (teState [tePl] 0 id) 0 1 tePl checks checks checks
    checks checks checks) := trivial
theorem wit_TierEngineMovesData_9 (h : Obligations.TierEngineMovesData) : Applies ((h.2.2.2.2 (teState [teMvAll] 0 id) 0 1 teMvAll loneBy checks
    checks checks).1 checks) := trivial
theorem wit_TierEngineMovesData_10 (h : Obligations.TierEngineMovesData) : Applies ((h.2.2.2.2 (teState [{ teMv with started := true }] 0 id) 0 1
    { teMv with started := true } loneBy checks checks checks).2 checks) := trivial
theorem wit_RequestsOpenAndAppend_1 (h : Obligations.RequestsOpenAndAppend) : Applies (h.1 (cue (playing (job1 .running) []) 0x401 1
    [(0x40,8,0x800000000000),(0x48,4,100),(0x4C,4,10),(0x50,8,0x800000040000),(0x58,4,64),(0x70,8,0xFFFFFFFFFFFFFFFF),(0x78,8,0xFFFFFFFFFFFFFFFF),(0x80,1,0),(0x81,1,0xFF)]) 0 5 (job1 .running) (prod1 .onStage) hearsBy checks checks checks checks checks checks checks checks checks checks checks checks checks checks checks) := trivial
theorem wit_RequestsOpenAndAppend_2 (h : Obligations.RequestsOpenAndAppend) : Applies (h.2.1 (cue (playing (job1 .running) [req1 .idle]) 0x402 1
    [(0x40,8,1),(0x48,1,0),(0x4C,4,20),(0x50,8,0x800000000000),(0x5C,4,10),(0x60,8,0x800000040000),(0x68,4,64)]) 0 5 ⟨[], [], []⟩ (req1 .idle) (prod1
    .onStage) hearsBy checks checks checks checks checks checks checks checks checks checks checks checks checks checks) := trivial
theorem wit_RequestsOpenAndAppend_3 (h : Obligations.RequestsOpenAndAppend) : Applies (h.2.2 (cue (playing (job1 .running) [req1 .decode]) 0x402 1
    [(0x40,8,1),(0x48,1,1),(0x4C,4,2),(0x50,8,0x800000000000),(0x58,4,7)]) 0 5 (hostWith 0 [5,0,0,0,0,0,0,0,6,0,0,0,1,0,0,0]) (req1 .decode) (prod1
    .onStage) [(5,0),(6,1)] hearsBy checks checks checks checks checks checks checks checks checks checks checks) := trivial
theorem wit_SpdmAnswers_1 (h : Obligations.SpdmAnswers) : Applies (h.1 live checks) := trivial
theorem wit_SpdmAnswers_2 (h : Obligations.SpdmAnswers) : Applies (h.2.1 (mg (fun x => { x with versioned := true })) checks checks) := trivial
theorem wit_SpdmAnswers_3 (h : Obligations.SpdmAnswers) : Applies (h.2.2.1 (mg (fun x => { x with versioned := true })) true false checks checks) :=
    trivial
theorem wit_SpdmAnswers_4 (h : Obligations.SpdmAnswers) : Applies (h.2.2.2.1 (mg (fun x => { x with negotiated := true })) checks checks) := trivial
theorem wit_SpdmAnswers_5 (h : Obligations.SpdmAnswers) : Applies (h.2.2.2.2.1
    { mg (fun x => { x with negotiated := true }) with bt := { live.bt with chain := [1,2,3,4] } } 1 2 checks checks checks checks) := trivial
theorem wit_SpdmAnswers_6 (h : Obligations.SpdmAnswers) : Applies (h.2.2.2.2.2.1 (mg (fun x => { x with negotiated := true })) [1] checks checks) :=
    trivial
theorem wit_SpdmAnswers_7 (h : Obligations.SpdmAnswers) : Applies (h.2.2.2.2.2.2.1 (mg (fun x => { x with negotiated := true })) 4 [1] checks checks
    checks checks) := trivial
theorem wit_SpdmAnswers_8 (h : Obligations.SpdmAnswers) : Applies (h.2.2.2.2.2.2.2.1 (mg (fun x => { x with large := [1,2,3] })) 5 0 checks checks)
    := trivial
theorem wit_SpdmAnswers_9 (h : Obligations.SpdmAnswers) : Applies (h.2.2.2.2.2.2.2.2 (mg (fun x => { x with deferred := some [1,2,3] })) 5 [1,2,3]
    checks checks) := trivial
theorem wit_EmergenciesFollowTheirCauses_1 (h : Obligations.EmergenciesFollowTheirCauses) : Applies (h.1 live 4001 checks checks checks) := trivial
theorem wit_EmergenciesFollowTheirCauses_2 (h : Obligations.EmergenciesFollowTheirCauses) : Applies (h.2.1 (pw (fun x => { x with emExc := true }))
    3800 checks checks checks) := trivial
theorem wit_EmergenciesFollowTheirCauses_3 (h : Obligations.EmergenciesFollowTheirCauses) : Applies (h.2.2.1 live checks checks) := trivial
theorem wit_EmergenciesFollowTheirCauses_4 (h : Obligations.EmergenciesFollowTheirCauses) : Applies (h.2.2.2.1 (pw (fun x =>
    { x with emPwr := true, pwrAlert := true, emCool := true })) checks checks) := trivial
theorem wit_EmergenciesFollowTheirCauses_5 (h : Obligations.EmergenciesFollowTheirCauses) : Applies (h.2.2.2.2.1 live checks checks) := trivial
theorem wit_EmergenciesFollowTheirCauses_6 (h : Obligations.EmergenciesFollowTheirCauses) : Applies (h.2.2.2.2.2 (pw (fun x =>
    { x with emPwr := true, pwrAlert := true, emCool := true })) checks checks) := trivial
theorem wit_JobEndsOrIsPreempted_1 (h : Obligations.JobEndsOrIsPreempted) : Applies ((h.1 (cue (playing (job1 .queued) []) 0x502 1 []) 0 5 (job1
    .queued) hearsBy checks).1 checks) := trivial
theorem wit_JobEndsOrIsPreempted_2 (h : Obligations.JobEndsOrIsPreempted) : Applies ((h.1 (cue (playing (job1 .running) [req1 .decode]) 0x502 1
    [(0x40,1,1)]) 0 5 (job1 .running) hearsBy checks).1 checks) := trivial
theorem wit_JobEndsOrIsPreempted_3 (h : Obligations.JobEndsOrIsPreempted) : Applies ((h.1 (cue (playing (job1 .running) []) 0x502 1 []) 0 5 (job1
    .running) hearsBy checks).2.1 checks checks checks) := trivial
theorem wit_JobEndsOrIsPreempted_4 (h : Obligations.JobEndsOrIsPreempted) : Applies ((h.1 (cue (playing { job1 .running with inStep := true } [])
    0x502 1 []) 0 5 ({ job1 .running with inStep := true }) hearsBy checks).2.2 checks) := trivial
theorem wit_JobEndsOrIsPreempted_5 (h : Obligations.JobEndsOrIsPreempted) : Applies ((h.2 (cue (playing { job1 .running with inStep := true } [])
    0x503 1 [(0x40,4,5000)]) 0 5 { job1 .running with inStep := true } hearsBy checks checks).1 checks checks checks) := trivial
theorem wit_JobEndsOrIsPreempted_6 (h : Obligations.JobEndsOrIsPreempted) : Applies ((h.2 (cue (playing (job1 .running) []) 0x503 1 [(0x40,4,5000)])
    0 5 (job1 .running) hearsBy checks checks).2 checks) := trivial
theorem wit_ReportsReachTheHost_1 (h : Obligations.ReportsReachTheHost) : Applies (h.1 (cue live 0x703 0 [(0x40,8,0x800000000000),(0x48,4,64)]) 0 5
    hearsBy checks checks checks checks checks) := trivial
theorem wit_ReportsReachTheHost_2 (h : Obligations.ReportsReachTheHost) : Applies (h.2.1 (cue live 0x805 0 [(0x48,8,0x800000000000),(0x50,4,64)]) 0 5
    hearsBy checks checks checks checks checks checks) := trivial
theorem wit_ReportsReachTheHost_3 (h : Obligations.ReportsReachTheHost) : Applies (h.2.2.1 (cue live 0x806 0
    [(0x60,1,1),(0x68,8,0x800000000000),(0x70,4,4096)]) 0 5 hearsBy checks checks checks) := trivial
theorem wit_ReportsReachTheHost_4 (h : Obligations.ReportsReachTheHost) : Applies (h.2.2.2.1 (cue live 0xF01 0
    [(0x41,1,0x01),(0x48,8,0x800000000000),(0x50,4,64)]) 0 5 (List.replicate 11 0) hearsBy checks checks checks checks checks checks checks checks)
    := trivial
theorem wit_ReportsReachTheHost_5 (h : Obligations.ReportsReachTheHost) : Applies (h.2.2.2.2 (cue live 0xF04 0 [(0x40,8,0x800000000000),(0x48,4,64)])
    0 5 hearsBy checks checks) := trivial
theorem wit_DimmerAndPowerCommands_1 (h : Obligations.DimmerAndPowerCommands) : Applies (h.1.1 live [500, 0, 0, 2000] 3 checks checks checks checks
    checks checks checks) := trivial
theorem wit_DimmerAndPowerCommands_2 (h : Obligations.DimmerAndPowerCommands) : Applies (h.1.2 live 3800 checks) := trivial
theorem wit_DimmerAndPowerCommands_3 (h : Obligations.DimmerAndPowerCommands) : Applies (h.2.1 (cue live 0x701 0 [(0x40,2,2000)]) 0 5 hearsBy checks)
    := trivial
theorem wit_DimmerAndPowerCommands_4 (h : Obligations.DimmerAndPowerCommands) : Applies (h.2.2.1 (cue live 0x702 0 [(0x40,2,20),(0x4C,4,1000)]) 0 5
    hearsBy checks checks checks checks checks checks checks) := trivial
theorem wit_DimmerAndPowerCommands_5 (h : Obligations.DimmerAndPowerCommands) : Applies (h.2.2.2 (cue live 0x705 0 []) 0 5 hearsBy checks checks) :=
    trivial
theorem wit_TierEngineControls_1 (h : Obligations.TierEngineControls) : Applies (h.1 (teState [{ teBody with started := false }] 0 id) 0 1 5 (.post 0
    1) { teBody with started := false } checks checks loneBy) := trivial
theorem wit_TierEngineControls_2 (h : Obligations.TierEngineControls) : Applies (h.1 (teState [te 6 [(2, 1, 4), (4, 2, 1)]] 0 id) 0 1 6 (.wait 0 1)
    (te 6 [(2, 1, 4), (4, 2, 1)]) checks checks loneBy) := trivial
theorem wit_TierEngineControls_3 (h : Obligations.TierEngineControls) : Applies (h.2.1 (teState [teWt] 0 id) 0 1 teWt [] checks checks checks) :=
    trivial
theorem wit_TierEngineControls_4 (h : Obligations.TierEngineControls) : Applies (h.2.2.1 (teState [teDs] 0 id) 0 1 teDs checks loneBy checks checks
    checks checks) := trivial
theorem wit_TierEngineControls_5 (h : Obligations.TierEngineControls) : Applies (h.2.2.2.1 (teState [te 8 [(2, 1, 4)]] 0 id) 0 1 (te 8 [(2, 1, 4)])
    checks loneBy checks) := trivial
theorem wit_TierEngineControls_6 (h : Obligations.TierEngineControls) : Applies ((h.2.2.2.2.1 (teState [teBody, teLp false] 0 id) 0 1 (teLp false)
    checks checks checks).1 checks checks) := trivial
theorem wit_TierEngineControls_7 (h : Obligations.TierEngineControls) : Applies ((h.2.2.2.2.1 (teState [teLp1] 0 id) 0 1 teLp1 checks checks
    checks).2 checks loneBy) := trivial
theorem wit_TierEngineControls_8 (h : Obligations.TierEngineControls) : Applies (h.2.2.2.2.2.1 (teState [teBody, teLp true] 1 id) 0 1 (teLp true)
    checks checks checks checks checks checks checks checks checks) := trivial
theorem wit_TierEngineControls_9 (h : Obligations.TierEngineControls) : Applies ((h.2.2.2.2.2.2.1 (withOps (List.replicate 3840 op1) (teState [teMv]
    0 id)) 0 1 checks checks).1 checks checks) := trivial
theorem wit_TierEngineControls_10 (h : Obligations.TierEngineControls) : Applies ((h.2.2.2.2.2.2.1 (teState [teMvL] 0 id) 0 1 checks checks).2.1
    teMvL checks checks checks checks checks) := trivial
theorem wit_TierEngineControls_11 (h : Obligations.TierEngineControls) : Applies ((h.2.2.2.2.2.2.1 (teState [tePlS] 0 id) 0 1 checks checks).2.2.1
    tePlS checks checks) := trivial
theorem wit_TierEngineControls_12 (h : Obligations.TierEngineControls) : Applies ((h.2.2.2.2.2.2.1 (teState [teCo] 0 id) 0 1 checks checks).2.2.2
    teCo [] checks checks checks) := trivial
theorem wit_TierEngineControls_13 (h : Obligations.TierEngineControls) : Applies (h.2.2.2.2.2.2.2.1 (teState [teDs] 0 id) 0 1 teDs checks checks
    checks checks checks) := trivial
theorem wit_TierEngineControls_14 (h : Obligations.TierEngineControls) : Applies ((h.2.2.2.2.2.2.2.2 (teState [] 0 (fun x => disp3 (inTok 0
    { tk 3 with tag := 2 } x))) 0 0 3 995 ({ Disp.reset with next := 4, limit := 10, links := [0] }) ({ tk 3 with tag := 2 }) (.out at00 0) [] checks
    checks checks checks checks checks checks).1 checks) := trivial
theorem wit_TierEngineControls_15 (h : Obligations.TierEngineControls) : Applies ((h.2.2.2.2.2.2.2.2 (teState [] 0 (fun x =>
    { inTok 5 (tk 3) x with disps := x.disps.set 3 { Disp.reset with next := 4, limit := 10, links := [5] } })) 0 5 3 995
    ({ Disp.reset with next := 4, limit := 10, links := [5] }) (tk 3) (.out at00 0) [] checks checks checks checks checks checks checks).2.1 checks
    checks) := trivial
theorem wit_TierEngineControls_16 (h : Obligations.TierEngineControls) : Applies ((h.2.2.2.2.2.2.2.2 (teState [] 0 (fun x => disp3 (inTok 0 (tk 3)
    x))) 0 0 3 995 { Disp.reset with next := 4, limit := 10, links := [0] } (tk 3) (.out at00 0) [] checks checks checks checks checks checks
    checks).2.2 checks checks) := trivial
theorem wit_GridMovesTokens_1 (h : Obligations.GridMovesTokens) : Applies ((h.1 (grid (fun x =>
    { x.setOutq 0 0 0 [tk 3] with paths := [.out at00 0], credits := [((.out at00 0, 0, 0, 1, 0), 64)] })) at00 0 (tk 3) [] checks checks checks
    checks checks checks checks).1 checks checks checks checks) := trivial
theorem wit_GridMovesTokens_2 (h : Obligations.GridMovesTokens) : Applies (((h.1 (trapGrid (trapSc 1 [5 * 16] [4 * 65536]) (fun x =>
    { x.setOutq 0 0 0 [tk 3] with paths := [.out at00 0], credits := [((.out at00 0, 0, 0, 1, 0), 64)] })) at00 0 (tk 3) [] checks checks checks
    checks checks checks checks).2 (d01 0) 0 (d01 0) checks checks checks).1 checks checks checks checks) := trivial
theorem wit_GridMovesTokens_3 (h : Obligations.GridMovesTokens) : Applies (((h.1 (trapGrid (trapSc 2 [5 * 16, 5 * 16] [4 * 65536, 4 * 65536 + 6 * 2 ^
    20]) (fun x => { x.setOutq 0 0 0 [tk 3] with paths := [.out at00 0], slotCtr := 1 })) at00 0 (tk 3) [] checks checks checks checks checks checks
    checks).2 (d01 0) 0 (d01 6) checks checks checks).2 checks checks checks) := trivial
theorem wit_GridMovesTokens_4 (h : Obligations.GridMovesTokens) : Applies (h.2.1 (trapGrid (trapSc 1 [0] [9 * 65536]) (fun x =>
    { x with paths := [.trap at01 0], traps := [{ trap01 with out := [(900, tk 3)] }] })) at01 0 900 ({ d01 0 with hops := 0 }) [] (tk 3) [] checks
    checks checks checks checks checks checks checks checks) := trivial
theorem wit_GridMovesTokens_5 (h : Obligations.GridMovesTokens) : Applies (h.2.2.1 (grid (fun x =>
    { x with gwOut := [(0, [gt])], paths := [.gw 0 0], gwSlots := [(0, 0)], credits := [((.gw 0 0, 0, 0, 0, 0), 64)] })) 0 0 0 gt [] [] scene0 checks
    checks checks checks checks checks checks checks checks checks checks checks checks checks) := trivial
theorem wit_GridMovesTokens_6 (h : Obligations.GridMovesTokens) : Applies (((h.2.2.2.1 (grid (fun x =>
    { x with flights := [{ fl with port := 0, link := 3 }], disps := x.disps.set 2 { Disp.reset with links := [3] } })) 0 0
    { fl with port := 0, link := 3 } checks checks checks checks).1 checks checks).1 checks) := trivial
theorem wit_GridMovesTokens_7 (h : Obligations.GridMovesTokens) : Applies (((h.2.2.2.1 (grid (fun x =>
    { x with flights := [{ fl with port := 0, link := 3 }] })) 0 0 ({ fl with port := 0, link := 3 }) checks checks checks checks).1 checks checks).2
    checks) := trivial
theorem wit_GridMovesTokens_8 (h : Obligations.GridMovesTokens) : Applies ((h.2.2.2.1 (grid (fun x =>
    { x.setSite { x.site 0 1 with st := 3 } with flights := [fl] })) 0 0 fl checks checks checks checks).2.1 checks checks) := trivial
theorem wit_GridMovesTokens_9 (h : Obligations.GridMovesTokens) : Applies ((h.2.2.2.1 (grid (fun x =>
    { x with flights := [{ fl with tok := { tk 3 with tag := 2 } }] })) 0 0 { fl with tok := { tk 3 with tag := 2 } } checks checks checks
    checks).2.2.1 checks checks checks) := trivial
theorem wit_GridMovesTokens_10 (h : Obligations.GridMovesTokens) : Applies (((h.2.2.2.1 (grid (fun x => { x with flights := [fl] })) 0 0 fl checks
    checks checks checks).2.2.2 checks checks checks).1 checks checks checks checks) := trivial
theorem wit_GridMovesTokens_11 (h : Obligations.GridMovesTokens) : Applies ((((h.2.2.2.1 (hopping 1 4 (4 * 16) id) 0 0 (fl31 1 4) checks checks
    checks checks).2.2.2 checks checks checks).2 2 checks checks checks checks checks).1 0 3 2 4 false checks checks checks checks) := trivial
theorem wit_GridMovesTokens_12 (h : Obligations.GridMovesTokens) : Applies ((((h.2.2.2.1 (hopping 1 4 (4 * 16) (fun x => x.setSite
    { x.site 3 2 with st := 3 })) 0 0 (fl31 1 4) checks checks checks checks).2.2.2 checks checks checks).2 2 checks checks checks checks checks).2.1
    checks) := trivial
theorem wit_GridMovesTokens_13 (h : Obligations.GridMovesTokens) : Applies ((((h.2.2.2.1 (hopping 0 2 (2 * 4096) id) 0 0 (fl31 0 2) checks checks
    checks checks).2.2.2 checks checks checks).2 4 checks checks checks checks checks).2.2 3 checks) := trivial
theorem wit_GridMovesTokens_14 (h : Obligations.GridMovesTokens) : Applies ((h.2.2.2.2 (grid (fun x =>
    { x with credRet := [cr], credits := [((.out at00 0, 0, 0, 1, 0), 60)] })) 0 0 cr checks checks checks checks checks).1 nofun) := trivial
theorem wit_GridMovesTokens_15 (h : Obligations.GridMovesTokens) : Applies ((h.2.2.2.2 (teState [teOwed] 0 (fun x =>
    { x with credRet := [crGw], credits := [((.gw 0 0, 0, 0, 1, 0), 60)] })) 0 0 crGw checks checks checks checks checks).2 0 1 teOwed checks loneBy
    checks checks checks checks checks othersOwe) := trivial
theorem wit_ProductionsComeAndGo_1 (h : Obligations.ProductionsComeAndGo) : Applies ((h.1.1 (cue live 0x301 0
    [(0x40,8,0x800000000000),(0x48,4,288),(0x4C,2,1)]) 0 5 (hostWith 0 manBytes) hearsBy checks checks checks checks checks checks checks checks
    checks checks).1 [] [] (man1.objs.head!) checks checks checks canPlaceBy roomBy) := trivial
theorem wit_ProductionsComeAndGo_2 (h : Obligations.ProductionsComeAndGo) : Applies ((h.1.1 (cue (held [rec0 2 9 128 600]) 0x301 0
    [(0x40,8,0x800000000000),(0x48,4,288),(0x4C,2,1)]) 0 5 (hostWith 0 manBytes) hearsBy checks checks checks checks checks checks checks checks
    checks checks).2 checks canPlaceBy roomBy) := trivial
theorem wit_ProductionsComeAndGo_3 (h : Obligations.ProductionsComeAndGo) : Applies ((h.1.2 (cue (shown .stored []) 0x302 0 [(0x40,2,1)]) 0 5 (prod1
    .stored) hearsBy checks checks checks checks checks checks).1 [] [] (man1.objs.head!) checks checks checks checks canPlaceBy roomBy) := trivial
theorem wit_ProductionsComeAndGo_4 (h : Obligations.ProductionsComeAndGo) : Applies ((h.1.2 (cue shown2 0x302 0 [(0x40,2,1)]) 0 5 prod2 hearsBy
    checks checks checks checks checks checks).2.1 (man2.objs.head!) (man2.objs.getD 1 default) checks checks checks checks checks canPlaceBy
    canPlaceBy roomBy roomBy) := trivial
theorem wit_ProductionsComeAndGo_5 (h : Obligations.ProductionsComeAndGo) : Applies ((h.1.2 (cue (shown .stored [rec0 1 9 128 700]) 0x302 0
    [(0x40,2,1)]) 0 5 (prod1 .stored) hearsBy checks checks checks checks checks checks).2.2 checks checks checks) := trivial
theorem wit_ProductionsComeAndGo_6 (h : Obligations.ProductionsComeAndGo) : Applies (h.2.1 (cue (shown .onStage []) 0x303 0 [(0x40,2,1)]) 0 5 (prod1
    .onStage) hearsBy checks checks checks) := trivial
theorem wit_ProductionsComeAndGo_7 (h : Obligations.ProductionsComeAndGo) : Applies ((h.2.2.1 (cue (shown .onStage [rec0 1 9 128 700, rec0 1 10 128
    701]) 0x304 0 [(0x40,8,9),(0x48,8,10)]) 0 5 (prod1 .onStage) hearsBy checks checks checks checks checks checks).1 checks) := trivial
theorem wit_ProductionsComeAndGo_8 (h : Obligations.ProductionsComeAndGo) : Applies ((h.2.2.1 (cue playing2 0x304 0 [(0x40,8,9),(0x48,8,10)]) 0 5
    (prod1 .onStage) hearsBy checks checks checks checks checks checks).2 jobIn checks checks) := trivial
theorem wit_ProductionsComeAndGo_9 (h : Obligations.ProductionsComeAndGo) : Applies (h.2.2.2 (cue (shown .stored []) 0x305 0 [(0x40,2,1)]) 0 5 (prod1
    .stored) hearsBy checks checks) := trivial
theorem wit_ExchangeEntriesIssue_1 (h : Obligations.ExchangeEntriesIssue) : Applies (h.1 (xstate (xent 1)) (.putEntry 2) 1 2 9 17 (xent 1)
    { job1 .running with inStep := true } checks checks checks checks checks checks checks checks checks checks checks checks checks checks checks
    checks) := trivial
theorem wit_ExchangeEntriesIssue_2 (h : Obligations.ExchangeEntriesIssue) : Applies (h.1 (xstate (xent 2)) (.getEntry 2) 2 2 9 17 (xent 2)
    { job1 .running with inStep := true } checks checks checks checks checks checks checks checks checks checks checks checks checks checks checks
    checks) := trivial
theorem wit_ExchangeEntriesIssue_3 (h : Obligations.ExchangeEntriesIssue) : Applies (h.1 (xstate (xent 3)) (.reduceEntry 2) 3 2 9 17 (xent 3)
    { job1 .running with inStep := true } checks checks checks checks checks checks checks checks checks checks checks checks checks checks checks
    checks) := trivial
theorem wit_ExchangeEntriesIssue_4 (h : Obligations.ExchangeEntriesIssue) : Applies (h.2.1 (xstateP (xentP 1)) (.putEntry 2) 1 2 0x8001 (xentP 1)
    ({ jobIn with members := 3 }) checks checks checks checks checks checks checks checks checks checks checks checks checks checks) := trivial
theorem wit_ExchangeEntriesIssue_5 (h : Obligations.ExchangeEntriesIssue) : Applies (h.2.2 (xstate (xent 4)) 2 (xent 4) checks checks checks checks
    checks checks) := trivial
theorem wit_SelectionIsHighestThenLowest_1 (h : Obligations.SelectionIsHighestThenLowest) : Applies (h.1 lamp 2 3 9) := trivial
theorem wit_SelectionIsHighestThenLowest_2 (h : Obligations.SelectionIsHighestThenLowest) : Applies (h.2 lamp 2 3 9 heldBy checks checks checks) :=
    trivial
theorem wit_ImagesAreStaged_1 (h : Obligations.ImagesAreStaged) : Applies (h.1 (cue live 0x801 0 [(0x40,8,0x800000000000)]) 0 5 ⟨[], [], []⟩ []
    hearsBy checks checks checks roomOrBy) := trivial
theorem wit_ImagesAreStaged_2 (h : Obligations.ImagesAreStaged) : Applies (h.2.1 (cue (staging { staged0 with len := 8192 }) 0x802 0
    [(0x40,8,0x800000000000),(0x48,4,4096),(0x4C,4,4096)]) 0 5 (hostWith 8 [1,2,3]) { staged0 with len := 8192 } stagedRec [(8,1),(9,2),(10,3)]
    hearsBy checks checks checks checks checks checks checks checks checks) := trivial
theorem wit_ImagesAreStaged_3 (h : Obligations.ImagesAreStaged) : Applies (h.2.2 (cue (staging staged0) 0x803 0 []) 0 5 staged0 hearsBy checks checks
    checks) := trivial
theorem wit_PowerUpAndFunctionReset_1 (h : Obligations.PowerUpAndFunctionReset) : Applies (h.1.1 State.reset 13 [] checks checks checks) := trivial
theorem wit_PowerUpAndFunctionReset_2 (h : Obligations.PowerUpAndFunctionReset) : Applies (h.1.2 recovering [] checks) := trivial
theorem wit_PowerUpAndFunctionReset_3 (h : Obligations.PowerUpAndFunctionReset) : Applies ((h.2 placing9 0 .perst checks checks checks checks).1
    checks checks checks checks) := trivial
theorem wit_PowerUpAndFunctionReset_4 (h : Obligations.PowerUpAndFunctionReset) : Applies ((h.2 azgenLive 1 .flr checks checks checks checks).2.1
    checks checks checks checks checks) := trivial
theorem wit_PowerUpAndFunctionReset_5 (h : Obligations.PowerUpAndFunctionReset) : Applies ((h.2
    ({ live with bt := { live.bt with act := .loading } }) 0 .flr checks checks checks checks).2.2.1 checks checks) := trivial
theorem wit_PowerUpAndFunctionReset_6 (h : Obligations.PowerUpAndFunctionReset) : Applies ((h.2
    ({ live with bt := { live.bt with act := .loading } }) 0 .perst checks checks checks checks).2.2.2.1 checks checks) := trivial
theorem wit_PowerUpAndFunctionReset_7 (h : Obligations.PowerUpAndFunctionReset) : Applies ((h.2 recovering 0 .flr checks checks checks
    checks).2.2.2.2.1 checks checks) := trivial
theorem wit_PowerUpAndFunctionReset_8 (h : Obligations.PowerUpAndFunctionReset) : Applies ((h.2
    ({ live with bt := { live.bt with flashOps := [{ calib := false, page := [], slot := none, began := true, val := 0 }] } }) 0 .flr checks checks
    checks checks).2.2.2.2.2 checks checks checks) := trivial
theorem wit_ThrottleAndTrips_1 (h : Obligations.ThrottleAndTrips) : Applies (h.1.1 live [(3, 1530)] checks checks checks checks checks checks) :=
    trivial
theorem wit_ThrottleAndTrips_2 (h : Obligations.ThrottleAndTrips) : Applies (h.1.2 (pw (fun x =>
    { x with adiv2 := 10, lowSince := some 100, sensors := List.replicate 134 320 })) [(3, 300)] 100 checks checks checks checks checks checks
    checks) := trivial
theorem wit_ThrottleAndTrips_3 (h : Obligations.ThrottleAndTrips) : Applies (h.2.1 live 3 1690 checks checks checks) := trivial
theorem wit_ThrottleAndTrips_4 (h : Obligations.ThrottleAndTrips) : Applies (h.2.2.1 live 39000 checks checks checks) := trivial
theorem wit_ThrottleAndTrips_5 (h : Obligations.ThrottleAndTrips) : Applies (h.2.2.2.1 (pw (fun x =>
    { x with tripT := true, coolSince := some 100, sensors := List.replicate 134 320 })) [(3, 300)] 100 checks checks checks checks checks checks) :=
    trivial
theorem wit_ThrottleAndTrips_6 (h : Obligations.ThrottleAndTrips) : Applies (h.2.2.2.2 (pw (fun x =>
    { x with tripI := true, vinOkSince := some 100 })) 48000 100 checks checks checks checks checks checks checks checks) := trivial
theorem wit_ManagementEndpointAnswers_1 (h : Obligations.ManagementEndpointAnswers) : Applies (h.1 live 8 checks checks) := trivial
theorem wit_ManagementEndpointAnswers_2 (h : Obligations.ManagementEndpointAnswers) : Applies (h.2.1 live 8 checks checks) := trivial
theorem wit_ManagementEndpointAnswers_3 (h : Obligations.ManagementEndpointAnswers) : Applies (h.2.2.1 live [0, 9] checks) := trivial
theorem wit_ManagementEndpointAnswers_4 (h : Obligations.ManagementEndpointAnswers) : Applies (h.2.2.2.1 live checks) := trivial
theorem wit_ManagementEndpointAnswers_5 (h : Obligations.ManagementEndpointAnswers) : Applies (h.2.2.2.2.1 live 8 checks checks checks) := trivial
theorem wit_ManagementEndpointAnswers_6 (h : Obligations.ManagementEndpointAnswers) : Applies (h.2.2.2.2.2.1 live 2 checks checks) := trivial
theorem wit_ManagementEndpointAnswers_7 (h : Obligations.ManagementEndpointAnswers) : Applies (h.2.2.2.2.2.2.1 live checks) := trivial
theorem wit_ManagementEndpointAnswers_8 (h : Obligations.ManagementEndpointAnswers) : Applies (h.2.2.2.2.2.2.2.1 live 2 checks checks) := trivial
theorem wit_ManagementEndpointAnswers_9 (h : Obligations.ManagementEndpointAnswers) : Applies (h.2.2.2.2.2.2.2.2.1 live checks) := trivial
theorem wit_ManagementEndpointAnswers_10 (h : Obligations.ManagementEndpointAnswers) : Applies (h.2.2.2.2.2.2.2.2.2.1 live 8 checks checks checks) :=
    trivial
theorem wit_ManagementEndpointAnswers_11 (h : Obligations.ManagementEndpointAnswers) : Applies (h.2.2.2.2.2.2.2.2.2.2.1 live 8 checks checks) :=
    trivial
theorem wit_ManagementEndpointAnswers_12 (h : Obligations.ManagementEndpointAnswers) : Applies (h.2.2.2.2.2.2.2.2.2.2.2.1 State.reset 131 checks
    checks) := trivial
theorem wit_ManagementEndpointAnswers_13 (h : Obligations.ManagementEndpointAnswers) : Applies (h.2.2.2.2.2.2.2.2.2.2.2.2.1 live 8 checks) := trivial
theorem wit_ManagementEndpointAnswers_14 (h : Obligations.ManagementEndpointAnswers) : Applies (h.2.2.2.2.2.2.2.2.2.2.2.2.2.1 live 1 9 checks) :=
    trivial
theorem wit_ManagementEndpointAnswers_15 (h : Obligations.ManagementEndpointAnswers) : Applies (h.2.2.2.2.2.2.2.2.2.2.2.2.2.2.1 live checks) :=
    trivial
theorem wit_ManagementEndpointAnswers_16 (h : Obligations.ManagementEndpointAnswers) : Applies (h.2.2.2.2.2.2.2.2.2.2.2.2.2.2.2.1 live 8 checks) :=
    trivial
theorem wit_ManagementEndpointAnswers_17 (h : Obligations.ManagementEndpointAnswers) : Applies (h.2.2.2.2.2.2.2.2.2.2.2.2.2.2.2.2.1 (mg (fun x =>
    { x with evs := [ev1 2] })) 3 (ev1 2) checks checks checks) := trivial
theorem wit_ManagementEndpointAnswers_18 (h : Obligations.ManagementEndpointAnswers) : Applies (h.2.2.2.2.2.2.2.2.2.2.2.2.2.2.2.2.2 live 8 checks) :=
    trivial
theorem wit_ReadyBitsAndPowerLoss_1 (h : Obligations.ReadyBitsAndPowerLoss) : Applies (h.1 { live with bt := { live.bt with rdy := 1 } } 25 checks)
    := trivial
theorem wit_ReadyBitsAndPowerLoss_2 (h : Obligations.ReadyBitsAndPowerLoss) : Applies (h.2.1 live .enableLost checks checks) := trivial
theorem wit_ReadyBitsAndPowerLoss_3 (h : Obligations.ReadyBitsAndPowerLoss) : Applies (h.2.1 (pw (fun x => { x with vinMv := 30000 })) .dropout
    checks checks) := trivial
theorem wit_ReadyBitsAndPowerLoss_4 (h : Obligations.ReadyBitsAndPowerLoss) : Applies (h.2.2.1
    { State.reset with pw := { Power.reset with phase := .unpowered } } 48000 checks) := trivial
theorem wit_ReadyBitsAndPowerLoss_5 (h : Obligations.ReadyBitsAndPowerLoss) : Applies (h.2.2.2 State.reset true checks) := trivial
theorem wit_RoutingBlockWorks_1 (h : Obligations.RoutingBlockWorks) : Applies ((h.1 (skipping id (grid (inTok 1 (tk 3)))) 0 995
    { job1 .running with inStep := true } { routed1 with man := { man1 with rp := { rp4 with skip := true } } } (tk 3) (.out at00 0) [] checks checks
    checks checks checks checks checks).1 checks) := trivial
theorem wit_RoutingBlockWorks_2 (h : Obligations.RoutingBlockWorks) : Applies (((h.1 (passing (fun x => { x with skipThis := [true] }) (grid (inTok 1
    (tk 3)))) 0 995 jobIn routed1 (tk 3) (.out at00 0) [] checks checks checks checks checks checks checks).2 checks checks).1 checks) := trivial
theorem wit_RoutingBlockWorks_3 (h : Obligations.RoutingBlockWorks) : Applies (((h.1 (passing id (grid (inTok 1 { tk 3 with pred := 0 }))) 0 995
    { job1 .running with inStep := true } routed1 { tk 3 with pred := 0 } (.out at00 0) [] checks checks checks checks checks checks checks).2 checks
    checks).2.1 checks checks) := trivial
theorem wit_RoutingBlockWorks_4 (h : Obligations.RoutingBlockWorks) : Applies (((h.1 (passing id (grid (inTok 1 (tk 3)))) 0 995 jobIn routed1 (tk 3)
    (.out at00 0) [] checks checks checks checks checks checks checks).2 checks checks).2.2 checks checks) := trivial
theorem wit_RoutingBlockWorks_5 (h : Obligations.RoutingBlockWorks) : Applies ((h.2.1 (passing served (grid (fun x => disp5 (inTok 0 (tk 3) x)))) 0 0
    995 { job1 .running with inStep := true } routed1 (tk 3) (.out at00 0) [] settledBy checks checks checks checks checks checks checks checks
    checks).1 { work0 1 with posted := true } checks checks checks checks) := trivial
theorem wit_RoutingBlockWorks_6 (h : Obligations.RoutingBlockWorks) : Applies ((h.2.1 (passing (fun x => { served x with built := true }) (grid (fun
    x => disp52 (inTok 0 (tk 3) x)))) 0 0 995 jobIn routed1 (tk 3) (.out at00 0) [] settledBy checks checks checks checks checks checks checks checks
    checks).2.1 checks checks checks) := trivial
theorem wit_RoutingBlockWorks_7 (h : Obligations.RoutingBlockWorks) : Applies ((h.2.1 (passing (fun x => { served x with dspOpen := false }) (grid
    (fun x => disp5 (inTok 0 (tk 3) x)))) 0 0 995 jobIn routed1 (tk 3) (.out at00 0) [] settledBy checks checks checks checks checks checks checks
    checks checks).2.2 checks checks) := trivial
theorem wit_RoutingBlockWorks_8 (h : Obligations.RoutingBlockWorks) : Applies ((h.2.2.1 (withOps (List.replicate 3840 op1) (passing (fun x =>
    { served x with fetches := [fetch0] }) (grid id))) 0 jobIn routed1 fetch0 checks checks checks checks checks checks checks checks checks checks
    checks).1 checks) := trivial
theorem wit_RoutingBlockWorks_9 (h : Obligations.RoutingBlockWorks) : Applies ((h.2.2.1 (passing (fun x => { served x with fetches := [fetch0] })
    (grid id)) 0 { job1 .running with inStep := true } routed1 fetch0 checks checks checks checks checks checks checks checks checks checks checks).2
    checks) := trivial
theorem wit_RoutingBlockWorks_10 (h : Obligations.RoutingBlockWorks) : Applies (h.2.2.2.1 (passing (fun x =>
    { x with published := true, works := [work0 1], fetches := [{ fetch0 with started := true }] }) (grid id)) 0
    { job1 .running with inStep := true } routed1 { fetch0 with started := true } (work0 1) settledBy checks checks checks checks checks checks
    checks checks checks checks checks checks checks checks checks) := trivial
theorem wit_RoutingBlockWorks_11 (h : Obligations.RoutingBlockWorks) : Applies ((h.2.2.2.2.1 (passing served (grid (inTok 2 (tk 1)))) 0 995
    { job1 .running with inStep := true } routed1 (tk 1) (.out at00 0) [] settledBy checks checks checks checks).1 (work0 2) checks checks) := trivial
theorem wit_RoutingBlockWorks_12 (h : Obligations.RoutingBlockWorks) : Applies ((h.2.2.2.2.1 (passing (fun x =>
    { served x with works := [work0 1, { work0 2 with done := true }] }) (grid (inTok 2 (tk 1)))) 0 995 jobIn routed1 (tk 1) (.out at00 0) []
    settledBy checks checks checks checks).2 checks) := trivial
theorem wit_RoutingBlockWorks_13 (h : Obligations.RoutingBlockWorks) : Applies ((h.2.2.2.2.2 { live with sv := { live.sv with bumps := 1 } } checks
    checks).1 checks) := trivial
theorem wit_RoutingBlockWorks_14 (h : Obligations.RoutingBlockWorks) : Applies ((h.2.2.2.2.2
    { withOps [{ op77 with te := some (0, 1, 0), msg := { op77.msg with rtag := 65536 } }] live with sv := { live.sv with bumps := 1 } } checks
    checks).2 checks) := trivial

end Sys2Proof.Tests
end

section
/-! The registers that REGISTER_WRITE reaches (R7, R8, R284, R350, R374, R375): what a write leaves in the state and what a read of
the register answers; and the CUE word of a slot (R286). -/

namespace Sys2Proof.Machine

/-! ### Functions and targets after an update -/

theorem State.updFn_fn_self (s : State) (f : Nat) (g : Fn → Fn) (h : f < s.fns.length) : (s.updFn f g).fn f = g (s.fn f) := by
  rw [State.updFn_fn s f f g h, if_pos rfl]

@[simp] theorem State.updFn_isOn (s : State) (f : Nat) (g : Fn → Fn) : (s.updFn f g).isOn = s.isOn := rfl

@[simp] theorem State.updFn_functions (s : State) (f : Nat) (g : Fn → Fn) : (s.updFn f g).functions = s.functions := rfl

@[simp] theorem State.setTarget_isOn (s : State) (t : Nat) (x : Target) : (s.setTarget t x).isOn = s.isOn := by
  unfold State.setTarget
  split <;> rfl

theorem State.setTarget_target_core_self (s : State) (k : Nat) (x : Target) (hk : k < 8) (hlen : k < s.cores.length) :
    (s.setTarget k x).target k = x := by
  simp [State.setTarget, State.target, hk, hlen]

/-- The targets of the functions are in another part of the state, so they are covered too. -/
theorem State.setTarget_target_core_ne (s : State) (k j : Nat) (x : Target) (hk : k < 8) (hj : j ≠ k) :
    (s.setTarget k x).target j = s.target j := by
  simp [State.setTarget, State.target, State.fn, hk, Ne.symm hj]

/-- For a control core the frame is smaller than `State.setTarget_only` says. -/
theorem State.setTarget_core_only (s : State) (k : Nat) (x : Target) (hk : k < 8) : onlyParts [.cores] s (s.setTarget k x) := by
  rw [State.setTarget, if_pos hk]
  exact onlyParts.set_cores onlyParts.rfl' rfl

/-! ### What a write does, by register -/

section
variable {s : State} {v : BitVec 64}

theorem execRegisterWrite_dimCfg (hon : s.isOn = true) :
    execRegisterWrite .dimCfg v s = .next { s with pw := s.pw.writeDim v.toNat }.trackNormal := by
  simp [execRegisterWrite, hon]

/-- THRESHOLD lies at offset 0x018 of a target's block (R374). -/
theorem execRegisterWrite_threshold {k : Nat} (hon : s.isOn = true) (hk : k < 8) :
    execRegisterWrite (.target k 0x018) v s = .next (s.setTarget k { s.target k with threshold := bits v.toNat 0 5 }) := by
  simp [execRegisterWrite, State.writeTarget, hon, hk]

theorem execRegisterWrite_bme {f : Nat} (hon : s.isOn = true) (hf : s.functions.contains f = true) :
    execRegisterWrite (.bme f) v s = .next (s.updFn f (fun x => { x with bme := v.getLsbD 0 })) := by
  simp only [execRegisterWrite, hon, hf, Bool.not_true, Bool.false_eq_true, if_false, if_true]

/-- No power is asked for: an unpowered block ignores the write as well. -/
theorem execRegisterWrite_shared_reserved {src : Nat} (h : sharedAssigned src = false) :
    execRegisterWrite (.shared src) v s = .next s := by
  simp [execRegisterWrite, State.writeShared, h]

end

/-! ### What a read answers, by register -/

section
variable {s : State}

theorem State.regRead_threshold {k : Nat} (hon : s.isOn = true) (hk : k < 8) :
    s.regRead (.target k 0x018) = some (BitVec.ofNat 64 (s.target k).threshold) := by
  simp [State.regRead, State.targetAt, hon, hk]

theorem State.regRead_bme {f : Nat} (hon : s.isOn = true) (hf : s.functions.contains f = true) :
    s.regRead (.bme f) = some (if (s.fn f).bme then 1 else 0) := by
  simp only [State.regRead, hon, hf, Bool.not_true, Bool.false_eq_true, if_false, if_true]

theorem State.regRead_shared_reserved {src : Nat} (hon : s.isOn = true) (h : sharedAssigned src = false) :
    s.regRead (.shared src) = some 0#64 := by
  simp [State.regRead, State.sharedWord, hon, h]

end

/-! ### Fields of a written word -/

/-- A field at the bottom of a word reads back as the word under the field's mask. -/
theorem ofNat_bits_zero (v : BitVec 64) (n : Nat) : BitVec.ofNat 64 (bits v.toNat 0 n) = v &&& BitVec.ofNat 64 (2 ^ n - 1) := by
  refine BitVec.eq_of_getLsbD_eq fun i hi => ?_
  simp only [bits, Nat.shiftRight_zero, BitVec.getLsbD_and, BitVec.getLsbD_ofNat, hi, decide_true, Bool.true_and,
    Nat.testBit_mod_two_pow, Nat.testBit_two_pow_sub_one, BitVec.testBit_toNat]
  exact Bool.and_comm ..

/-- The same for a field of one bit, held as a flag. -/
theorem ite_getLsbD_zero (v : BitVec 64) : (if v.getLsbD 0 then 1#64 else 0#64) = v &&& 1#64 := by
  rw [BitVec.and_one_eq_setWidth_ofBool_getLsbD]
  cases v.getLsbD 0 <;> rfl

/-! ### The CUE word -/

/-- SEQ begins at bit 8, so it does not reach STATE, whose other values are 0 to 4. -/
theorem State.cueWord_mod_eq_fifteen_iff (s : State) (f n : Nat) : s.cueWord f n % 16 = 15 ↔ s.rdy 0 = false := by
  have hseq : ∀ st seq : Nat, (st + seq % 256 * 2 ^ 8) % 16 = st % 16 := by omega
  rw [State.cueWord, hseq]
  cases s.rdy 0 with
  | false => simp
  | true => cases ((s.fn f).slot n).st <;> simp

/-! ### What a REGISTER_WRITE leaves and what reads back -/

/-- The ceiling is held against the floor that the same write leaves. -/
theorem registerWrite_dimCfg_completes (s : State) (v : BitVec 64) (hon : s.isOn = true) :
    completes (.registerWrite .dimCfg v) s (fun t =>
      t.pw.dimUp = dimField s.pw.dimUp (bits v.toNat 0 10) 10 100 ∧ t.pw.dimDown = dimField s.pw.dimDown (bits v.toNat 10 10) 10 100 ∧
      t.pw.dimEmerg = dimField s.pw.dimEmerg (bits v.toNat 20 10) 50 250 ∧
      t.pw.dimFloor = (if bits v.toNat 30 10 ≤ 500 then bits v.toNat 30 10 else s.pw.dimFloor) ∧
      t.pw.dimCeil = (if t.pw.dimFloor ≤ bits v.toNat 40 10 ∧ bits v.toNat 40 10 ≤ 1000 then bits v.toNat 40 10 else s.pw.dimCeil) ∧
      onlyParts [.pw] s t) := by
  refine ⟨_, execRegisterWrite_dimCfg hon, rfl, rfl, rfl, rfl, rfl, ?frame⟩
  case frame => exact onlyParts.after (State.trackNormal_only _) rfl (onlyParts.set_pw onlyParts.rfl' rfl)

theorem registerWrite_threshold_completes (s : State) (k : Nat) (v : BitVec 64) (hon : s.isOn = true) (hk : k < 8)
    (hlen : k < s.cores.length) :
    completes (.registerWrite (.target k 0x018) v) s (fun t =>
      t.target k = { s.target k with threshold := bits v.toNat 0 5 } ∧ (∀ j, j ≠ k → t.target j = s.target j) ∧
      t.regRead (.target k 0x018) = some (v &&& 0x1F#64) ∧ onlyParts [.cores] s t) := by
  have hself := State.setTarget_target_core_self s k { s.target k with threshold := bits v.toNat 0 5 } hk hlen
  refine ⟨_, execRegisterWrite_threshold hon hk, hself, fun j hj => ?other, ?read, State.setTarget_core_only s k _ hk⟩
  case other => exact State.setTarget_target_core_ne s k j _ hk hj
  case read =>
    rw [State.regRead_threshold (by rwa [State.setTarget_isOn]) hk, hself]
    exact congrArg some (ofNat_bits_zero v 5)

theorem registerWrite_bme_completes (s : State) (f : Nat) (v : BitVec 64) (hon : s.isOn = true) (hf : s.functions.contains f = true)
    (hlen : f < s.fns.length) :
    completes (.registerWrite (.bme f) v) s (fun t => t.fn f = { s.fn f with bme := v.getLsbD 0 } ∧
      t.regRead (.bme f) = some (v &&& 1#64) ∧ onlyParts [.fns] s t) := by
  have hself := State.updFn_fn_self s f (fun x => { x with bme := v.getLsbD 0 }) hlen
  refine ⟨_, execRegisterWrite_bme hon hf, hself, ?read, State.updFn_only ..⟩
  case read =>
    rw [State.regRead_bme (by rwa [State.updFn_isOn]) (by rwa [State.updFn_functions]), hself]
    exact congrArg some (ite_getLsbD_zero v)

theorem registerWrite_shared_reserved_completes (s : State) (src : Nat) (v : BitVec 64) (h : sharedAssigned src = false) :
    completes (.registerWrite (.shared src) v) s (fun t => t = s ∧ (s.isOn = true → s.regRead (.shared src) = some 0#64)) :=
  ⟨s, execRegisterWrite_shared_reserved h, rfl, fun hon => State.regRead_shared_reserved hon h⟩

/-- Settles O8, register by register, with the STATE of the CUE word last. -/
theorem registerWrites : Obligations.RegisterWrites :=
  ⟨registerWrite_dimCfg_completes, registerWrite_threshold_completes, registerWrite_bme_completes,
    registerWrite_shared_reserved_completes, State.cueWord_mod_eq_fifteen_iff⟩

end Sys2Proof.Machine
end

section
/-! Callboard commands whose rule writes a report by DMA (R61, R293, R307, R345, R401, R402): what taking a packet, the report and the
reply leave of the slot and of the state. -/

namespace Sys2Proof.Machine

open Config

/-! ### Slots through an event and a reply -/

@[simp] theorem Fn.signal1_slots (x : Fn) (i : Nat) : (x.signal1 i).slots = x.slots := by
  unfold Fn.signal1
  cases x.tgt.priv[i]? with
  | none => rfl
  | some p =>
    dsimp only
    split_ifs <;> rfl

@[simp] theorem Fn.signal_slots (x : Fn) : x.signal.slots = x.slots := by
  unfold Fn.signal
  generalize List.range 32 = l
  induction l generalizing x with
  | nil => rfl
  | cons i l ih => rw [List.foldl_cons, ih, Fn.signal1_slots]

/-- A function after an update: as it was, or updated where it is the one named. -/
theorem State.updFn_fn_cases (s : State) (f i : Nat) (g : Fn → Fn) :
    (s.updFn f g).fn i = s.fn i ∨ (i = f ∧ (s.updFn f g).fn i = g (s.fn i)) := by
  by_cases hi : i = f
  · subst hi
    by_cases hf : i < s.fns.length
    · exact .inr ⟨rfl, State.updFn_fn_self s i g hf⟩
    · exact .inl (by simp [State.updFn, State.fn, List.modify_eq_self (Nat.le_of_not_lt hf)])
  · exact .inl (State.updFn_fn_ne s f i g hi)

/-- An update that keeps the slots of the function it is applied to keeps every function's. -/
theorem State.updFn_slots (s : State) (f i : Nat) (g : Fn → Fn) (h : (g (s.fn f)).slots = (s.fn f).slots) :
    ((s.updFn f g).fn i).slots = (s.fn i).slots := by
  rcases State.updFn_fn_cases s f i g with hi | ⟨rfl, hi⟩
  · rw [hi]
  · rw [hi, h]

@[simp] theorem State.bump_fn (s : State) (grp scope ix n f : Nat) : (s.bump grp scope ix n).fn f = s.fn f := rfl

@[simp] theorem State.signal_fn_slots (s : State) (f i : Nat) : ((s.signal f).fn i).slots = (s.fn i).slots := by
  have h := State.updFn_slots s f i (fun _ => (s.fn f).signal) (Fn.signal_slots _)
  unfold State.signal
  dsimp only
  split
  · exact h
  · rw [State.bump_fn, h]

@[simp] theorem State.raiseAt_fn_slots (s : State) (f code quad i : Nat) (detail : List Byte) :
    ((s.raiseAt f code quad detail).fn i).slots = (s.fn i).slots := by
  have key : ∀ g : Fn → Fn, (∀ x, (g x).slots = x.slots) → (((s.updFn f g).signal f).fn i).slots = (s.fn i).slots := fun g hg =>
    (State.signal_fn_slots ..).trans (State.updFn_slots s f i g (hg _))
  unfold State.raiseAt
  dsimp only
  split_ifs <;> exact key _ fun _ => rfl

/-- What a slot shows after an update of it. -/
theorem State.updSlot_slot_self (s : State) (f n : Nat) (g : Slot → Slot) (hf : f < s.fns.length) (hn : n < (s.fn f).slots.length) :
    ((s.updSlot f n g).fn f).slot n = g ((s.fn f).slot n) := by
  rw [State.updSlot, State.updFn_fn_self s f _ hf]
  exact (getD_modify _ _ _ _ _ hn).trans (if_pos rfl)

/-- The final reply of a slot of the device stands in it, and makes it DONE. -/
theorem State.finishSlot_replied (s : State) (f n status : Nat) (bytes : List Byte) (hf : f < s.fns.length)
    (hn : n < (s.fn f).slots.length) (hb : bytes.head? = some (BitVec.ofNat 8 status)) : (s.finishSlot f n bytes).replied f n status := by
  have key : ∀ t : State, t.bt = s.bt → (t.fn f).slot n =
      (if s.azgen then { (s.fn f).slot n with rep0 := bytes, st := .done } else { (s.fn f).slot n with rep1 := bytes, st := .done }) →
      t.replied f n status := by
    intro t hbt ht
    have haz : t.azgen = s.azgen := by rw [State.azgen, hbt]; rfl
    unfold State.replied State.finalReply
    rw [haz, ht]
    cases s.azgen <;> exact ⟨rfl, hb⟩
  unfold State.finishSlot
  dsimp only
  split
  · refine key _ ((State.raiseAt_only ..).same .bt (by decide)) ?_
    unfold Fn.slot
    rw [State.raiseAt_fn_slots]
    exact State.updSlot_slot_self s f n _ hf hn
  · exact key _ rfl (State.updSlot_slot_self s f n _ hf hn)

theorem State.complete_replied (s : State) (f n status val : Nat) (hf : f < s.fns.length) (hn : n < (s.fn f).slots.length) :
    (s.complete f n status val).replied f n status :=
  State.finishSlot_replied s f n status _ hf hn rfl

/-! ### A packet that is heard -/

section
variable {s : State} {f n op : Nat}

/-- A slot that is CUED is one of the device's: what lies outside reads as free. -/
theorem State.hears.inRange (h : s.hears f n op) : f < s.fns.length ∧ n < (s.fn f).slots.length := by
  have hst : ((s.fn f).slot n).st = .cued := by
    have := h.1
    simp only [State.takes, Bool.and_eq_true, beq_iff_eq] at this
    exact this.1.2
  have hn : n < (s.fn f).slots.length := by
    by_contra hn
    rw [Fn.slot, List.getD_eq_getElem?_getD, List.getElem?_eq_none (Nat.le_of_not_lt hn)] at hst
    exact SlotSt.noConfusion hst
  refine ⟨?_, hn⟩
  by_contra hf
  have hfn : s.fn f = Fn.reset := by simp only [State.fn, List.getD_eq_getElem?_getD, List.getElem?_eq_none (Nat.le_of_not_lt hf), Option.getD_none]
  have hreset : Fn.reset.slot n = Slot.reset := by
    have h256 : n < 256 := by rwa [hfn, Fn.reset, List.length_replicate] at hn
    rw [Fn.slot, Fn.reset, List.getD_eq_getElem?_getD, List.getElem?_replicate, if_pos h256]
    rfl
  rw [hfn, hreset] at hst
  exact SlotSt.noConfusion hst

theorem State.command_of_hears (h : s.hears f n op) (rule : Pkt → State → State × Rep) :
    s.command f n op rule = (rule (s.pkt f n) (s.take f n)).1.answer (s.pkt f n) (rule (s.pkt f n) (s.take f n)).2 := by
  unfold State.command
  rw [if_pos h.1]
  dsimp only
  rw [h.2]

theorem State.take_fns_length (s : State) (f n : Nat) : (s.take f n).fns.length = s.fns.length := State.updFn_length ..

theorem State.take_slots_length (s : State) (f n i : Nat) : ((s.take f n).fn i).slots.length = (s.fn i).slots.length := by
  rcases State.updFn_fn_cases s f i _ with hi | ⟨rfl, hi⟩
  · exact congrArg (·.slots.length) hi
  · exact (congrArg (·.slots.length) hi).trans (List.length_modify ..)

/-- Taking a packet leaves the function's session and window as they were. -/
theorem State.take_fn_window (s : State) (f n i : Nat) : let x := (s.take f n).fn i
    x.opened = (s.fn i).opened ∧ x.bme = (s.fn i).bme ∧ x.map = (s.fn i).map ∧ x.epoch = (s.fn i).epoch := by
  have h : (s.take f n).fn i = s.fn i ∨ _ := State.updFn_fn_cases s f i _
  intro x
  rcases h with hi | ⟨rfl, hi⟩
  · rw [show x = _ from hi]
    exact ⟨rfl, rfl, rfl, rfl⟩
  · rw [show x = _ from hi]
    exact ⟨rfl, rfl, rfl, rfl⟩

/-- The entry that covers an offset depends on the function's window alone. -/
theorem Fn.entry_congr {x y : Fn} (h : x.opened = y.opened ∧ x.bme = y.bme ∧ x.map = y.map) : x.entry = y.entry := by
  obtain ⟨ho, hb, hm⟩ := h
  funext o wr
  rw [Fn.entry, Fn.entry, ho, hb, hm]

theorem Fn.covers_congr {x y : Fn} (h : x.entry = y.entry) (wr : Bool) (k a m : Nat) : x.covers wr k a m = y.covers wr k a m := by
  induction k generalizing a m with
  | zero => cases m <;> rfl
  | succ k ih =>
    cases m with
    | zero => rfl
    | succ m =>
      simp only [Fn.covers, h]
      split
      · rfl
      · exact ih ..

theorem State.take_entry (s : State) (f n i : Nat) : ((s.take f n).fn i).entry = (s.fn i).entry := by
  obtain ⟨ho, hb, hm, -⟩ := State.take_fn_window s f n i
  exact Fn.entry_congr ⟨ho, hb, hm⟩

theorem State.take_reachable (s : State) (f n i a m : Nat) (wr : Bool) : (s.take f n).reachable i a m wr = s.reachable i a m wr := by
  unfold State.reachable
  rw [Fn.covers_congr (State.take_entry s f n i)]
  rfl

theorem State.take_dmaWrite_hostMem (s : State) (f n i a : Nat) (bs : List Byte) :
    ((s.take f n).dmaWrite i a bs).hostMem = (s.dmaWrite i a bs).hostMem := by
  have hmem : ∀ u : State, (u.dmaWrite i a bs).hostMem = (List.range bs.length).foldl (fun m j =>
      match (u.fn i).hostAddr (a + j) true with
      | some h => memPut m h (bs.getD j 0)
      | none => m) u.hostMem := by
    intro u
    unfold State.dmaWrite
    dsimp only
    split <;> rfl
  have haddr : ((s.take f n).fn i).hostAddr = (s.fn i).hostAddr := by
    funext b wr
    rw [Fn.hostAddr, Fn.hostAddr, State.take_entry]
  rw [hmem, hmem, haddr]
  rfl

/-! ### A report -/

/-- A report written from the packet's state, and the DONE of its slot. -/
theorem State.hears.reported (h : s.hears f n op) (buf v : Nat) (out : List Byte) :
    s.reported (((s.take f n).dmaWrite f buf out).complete f n DONE v) f n buf out := by
  obtain ⟨hf, hn⟩ := h.inRange
  have hw := State.dmaWrite_only (s.take f n) f buf out
  have hc := State.complete_only ((s.take f n).dmaWrite f buf out) f n DONE v
  have hfns : ((s.take f n).dmaWrite f buf out).fns = (s.take f n).fns := hw.same .fns (by decide)
  have hall : onlyParts [.fns, .hostMem, .mg, .ctr] s (((s.take f n).dmaWrite f buf out).complete f n DONE v) :=
    hc.after rfl (hw.after rfl ((State.take_only s f n).mono rfl))
  refine ⟨State.complete_replied _ _ _ _ _ ?_ ?_, ?_, ?_⟩
  · rwa [hfns, State.take_fns_length]
  · rwa [State.fn, hfns, ← State.fn, State.take_slots_length]
  · exact (hc.same .hostMem (by decide)).trans (State.take_dmaWrite_hostMem ..)
  · exact ⟨hall.same .fab (by decide), hall.same .pool (by decide), hall.same .sv (by decide), hall.same .quads (by decide),
      hall.same .mem (by decide), hall.same .pw (by decide), hall.same .bt (by decide)⟩

/-- A rule that answers DONE with the bytes written. -/
theorem State.hears.reports (h : s.hears f n op) {rule : Pkt → State → State × Rep} {buf v : Nat} {out : List Byte}
    (hr : rule (s.pkt f n) (s.take f n) = ((s.take f n).dmaWrite f buf out, .fin DONE v)) :
    s.reported (s.command f n op rule) f n buf out := by
  rw [State.command_of_hears h, hr]
  exact h.reported buf _ out

/-- A report into a buffer of the host that its window covers. -/
theorem State.take_report (s : State) (f n off buf len extra : Nat) (bs : List Byte) (hh : isHost buf = true)
    (hr : s.reachable f buf (bs.take len).length true = true) :
    (s.take f n).report (s.pkt f n) off buf len bs extra = ((s.take f n).dmaWrite f buf (bs.take len),
      .fin DONE ((bs.take len).length + bs.length * 2 ^ 32 + extra)) := by
  unfold State.report
  dsimp only
  rw [show (s.pkt f n).f = f from rfl, State.take_reachable, hh, hr]
  rfl

end

/-! ### The rules of the reporting commands, past their own checks -/

theorem State.calReadRule_passes {p : Pkt} {s : State} (hal : p.at 0x40 8 % 8 = 0) (hlo : 8 ≤ p.at 0x48 4) (hhi : p.at 0x48 4 ≤ 65536) :
    ∃ v, State.calReadRule p s = s.report p 0x40 (p.at 0x40 8) (p.at 0x48 4) (flashBytes s.bt.calPage 65536) v := by
  unfold State.calReadRule
  dsimp only
  rw [if_neg (not_not.mpr hal), if_neg (by omega)]
  exact ⟨_, rfl⟩

theorem State.identityRule_passes {p : Pkt} {s : State} (hk : p.at 0x40 1 ≤ 1) (hal : p.at 0x48 8 % 8 = 0) (hlo : 8 ≤ p.at 0x50 4)
    (hhi : p.at 0x50 4 ≤ 262144) :
    ∃ v, State.identityRule p s = s.report p 0x48 (p.at 0x48 8) (p.at 0x50 4) (if p.at 0x40 1 = 0 then s.bt.chain else identityKey) v := by
  unfold State.identityRule
  dsimp only
  rw [if_neg (by omega), if_neg (not_not.mpr hal), if_neg (by simp [within, hlo, hhi])]
  exact ⟨_, rfl⟩

theorem State.attestRule_passes {p : Pkt} {s : State} {ms : List Nat} (hms : ms = (List.range 8).filter (fun i => i ≠ 0 && (p.at 0x60 1).testBit i))
    (hlen : 0x40 + 80 * ms.length + 3309 ≤ p.at 0x70 4) : let body := s.attestBody (p.bytesAt 0x40 32) (s.fn p.f).epoch ms
    State.attestRule p s = s.report p 0x68 (p.at 0x68 8) (p.at 0x70 4) (body ++ signature body) 0 := by
  subst hms
  unfold State.attestRule
  dsimp only
  rw [if_neg (by omega)]

theorem State.countersRule_passes {p : Pkt} {s : State} {es : List Nat} (hq : quadGroups.contains (p.at 0x41 1) = true → p.at 0x40 1 ≤ 3 ∧
      s.ownQuad p (2 ^ p.at 0x40 1) = true) (hes : s.groupEntries p.f (p.at 0x41 1) (p.at 0x40 1) (p.at 0x44 4) = some es)
    (hj : if jobGroup (p.at 0x41 1) then s.countsJob p.f (p.at 0x44 4) = true else p.at 0x44 4 = 0) (hal : p.at 0x48 8 % 8 = 0)
    (hlo : 8 ≤ p.at 0x50 4) (hhi : p.at 0x50 4 ≤ 2 ^ 31) :
    State.countersRule p s = s.report p 0x48 (p.at 0x48 8) (p.at 0x50 4 / 8 * 8) (es.flatMap (leBytes 8)) 0 := by
  have hquad : (quadGroups.contains (p.at 0x41 1) && (decide (p.at 0x40 1 > 3) || !s.ownQuad p (2 ^ p.at 0x40 1))) = false := by
    cases hc : quadGroups.contains (p.at 0x41 1) with
    | false => rfl
    | true =>
      obtain ⟨h3, ho⟩ := hq hc
      simp [ho, h3]
  have hjob : (if jobGroup (p.at 0x41 1) then !s.countsJob p.f (p.at 0x44 4) else p.at 0x44 4 != 0) = false := by
    split at hj <;> simp_all
  unfold State.countersRule
  dsimp only
  rw [hquad, hes]
  dsimp only
  rw [hjob, if_neg Bool.false_ne_true, if_neg Bool.false_ne_true, if_neg (not_not.mpr hal), if_neg (by omega)]

/-! ### The reports -/

/-- Settles O38, command by command. -/
theorem reportsReachTheHost : Obligations.ReportsReachTheHost := by
  refine ⟨?calibration, ?identity, ?attest, ?counters, ?map⟩
  case calibration =>
    intro s f n p buf out h hal hlo hhi hh hr
    obtain ⟨v, hv⟩ := State.calReadRule_passes (s := s.take f n) hal hlo hhi
    exact ⟨_, rfl, h.reports (hv.trans (State.take_report s f n _ _ _ _ _ hh hr))⟩
  case identity =>
    intro s f n p buf len out h hk hal hlo hhi hh hr
    obtain ⟨v, hv⟩ := State.identityRule_passes (s := s.take f n) hk hal hlo hhi
    exact ⟨_, rfl, h.reports (hv.trans (State.take_report s f n _ _ _ _ _ hh hr))⟩
  case attest =>
    intro s f n p buf ms body out h hlen hh hr
    have hv := State.attestRule_passes (p := p) (s := s.take f n) (ms := ms) rfl hlen
    rw [(State.take_fn_window s f n p.f).2.2.2] at hv
    exact ⟨_, rfl, h.reports (hv.trans (State.take_report s f n _ _ _ _ _ hh hr))⟩
  case counters =>
    intro s f n es p q grp buf out h hq hes hj hal hlo hhi hh hr
    have hv := State.countersRule_passes (p := p) (s := s.take f n) hq hes hj hal hlo hhi
    exact ⟨_, rfl, h.reports (hv.trans (State.take_report s f n _ _ _ _ _ hh hr))⟩
  case map =>
    intro s f n p buf out h hh hr
    exact ⟨_, rfl, h.reports (State.take_report s f n _ _ _ _ _ hh hr)⟩

end Sys2Proof.Machine
end

section
/-! Quadrants as the commands of the array meet them: what an update leaves of a quadrant, the sites of a quadrant (R54), and the
diagnostic commands STRIKE_READ, UNIT_TEST and UNIT_TEST_DONE (R59, R60, R308). -/

namespace Sys2Proof.Machine

open Config

/-! ### A quadrant after an update -/

theorem State.updQuad_quad_self (s : State) (q : Nat) (g : Quad → Quad) (h : q < s.quads.length) : (s.updQuad q g).quad q = g (s.quad q) := by
  rw [State.updQuad_quad s q q g h, if_pos rfl]

/-- A quadrant after an update: as it was, or updated where it is the one named. -/
theorem State.updQuad_quad_cases (s : State) (q i : Nat) (g : Quad → Quad) :
    (s.updQuad q g).quad i = s.quad i ∨ (i = q ∧ (s.updQuad q g).quad i = g (s.quad i)) := by
  by_cases hi : i = q
  · subst hi
    by_cases hq : i < s.quads.length
    · exact .inr ⟨rfl, State.updQuad_quad_self s i g hq⟩
    · exact .inl (by simp [State.updQuad, State.quad, List.modify_eq_self (Nat.le_of_not_lt hq)])
  · exact .inl (State.updQuad_quad_ne s q i g hi)

/-- What quadrants show depends on that part alone. -/
theorem State.quad_congr {s t : State} (h : t.quads = s.quads) (q : Nat) : t.quad q = s.quad q := by
  rw [State.quad, h, State.quad]

theorem State.fn_congr {s t : State} (h : t.fns = s.fns) (f : Nat) : t.fn f = s.fn f := by
  rw [State.fn, h, State.fn]

/-- What every step of a fold keeps, the fold keeps. -/
theorem foldl_keeps {σ α β : Type} (v : σ → β) {g : σ → α → σ} (hg : ∀ u x, v (g u x) = v u) (l : List α) (t : σ) :
    v (l.foldl g t) = v t := by
  induction l generalizing t with
  | nil => rfl
  | cons x l ih => rw [List.foldl_cons, ih, hg]

/-! ### Sites (R54) -/

@[simp] theorem Quad.site_row (x : Quad) (row col : Nat) : (x.site row col).row = row := by
  unfold Quad.site
  cases h : x.sites.find? (fun e => e.row == row && e.col == col) with
  | none => rfl
  | some e =>
    have := List.find?_some h
    simp only [Bool.and_eq_true, beq_iff_eq] at this
    exact this.1

@[simp] theorem Quad.site_col (x : Quad) (row col : Nat) : (x.site row col).col = col := by
  unfold Quad.site
  cases h : x.sites.find? (fun e => e.row == row && e.col == col) with
  | none => rfl
  | some e =>
    have := List.find?_some h
    simp only [Bool.and_eq_true, beq_iff_eq] at this
    exact this.2

/-- Finding a list's element after those of a key have given way to `e`, when `e` is what is looked for. -/
theorem find?_replaced_self {α : Type} (l : List α) (e : α) (key p : α → Bool) (he : p e = true) (h : ∀ y, p y = true → key y = true) :
    (l.filter (fun y => ¬ key y) ++ [e]).find? p = some e := by
  have hnone : (l.filter (fun y => ¬ key y)).find? p = none :=
    List.find?_eq_none.mpr fun y hy hp => by simpa [h y hp] using (List.mem_filter.mp hy).2
  rw [List.find?_append, hnone, Option.none_or, List.find?_singleton, if_pos he]

/-- And when something else is looked for. -/
theorem find?_replaced_ne {α : Type} (l : List α) (e : α) (key p : α → Bool) (he : p e = false) (h : ∀ y, p y = true → key y = false) :
    (l.filter (fun y => ¬ key y) ++ [e]).find? p = l.find? p := by
  have hfun : (fun y => decide ((decide ¬ key y = true) = true ∧ p y = true)) = p := by
    funext y
    cases hp : p y with
    | false => simp
    | true => simp [h y hp]
  rw [List.find?_append, List.find?_filter, hfun, List.find?_singleton, he, if_neg Bool.false_ne_true, Option.or_none]

/-- A site is what was last recorded for it. -/
theorem Quad.setSite_site (x : Quad) (e : SiteSt) (row col : Nat) :
    (x.setSite e).site row col = if row = e.row ∧ col = e.col then e else x.site row col := by
  unfold Quad.setSite Quad.site
  dsimp only
  by_cases h : row = e.row ∧ col = e.col
  · rw [if_pos h, find?_replaced_self x.sites e (fun y : SiteSt => y.row == e.row && y.col == e.col)
      (fun y : SiteSt => y.row == row && y.col == col) (by simp [h]) (by simp [h]), Option.getD_some]
  · rw [if_neg h, find?_replaced_ne x.sites e (fun y : SiteSt => y.row == e.row && y.col == e.col)]
    · simpa using fun h1 h2 => h ⟨h1.symm, h2.symm⟩
    · intro y hy
      simp only [Bool.and_eq_true, beq_iff_eq] at hy
      obtain ⟨rfl, rfl⟩ := hy
      simpa using fun h1 h2 => h ⟨h1, h2⟩

/-- Forgetting the detours keeps every site's state. -/
theorem Quad.site_st_of_detours (x y : Quad) (row col : Nat) (h : y.sites = x.sites.map (fun k => { k with detour := 0 })) :
    (y.site row col).st = (x.site row col).st := by
  unfold Quad.site
  rw [h, List.find?_map]
  change (Option.getD (Option.map _ (x.sites.find? (fun e => e.row == row && e.col == col))) _ : SiteSt).st = _
  cases x.sites.find? (fun e : SiteSt => e.row == row && e.col == col) <;> rfl

/-! ### STRIKE_READ -/

/-- Without an image the record is what is read, and without RELEASE it stays. -/
theorem State.strikeReadRule_record {p : Pkt} {s : State} {r : StallRec} (hq : p.at 0x40 1 ≤ 3) (ho : s.ownQuad p (2 ^ p.at 0x40 1) = true)
    (hr : (s.quad (p.at 0x40 1)).stall = some r) (hh : (s.quad (p.at 0x40 1)).halted = false) (hi : (s.quad (p.at 0x40 1)).stallImg = 0)
    (hrel : (p.at 0x41 1).testBit 0 = false) (hhost : isHost (p.at 0x58 8) = true)
    (hreach : s.reachable p.f (p.at 0x58 8) r.bytes.length true = true) :
    ∃ v, State.strikeReadRule p s = (s.dmaWrite p.f (p.at 0x58 8) r.bytes, .fin DONE v) := by
  unfold State.strikeReadRule
  dsimp only
  rw [if_neg (by omega), ho, hr]
  simp only [hh, hi, hhost, hreach, hrel, if_true, Bool.not_true, Bool.false_eq_true, if_false, Bool.and_self]
  exact ⟨_, rfl⟩

/-! ### UNIT_TEST and UNIT_TEST_DONE -/

/-- The test of one active site of a quadrant with no job and no test begins, and its command waits. -/
theorem State.unitTestRule_begins {p : Pkt} {s : State} (hq : p.at 0x40 1 ≤ 3) (ho : s.ownQuad p (2 ^ p.at 0x40 1) = true) (hs : p.at 0x41 1 = 0)
    (hrow : p.at 0x42 1 ≤ 15) (hcol : p.at 0x43 1 ≤ 21) (hst : ((s.quad (p.at 0x40 1)).site (p.at 0x42 1) (p.at 0x43 1)).st < 3)
    (hj : s.jobAt (p.at 0x40 1) = none) (ht : (s.quad (p.at 0x40 1)).test = []) :
    State.unitTestRule p s = (s.updQuad (p.at 0x40 1) (fun x =>
      { x with test := [(p.at 0x42 1, p.at 0x43 1)], testSlot := some (p.f, p.n), testRes := (0, 0), testOne := true }), .later) := by
  have hfresh : (s.quad (p.at 0x40 1)).notReset (p.at 0x42 1) (p.at 0x43 1) = false := by
    simp only [Quad.notReset, Bool.and_eq_false_iff]
    exact .inl (by simp; omega)
  unfold State.unitTestRule
  dsimp only
  rw [if_neg (by omega), ho, hs, hj, ht, if_neg (by omega : ¬ 0 > 1), if_neg (by simp), if_neg (by simpa using hrow), if_neg (by simpa using hcol),
    if_neg (by simp; omega), if_neg (by simp), if_neg (by simpa using hfresh)]
  simp

/-- A quadrant after a site of a column, with the record `e`, is taken back (R59). -/
def Quad.readmitted (x : Quad) (e : SiteSt) (col : Nat) : Quad :=
  let y := x.setSite { e with st := (if isSpine col then 1 else 0), reason := 0, partner := none, detour := 0, due := false }
  let y := match e.partner with
    | some (r, c) => y.setSite { y.site r c with st := 1, partner := none, detour := 0 }
    | none => y
  { y with scenes := [none, none, none, none], loads := [], detours := [0, 0, 0, 0], hops := []
           sites := y.sites.map (fun (k : SiteSt) => { k with detour := 0 }) }

theorem State.readmit_quads (s : State) (q row col : Nat) :
    (s.readmit q row col).quads = (s.updQuad q (·.readmitted ((s.quad q).site row col) col)).quads := by
  have hctr (t : State) : ((List.range 4).foldl (fun s i => s.setCtr 0x25 q (6 + 2 * i) 0) t).quads = t.quads :=
    foldl_keeps State.quads (g := fun s i => s.setCtr 0x25 q (6 + 2 * i) 0) (fun _ _ => rfl) _ t
  unfold State.readmit
  dsimp only
  split <;> exact hctr _

/-- A site that no understudy stands in for is in its default state again, and the scenes are gone. -/
theorem Quad.readmitted_alone (x : Quad) (row col : Nat) (hp : (x.site row col).partner = none) :
    let y := x.readmitted (x.site row col) col
    (y.site row col).st = (if isSpine col then 1 else 0) ∧ y.scenes = [none, none, none, none] ∧ y.test = x.test := by
  have hsite (e : SiteSt) (hr : e.row = row) (hc : e.col = col) : ((x.setSite e).site row col).st = e.st := by
    rw [Quad.setSite_site, if_pos ⟨hr.symm, hc.symm⟩]
  unfold Quad.readmitted
  rw [hp]
  refine ⟨?_, rfl, rfl⟩
  refine (Quad.site_st_of_detours (x.setSite _) _ row col rfl).trans (hsite _ ?_ ?_)
  · exact Quad.site_row x row col
  · exact Quad.site_col x row col

/-- The test of the last site of a quadrant that passes: the site, fenced and without an understudy, is taken back, and the waiting
command completes. -/
theorem unitTestDone_last_passes (s : State) (q row col f n : Nat) (hon : s.isOn = true) (hq : q < s.quads.length)
    (ht : (s.quad q).test = [(row, col)]) (hst : ((s.quad q).site row col).st = 3) (hp : ((s.quad q).site row col).partner = none)
    (hslot : (s.quad q).testSlot = some (f, n)) (hf : f < s.fns.length) (hn : n < (s.fn f).slots.length) :
    completes (.unitTestDone q true) s (fun t => ((t.quad q).site row col).st = (if isSpine col then 1 else 0) ∧ (t.quad q).test = [] ∧
      (t.quad q).scenes = [none, none, none, none] ∧ t.replied f n DONE) := by
  let u : State := (s.readmit q row col).updQuad q (fun x => { x with test := [], testRes := ((s.quad q).testRes.1 + 1, (s.quad q).testRes.2 + 0) })
  let v (val : Nat) : State := (u.complete f n DONE val).updQuad q (fun x => { x with testSlot := none })
  have hrun : ∃ val, execUnitTestDone q true s = .next (v val) := by
    unfold execUnitTestDone
    simp only [ht, hon, hst, hslot]
    exact ⟨_, rfl⟩
  obtain ⟨val, hval⟩ := hrun
  have hre := State.readmit_only s q row col
  have hlen : q < (s.readmit q row col).quads.length := by rwa [State.readmit_quads, State.updQuad_length]
  have hquad : (s.readmit q row col).quad q = (s.quad q).readmitted ((s.quad q).site row col) col := by
    rw [State.quad_congr (State.readmit_quads ..), State.updQuad_quad_self _ _ _ hq]
  have hfin : (u.complete f n DONE val).quads = u.quads := (State.complete_only ..).same .quads (by decide)
  have hvq : (v val).quad q = { (s.quad q).readmitted ((s.quad q).site row col) col with
      test := [], testRes := ((s.quad q).testRes.1 + 1, (s.quad q).testRes.2 + 0), testSlot := none } := by
    have : q < (u.complete f n DONE val).quads.length := by rwa [hfin, State.updQuad_length]
    rw [State.updQuad_quad_self _ _ _ this, State.quad_congr hfin, State.updQuad_quad_self _ _ _ hlen, hquad]
  have hfns : u.fns = s.fns := hre.same .fns (by decide)
  obtain ⟨hsite, hscenes, -⟩ := Quad.readmitted_alone (s.quad q) row col hp
  refine ⟨v val, hval, ?_, ?_, ?_, ?_⟩
  · rw [hvq]
    exact hsite
  · rw [hvq]
  · rw [hvq]
    exact hscenes
  · exact State.complete_replied u f n DONE val (by rwa [hfns]) (by rwa [State.fn_congr hfns])

/-! ### The three commands -/

/-- A slot whose command waits is WORKING. -/
theorem State.take_slot_working {s : State} {f n op : Nat} (h : s.hears f n op) : (((s.take f n).fn f).slot n).st = .working := by
  obtain ⟨hf, hn⟩ := h.inRange
  rw [State.take, State.updFn_fn_self s f _ hf]
  exact congrArg Slot.st ((getD_modify _ _ _ _ _ hn).trans (if_pos rfl))

/-- Settles O39, command by command. -/
theorem diagnosticsAct : Obligations.DiagnosticsAct := by
  refine ⟨?strike, ?test, unitTestDone_last_passes⟩
  case strike =>
    intro s f n r p q buf h hq ho hr hh hi hrel hhost hreach
    obtain ⟨v, hv⟩ := State.strikeReadRule_record (p := p) (s := s.take f n) hq ho hr hh hi hrel hhost
      ((State.take_reachable ..).trans hreach)
    exact ⟨_, rfl, h.reports hv⟩
  case test =>
    intro s f n p q row col h hq hlen ho hs hrow hcol hst hj ht
    have hv := State.unitTestRule_begins (p := p) (s := s.take f n) hq ho hs hrow hcol hst hj ht
    have hcmd := State.command_of_hears h State.unitTestRule
    rw [hv] at hcmd
    have hquad := State.updQuad_quad_self (s.take f n) q (fun x =>
      { x with test := [(row, col)], testSlot := some (f, n), testRes := (0, 0), testOne := true }) hlen
    refine ⟨_, congrArg Host.Outcome.next hcmd, ?_, ?_, ?_, State.take_slot_working h, ?_⟩
    · exact congrArg Quad.test hquad
    · exact congrArg Quad.testSlot hquad
    · exact congrArg Quad.testOne hquad
    · exact (State.updQuad_only ..).after rfl ((State.take_only ..).mono rfl)

end Sys2Proof.Machine
end

section
/-! What the operations that cut, end and reset leave of a quadrant: its sites, its stall and its queues of the tier engine (R54, R78, R84,
R180, R382). -/

namespace Sys2Proof.Machine

open Config

/-! ### A view of every quadrant -/

/-- A view of each quadrant. -/
def State.view {α : Type} (s : State) (v : Quad → α) : List α := s.quads.map v

section
variable {α : Type} {s t : State} {v : Quad → α}

theorem State.view_length (h : t.view v = s.view v) : t.quads.length = s.quads.length := by
  simpa [State.view] using congrArg List.length h

theorem State.view_quad (h : t.view v = s.view v) (q : Nat) : v (t.quad q) = v (s.quad q) := by
  have hq : ∀ u : State, v (u.quad q) = (u.view v).getD q (v Quad.reset) := by
    intro u
    simp only [State.quad, State.view, List.getD_eq_getElem?_getD, List.getElem?_map]
    cases u.quads[q]? <;> rfl
  rw [hq, hq, h]

theorem onlyParts.quads {A : List Part} (h : onlyParts A s t) (hA : Part.quads ∉ A) : t.quads = s.quads := h.same .quads hA

theorem State.view_of_quads (h : t.quads = s.quads) : t.view v = s.view v := by rw [State.view, h, State.view]

theorem onlyParts.view {A : List Part} (h : onlyParts A s t) (hA : Part.quads ∉ A) : t.view v = s.view v :=
  State.view_of_quads (h.quads hA)

theorem State.ite_view {c : Prop} [Decidable c] {a b : State} {l : List α} (ha : a.view v = l) (hb : b.view v = l) :
    (if c then a else b).view v = l := by
  split
  · exact ha
  · exact hb

/-- A view of a view. -/
theorem State.view_comp {β : Type} (w : α → β) (h : t.view v = s.view v) : t.view (fun x => w (v x)) = s.view (fun x => w (v x)) := by
  have := congrArg (List.map w) h
  rwa [State.view, State.view, List.map_map, List.map_map] at this

theorem State.updQuad_view (s : State) (q : Nat) {g : Quad → Quad} (hg : ∀ x, v (g x) = v x) : (s.updQuad q g).view v = s.view v := by
  refine List.ext_getElem? fun i => ?_
  simp only [State.view, State.updQuad, List.getElem?_map, List.getElem?_modify]
  cases s.quads[i]? with
  | none => rfl
  | some x =>
    by_cases hi : q = i
    · simp [hi, hg]
    · simp [hi]

theorem State.view_of_mapped {g : Quad → Quad} (h : t.quads = s.quads.map g) (hg : ∀ x, v (g x) = v x) : t.view v = s.view v := by
  rw [State.view, h, List.map_map]
  exact List.map_congr_left fun x _ => hg x

end

/-- The sites and the stall of a quadrant. -/
def Quad.hull (x : Quad) : List SiteSt × Bool × Option StallRec := (x.sites, x.halted, x.stall)

/-- All of a quadrant but the units and what each did in the present cycle. -/
def Quad.offUnits (x : Quad) : Quad := { x with cus := [], mus := [], acts := [] }

/-- What a cut spares: the sites, the stall and the queues of the tier engine. -/
def Quad.spared (x : Quad) : (List SiteSt × Bool × Option StallRec) × List TeQueue := (x.hull, x.queues)

/-- What a cut's counting leaves as it was: what the cut spares, and the array engine's queues. -/
def Quad.uncounted (x : Quad) : ((List SiteSt × Bool × Option StallRec) × List TeQueue) × List (List AeEnt) := (x.spared, x.aeq)

/-! ### Cuts (R78) -/

/-- The serving state, the jobs' discards aside. -/
def State.offDiscards (s : State) : Serving := { s.sv with jobs := s.sv.jobs.map (fun j => { j with discards := 0 }) }

/-- A view of the quadrants with the serving state, the jobs' discards aside. -/
def State.seenBy {α : Type} (s : State) (v : Quad → α) : List α × Serving := (s.view v, s.offDiscards)

section
variable {α : Type} {v : Quad → α}

theorem State.offDiscards_of_sv {s t : State} (h : t.sv = s.sv) : t.offDiscards = s.offDiscards := by
  rw [State.offDiscards, h, State.offDiscards]

theorem State.updJob_offDiscards (s : State) (id n : Nat) :
    (s.updJob id (fun j => { j with discards := j.discards + n })).offDiscards = s.offDiscards := by
  have hj : ((s.sv.jobs.map (fun j => if j.id == id then { j with discards := j.discards + n } else j)).map (fun j => { j with discards := 0 })) =
      s.sv.jobs.map (fun j => { j with discards := 0 }) := by
    rw [List.map_map]
    refine List.map_congr_left fun j _ => ?_
    dsimp only [Function.comp_apply]
    split <;> rfl
  exact congrArg (fun l => { s.sv with jobs := l }) hj

@[simp] theorem State.bump_view (s : State) (grp scope ix n : Nat) : (s.bump grp scope ix n).view v = s.view v := rfl
@[simp] theorem State.bump_seenBy (s : State) (grp scope ix n : Nat) : (s.bump grp scope ix n).seenBy v = s.seenBy v := rfl
@[simp] theorem State.queueCount_seenBy (s : State) (q row col queue k n : Nat) : (s.queueCount q row col queue k n).seenBy v = s.seenBy v := rfl
@[simp] theorem State.cuCount_seenBy (s : State) (q row col k n : Nat) : (s.cuCount q row col k n).seenBy v = s.seenBy v := rfl

@[simp] theorem State.addDiscards_seenBy (s : State) (q n : Nat) : (s.addDiscards q n).seenBy v = s.seenBy v := by
  refine Prod.ext ((State.addDiscards_only s q n).view (by decide)) ?_
  unfold State.addDiscards
  split
  · exact State.updJob_offDiscards ..
  · rfl

@[simp] theorem State.finishWrites_seenBy (s : State) (q row col : Nat) : (s.finishWrites q row col).seenBy v = s.seenBy v :=
  Prod.ext ((State.finishWrites_only s q row col).view (by decide))
    (State.offDiscards_of_sv ((State.finishWrites_only s q row col).same .sv (by decide)))

theorem State.updQuad_seenBy (s : State) (q : Nat) {g : Quad → Quad} (hg : ∀ x, v (g x) = v x) : (s.updQuad q g).seenBy v = s.seenBy v :=
  Prod.ext (State.updQuad_view s q hg) rfl

theorem State.ite_seenBy {c : Prop} [Decidable c] {a b s : State} (ha : a.seenBy v = s.seenBy v) (hb : b.seenBy v = s.seenBy v) :
    (if c then a else b).seenBy v = s.seenBy v := by
  split
  · exact ha
  · exact hb

end

theorem State.cutHead_seen (s : State) (q row col n ix : Nat) (isIn : Bool) :
    (s.cutHead q row col n ix isIn).seenBy Quad.offUnits = s.seenBy Quad.offUnits := by
  unfold State.cutHead
  dsimp only
  split
  · split
    · rfl
    · rw [State.addDiscards_seenBy, State.queueCount_seenBy, State.updQuad_seenBy]
      intro x
      by_cases h : isCu row col = true <;> simp only [h] <;> rfl
  · rfl

theorem State.cutHeads_seen (s : State) (q : Nat) : (s.cutHeads q).seenBy Quad.offUnits = s.seenBy Quad.offUnits := by
  unfold State.cutHeads
  have hq (k : Nat × Nat) (b : Bool) (ix : Nat → Nat) (l : List Nat) (t : State) :
      (l.foldl (fun s n => s.cutHead q k.1 k.2 n (ix n) b) t).seenBy Quad.offUnits = t.seenBy Quad.offUnits :=
    foldl_keeps (State.seenBy · Quad.offUnits) (fun u n => State.cutHead_seen ..) l t
  refine (foldl_keeps (State.seenBy · Quad.offUnits) (fun u x => ?_) _ _).trans
    (foldl_keeps (State.seenBy · Quad.offUnits) (fun u x => ?_) _ _)
  · exact (hq x.1 false (· + 4) ..).trans (hq x.1 true id ..)
  · exact (hq x.1 false (· + 6) ..).trans (hq x.1 true id ..)

theorem State.cutAll_seen (s : State) (q : Nat) : (s.cutAll q).seenBy Quad.offUnits = s.seenBy Quad.offUnits := by
  unfold State.cutAll
  dsimp only
  have hcount (k : Nat × Nat) (b : Nat) (l : List (List Tok × Nat)) (t : State) :
      (l.foldl (fun (s : State) (x : List Tok × Nat) =>
        if x.1.isEmpty then s else (s.queueCount q k.1 k.2 (x.2 + b) 5 x.1.length).addDiscards q x.1.length) t).seenBy Quad.offUnits =
      t.seenBy Quad.offUnits :=
    foldl_keeps (State.seenBy · Quad.offUnits) (fun u x => by split <;> simp) l t
  rw [State.updQuad_seenBy _ _ (fun x => by rfl)]
  refine (foldl_keeps (State.seenBy · Quad.offUnits) (fun u x => ?_) _ _).trans
    (foldl_keeps (State.seenBy · Quad.offUnits) (fun u x => ?_) _ _)
  · exact (hcount x.1 4 ..).trans (hcount x.1 0 ..)
  · exact (hcount x.1 6 ..).trans (hcount x.1 0 ..)

theorem Quad.noteMet_uncounted (x : Quad) : x.noteMet.uncounted = x.uncounted := by
  unfold Quad.noteMet
  refine foldl_keeps Quad.uncounted (fun u k => foldl_keeps Quad.uncounted (fun w i => ?_) _ _) _ _
  split
  · split <;> rfl
  · rfl

/-- What a cut to a slot leaves of a quadrant: no run, no change and no token on a link of another slot. -/
structure Quad.CutTo (y x : Quad) (target : Nat) : Prop where
  spared : y.spared = x.spared
  gwSlot : y.gwSlot = target
  run : y.run = none
  leaving : y.leaving = none
  chg : y.chg = none
  cutFrom : y.cutFrom = none
  flights : ∀ f ∈ y.flights, f.tok.tag = target

/-- The retirements of a cut leave what it spares. -/
theorem Quad.retire_spared (x : Quad) (o : Option RunSt) :
    (match o with | some r => x.retireRun r | none => x).spared = x.spared := by
  cases o <;> rfl

/-- Counting what is cut leaves every view of the quadrants. -/
theorem State.cutCounts_seenBy {α : Type} {v : Quad → α} (q row col : Nat) (l : List (Nat × Nat)) (t : State) :
    (l.foldl (fun (s : State) (x : Nat × Nat) => if x.2 = 0 then s else s.queueCount q row col x.1 5 x.2) t).seenBy v = t.seenBy v :=
  foldl_keeps (State.seenBy · v) (fun u x => by split <;> rfl) l t

/-- A cut: what it counts and takes from the units changes nothing of what it spares; then the quadrant changes at once, and its queues
lose their old heads. -/
theorem State.cutNow_steps (s : State) (q target : Nat) : ∃ (u : State) (g : Quad → Quad),
    u.seenBy Quad.uncounted = s.seenBy Quad.uncounted ∧ (∀ y, Quad.CutTo (g y) y target) ∧
    (s.cutNow q target).seenBy Quad.offUnits = (u.updQuad q g).seenBy Quad.offUnits := by
  have hheads (b : Bool) (t : State) : (if b then t.cutAll q else t.cutHeads q).seenBy Quad.offUnits = t.seenBy Quad.offUnits := by
    cases b
    · exact State.cutHeads_seen t q
    · exact State.cutAll_seen t q
  unfold State.cutNow
  dsimp only
  refine ⟨_, _, ?counts, ?now, (State.bump_seenBy ..).trans (hheads _ _)⟩
  case now =>
    intro y
    refine ⟨(Quad.retire_spared _ _).trans (Quad.retire_spared _ _), rfl, rfl, rfl, rfl, rfl, fun f hf => ?_⟩
    have := (List.mem_filter.mp hf).2
    simp only [Bool.not_eq_true', Bool.or_eq_false_iff, bne_eq_false_iff_eq] at this
    exact this.2
  case counts =>
    let v := (State.seenBy · Quad.uncounted)
    refine (foldl_keeps v (fun t r => ?_) _ _).trans ?_
    · rfl
    refine (foldl_keeps v (fun t f => ?_) _ _).trans ?_
    · exact (State.addDiscards_seenBy ..).trans rfl
    refine (foldl_keeps v (fun t e => State.ite_seenBy rfl ?_) _ _).trans ?_
    · exact (State.addDiscards_seenBy ..).trans rfl
    refine (foldl_keeps v (fun t e => State.ite_seenBy rfl ?_) _ _).trans ?_
    · rw [State.addDiscards_seenBy, State.updQuad_seenBy _ _ (fun _ => by rfl), State.cutCounts_seenBy, State.finishWrites_seenBy]
    refine (foldl_keeps v (fun t e => State.ite_seenBy rfl ?_) _ _).trans ?_
    · rw [State.addDiscards_seenBy, State.updQuad_seenBy _ _ (fun _ => by rfl)]
      exact State.ite_seenBy (State.cutCounts_seenBy ..) ((State.cuCount_seenBy ..).trans (State.cutCounts_seenBy ..))
    exact State.updQuad_seenBy _ _ Quad.noteMet_uncounted

/-- A cut changes the discards of jobs at most among what is served. -/
theorem State.cutNow_offDiscards (s : State) (q target : Nat) : (s.cutNow q target).offDiscards = s.offDiscards := by
  obtain ⟨u, g, hu, -, h⟩ := State.cutNow_steps s q target
  have hcut : (s.cutNow q target).offDiscards = (u.updQuad q g).offDiscards := congrArg Prod.snd h
  have hcount : u.offDiscards = s.offDiscards := congrArg Prod.snd hu
  exact hcut.trans hcount

/-- A cut spares the sites and the stall of every quadrant. -/
theorem State.cutNow_view_spared (s : State) (q target : Nat) : (s.cutNow q target).view Quad.spared = s.view Quad.spared := by
  obtain ⟨u, g, hu, hg, h⟩ := State.cutNow_steps s q target
  exact (State.view_comp Quad.spared (congrArg Prod.fst h)).trans
    ((State.updQuad_view u q (fun y => (hg y).spared)).trans (State.view_comp Prod.fst (congrArg Prod.fst hu)))

theorem State.cutNow_hull (s : State) (q target : Nat) : (s.cutNow q target).view Quad.hull = s.view Quad.hull :=
  State.view_comp Prod.fst (State.cutNow_view_spared s q target)

/-- A cut leaves the array engine of every other quadrant. -/
theorem State.cutNow_aeq_ne (s : State) (q target i : Nat) (hi : i ≠ q) : ((s.cutNow q target).quad i).aeq = (s.quad i).aeq := by
  obtain ⟨u, g, hu, -, h⟩ := State.cutNow_steps s q target
  have hcut := State.view_quad (State.view_comp Quad.aeq (congrArg Prod.fst h)) i
  have hcount := State.view_quad (State.view_comp Prod.snd (congrArg Prod.fst hu)) i
  have hne := congrArg Quad.aeq (State.updQuad_quad_ne u q i g hi)
  exact Eq.trans hcut (Eq.trans hne hcount)

/-- The quadrant that is cut. -/
theorem State.cutNow_quad (s : State) (q target : Nat) (hq : q < s.quads.length) : ((s.cutNow q target).quad q).CutTo (s.quad q) target := by
  obtain ⟨u, g, hseen, hg, hcut⟩ := State.cutNow_steps s q target
  have h : (s.cutNow q target).view Quad.offUnits = (u.updQuad q g).view Quad.offUnits := congrArg Prod.fst hcut
  have hu : u.view Quad.spared = s.view Quad.spared := State.view_comp Prod.fst (congrArg Prod.fst hseen)
  have hoff : ((s.cutNow q target).quad q).offUnits = (g (u.quad q)).offUnits := by
    rw [State.view_quad h q, State.updQuad_quad_self u q g (by rwa [State.view_length hu])]
  have field {α : Type} (w : Quad → α) : w ((s.cutNow q target).quad q).offUnits = w (g (u.quad q)).offUnits := congrArg w hoff
  obtain ⟨h1, h2, h3, h4, h5, h6, h7⟩ := hg (u.quad q)
  exact ⟨(field Quad.spared).trans (h1.trans (State.view_quad hu q)), (field Quad.gwSlot).trans h2, (field Quad.run).trans h3,
    (field Quad.leaving).trans h4, (field Quad.chg).trans h5, (field Quad.cutFrom).trans h6, (field Quad.flights) ▸ h7⟩

end Sys2Proof.Machine
end

section
/-! Jobs that end, units that die and quadrants that stall (R33, R54, R56, R79, R83, R84): what is left of the job, of the sites and of the
stall; and the commands QUEUE_ECC_ERROR, STATUS_POLL, STALL_WATCHDOG_TRIP and STALL_STRIKE_COMMIT. -/

namespace Sys2Proof.Machine

open Config

/-! ### Operations that leave the quadrants as they are -/

@[simp] theorem State.complete_quads (s : State) (f n status val : Nat) : (s.complete f n status val).quads = s.quads :=
  (State.complete_only s f n status val).quads (by decide)

@[simp] theorem State.completeOpt_quads (s : State) (w : Option (Nat × Nat)) (status val : Nat) : (s.completeOpt w status val).quads = s.quads :=
  (State.completeOpt_only s w status val).quads (by decide)

@[simp] theorem State.completeAll_quads (s : State) (ws : List (Nat × Nat)) (status val : Nat) : (s.completeAll ws status val).quads = s.quads :=
  (State.completeAll_only s ws status val).quads (by decide)

@[simp] theorem State.completeAs_quads (s : State) (w : Option (Nat × Nat)) (status off : Nat) : (s.completeAs w status off).quads = s.quads :=
  (State.completeAs_only s w status off).quads (by decide)

@[simp] theorem State.cancelReq_quads (s : State) (rid : Nat) : (s.cancelReq rid).quads = s.quads :=
  (State.cancelReq_only s rid).quads (by decide)

@[simp] theorem State.endReq_quads (s : State) (rid status : Nat) (record : Bool) : (s.endReq rid status record).quads = s.quads :=
  (State.endReq_only s rid status record).quads (by decide)

@[simp] theorem State.cancelChanges_quads (s : State) (jid : Nat) : (s.cancelChanges jid).quads = s.quads :=
  (State.cancelChanges_only s jid).quads (by decide)

@[simp] theorem State.jobTo_quads (s : State) (id : Nat) (st : JobSt) : (s.jobTo id st).quads = s.quads :=
  (State.jobTo_only s id st).quads (by decide)

@[simp] theorem State.unholdAll_quads (s : State) (who : Holder) : (s.unholdAll who).quads = s.quads :=
  (State.unholdAll_only s who).quads (by decide)

@[simp] theorem State.dropImages_quads (s : State) (j : Job) : (s.dropImages j).quads = s.quads :=
  (State.dropImages_only s j).quads (by decide)

@[simp] theorem State.tellMembers_quads (s : State) (j : Job) (m : Msg) : (s.tellMembers j m).quads = s.quads :=
  (State.tellMembers_only s j m).quads (by decide)

@[simp] theorem State.raise_quads (s : State) (code quad : Nat) (detail : List Byte) : (s.raise code quad detail).quads = s.quads :=
  (State.raise_only s code quad detail).quads (by decide)

@[simp] theorem State.setRdy_quads (s : State) (i : Nat) (b : Bool) : (s.setRdy i b).quads = s.quads :=
  (State.setRdy_only s i b).quads (by decide)

@[simp] theorem State.startPlacing_quads (s : State) (p : Placing) : (s.startPlacing p).quads = s.quads :=
  (State.startPlacing_only s p).quads (by decide)

@[simp] theorem State.dropPlacing_quads (s : State) (p : Placing) : (s.dropPlacing p).quads = s.quads :=
  (State.dropPlacing_only s p).quads (by decide)

@[simp] theorem State.addDiscards_quads (s : State) (q n : Nat) : (s.addDiscards q n).quads = s.quads :=
  (State.addDiscards_only s q n).quads (by decide)

@[simp] theorem State.noteMarks_quads (s : State) (k : Nat) (as : List Nat) : (s.noteMarks k as).quads = s.quads :=
  (State.noteMarks_only s k as).quads (by decide)

@[simp] theorem State.fillCopy_quads (s : State) (p : Placing) (r : Rec) : (s.fillCopy p r).quads = s.quads :=
  (State.fillCopy_only s p r).quads (by decide)

/-! ### The quadrants through the ending of a job -/

section
variable {α : Type} {v : Quad → α}

theorem State.breakEntries_hull (s : State) (q : Nat) : (s.breakEntries q).2.view Quad.hull = s.view Quad.hull := by
  unfold State.breakEntries
  dsimp only
  split
  · rfl
  · exact State.updQuad_view _ _ fun _ => rfl

theorem State.cutJob_hull (s : State) (j : Job) : (s.cutJob j).view Quad.hull = s.view Quad.hull := by
  refine foldl_keeps (State.view · Quad.hull) (fun t q => State.ite_view rfl ?_) _ _
  refine (State.updQuad_view _ _ fun _ => by rfl).trans (State.ite_view ?_ rfl)
  exact (State.breakEntries_hull ..).trans (State.cutNow_hull ..)

/-- What the ending of a job leaves of a quadrant, but for its cut: the sites, the stall and the array engine's queues. -/
def Quad.calm (x : Quad) : (List SiteSt × Bool × Option StallRec) × List (List AeEnt) := (x.hull, x.aeq)

theorem State.abandonPass_calm (s : State) (jid : Nat) : (s.abandonPass jid).view Quad.calm = s.view Quad.calm := by
  unfold State.abandonPass
  dsimp only
  refine State.ite_view (State.ite_view ?_ ?_) rfl
  · refine ((State.bumpGen_only _).view (by decide)).trans (State.view_of_mapped rfl fun x => ?_)
    split <;> rfl
  · refine State.view_of_mapped rfl fun x => ?_
    split <;> rfl

theorem State.discardWork_calm (s : State) (jid : Nat) : (s.discardWork jid).view Quad.calm = s.view Quad.calm := by
  have hdrop (l : List Placing) : (l.foldl (fun s p => s.dropPlacing p) s).view Quad.calm = s.view Quad.calm :=
    foldl_keeps (State.view · Quad.calm) (fun t p => (State.dropPlacing_only t p).view (by decide)) l s
  unfold State.discardWork
  dsimp only
  refine ((State.seDrop_only ..).view (by decide)).trans ?_
  generalize hl : s.pool.placing.filter _ = l
  rw [← hdrop l]
  exact State.view_of_mapped rfl fun _ => rfl

/-- Ending a job cuts its quadrants; what else it does leaves them calm. -/
theorem State.endJob_calm {s : State} {jid : Nat} {j0 : Job} (status : Nat) (hj : s.job? jid = some j0) :
    (s.endJob jid status).view Quad.calm = (s.cutJob j0).view Quad.calm := by
  unfold State.endJob
  rw [hj]
  dsimp only
  generalize hX : State.jobTo _ jid .held = X
  have hwork : X.view Quad.calm = (s.cutJob j0).view Quad.calm := by
    rw [← hX]
    refine (State.view_of_quads (State.jobTo_quads ..)).trans ?_
    refine (foldl_keeps (State.view · Quad.calm) (fun t r => State.view_of_quads (by simp)) _ _).trans ?_
    refine (State.view_of_quads (State.cancelChanges_quads ..)).trans ?_
    refine (foldl_keeps (State.view · Quad.calm) (fun t r => State.view_of_quads (by simp [apply_ite State.quads])) _ _).trans ?_
    exact (State.discardWork_calm ..).trans (State.abandonPass_calm ..)
  rw [← hwork]
  cases X.job? jid with
  | none => rfl
  | some j => exact State.view_of_quads (by simp [apply_ite State.quads])

theorem State.endJob_hull (s : State) (jid status : Nat) : (s.endJob jid status).view Quad.hull = s.view Quad.hull := by
  cases hj : s.job? jid with
  | none =>
    unfold State.endJob
    rw [hj]
  | some j0 => exact (State.view_comp Prod.fst (State.endJob_calm status hj)).trans (State.cutJob_hull s j0)

/-- A job that has ended is no longer there. -/
theorem State.endJob_gone (s : State) (jid status : Nat) : (s.endJob jid status).job? jid = none := by
  unfold State.endJob
  cases hj : s.job? jid with
  | none => exact hj
  | some j0 =>
    dsimp only
    generalize State.jobTo _ jid .held = X
    cases hX : X.job? jid with
    | none => exact hX
    | some j =>
      refine List.find?_eq_none.mpr fun x hx => ?_
      simpa using (List.mem_filter.mp hx).2

theorem State.endJobAt_hull (s : State) (q status : Nat) : (s.endJobAt q status).view Quad.hull = s.view Quad.hull := by
  unfold State.endJobAt
  split
  · exact State.endJob_hull ..
  · rfl

end

/-! ### RDY_MAP and the quadrant reset (R382) -/

theorem State.setRdyMap_rdy (s : State) (m : BitVec 47) : (s.setRdyMap m).bt.rdy = m := by
  unfold State.setRdyMap
  split
  · next h => exact h.symm
  · exact foldl_keeps (fun t : State => t.bt.rdy) (fun t f => congrArg Boot.rdy ((State.raiseAt_only ..).same .bt (by decide))) _ _

theorem State.setRdy_rdy_false (s : State) (i : Nat) (hi : i < 47) : (s.setRdy i false).rdy i = false := by
  rw [State.rdy, State.setRdy, State.setRdyMap_rdy]
  simp [hi]

theorem State.quadReset_quads (s : State) (q : Nat) (keepCtr : Bool) :
    (s.quadReset q keepCtr).quads = (s.updQuad q (·.cleared s.now)).quads := by
  unfold State.quadReset
  dsimp only
  rw [State.setRdy_quads, foldl_keeps State.quads (fun t p => State.dropPlacing_quads t p)]
  cases keepCtr <;> simp [State.updQuad] <;> rfl

theorem State.quadReset_quad (s : State) (q : Nat) (keepCtr : Bool) (hq : q < s.quads.length) :
    (s.quadReset q keepCtr).quad q = (s.quad q).cleared s.now := by
  rw [State.quad_congr (State.quadReset_quads ..), State.updQuad_quad_self s q _ hq]

theorem State.quadReset_job? (s : State) (q : Nat) (keepCtr : Bool) (id : Nat) : (s.quadReset q keepCtr).job? id = s.job? id := by
  have hjobs : (s.quadReset q keepCtr).sv.jobs = s.sv.jobs := by
    unfold State.quadReset
    dsimp only
    rw [congrArg Serving.jobs ((State.setRdy_only ..).same .sv (by decide)),
      foldl_keeps (fun t : State => t.sv.jobs) (fun t p => congrArg Serving.jobs ((State.dropPlacing_only t p).same .sv (by decide)))]
    cases keepCtr <;> rfl
  rw [State.job?, hjobs, State.job?]

theorem State.quadReset_rdy (s : State) (q : Nat) (keepCtr : Bool) (hq : q < 4) : (s.quadReset q keepCtr).rdy (1 + q) = false :=
  State.setRdy_rdy_false _ _ (by omega)

/-! ### Units that die (R54) -/

/-- The state of a site and the reason it is in it. -/
def SiteSt.standing (e : SiteSt) : Nat × Nat := (e.st, e.reason)

theorem Quad.setSite_standing (x : Quad) (e : SiteSt) (h : e.standing = (x.site e.row e.col).standing) (row col : Nat) :
    ((x.setSite e).site row col).standing = (x.site row col).standing := by
  rw [Quad.setSite_site]
  split
  · next hk => rw [h, hk.1, hk.2]
  · rfl

theorem State.updQuad_standing (s : State) (q i row col : Nat) (g : Quad → SiteSt)
    (h : ∀ x, (g x).standing = (x.site (g x).row (g x).col).standing) :
    (((s.updQuad q (fun x => x.setSite (g x))).quad i).site row col).standing = ((s.quad i).site row col).standing := by
  obtain he | ⟨-, he⟩ := State.updQuad_quad_cases s q i (fun x => x.setSite (g x))
  · rw [he]
  · rw [he, Quad.setSite_standing _ _ (h _)]

theorem State.fence_standing (s : State) (q row col st reason : Nat) (hq : q < s.quads.length) :
    (((s.fence q row col st reason).2.quad q).site row col).standing = (st, reason) := by
  unfold State.fence
  dsimp only
  generalize hu : s.updQuad q _ = u
  have hdead : ((u.quad q).site row col).standing = (st, reason) := by
    rw [← hu, State.updQuad_quad_self s q _ hq]
    exact congrArg SiteSt.standing ((Quad.setSite_site ..).trans (if_pos (by simp)))
  split
  · exact hdead
  · split
    · split
      · exact (State.updQuad_standing u q q row col (fun x => { x.site _ _ with partner := none, detour := 0 })
          (fun x => by simp [SiteSt.standing])).trans hdead
      · exact hdead
    · exact hdead

theorem State.fence_length (s : State) (q row col st reason : Nat) : (s.fence q row col st reason).2.quads.length = s.quads.length := by
  unfold State.fence
  dsimp only
  split
  · exact State.updQuad_length ..
  · split
    · split <;> simp only [State.updQuad_length]
    · exact State.updQuad_length ..

/-- A unit that dies at run time is fenced for its reason, and its quadrant's bit of RDY_MAP is clear. -/
theorem State.unitDies_fenced (s : State) (q row col reason : Nat) (hq : q < s.quads.length) (h4 : q < 4)
    (hst : ((s.quad q).site row col).st < 3) :
    (((s.unitDies q row col reason).quad q).site row col).standing = (3, reason) ∧ (s.unitDies q row col reason).rdy (1 + q) = false := by
  unfold State.unitDies
  rw [if_neg (by omega)]
  dsimp only
  generalize hu : (if ((s.endJobAt q INTERNAL).quad q).active = true then _ else _ : State) = u
  have hcut : u.view Quad.hull = s.view Quad.hull := by
    rw [← hu]
    exact State.ite_view ((State.cutNow_hull ..).trans (State.endJobAt_hull ..)) (State.endJobAt_hull ..)
  have hqu : q < u.quads.length := by rwa [State.view_length hcut]
  refine ⟨?_, State.quadReset_rdy _ q false h4⟩
  have hf := State.fence_standing u q row col 3 reason hqu
  have hlen : q < (u.fence q row col 3 reason).2.quads.length := by rwa [State.fence_length]
  generalize u.fence q row col 3 reason = o at hf hlen ⊢
  obtain ⟨k, w⟩ := o
  dsimp only at hf hlen ⊢
  rw [State.quadReset_quad _ _ _ (by cases k <;> simpa [State.updQuad_length] using hlen), State.quad_congr (State.raise_quads ..)]
  cases k with
  | none => exact hf
  | some k => exact (State.updQuad_standing w q q row col (fun x => { x.site k.1 k.2 with due := true }) (fun x => by simp [SiteSt.standing])).trans hf

/-! ### Stalls (R84) -/

theorem State.lineError_hull (s : State) (k : Nat) (bad : Bool) : (s.lineError k bad).view Quad.hull = s.view Quad.hull := by
  unfold State.lineError
  dsimp only
  split
  · split
    · exact State.updQuad_view _ _ fun _ => rfl
    · rfl
  · rfl

theorem State.noteReads_hull (s : State) (q : Nat) (ps : List Piece) : (s.noteReads q ps).view Quad.hull = s.view Quad.hull := by
  unfold State.noteReads
  dsimp only
  refine (foldl_keeps (State.view · Quad.hull) (fun t e => State.lineError_hull ..) _ _).trans (State.view_of_quads ?_)
  simp [apply_ite State.quads]

theorem State.commitPlacing_hull (s : State) (p : Placing) : (s.commitPlacing p).2.view Quad.hull = s.view Quad.hull := by
  unfold State.commitPlacing
  extract_lets copies pieces readers s1 s2 p3 s3 s4 p5 s5 s6 s7
  have h1 : s1.view Quad.hull = s.view Quad.hull := foldl_keeps (State.view · Quad.hull) (fun t r => State.noteReads_hull ..) _ _
  have h2 : s2.quads = s1.quads := foldl_keeps State.quads (fun t r => by simp) _ _
  have h5 : s5.quads = s4.quads := by
    simp only [s5]
    split <;> rfl
  have h6 : s6.quads = s5.quads := State.unholdAll_quads ..
  have h7 : s7.quads = s6.quads := foldl_keeps State.quads (fun t r => State.bump_quads ..) _ _
  exact (State.view_of_quads (h7.trans (h6.trans (h5.trans h2)))).trans h1

theorem State.stallJob_hull (s : State) (q : Nat) : (s.stallJob q).view Quad.hull = s.view Quad.hull := by
  unfold State.stallJob
  split
  · rfl
  · dsimp only
    refine State.ite_view ?_ (State.cutJob_hull ..)
    exact (State.view_of_quads (State.tellMembers_quads ..)).trans (State.cutJob_hull ..)

theorem State.reserveNew_quads {s u : State} {cls : Nat} {r : Rec} {ne : Bool} {o : Option State} (h : s.reserveNew cls r ne = (o, u)) :
    u.quads = s.quads ∧ ∀ t, o = some t → t.quads = s.quads := by
  obtain ⟨hu, ho⟩ := State.reserveNew_only s cls r ne
  rw [h] at hu ho
  exact ⟨hu.quads (by decide), fun t ht => (ho t ht).quads (by decide)⟩

/-- A quadrant that stalls is held, with its record. -/
theorem State.stallTrip_hull (s : State) (q : Nat) (forced3 : Bool) (hq : q < s.quads.length) :
    ((s.stallTrip q forced3).quad q).hull = ((s.quad q).sites, true, some (s.stallRec q forced3)) := by
  unfold State.stallTrip
  dsimp only
  generalize hu : State.stallJob _ q = u
  have hheld : (u.quad q).hull = ((s.quad q).sites, true, some (s.stallRec q forced3)) := by
    rw [← hu, State.view_quad (State.stallJob_hull ..) q, State.quad_congr (State.bump_quads ..), State.updQuad_quad_self s q _ hq]
    rfl
  generalize hw : State.updQuad (if (u.quad q).stallImg = 0 then u else _) q _ = w
  have hspace : w.view Quad.hull = u.view Quad.hull := by
    rw [← hw]
    exact (State.updQuad_view _ _ fun _ => by rfl).trans (State.ite_view rfl rfl)
  rw [← hheld, ← State.view_quad hspace q]
  split
  · next s' x hx => rw [State.quad_congr (State.startPlacing_quads ..), State.quad_congr ((State.reserveNew_quads hx).2 s' rfl)]
  · next s' hx => rw [State.quad_congr (State.reserveNew_quads hx).1]

theorem State.jobAt_congr {s t : State} (hsv : t.sv = s.sv) (hbt : t.bt = s.bt) (q : Nat) : t.jobAt q = s.jobAt q := by
  simp only [State.jobAt, State.jobQuads, State.prodQuads, State.prod?, State.azgen, hsv, hbt]

/-- A strike whose image, if it has one, has committed, with JOIN_STALL raised (R84 step 5). -/
def State.strikeCommitted (s : State) (q : Nat) (r : StallRec) : State :=
  let u := match s.pool.placing.find? (fun p => p.for_ == .stall q) with
    | some p => ((s.commitPlacing p).2).updQuad q (fun x => { x with stallImg := p.oid })
    | none => s
  u.raise 0x11 q (leBytes 2 r.cause ++ leBytes 2 r.full ++ leBytes 2 r.empty ++ leBytes 2 r.fullCount)

theorem State.strikeCommitted_hull (s : State) (q : Nat) (r : StallRec) : (s.strikeCommitted q r).view Quad.hull = s.view Quad.hull := by
  refine (State.view_of_quads (State.raise_quads ..)).trans ?_
  split
  · exact (State.updQuad_view _ _ fun _ => by rfl).trans (State.commitPlacing_hull s _)
  · rfl

theorem State.strikeCommitted_only (s : State) (q : Nat) (r : StallRec) :
    onlyParts [.mem, .marks, .flaws, .pool, .quads, .fns, .mg, .ctr] s (s.strikeCommitted q r) := by
  refine (State.raise_only ..).after (by decide) ?_
  split
  · exact (State.updQuad_only ..).after (by decide) ((State.commitPlacing_only s _).mono (by decide))
  · exact onlyParts.rfl'

/-- A strike that commits frees the quadrant, keeps its record and ends its job. -/
theorem stallStrikeCommit_frees (s : State) (q : Nat) (r : StallRec) (j : Job) (hon : s.isOn = true) (hq : q < s.quads.length)
    (hr : (s.quad q).stall = some r) (hh : (s.quad q).halted = true) (hj : s.jobAt q = some j) :
    completes (.stallStrikeCommit q) s (fun t => (t.quad q).halted = false ∧ (t.quad q).stall = some r ∧ t.job? j.id = none) := by
  have hstep : exec (.stallStrikeCommit q) s = .next (((s.strikeCommitted q r).endJobAt q STALLED).quadReset q true) := by
    change execStallStrikeCommit q s = _
    simp only [execStallStrikeCommit, hr]
    rw [if_neg (by simp [hon, hh])]
    rfl
  have hend : (s.strikeCommitted q r).endJobAt q STALLED = (s.strikeCommitted q r).endJob j.id STALLED := by
    have hstay := State.strikeCommitted_only s q r
    rw [State.endJobAt, State.jobAt_congr (hstay.same .sv (by decide)) (hstay.same .bt (by decide)), hj]
  have hkept : ((s.strikeCommitted q r).endJob j.id STALLED).view Quad.hull = s.view Quad.hull :=
    (State.endJob_hull ..).trans (State.strikeCommitted_hull ..)
  refine ⟨_, hstep, ?_⟩
  dsimp only
  rw [hend, State.quadReset_quad _ _ _ (by rwa [State.view_length hkept]), State.quadReset_job?]
  exact ⟨rfl, (congrArg (·.2.2) (State.view_quad hkept q)).trans hr, State.endJob_gone ..⟩

/-- STALL_WATCHDOG_TRIP holds a quadrant without progress for its limit. -/
theorem stallWatchdogTrip_holds (s : State) (q : Nat) (hruns : s.quadRuns q = true) (hq : q < s.quads.length) (hact : (s.quad q).active = true)
    (hlate : (s.quad q).progress + (s.quad q).stallLimit ≤ s.now) :
    completes (.stallWatchdogTrip q) s (fun t => (t.quad q).halted = true ∧ (t.quad q).stall = some (s.stallRec q false)) := by
  have hstep : exec (.stallWatchdogTrip q) s = .next (s.stallTrip q false) := by
    change execStallWatchdogTrip q s = _
    rw [execStallWatchdogTrip]
    dsimp only
    rw [if_pos (by simp [hruns, hact, hlate])]
  have hhull := State.stallTrip_hull s q false hq
  exact ⟨_, hstep, congrArg (·.2.1) hhull, congrArg (·.2.2) hhull⟩

/-! ### Status polls (R54) -/

theorem mem_allSites {row col : Nat} (hr : row < 16) (hc : col < 22) : (row, col) ∈ allSites := by
  refine List.mem_map.mpr ⟨22 * row + col, List.mem_range.mpr (by omega), ?_⟩
  exact Prod.ext (by dsimp only; omega) (by dsimp only; omega)

theorem allSites_nodup : allSites.Nodup := by
  refine List.Nodup.map_on (fun a _ b _ h => ?_) List.nodup_range
  have h1 := congrArg Prod.fst h
  have h2 := congrArg Prod.snd h
  dsimp only at h1 h2
  omega

/-- A selection of the sites that only one site meets is that site. -/
theorem filter_allSites {row col : Nat} (hr : row < 16) (hc : col < 22) (p : Nat × Nat → Bool) (hp : ∀ k, p k = (k == (row, col))) :
    allSites.filter p = [(row, col)] := by
  rw [funext hp, List.filter_beq, List.count_eq_one_of_mem allSites_nodup (mem_allSites hr hc)]
  rfl

/-- A poll that one live site does not answer. -/
theorem execStatusPoll_one (s : State) (q row col : Nat) (r : RunSt) (hruns : s.quadRuns q = true) (hrun : (s.quad q).run = some r)
    (hr : row < 16) (hc : col < 22) (hst : ((s.quad q).site row col).st < 3) :
    let n := (((s.quad q).polls.find? (fun p => p.1 == row && p.2.1 == col)).map (·.2.2)).getD 0 + 1
    let t := s.updQuad q (fun x => { x with polls := [(row, col, n)].filter (fun p => decide (p.2.2 < 3)) })
    execStatusPoll q [(row, col)] s = .next (if 3 ≤ n then t.unitDies q row col 4 else t) := by
  intro n t
  have hlive : ((List.range 352).map (fun i => (i / 22, i % 22))).filter
      (fun k => [(row, col)].contains k && decide (((s.quad q).site k.1 k.2).st < 3)) = [(row, col)] := by
    refine filter_allSites hr hc _ fun k => ?_
    by_cases hk : k = (row, col)
    · simp [hk, hst]
    · simp [hk]
  unfold execStatusPoll
  dsimp only
  rw [if_neg (by simp [hruns, hrun])]
  rw [hlive]
  by_cases h3 : 3 ≤ n
  · simp [n, t, h3]
  · simp [n, t, h3]

/-- Three polls missed fence a unit; the first is noted. -/
theorem statusPoll_counts (s : State) (q row col : Nat) (r : RunSt) (hruns : s.quadRuns q = true) (hq : q < s.quads.length)
    (hrun : (s.quad q).run = some r) (hr : row < 16) (hc : col < 22) (hst : ((s.quad q).site row col).st < 3) :
    ((s.quad q).polls = [] →
      completes (.statusPoll q [(row, col)]) s (fun t => (t.quad q).polls = [(row, col, 1)] ∧ onlyParts [.quads] s t)) ∧
    ((s.quad q).polls = [(row, col, 2)] → completes (.statusPoll q [(row, col)]) s (fun t =>
      ((t.quad q).site row col).st = 3 ∧ ((t.quad q).site row col).reason = 4 ∧ t.rdy (1 + q) = false)) := by
  have hstep := execStatusPoll_one s q row col r hruns hrun hr hc hst
  refine ⟨fun h0 => ?_, fun h2 => ?_⟩
  · rw [h0] at hstep
    refine ⟨_, hstep, ?_, State.updQuad_only ..⟩
    exact (congrArg Quad.polls (State.updQuad_quad_self s q _ hq)).trans rfl
  · rw [h2] at hstep
    simp only [List.find?_singleton, beq_self_eq_true, Bool.and_self, if_true, Option.map_some, Option.getD_some, le_refl] at hstep
    have h4 : q < 4 := by simp_all [State.quadRuns]
    obtain ⟨hdead, hrdy⟩ := State.unitDies_fenced (s.updQuad q (fun x => { x with polls := [(row, col, 3)].filter (fun p => decide (p.2.2 < 3)) }))
      q row col 4 (by simpa using hq) h4 (by rw [State.updQuad_quad_self s q _ hq]; exact hst)
    exact ⟨_, hstep, congrArg Prod.fst hdead, congrArg Prod.snd hdead, hrdy⟩

end Sys2Proof.Machine
end

section
/-! The units of a quadrant: what setting a unit, a queue or a trap gives, what popping a token and owing its credit leave, and what an
event and an ECC error count (R33, R43, R65 to R67). -/

namespace Sys2Proof.Machine

open Config

/-! ### Units -/

@[simp] theorem Quad.setCu_cu (x : Quad) (row col r c : Nat) (d : Cu) :
    (x.setCu row col d).cu r c = if (r, c) = (row, col) then d else x.cu r c := by
  unfold Quad.setCu Quad.cu
  rw [look_put]
  split <;> rfl

@[simp] theorem Quad.setMu_mu (x : Quad) (row col r c : Nat) (d : Mu) :
    (x.setMu row col d).mu r c = if (r, c) = (row, col) then d else x.mu r c := by
  unfold Quad.setMu Quad.mu
  rw [look_put]
  split <;> rfl

@[simp] theorem Quad.setCu_mu (x : Quad) (row col r c : Nat) (d : Cu) : (x.setCu row col d).mu r c = x.mu r c := rfl
@[simp] theorem Quad.setMu_cu (x : Quad) (row col r c : Nat) (d : Mu) : (x.setMu row col d).cu r c = x.cu r c := rfl
@[simp] theorem Quad.act_cu (x : Quad) (row col code r c : Nat) : (x.act row col code).cu r c = x.cu r c := rfl
@[simp] theorem Quad.act_mu (x : Quad) (row col code r c : Nat) : (x.act row col code).mu r c = x.mu r c := rfl

@[simp] theorem Quad.act_did (x : Quad) (row col code : Nat) : (x.act row col code).did row col code = true := by
  simp [Quad.act, Quad.did]

/-! ### Queues of a unit -/

/-- The input queues of a site's unit. -/
def Quad.inqs (x : Quad) (row col : Nat) : List (List Tok) := if isCu row col then (x.cu row col).inq else (x.mu row col).inq

/-- The output queues of a site's unit. -/
def Quad.outqs (x : Quad) (row col : Nat) : List (List Tok) := if isCu row col then (x.cu row col).outq else (x.mu row col).outq

theorem Quad.inq_eq (x : Quad) (row col dq : Nat) : x.inq row col dq = (x.inqs row col).getD dq [] := by
  unfold Quad.inq Quad.inqs
  split <;> rfl

theorem Quad.outq_eq (x : Quad) (row col k : Nat) : x.outq row col k = (x.outqs row col).getD k [] := by
  unfold Quad.outq Quad.outqs
  split <;> rfl

theorem Quad.setInq_inqs (x : Quad) (row col dq : Nat) (ts : List Tok) :
    (x.setInq row col dq ts).inqs row col = (x.inqs row col).set dq ts := by
  unfold Quad.setInq Quad.inqs
  split <;> simp

theorem Quad.setOutq_outqs (x : Quad) (row col k : Nat) (ts : List Tok) :
    (x.setOutq row col k ts).outqs row col = (x.outqs row col).set k ts := by
  unfold Quad.setOutq Quad.outqs
  split <;> simp

theorem getD_set_self {α : Type} {l : List α} {i : Nat} {a d : α} (h : i < l.length ∨ a = d) : (l.set i a).getD i d = a := by
  rw [List.getD_eq_getElem?_getD, List.getElem?_set_self']
  by_cases hi : i < l.length
  · simp [hi]
  · simp [hi, h.resolve_left hi]

theorem getD_set_ne {α : Type} (l : List α) {i j : Nat} (a d : α) (h : i ≠ j) : (l.set i a).getD j d = l.getD j d := by
  rw [List.getD_eq_getElem?_getD, List.getElem?_set_ne h, List.getD_eq_getElem?_getD]

theorem lt_of_getD_ne_nil {α : Type} {l : List (List α)} {i : Nat} (h : l.getD i [] ≠ []) : i < l.length := by
  by_contra hi
  exact h (by simp [Nat.le_of_not_lt hi])

theorem Quad.setInq_inq_self (x : Quad) (row col dq : Nat) (ts : List Tok) (h : dq < (x.inqs row col).length ∨ ts = []) :
    (x.setInq row col dq ts).inq row col dq = ts := by
  rw [Quad.inq_eq, Quad.setInq_inqs, getD_set_self h]

theorem Quad.setInq_inq_ne (x : Quad) (row col dq n : Nat) (ts : List Tok) (h : dq ≠ n) :
    (x.setInq row col dq ts).inq row col n = x.inq row col n := by
  rw [Quad.inq_eq, Quad.setInq_inqs, getD_set_ne _ _ _ h, Quad.inq_eq]

theorem Quad.setOutq_outq_self (x : Quad) (row col k : Nat) (ts : List Tok) (h : k < (x.outqs row col).length ∨ ts = []) :
    (x.setOutq row col k ts).outq row col k = ts := by
  rw [Quad.outq_eq, Quad.setOutq_outqs, getD_set_self h]

theorem Quad.inq_lt {x : Quad} {row col dq : Nat} (h : x.inq row col dq ≠ []) : dq < (x.inqs row col).length :=
  lt_of_getD_ne_nil (Quad.inq_eq .. ▸ h)

theorem Quad.outq_lt {x : Quad} {row col k : Nat} (h : x.outq row col k ≠ []) : k < (x.outqs row col).length :=
  lt_of_getD_ne_nil (Quad.outq_eq .. ▸ h)

/-- A queue with tokens takes what it is set to. -/
theorem Quad.setQueue_queue (x : Quad) (row col queue : Nat) (ts : List Tok) (h : x.queue row col queue ≠ []) :
    (x.setQueue row col queue ts).queue row col queue = ts := by
  unfold Quad.queue at h
  unfold Quad.setQueue Quad.queue
  dsimp only at h ⊢
  generalize (if isCu row col then 6 else 4) = n at h ⊢
  split
  · next hn =>
    rw [if_pos hn] at h
    exact Quad.setInq_inq_self _ _ _ _ _ (.inl (Quad.inq_lt h))
  · next hn =>
    rw [if_neg hn] at h
    exact Quad.setOutq_outq_self _ _ _ _ _ (.inl (Quad.outq_lt h))

/-- Taking tokens off the front of an input queue. -/
theorem Quad.setInq_drop (x : Quad) (row col dq n : Nat) :
    (x.setInq row col dq ((x.inq row col dq).drop n)).inq row col dq = (x.inq row col dq).drop n := by
  refine Quad.setInq_inq_self _ _ _ _ _ ?_
  by_cases h : x.inq row col dq = []
  · exact .inr (by rw [h, List.drop_nil])
  · exact .inl (Quad.inq_lt h)

/-! ### All of a quadrant but its units -/

theorem Quad.setInq_offUnits (x : Quad) (row col dq : Nat) (ts : List Tok) : (x.setInq row col dq ts).offUnits = x.offUnits := by
  unfold Quad.setInq
  split <;> rfl

theorem Quad.setOutq_offUnits (x : Quad) (row col k : Nat) (ts : List Tok) : (x.setOutq row col k ts).offUnits = x.offUnits := by
  unfold Quad.setOutq
  split <;> rfl

theorem Quad.setQueue_offUnits (x : Quad) (row col queue : Nat) (ts : List Tok) : (x.setQueue row col queue ts).offUnits = x.offUnits := by
  unfold Quad.setQueue
  dsimp only
  generalize (if isCu row col then 6 else 4) = n
  split
  · exact Quad.setInq_offUnits ..
  · exact Quad.setOutq_offUnits ..

/-! ### Credits owed, and tokens popped (R66) -/

/-- All of a quadrant but the credits on their way back. -/
def Quad.offCred (x : Quad) : Quad := { x with credRet := [] }

theorem State.oweTo_offCred (s : State) (src : Src) (slot q row col dq : Nat) :
    (s.oweTo src slot q row col dq).view Quad.offCred = s.view Quad.offCred := by
  unfold State.oweTo
  split
  · rfl
  · exact State.updQuad_view _ _ fun _ => rfl

theorem State.owe_offCred (s : State) (q row col dq slot : Nat) : (s.owe q row col dq slot).view Quad.offCred = s.view Quad.offCred := by
  unfold State.owe
  split
  · rfl
  · exact State.oweTo_offCred ..

theorem State.owe_length (s : State) (q row col dq slot : Nat) : (s.owe q row col dq slot).quads.length = s.quads.length :=
  State.view_length (State.owe_offCred ..)

/-- An input queue's head popped, the credit apart. -/
theorem State.popIn_quad (s : State) (q row col dq : Nat) (hq : q < s.quads.length) :
    ((s.popIn q row col dq).quad q).offCred =
      (((s.quad q).setInq row col dq (((s.quad q).inq row col dq).drop 1)).act row col (90 + dq)).offCred := by
  unfold State.popIn
  dsimp only
  rw [State.view_quad (State.owe_offCred ..) q, State.updQuad_quad_self s q _ hq]

theorem State.popIn_length (s : State) (q row col dq : Nat) : (s.popIn q row col dq).quads.length = s.quads.length :=
  (State.owe_length ..).trans (State.updQuad_length ..)

/-! ### What events and errors count (R33, R54) -/

theorem State.signal_counter (s : State) (f a b c : Nat) (ha : a ≠ 0x91) : (s.signal f).counter a b c = s.counter a b c := by
  unfold State.signal
  dsimp only
  split
  · rfl
  · rw [State.counter_bump, if_neg (fun h => ha h.1)]
    rfl

theorem State.raiseAt_counter (s : State) (f code quad : Nat) (detail : List Byte) (a b c : Nat) (ha : a ≠ 0x91) :
    (s.raiseAt f code quad detail).counter a b c = s.counter a b c := by
  unfold State.raiseAt
  dsimp only
  generalize hu : s.updFn f _ = u
  have hs : u.counter a b c = s.counter a b c := by rw [← hu]; rfl
  split
  · exact (State.signal_counter u f a b c ha).trans hs
  · exact (State.signal_counter u f a b c ha).trans hs

theorem State.raise_counter (s : State) (code quad : Nat) (detail : List Byte) (a b c : Nat) (ha : a ≠ 0x91) :
    (s.raise code quad detail).counter a b c = s.counter a b c := State.raiseAt_counter _ _ _ _ _ _ _ _ ha

theorem State.owe_counter (s : State) (q row col dq slot a b c : Nat) : (s.owe q row col dq slot).counter a b c = s.counter a b c := by
  unfold State.counter
  rw [(State.owe_only ..).same .ctr (by decide)]

/-- A unit with fewer than four errors noted in its quadrant lives on. -/
theorem State.reap_few (s : State) (q : Nat) (h : (s.quad q).errs.length < 4) : s.reap q = s := by
  unfold State.reap
  dsimp only
  rw [List.find?_eq_none.mpr]
  intro e _ hdead
  simp only [Bool.and_eq_true, decide_eq_true_eq] at hdead
  have hfew := (hdead.1.trans (List.length_filter_le ..)).trans (List.length_filter_le ..)
  omega

/-- The first error noted in a quadrant kills no unit. -/
theorem State.noteError_reap (s : State) (k : Site) (h : (s.quad k.q).errs = []) : (s.noteError k).reap k.q = s.noteError k := by
  refine State.reap_few _ _ ?_
  unfold State.noteError
  obtain he | ⟨-, he⟩ := State.updQuad_quad_cases s k.q k.q (fun x =>
    { x with errs := (x.errs.filter (fun e => decide (s.now < e.2.2 + 1000000))) ++
      [(((s.quad k.q).phys k.row k.col).1, ((s.quad k.q).phys k.row k.col).2, s.now)] })
  · dsimp only
    rw [he, h]
    decide
  · dsimp only
    rw [he]
    simp [h]

end Sys2Proof.Machine
end

section
/-! O57: what becomes of a token that meets an error, and the obligation. -/

namespace Sys2Proof.Machine

open Config

/-- An ECC figure of a unit, counted once. -/
theorem State.eccCount_counter (s : State) (k : Site) (i j : Nat) :
    let grp := if isCu k.row k.col then 0x11 else 0x12
    let ix := if isCu k.row k.col then 10 * unitOrd k.row k.col + 4 else 5 * unitOrd k.row k.col
    (s.eccCount k i).counter grp k.q (ix + j) =
      if j = i then min ctrMax (s.counter grp k.q (ix + j) + 1) else s.counter grp k.q (ix + j) := by
  unfold State.eccCount State.cuCount State.muCount
  split
  · simp only [State.counter_bump, Nat.add_assoc, Nat.add_left_cancel_iff, true_and]
  · simp only [State.counter_bump, Nat.add_left_cancel_iff, true_and]

/-- A control error counts once as uncorrectable and once as a discard. -/
theorem State.eccCount_twice (s : State) (k : Site) (j : Nat) (hj : j = 1 ∨ j = 2) :
    let grp := if isCu k.row k.col then 0x11 else 0x12
    let ix := if isCu k.row k.col then 10 * unitOrd k.row k.col + 4 else 5 * unitOrd k.row k.col
    ((s.eccCount k 1).eccCount k 2).counter grp k.q (ix + j) = min ctrMax (s.counter grp k.q (ix + j) + 1) := by
  intro grp ix
  have h2 := State.eccCount_counter (s.eccCount k 1) k 2 j
  have h1 := State.eccCount_counter s k 1 j
  obtain rfl | rfl := hj
  · exact (h2.trans (if_neg (by decide))).trans (h1.trans (if_pos rfl))
  · exact (h2.trans (if_pos rfl)).trans (congrArg (fun n => min ctrMax (n + 1)) (h1.trans (if_neg (by decide))))

@[simp] theorem State.eccCount_quads (s : State) (k : Site) (i : Nat) : (s.eccCount k i).quads = s.quads :=
  (State.eccCount_only s k i).quads (by decide)

/-- Noting an error leaves what a unit holds. -/
theorem State.noteError_queue (s : State) (k : Site) (q row col queue : Nat) :
    ((s.noteError k).quad q).queue row col queue = (s.quad q).queue row col queue := by
  unfold State.noteError
  exact State.view_quad (v := fun x => x.queue row col queue) (State.updQuad_view _ _ fun _ => by rfl) q

theorem Quad.errs_of_offCred {x y : Quad} (h : x.offCred = y.offCred) : x.errs = y.errs := by
  have herrs := congrArg Quad.errs h
  exact herrs

theorem Quad.queue_of_offCred {x y : Quad} (h : x.offCred = y.offCred) (row col queue : Nat) :
    x.queue row col queue = y.queue row col queue := congrArg (fun z => z.queue row col queue) h

theorem State.noteError_counter (s : State) (k : Site) (a b c : Nat) : (s.noteError k).counter a b c = s.counter a b c := rfl

/-- A queue set anew, before the error is counted and noted. -/
theorem State.setQueue_errs (s : State) (k : Site) (queue : Nat) (ts : List Tok) (hq : k.q < s.quads.length) :
    ((s.updQuad k.q (fun x => x.setQueue k.row k.col queue ts)).quad k.q).errs = (s.quad k.q).errs := by
  rw [State.updQuad_quad_self s k.q _ hq]
  have hoff := congrArg Quad.errs (Quad.setQueue_offUnits (s.quad k.q) k.row k.col queue ts)
  exact hoff

/-- A queue's error changes its token and counts; the rest of the step notes the error. -/
theorem queueEccError_handled (s : State) (k : Site) (queue pos : Nat) (tk : Tok) :
    let x := s.quad k.q
    let ts := x.queue k.row k.col queue
    let grp := if isCu k.row k.col then 0x11 else 0x12
    let ix := if isCu k.row k.col then 10 * unitOrd k.row k.col + 4 else 5 * unitOrd k.row k.col
    let counted (t : State) (i : Nat) : Prop := t.counter grp k.q (ix + i) = min ctrMax (s.counter grp k.q (ix + i) + 1)
    ts[pos]? = some tk → s.isOn = true → k.q < 4 → k.row < 16 → k.col < 22 → k.q < s.quads.length → x.errs = [] →
    completes (.queueEccError k queue pos .single) s (fun t => counted t 0 ∧ onlyParts [.ctr] s t) ∧
    completes (.queueEccError k queue pos .doubleData) s (fun t => counted t 1 ∧
      (t.quad k.q).queue k.row k.col queue = ts.set pos { tk with poison := true } ∧ onlyParts [.quads, .ctr] s t) ∧
    completes (.queueEccError k queue pos .doubleCtl) s (fun t => counted t 1 ∧ counted t 2 ∧
      (t.quad k.q).queue k.row k.col queue = ts.eraseIdx pos ∧ onlyParts [.quads, .ctr, .fns, .mg] s t) := by
  intro x ts grp ix counted hts hon hk hrow hcol hq herrs
  have hne : x.queue k.row k.col queue ≠ [] := by
    intro h
    simp [ts, h] at hts
  have hgrp : grp ≠ 0x91 := by
    simp only [grp]
    split <;> decide
  have hopen : (!s.isOn || decide (k.q ≥ 4) || decide (k.row ≥ 16) || decide (k.col ≥ 22)) ≠ true := by
    simp [hon, hk, hrow, hcol]
  have hexec (kind : EccKind) : exec (.queueEccError k queue pos kind) s = execQueueEccError k queue pos kind s := rfl
  have hset (us : List Tok) : ((s.updQuad k.q (fun x => x.setQueue k.row k.col queue us)).quad k.q).queue k.row k.col queue = us := by
    rw [State.updQuad_quad_self s k.q _ hq, Quad.setQueue_queue _ _ _ _ _ hne]
  refine ⟨⟨_, ?_, ?_, State.eccCount_only s k 0⟩, ?data, ?ctl⟩
  · rw [hexec]
    simp only [execQueueEccError]
    rw [hts, if_neg hopen]
  · exact (State.eccCount_counter s k 0 0).trans (if_pos rfl)
  case data =>
    let u := (s.updQuad k.q (fun x => x.setQueue k.row k.col queue (ts.set pos { tk with poison := true }))).eccCount k 1
    have hu (i : Nat) : u.quad i = (s.updQuad k.q (fun x => x.setQueue k.row k.col queue (ts.set pos { tk with poison := true }))).quad i :=
      State.quad_congr (State.eccCount_quads ..) i
    have herr : (u.quad k.q).errs = [] := by rw [hu, State.setQueue_errs s k queue _ hq]; exact herrs
    refine ⟨u.noteError k, ?_, ?_, ?_, ?_⟩
    · rw [hexec, ← State.noteError_reap u k herr]
      simp only [execQueueEccError]
      rw [hts]
      dsimp only
      rw [if_neg hopen]
    · exact (State.noteError_counter ..).trans ((State.eccCount_counter _ k 1 1).trans (if_pos rfl))
    · rw [State.noteError_queue, hu, hset]
    · exact (State.noteError_only ..).after (by decide) ((State.eccCount_only ..).after (by decide) ((State.updQuad_only ..).mono (by decide)))
  case ctl =>
    let v := s.updQuad k.q (fun x => x.setQueue k.row k.col queue (ts.eraseIdx pos))
    let w := if queue < (if isCu k.row k.col then 6 else 4) then v.owe k.q k.row k.col queue tk.tag else v
    let u := ((w.eccCount k 1).eccCount k 2).raise 0x12 k.q (leBytes 2 (k.row + 16 * k.col) ++ [BitVec.ofNat 8 queue])
    have hw : w.view Quad.offCred = v.view Quad.offCred := State.ite_view (State.owe_offCred ..) rfl
    have hwctr (a b c : Nat) : w.counter a b c = s.counter a b c := by
      simp only [w]
      rw [apply_ite (fun t : State => t.counter a b c), State.owe_counter, ite_self]
      rfl
    have hu (i : Nat) : (u.quad i).offCred = (v.quad i).offCred :=
      (congrArg Quad.offCred (State.quad_congr (by simp [u]) i)).trans (State.view_quad hw i)
    have herr : (u.quad k.q).errs = [] :=
      (Quad.errs_of_offCred (hu k.q)).trans ((State.setQueue_errs s k queue _ hq).trans herrs)
    have hcount (i : Nat) (hi : i = 1 ∨ i = 2) : counted (u.noteError k) i :=
      (State.noteError_counter ..).trans ((State.raise_counter _ _ _ _ grp k.q (ix + i) hgrp).trans
        ((State.eccCount_twice w k i hi).trans (by rw [hwctr])))
    refine ⟨u.noteError k, ?_, hcount 1 (.inl rfl), hcount 2 (.inr rfl), ?_, ?_⟩
    · rw [hexec, ← State.noteError_reap u k herr]
      simp only [execQueueEccError]
      rw [hts]
      dsimp only
      rw [if_neg hopen]
    · rw [State.noteError_queue]
      exact (Quad.queue_of_offCred (hu k.q) ..).trans (hset _)
    · refine (State.noteError_only ..).after (by decide) ((State.raise_only ..).after (by decide) ?_)
      refine (State.eccCount_only ..).after (by decide) ((State.eccCount_only ..).after (by decide) ?_)
      have hv : onlyParts [.quads, .ctr, .fns, .mg] s v := (State.updQuad_only ..).mono (by decide)
      exact onlyParts.ite hv fun _ => (State.owe_only ..).after (by decide) hv

/-- Settles O57: errors in queues, missed polls, stalls and their strikes, command by command. -/
theorem unitsFailAndStall : Obligations.UnitsFailAndStall :=
  ⟨queueEccError_handled, statusPoll_counts, stallWatchdogTrip_holds, stallStrikeCommit_frees⟩

end Sys2Proof.Machine
end

section
/-! Memory units (R46 to R53): what their address generators issue, take and count. -/

namespace Sys2Proof.Machine

open Config

/-! ### The ports and the reads of an MU -/

/-- What an MU's ports hold, and its reads in flight. -/
def Mu.bus (m : Mu) : List (List Access) × List Ret := (m.ports, m.rets)

theorem Quad.setMu_bus (x : Quad) (row col r c : Nat) (m : Mu) (h : m.bus = (x.mu row col).bus) :
    ((x.setMu row col m).mu r c).bus = (x.mu r c).bus := by
  rw [Quad.setMu_mu]
  split
  · next hk =>
    obtain ⟨rfl, rfl⟩ := Prod.mk_inj.mp hk
    exact h
  · rfl

theorem Quad.setInq_bus (x : Quad) (row col dq r c : Nat) (ts : List Tok) : ((x.setInq row col dq ts).mu r c).bus = (x.mu r c).bus := by
  unfold Quad.setInq
  split
  · rfl
  · exact Quad.setMu_bus _ _ _ _ _ _ rfl

/-! ### Notes of a run leave the units as they are (R71, R160) -/

theorem Quad.curtain_mus (x : Quad) (cycle now : Nat) : (x.curtain cycle now).mus = x.mus := by
  unfold Quad.curtain
  split
  · rfl
  · split
    · rfl
    · dsimp only
      split
      · split
        · split <;> rfl
        · rfl
      · rfl

theorem State.progress_mus (s : State) (q : Nat) : (s.progress q).view Quad.mus = s.view Quad.mus :=
  State.updQuad_view s q fun _ => by rfl

/-- What follows an AG's address: a met wait noted, the curtain point, and progress. -/
theorem State.afterIssue_mus (u : State) (q tag cycle now : Nat) (w : Option (Nat × Nat)) (c : Prop) [Decidable c] :
    (((if c then u.updQuad q (fun x => x.meetAt tag w) else u).updQuad q (fun x => x.curtain cycle now)).progress q).view Quad.mus =
      u.view Quad.mus := by
  refine (State.progress_mus ..).trans ((State.updQuad_view _ _ fun x => Quad.curtain_mus ..).trans ?_)
  exact State.ite_view (State.updQuad_view _ _ fun x => by rfl) rfl

theorem State.afterIssue_only (u : State) (q tag cycle now : Nat) (w : Option (Nat × Nat)) (c : Prop) [Decidable c] :
    onlyParts [.quads] u (((if c then u.updQuad q (fun x => x.meetAt tag w) else u).updQuad q (fun x => x.curtain cycle now)).progress q) := by
  refine (State.progress_only ..).after (by decide) ((State.updQuad_only ..).after (by decide) ?_)
  exact onlyParts.ite onlyParts.rfl' fun _ => State.updQuad_only ..

theorem Quad.mu_of_mus {x y : Quad} (h : x.mus = y.mus) (row col : Nat) : x.mu row col = y.mu row col := by
  rw [Quad.mu, h, Quad.mu]

/-! ### Range faults (R52) -/

theorem State.rangeFault_bus (s : State) (k : Site) (ag row col : Nat) :
    (s.rangeFault k ag).view (fun x => (x.mu row col).bus) = s.view (fun x => (x.mu row col).bus) := by
  unfold State.rangeFault
  dsimp only
  refine State.ite_view rfl ((State.view_of_quads (State.raise_quads ..)).trans ?_)
  exact State.updQuad_view _ _ fun x => Quad.setMu_bus _ _ _ _ _ _ rfl

theorem State.rangeFault_counter (s : State) (k : Site) (ag : Nat) :
    (s.rangeFault k ag).counter 0x12 k.q (5 * unitOrd k.row k.col + 4) = min ctrMax (s.counter 0x12 k.q (5 * unitOrd k.row k.col + 4) + 1) := by
  have hcount : (s.muCount k.q k.row k.col 4 1).counter 0x12 k.q (5 * unitOrd k.row k.col + 4) =
      min ctrMax (s.counter 0x12 k.q (5 * unitOrd k.row k.col + 4) + 1) := by
    rw [State.muCount, State.counter_bump, if_pos ⟨rfl, rfl, rfl⟩]
  unfold State.rangeFault
  dsimp only
  split
  · exact hcount
  · exact (State.raise_counter _ _ _ _ _ _ _ (by decide)).trans hcount

/-! ### The data token of a write AG -/

theorem State.popIn_bus (s : State) (q dq r c row col : Nat) :
    (s.popIn q r c dq).view (fun x => (x.mu row col).bus) = s.view (fun x => (x.mu row col).bus) := by
  unfold State.popIn
  dsimp only
  refine (State.view_comp (fun x => (x.mu row col).bus) (State.owe_offCred ..)).trans ?_
  exact State.updQuad_view _ _ fun x => Quad.setInq_bus ..

theorem State.agTake_bus (s : State) (k : Site) (ag row col : Nat) :
    (s.agTake k ag).view (fun x => (x.mu row col).bus) = s.view (fun x => (x.mu row col).bus) := by
  unfold State.agTake
  dsimp only
  split
  · rfl
  · split
    · rfl
    · split
      · refine State.ite_view rfl ((State.popIn_bus ..).trans ?_)
        exact State.updQuad_view _ _ fun x => Quad.setMu_bus _ _ _ _ _ _ rfl
      · rfl

/-! ### Issuing (R51 to R53) -/

section
variable {s : State} {k : Site} {ag : Nat} {d : AgDesc} {nx : AgNext} {tok : Tok} {l : Int}

/-- What the AG issues: the line it holds a token for, or its next line with a token of its own. -/
def State.issues (s : State) (k : Site) (ag : Nat) (nx : AgNext) (tok : Tok) (line : Option Int) : Prop :=
  (((s.quad k.q).mu k.row k.col).ags.getD ag AgSt.idle).hold = none ∧ nx.line = line ∧
    tok = mkTok 0 ((s.quad k.q).slotAt k.row k.col) nx.poison nx.last ∨
  ∃ l, (((s.quad k.q).mu k.row k.col).ags.getD ag AgSt.idle).hold = some (tok, l) ∧ line = some l

/-- The MU of an AG that its port grants. -/
def Mu.granted (m : Mu) (ag cycle : Nat) (d : AgDesc) : Mu :=
  { m with ags := m.ags.modify ag (fun a => { a.advance d with hold := none }), lastAg := m.lastAg.set d.port ag
           grantAt := m.grantAt.set d.port (cycle + 1) }

/-- The line of the MU that an address names. -/
def inMu (line : Option Int) : Option Nat :=
  match line with
  | some l => if 0 ≤ l ∧ l ≤ 98303 then some l.toNat else none
  | none => none

/-- The MU with the AG's access at its port, or with the poison that a read outside the MU gives. -/
def Mu.issued (m : Mu) (ag cycle : Nat) (d : AgDesc) (tok : Tok) (o : Option Nat) : Mu :=
  match o with
  | some l => { m.granted ag cycle d with
                ports := m.ports.modify d.port (· ++ [{ line := l, write := !d.isRead, tok := tok, dq := d.dq, trap := none, ag := ag }]) }
  | none => if d.isRead then { m.granted ag cycle d with
                               rets := m.rets ++ [{ due := cycle + 4, dq := d.dq, tok := { tok with poison := true } }] }
            else m.granted ag cycle d

/-- The state in which an AG's address has left it. -/
def State.issuedAt (s : State) (k : Site) (ag : Nat) (d : AgDesc) (tok : Tok) (o : Option Nat) : State :=
  let u := s.updQuad k.q (fun x => (x.setMu k.row k.col (((s.quad k.q).mu k.row k.col).issued ag s.pw.cycle d tok o)).act k.row k.col (104 + ag))
  if o.isNone then u.rangeFault k ag else u

theorem State.agIssue_eq {line : Option Int} {o : Option Nat} (hready : s.agReady k ag = some (d, nx)) (hwin : s.agWinner k d.port = some ag)
    (hl : s.issues k ag nx tok line) (ho : inMu line = o) :
    let w := if d.isRead then (s.issuedAt k ag d tok o).updQuad k.q (fun x => x.meetAt ((s.quad k.q).slotAt k.row k.col) nx.wait)
      else s.issuedAt k ag d tok o
    s.agIssue k ag = (w.updQuad k.q (fun x => x.curtain w.pw.cycle w.now)).progress k.q := by
  unfold State.agIssue
  rw [hready]
  dsimp only
  rw [if_neg (not_not.mpr hwin)]
  subst ho
  obtain ⟨hh, rfl, rfl⟩ | ⟨l, hh, rfl⟩ := hl
  · rw [hh]
    rfl
  · rw [hh]
    rfl

/-- What follows an AG's address leaves the units as they are when it left. -/
theorem State.agIssue_mu {line : Option Int} {o : Option Nat} (hready : s.agReady k ag = some (d, nx)) (hwin : s.agWinner k d.port = some ag)
    (hl : s.issues k ag nx tok line) (ho : inMu line = o) :
    ((s.agIssue k ag).quad k.q).mu k.row k.col = ((s.issuedAt k ag d tok o).quad k.q).mu k.row k.col ∧
    onlyParts [.quads] (s.issuedAt k ag d tok o) (s.agIssue k ag) := by
  rw [State.agIssue_eq hready hwin hl ho]
  exact ⟨Quad.mu_of_mus (State.view_quad (State.afterIssue_mus ..) k.q) .., State.afterIssue_only ..⟩

/-- A line inside the MU goes to the port. -/
theorem State.agIssue_line {l : Int} (hready : s.agReady k ag = some (d, nx)) (hwin : s.agWinner k d.port = some ag)
    (hl : s.issues k ag nx tok (some l)) (hin : 0 ≤ l ∧ l ≤ 98303) (hq : k.q < s.quads.length) :
    (((s.agIssue k ag).quad k.q).mu k.row k.col).ports = ((s.quad k.q).mu k.row k.col).ports.modify d.port
      (· ++ [{ line := l.toNat, write := !d.isRead, tok := tok, dq := d.dq, trap := none, ag := ag }]) ∧
    onlyParts [.quads] s (s.agIssue k ag) := by
  obtain ⟨hmu, honly⟩ := State.agIssue_mu hready hwin hl (if_pos hin)
  refine ⟨?_, honly.after (by decide) (State.updQuad_only ..)⟩
  rw [hmu, State.issuedAt, if_neg (by simp), State.updQuad_quad_self s k.q _ hq, Quad.act_mu, Quad.setMu_mu, if_pos rfl]
  rfl

/-- An address outside the MU is a range fault: a read gives poison, and a write is dropped. -/
theorem State.agIssue_fault {line : Option Int} (hready : s.agReady k ag = some (d, nx)) (hwin : s.agWinner k d.port = some ag)
    (hl : s.issues k ag nx tok line) (hout : inMu line = none) (hq : k.q < s.quads.length) :
    (((s.agIssue k ag).quad k.q).mu k.row k.col).bus = (((s.quad k.q).mu k.row k.col).issued ag s.pw.cycle d tok none).bus ∧
    (s.agIssue k ag).counter 0x12 k.q (5 * unitOrd k.row k.col + 4) =
      min ctrMax (s.counter 0x12 k.q (5 * unitOrd k.row k.col + 4) + 1) := by
  obtain ⟨hmu, honly⟩ := State.agIssue_mu hready hwin hl hout
  constructor
  · rw [hmu, State.issuedAt, if_pos (show (none : Option Nat).isNone = true from rfl), State.view_quad (State.rangeFault_bus ..) k.q, State.updQuad_quad_self s k.q _ hq, Quad.act_mu,
      Quad.setMu_mu, if_pos rfl]
  · rw [State.counter, honly.same .ctr (by decide)]
    exact (State.rangeFault_counter ..).trans rfl

end

/-- What an AG's address does in its cycle, whatever data token the AG takes after it. -/
theorem exec_agIssue (s : State) (k : Site) (ag : Nat) (hruns : s.muRuns k = true) :
    exec (.agIssue k ag) s = .next ((s.agIssue k ag).agTake k ag) := by
  change execAgIssue k ag s = _
  rw [execAgIssue, if_pos hruns, State.agStep]

theorem State.agTake_mu_bus (s : State) (k : Site) (ag : Nat) :
    (((s.agTake k ag).quad k.q).mu k.row k.col).bus = ((s.quad k.q).mu k.row k.col).bus :=
  State.view_quad (v := fun x => (x.mu k.row k.col).bus) (State.agTake_bus ..) k.q

theorem State.agTake_counter (s : State) (k : Site) (ag a b c : Nat) : (s.agTake k ag).counter a b c = s.counter a b c := by
  rw [State.counter, (State.agTake_only ..).same .ctr (by decide), State.counter]

/-- The address that a port grants. -/
theorem agIssue_grants (s : State) (k : Site) (ag : Nat) (d : AgDesc) (nx : AgNext) :
    let x := s.quad k.q
    let m := x.mu k.row k.col
    let a := m.ags.getD ag AgSt.idle
    let fault := 5 * unitOrd k.row k.col + 4
    let out (l : Int) : Prop := l < 0 ∨ 98303 < l
    s.muRuns k = true → k.q < s.quads.length → s.agReady k ag = some (d, nx) → s.agWinner k d.port = some ag → d.port < m.ports.length →
    (∀ l, d.isRead = true → a.hold = none → nx.line = some l → 0 ≤ l → l ≤ 98303 →
      completes (.agIssue k ag) s (fun t => ((t.quad k.q).mu k.row k.col).ports = m.ports.modify d.port
          (· ++ [{ line := l.toNat, write := false, tok := mkTok 0 (x.slotAt k.row k.col) nx.poison nx.last, dq := d.dq, trap := none
                   ag := ag }]) ∧ onlyParts [.quads] s t)) ∧
    (d.isRead = true → a.hold = none → (∀ l, nx.line = some l → out l) →
      completes (.agIssue k ag) s (fun t => ((t.quad k.q).mu k.row k.col).ports = m.ports ∧ ((t.quad k.q).mu k.row k.col).rets = m.rets ++
          [{ due := s.pw.cycle + 4, dq := d.dq, tok := mkTok 0 (x.slotAt k.row k.col) true nx.last }] ∧
        t.counter 0x12 k.q fault = min ctrMax (s.counter 0x12 k.q fault + 1) ∧ onlyParts [.quads, .fns, .mg, .ctr] s t)) ∧
    (∀ tk l, d.isRead = false → a.hold = some (tk, l) →
      (0 ≤ l → l ≤ 98303 → completes (.agIssue k ag) s (fun t => ((t.quad k.q).mu k.row k.col).ports = m.ports.modify d.port
          (· ++ [{ line := l.toNat, write := true, tok := tk, dq := d.dq, trap := none, ag := ag }]) ∧ onlyParts [.quads] s t)) ∧
      (out l → completes (.agIssue k ag) s (fun t => ((t.quad k.q).mu k.row k.col).ports = m.ports ∧
          t.counter 0x12 k.q fault = min ctrMax (s.counter 0x12 k.q fault + 1) ∧ onlyParts [.quads, .fns, .mg, .ctr] s t))) := by
  intro x m a fault out hruns hq hready hwin hport
  have hstep := exec_agIssue s k ag hruns
  have hbus := State.agTake_mu_bus (s.agIssue k ag) k ag
  have htake : onlyParts [.quads] (s.agIssue k ag) ((s.agIssue k ag).agTake k ag) := State.agTake_only ..
  have hports : (((((s.agIssue k ag).agTake k ag).quad k.q).mu k.row k.col)).ports = (((s.agIssue k ag).quad k.q).mu k.row k.col).ports :=
    congrArg Prod.fst hbus
  have honly : onlyParts [.quads, .fns, .mg, .ctr] s ((s.agIssue k ag).agTake k ag) :=
    htake.after (by decide) ((State.agIssue_only ..).mono (by decide))
  -- an address that names no line
  have hnone (o : Option Int) (h : ∀ l, o = some l → out l) : inMu o = none := by
    cases o with
    | none => rfl
    | some l =>
      refine if_neg fun hin => ?_
      have := h l rfl
      omega
  refine ⟨fun l hr hh hl h0 h1 => ?_, fun hr hh hl => ?_, fun tk l hw hh => ⟨fun h0 h1 => ?_, fun hl => ?_⟩⟩
  · obtain ⟨hp, ho⟩ := State.agIssue_line hready hwin (.inl ⟨hh, hl, rfl⟩) ⟨h0, h1⟩ hq
    exact ⟨_, hstep, hports.trans (hp.trans (by rw [hr]; rfl)), htake.after (by decide) ho⟩
  · obtain ⟨hb, hc⟩ := State.agIssue_fault hready hwin (.inl ⟨hh, rfl, rfl⟩) (hnone _ hl) hq
    have hpair := hbus.trans hb
    rw [Mu.issued, if_pos hr] at hpair
    exact ⟨_, hstep, congrArg Prod.fst hpair, congrArg Prod.snd hpair, (State.agTake_counter ..).trans hc, honly⟩
  · obtain ⟨hp, ho⟩ := State.agIssue_line hready hwin (.inr ⟨l, hh, rfl⟩) ⟨h0, h1⟩ hq
    exact ⟨_, hstep, hports.trans (hp.trans (by rw [hw]; rfl)), htake.after (by decide) ho⟩
  · obtain ⟨hb, hc⟩ := State.agIssue_fault hready hwin (.inr ⟨l, hh, rfl⟩) (hnone (some l) fun l' h' => Option.some.inj h' ▸ hl) hq
    have hpair := hbus.trans hb
    rw [Mu.issued, if_neg (by simp [hw])] at hpair
    exact ⟨_, hstep, congrArg Prod.fst hpair, (State.agTake_counter ..).trans hc, honly⟩

end Sys2Proof.Machine
end

section
/-! Tokens that the AGs of an MU take (R48, R51, R53): data, indices and headers. -/

namespace Sys2Proof.Machine

open Config

/-! ### A popped token -/

theorem Quad.setInq_ags (x : Quad) (row col dq r c : Nat) (ts : List Tok) : ((x.setInq row col dq ts).mu r c).ags = (x.mu r c).ags := by
  unfold Quad.setInq
  split
  · rfl
  · rw [Quad.setMu_mu]
    split
    · next hk =>
      obtain ⟨rfl, rfl⟩ := Prod.mk_inj.mp hk
      rfl
    · rfl

theorem Quad.setMu_inq (x : Quad) (row col dq : Nat) (m : Mu) (h : m.inq = (x.mu row col).inq) :
    (x.setMu row col m).inq row col dq = x.inq row col dq := by
  unfold Quad.inq
  rw [Quad.setMu_mu, if_pos rfl, h, Quad.setMu_cu]

/-- One AG of an MU changed. -/
def Quad.updAg (x : Quad) (row col ag : Nat) (f : AgSt → AgSt) : Quad :=
  x.setMu row col { x.mu row col with ags := (x.mu row col).ags.modify ag f }

theorem Quad.updAg_ag (x : Quad) (row col ag : Nat) (f : AgSt → AgSt) (h : ag < (x.mu row col).ags.length) :
    ((x.updAg row col ag f).mu row col).ags.getD ag AgSt.idle = f ((x.mu row col).ags.getD ag AgSt.idle) := by
  rw [Quad.updAg, Quad.setMu_mu, if_pos rfl, getD_modify _ _ _ _ _ h, if_pos rfl]

theorem Quad.updAg_inq (x : Quad) (row col ag dq : Nat) (f : AgSt → AgSt) : (x.updAg row col ag f).inq row col dq = x.inq row col dq :=
  Quad.setMu_inq _ _ _ _ _ rfl

theorem Quad.inq_of_offCred {x y : Quad} (h : x.offCred = y.offCred) (row col dq : Nat) : x.inq row col dq = y.inq row col dq :=
  congrArg (fun z => z.inq row col dq) h

theorem Quad.mu_of_offCred {x y : Quad} (h : x.offCred = y.offCred) (row col : Nat) : x.mu row col = y.mu row col :=
  congrArg (fun z => z.mu row col) h

theorem Quad.act_inq (x : Quad) (row col code r c dq : Nat) : (x.act row col code).inq r c dq = x.inq r c dq := rfl

theorem Quad.meetAt_inq (x : Quad) (tag r c dq : Nat) (w : Option (Nat × Nat)) : (x.meetAt tag w).inq r c dq = x.inq r c dq := rfl

theorem State.popIn_inq (s : State) (q row col dq : Nat) (hq : q < s.quads.length) :
    ((s.popIn q row col dq).quad q).inq row col dq = ((s.quad q).inq row col dq).drop 1 :=
  (Quad.inq_of_offCred (State.popIn_quad s q row col dq hq) ..).trans (Quad.setInq_drop ..)

theorem State.popIn_ags (s : State) (q row col dq : Nat) (hq : q < s.quads.length) :
    (((s.popIn q row col dq).quad q).mu row col).ags = ((s.quad q).mu row col).ags := by
  rw [Quad.mu_of_offCred (State.popIn_quad s q row col dq hq), Quad.act_mu, Quad.setInq_ags]

/-! ### The data token of a write AG (R48, R51) -/

theorem State.agReady_of_empty_write {s : State} {k : Site} {ag : Nat} {g : SiteCfg} (hc : (s.quad k.q).cfg k.row k.col = some g)
    (hw : (agDescOf (g.ags.getD ag 0)).isRead = false) (hh : (((s.quad k.q).mu k.row k.col).ags.getD ag AgSt.idle).hold = none) :
    s.agReady k ag = none := by
  unfold State.agReady
  dsimp only
  rw [hc]
  dsimp only
  split
  · rfl
  · simp only [hw, hh, Bool.false_eq_true, if_false, Option.isSome_none, Bool.false_and, Bool.and_false]

/-- A write AG takes the data token of its next address. -/
theorem agIssue_takes (s : State) (k : Site) (ag : Nat) (g : SiteCfg) (nx : AgNext) (tk : Tok) :
    let x := s.quad k.q
    let m := x.mu k.row k.col
    let d := agDescOf (g.ags.getD ag 0)
    let a := m.ags.getD ag AgSt.idle
    s.muRuns k = true → k.q < s.quads.length → ag < m.ags.length → x.cfg k.row k.col = some g → d.isRead = false → a.hold = none →
    x.did k.row k.col (100 + ag) = false → a.next d (x.rstartAt k.row k.col) = some nx → x.cueMet nx.wait = true →
    s.headIn k.q k.row k.col d.dq = some tk →
    completes (.agIssue k ag) s (fun t => (((t.quad k.q).mu k.row k.col).ags.getD ag AgSt.idle).hold = some (tk, nx.line.getD (-1)) ∧
      (t.quad k.q).inq k.row k.col d.dq = (x.inq k.row k.col d.dq).drop 1 ∧ onlyParts [.quads] s t) := by
  intro x m d a hruns hq hag hcfg hw hhold hdid hnext hcue hhead
  let u := s.updQuad k.q (fun x => ((x.updAg k.row k.col ag (fun a => { a with hold := some (tk, nx.line.getD (-1)) })).act k.row k.col
    (100 + ag)).meetAt (x.slotAt k.row k.col) nx.wait)
  have hissue : s.agIssue k ag = s := by rw [State.agIssue, State.agReady_of_empty_write hcfg hw hhold]
  have htake : s.agTake k ag = u.popIn k.q k.row k.col d.dq := by
    unfold State.agTake
    dsimp only
    rw [hcfg]
    dsimp only
    rw [if_neg (not_or.mpr ⟨Bool.eq_false_iff.mp hw, not_or.mpr
      ⟨Bool.eq_false_iff.mp (congrArg Option.isSome hhold), Bool.eq_false_iff.mp hdid⟩⟩), hnext, hhead]
    dsimp only
    rw [if_neg (by simpa using hcue)]
    rfl
  have hstep : exec (.agIssue k ag) s = .next (u.popIn k.q k.row k.col d.dq) := by rw [exec_agIssue s k ag hruns, hissue, htake]
  have hqu : k.q < u.quads.length := by simpa [u] using hq
  have hu : u.quad k.q = _ := State.updQuad_quad_self s k.q _ hq
  refine ⟨_, hstep, ?_, ?_, (State.popIn_only ..).after (by decide) (State.updQuad_only ..)⟩
  · rw [State.popIn_ags u _ _ _ _ hqu, hu]
    exact congrArg AgSt.hold (Quad.updAg_ag _ _ _ _ _ hag)
  · rw [State.popIn_inq u _ _ _ _ hqu, hu]
    rw [Quad.meetAt_inq, Quad.act_inq, Quad.updAg_inq]

/-! ### Index tokens and headers (R53) -/

/-- A gather or scatter AG takes a nest for each live lane of an index token. -/
theorem gatherIndex_takes (s : State) (k : Site) (ag : Nat) (g : SiteCfg) (tk : Tok) :
    let x := s.quad k.q
    let m := x.mu k.row k.col
    let d := agDescOf (g.ags.getD ag 0)
    s.muRuns k = true → k.q < s.quads.length → ag < 4 → ag < m.ags.length → x.cfg k.row k.col = some g → d.mode = 3 ∨ d.mode = 4 →
    (m.ags.getD ag AgSt.idle).idx = [] → s.headIn k.q k.row k.col d.iq = some tk →
    completes (.gatherIndex k ag) s (fun t => (((t.quad k.q).mu k.row k.col).ags.getD ag AgSt.idle).idx =
        ((List.range 32).filter (fun l => tk.pred.getLsbD l)).map (fun l => (l, (laneOf tk.data l).toNat, tk.poison)) ∧
      (t.quad k.q).inq k.row k.col d.iq = (x.inq k.row k.col d.iq).drop 1 ∧ onlyParts [.quads] s t) := by
  intro x m d hruns hq h4 hag hcfg hmode hidx hhead
  let lanes := ((List.range 32).filter (fun l => tk.pred.getLsbD l)).map (fun l => (l, (laneOf tk.data l).toNat, tk.poison))
  let u := s.updQuad k.q (fun x => x.updAg k.row k.col ag (fun a => { a with idx := lanes, n := 0 }))
  have hstep : exec (.gatherIndex k ag) s = .next (u.popIn k.q k.row k.col d.iq) := by
    change execGatherIndex k ag s = _
    unfold execGatherIndex
    rw [hcfg]
    dsimp only
    have hopen : (s.muRuns k && (d.mode == 3 || d.mode == 4) && (m.ags.getD ag AgSt.idle).idx.isEmpty && decide (ag < 4)) = true := by
      simp only [hruns, hidx, h4, Bool.true_and, Bool.and_eq_true, Bool.or_eq_true, beq_iff_eq, hmode, List.isEmpty_nil, decide_true, and_self]
    rw [if_pos hopen, hhead]
    rfl
  have hqu : k.q < u.quads.length := by simpa [u] using hq
  have hu : u.quad k.q = _ := State.updQuad_quad_self s k.q _ hq
  refine ⟨_, hstep, ?_, ?_, (State.popIn_only ..).after (by decide) (State.updQuad_only ..)⟩
  · rw [State.popIn_ags u _ _ _ _ hqu, hu, Quad.updAg_ag _ _ _ _ _ hag]
  · rw [State.popIn_inq u _ _ _ _ hqu, hu, Quad.updAg_inq]

/-- SET_DOWN and PICK_UP are a header's step of an AG of their mode. -/
theorem exec_header {s : State} {k : Site} {ag mode : Nat} {c : Instr} {g : SiteCfg}
    (hc : (mode = 5 ∧ c = .setDown k ag) ∨ (mode = 6 ∧ c = .pickUp k ag)) (hruns : s.muRuns k = true)
    (hcfg : (s.quad k.q).cfg k.row k.col = some g) (hmode : (agDescOf (g.ags.getD ag 0)).mode = mode) :
    exec c s = .next (s.headerStep k ag) := by
  have hm : s.agMode k ag = mode := by rw [State.agMode, hcfg]; exact hmode
  obtain ⟨rfl, rfl⟩ | ⟨rfl, rfl⟩ := hc
  · change execSetDown k ag s = _
    rw [execSetDown, if_pos (by simp [hruns, hm])]
  · change execPickUp k ag s = _
    rw [execPickUp, if_pos (by simp [hruns, hm])]

/-- A fault leaves what stands of an AG's header. -/
theorem State.rangeFault_left (s : State) (k : Site) (ag row col i : Nat) :
    (s.rangeFault k ag).view (fun x => ((x.mu row col).ags.getD i AgSt.idle).left) =
      s.view (fun x => ((x.mu row col).ags.getD i AgSt.idle).left) := by
  unfold State.rangeFault
  dsimp only
  refine State.ite_view rfl ((State.view_of_quads (State.raise_quads ..)).trans ?_)
  refine State.updQuad_view _ _ fun x => ?_
  rw [Quad.setMu_mu]
  split
  · next hk =>
    obtain ⟨rfl, rfl⟩ := Prod.mk_inj.mp hk
    dsimp only
    simp only [List.getD_eq_getElem?_getD, List.getElem?_modify]
    cases (x.mu k.row k.col).ags[i]? with
    | none => rfl
    | some a => by_cases hi : ag = i <;> simp [hi]
  · rfl

theorem State.rangeFault_inq (s : State) (k : Site) (ag row col dq : Nat) :
    (s.rangeFault k ag).view (fun x => x.inq row col dq) = s.view (fun x => x.inq row col dq) := by
  unfold State.rangeFault
  dsimp only
  refine State.ite_view rfl ((State.view_of_quads (State.raise_quads ..)).trans ?_)
  refine State.updQuad_view _ _ fun x => ?_
  unfold Quad.inq
  rw [Quad.setMu_mu, Quad.setMu_cu]
  split
  · rfl
  · split
    · next hk =>
      obtain ⟨rfl, rfl⟩ := Prod.mk_inj.mp hk
      rfl
    · rfl

/-- Headers of set-down and pick-up streams. -/
theorem headers_act (s : State) (k : Site) (ag mode : Nat) (c : Instr) (g : SiteCfg) :
    let x := s.quad k.q
    let m := x.mu k.row k.col
    let d := agDescOf (g.ags.getD ag 0)
    let a := m.ags.getD ag AgSt.idle
    (mode = 5 ∧ c = .setDown k ag) ∨ (mode = 6 ∧ c = .pickUp k ag) →
    s.muRuns k = true → k.q < s.quads.length → ag < m.ags.length → x.cfg k.row k.col = some g → d.mode = mode →
    (0 < a.left → exec c s = exec (.agIssue k ag) s) ∧
    (∀ tk, a.left = 0 → s.headIn k.q k.row k.col d.iq = some tk → let n := (laneOf tk.data 1).toNat
      (1 ≤ n ∧ n ≤ 98304 → completes c s (fun t => let b := ((t.quad k.q).mu k.row k.col).ags.getD ag AgSt.idle
        b.line = bits (laneOf tk.data 0).toNat 0 17 ∧ b.left = n ∧
        (t.quad k.q).inq k.row k.col d.iq = (x.inq k.row k.col d.iq).drop 1 ∧ onlyParts [.quads] s t)) ∧
      (n = 0 ∨ 98304 < n → completes c s (fun t => (((t.quad k.q).mu k.row k.col).ags.getD ag AgSt.idle).left = 0 ∧
        (t.quad k.q).inq k.row k.col d.iq = (x.inq k.row k.col d.iq).drop 1 ∧ onlyParts [.quads, .fns, .mg, .ctr] s t))) := by
  intro x m d a hc hruns hq hag hcfg hmode
  have hexec := exec_header hc hruns hcfg hmode
  refine ⟨fun hleft => ?_, fun tk hleft hhead => ?_⟩
  · rw [hexec, exec_agIssue s k ag hruns, State.headerStep, hcfg]
    dsimp only
    rw [if_pos hleft, State.agStep]
  · let u := s.popIn k.q k.row k.col d.iq
    have hqu : k.q < u.quads.length := by rwa [State.popIn_length]
    have hstep (w : State) (hw : (if (laneOf tk.data 1).toNat = 0 ∨ (laneOf tk.data 1).toNat > 98304 then u.rangeFault k ag
        else u.updQuad k.q (fun x => x.updAg k.row k.col ag (fun a =>
          { a with line := bits (laneOf tk.data 0).toNat 0 17, left := (laneOf tk.data 1).toNat }))) = w) :
        exec c s = .next w := by
      rw [hexec, State.headerStep, hcfg]
      dsimp only
      rw [if_neg (Nat.not_lt.mpr (Nat.le_of_eq hleft)), hhead]
      exact congrArg _ hw
    refine ⟨fun ⟨h1, h2⟩ => ?_, fun hbad => ?_⟩
    · refine ⟨_, hstep _ (if_neg (by omega)), ?_, ?_, ?_, (State.updQuad_only ..).after (by decide) (State.popIn_only ..)⟩
      all_goals rw [State.updQuad_quad_self u k.q _ hqu]
      · rw [Quad.updAg_ag _ _ _ _ _ (by rwa [State.popIn_ags s _ _ _ _ hq])]
      · rw [Quad.updAg_ag _ _ _ _ _ (by rwa [State.popIn_ags s _ _ _ _ hq])]
      · rw [Quad.updAg_inq, State.popIn_inq s _ _ _ _ hq]
    · refine ⟨_, hstep _ (if_pos hbad), ?_, ?_, (State.rangeFault_only ..).after (by decide) ((State.popIn_only ..).mono (by decide))⟩
      · refine (State.view_quad (v := fun x => ((x.mu k.row k.col).ags.getD ag AgSt.idle).left) (State.rangeFault_left ..) k.q).trans ?_
        rw [State.popIn_ags s _ _ _ _ hq]
        exact hleft
      · refine (State.view_quad (v := fun x => x.inq k.row k.col d.iq) (State.rangeFault_inq ..) k.q).trans ?_
        exact State.popIn_inq s _ _ _ _ hq

end Sys2Proof.Machine
end

section
/-! Banks of memory units, traps' regions and engines' accesses (R46 to R48, R80, R424), and the obligation O55. -/

namespace Sys2Proof.Machine

open Config

/-! ### Bytes written and read back -/

theorem leBytes_length (n v : Nat) : (leBytes n v).length = n := by
  induction n generalizing v with
  | zero => rfl
  | succ n ih => rw [leBytes, List.length_cons, ih]

theorem mergeLanes_length (old : List Byte) (t : Tok) : (mergeLanes old t).length = old.length := by
  simp [mergeLanes]

theorem memRead_length (m : Mem) (a n : Nat) : (memRead m a n).length = n := by
  simp [memRead]

theorem memRead_memWrite_self {m : Mem} (h : memWf m = true) (a n : Nat) (bs : List Byte) (hn : bs.length = n) :
    memRead (memWrite m a bs) a n = bs := by
  subst hn
  refine List.ext_getElem (memRead_length ..) fun i _ hi => ?_
  simp only [memRead, List.getElem_map, List.getElem_range]
  rw [memGet_memWrite bs m a (a + i) h, if_pos ⟨by omega, by omega⟩, Nat.add_sub_cancel_left, List.getD_eq_getElem _ _ hi]

theorem memRead_memWrite_apart {m : Mem} (h : memWf m = true) (a b n : Nat) (bs : List Byte) (hd : a + n ≤ b ∨ b + bs.length ≤ a) :
    memRead (memWrite m b bs) a n = memRead m a n := by
  refine List.map_congr_left fun i hi => ?_
  have := List.mem_range.mp hi
  rw [memGet_memWrite bs m b (a + i) h, if_neg (by omega)]

/-- Two writes, the second behind the first, read back. -/
theorem memRead_memWrite_both {m : Mem} (h : memWf m = true) {a b n l : Nat} {bs cs : List Byte} (hn : bs.length = n) (hl : cs.length = l)
    (hd : a + n ≤ b) : memRead (memWrite (memWrite m a bs) b cs) a n = bs ∧ memRead (memWrite (memWrite m a bs) b cs) b l = cs := by
  have hwf := memWrite_wf bs m a h
  exact ⟨(memRead_memWrite_apart hwf _ _ _ _ (.inl hd)).trans (memRead_memWrite_self h _ _ _ hn), memRead_memWrite_self hwf _ _ _ hl⟩

theorem State.devWrite_mem {s : State} {a : Nat} {bs : List Byte} (p : Bool) (h : s.inDevice a bs.length = true) :
    (s.devWrite a bs p).mem = memWrite s.mem a bs := by
  rw [State.devWrite, if_pos h]

/-- What lies in the device depends on the sites alone. -/
theorem State.inDevice_congr {s t : State} (h : ∀ q, (t.quad q).sites = (s.quad q).sites) (a n : Nat) : t.inDevice a n = s.inDevice a n := by
  simp only [State.inDevice, State.deadMu, h]

theorem State.devRead_congr {s t : State} (h : ∀ q, (t.quad q).sites = (s.quad q).sites) (hm : t.mem = s.mem) (hk : t.marks = s.marks)
    (hf : t.flaws = s.flaws) (a n : Nat) : t.devRead a n = s.devRead a n := by
  simp only [State.devRead, State.marked, State.badUnits, State.inDevice_congr h, hm, hk, hf]

/-- A line written in the device reads back, and the bytes outside it stay. -/
theorem State.devWrite_line {s : State} {a n : Nat} {bs : List Byte} (p : Bool) (hwf : memWf s.mem = true) (hn : bs.length = n)
    (h : s.inDevice a n = true) : memRead (s.devWrite a bs p).mem a n = bs ∧
      ∀ b, b < a ∨ a + n ≤ b → memGet (s.devWrite a bs p).mem b = memGet s.mem b := by
  rw [State.devWrite_mem p (by rwa [hn])]
  refine ⟨memRead_memWrite_self hwf a n bs hn, fun b hb => ?_⟩
  rw [memGet_memWrite bs s.mem a b hwf, if_neg (by omega)]

theorem Quad.sites_of_offUnits {x y : Quad} (h : x.offUnits = y.offUnits) : x.sites = y.sites := by
  have hsites := congrArg Quad.sites h
  exact hsites

/-! ### A bank that waits -/

theorem State.bankWait_mu (s : State) (k : Site) (port : Nat) : ((s.bankWait k port).quad k.q).mu k.row k.col = (s.quad k.q).mu k.row k.col := by
  refine State.view_quad (v := fun x => x.mu k.row k.col) ?_ k.q
  unfold State.bankWait
  exact State.ite_view rfl ((State.view_of_quads rfl).trans (State.updQuad_view _ _ fun _ => rfl))

/-! ### What a line's code shows (R46) -/

/-- The first error of a quadrant is counted, and no unit dies of it. -/
theorem State.lineEcc_first (s : State) (k : Site) (at_ : Nat) (herr : (s.quad k.q).errs = []) :
    let place := 5 * unitOrd k.row k.col
    let t := s.lineEcc k (s.eccAt at_)
    (look s.flaws at_ = some false → t.counter 0x12 k.q place = min ctrMax (s.counter 0x12 k.q place + 1)) ∧
    (look s.flaws at_ = some true → t.counter 0x12 k.q (place + 1) = min ctrMax (s.counter 0x12 k.q (place + 1) + 1)) ∧
    (∀ q, ∃ es, t.quad q = { s.quad q with errs := es }) ∧ onlyParts [.quads, .ctr] s t := by
  intro place t
  cases hf : look s.flaws at_ with
  | none =>
    have ht : t = s := by simp only [t, State.eccAt, hf, State.lineEcc]
    rw [ht]
    exact ⟨fun h => by simp at h, fun h => by simp at h, fun q => ⟨_, rfl⟩, onlyParts.rfl'⟩
  | some b =>
    cases b with
    | false =>
      have ht : t = s.muCount k.q k.row k.col 0 1 := by simp only [t, State.eccAt, hf, State.lineEcc]
      rw [ht]
      refine ⟨fun _ => ?_, fun h => by simp at h, fun q => ⟨_, rfl⟩, (State.bump_only ..).mono (by decide)⟩
      rw [State.muCount, State.counter_bump, if_pos ⟨rfl, rfl, rfl⟩]
    | true =>
      have ht : t = (s.muCount k.q k.row k.col 1 1).noteError k := by
        simp only [t, State.eccAt, hf, State.lineEcc]
        exact State.noteError_reap _ k herr
      rw [ht]
      refine ⟨fun h => by simp at h, fun _ => ?_, fun q => ?_, (State.noteError_only ..).after (by decide) ((State.bump_only ..).mono (by decide))⟩
      · rw [State.noteError_counter, State.muCount, State.counter_bump, if_pos ⟨rfl, rfl, rfl⟩]
      · unfold State.noteError
        obtain he | ⟨-, he⟩ := State.updQuad_quad_cases (s.muCount k.q k.row k.col 1 1) k.q q (fun x =>
          { x with errs := (x.errs.filter (fun e => decide (s.now < e.2.2 + 1000000))) ++
            [(((s.quad k.q).phys k.row k.col).1, ((s.quad k.q).phys k.row k.col).2, s.now)] })
        · exact ⟨_, he⟩
        · exact ⟨_, he⟩

/-! ### Traps -/

theorem Quad.trap_key (x : Quad) (r c n : Nat) : (x.trap r c n).row = r ∧ (x.trap r c n).col = c ∧ (x.trap r c n).t = n := by
  unfold Quad.trap
  cases h : x.traps.find? (fun e => e.row == r && e.col == c && e.t == n) with
  | none => exact ⟨rfl, rfl, rfl⟩
  | some e =>
    have := List.find?_some h
    simp only [Bool.and_eq_true, beq_iff_eq] at this
    obtain ⟨⟨hr, hc⟩, hn⟩ := this
    exact ⟨hr, hc, hn⟩

theorem Quad.setTrap_trap_self (x : Quad) (e : TrapSt) : (x.setTrap e).trap e.row e.col e.t = e := by
  unfold Quad.setTrap Quad.trap
  rw [find?_replaced_self x.traps e (fun y : TrapSt => y.row == e.row && y.col == e.col && y.t == e.t)
    (fun y : TrapSt => y.row == e.row && y.col == e.col && y.t == e.t) (by simp) (fun _ h => h), Option.getD_some]

/-- A trap set in its own place. -/
theorem Quad.setTrap_trap (x : Quad) (e : TrapSt) (r c n : Nat) (hr : e.row = r) (hc : e.col = c) (hn : e.t = n) :
    (x.setTrap e).trap r c n = e := by
  subst hr hc hn
  exact Quad.setTrap_trap_self ..

/-! ### The access at a port's head (R47, R48) -/

section
variable {s : State} {k : Site} {port i : Nat} {a : Access} {rest : List Access}

/-- A port with an access takes no trap's. -/
theorem exec_bankAccess (hruns : s.muRuns k = true) (hp : ((s.quad k.q).mu k.row k.col).ports.getD port [] = a :: rest) :
    exec (.bankAccess k port) s = .next (s.serveHead k port) := by
  change execBankAccess k port s = _
  rw [execBankAccess, if_neg (by simp [hruns])]
  have hbusy : ((s.quad k.q).mu k.row k.col).portFree port s.pw.cycle = false := by
    rw [Mu.portFree, hp]
    rfl
  rw [hbusy]
  rfl

/-- An access waits for its bank. -/
theorem State.serveHead_waits (hp : ((s.quad k.q).mu k.row k.col).ports.getD port [] = a :: rest) (hi : muIndex k.row k.col = some i)
    (hb : ((s.quad k.q).mu k.row k.col).bankBusy a.line s.pw.cycle = true ∨ ((s.quad k.q).mu k.row k.col).bankLower port a.line = true) :
    s.serveHead k port = s.bankWait k port := by
  unfold State.serveHead
  dsimp only
  rw [hp, hi]
  exact if_pos (by simpa using hb)

/-- The MU whose bank has taken the access at a port's head. -/
def State.muTaken (s : State) (k : Site) (port : Nat) (a : Access) (rest : List Access) : Mu :=
  { ((s.quad k.q).mu k.row k.col).useBank a.line s.pw.cycle with ports := ((s.quad k.q).mu k.row k.col).ports.set port rest }

/-- The state in which a bank has taken the access at a port's head. -/
def State.headTaken (s : State) (k : Site) (port : Nat) (a : Access) (rest : List Access) : State :=
  s.updQuad k.q (fun x => x.setMu k.row k.col (s.muTaken k port a rest))

theorem State.headTaken_quad (hq : k.q < s.quads.length) :
    (s.headTaken k port a rest).quad k.q = (s.quad k.q).setMu k.row k.col (s.muTaken k port a rest) :=
  State.updQuad_quad_self s k.q _ hq

theorem State.headTaken_offUnits (s : State) (k : Site) (port : Nat) (a : Access) (rest : List Access) :
    (s.headTaken k port a rest).view Quad.offUnits = s.view Quad.offUnits := State.updQuad_view s k.q fun _ => by rfl

theorem State.headTaken_inDevice (s : State) (k : Site) (port : Nat) (a : Access) (rest : List Access) (at_ n : Nat) :
    (s.headTaken k port a rest).inDevice at_ n = s.inDevice at_ n :=
  State.inDevice_congr (fun q => Quad.sites_of_offUnits (State.view_quad (State.headTaken_offUnits s k port a rest) q)) at_ n

theorem State.headTaken_ports (hq : k.q < s.quads.length) :
    (((s.headTaken k port a rest).quad k.q).mu k.row k.col).ports = ((s.quad k.q).mu k.row k.col).ports.set port rest := by
  rw [State.headTaken_quad hq, Quad.setMu_mu, if_pos rfl, State.muTaken]

/-- The MU whose bank gives what a read asks. -/
def State.muRead (s : State) (k : Site) (port i : Nat) (a : Access) (rest : List Access) : Mu :=
  { ((s.quad k.q).mu k.row k.col).useBank a.line s.pw.cycle with
    ports := ((s.quad k.q).mu k.row k.col).ports.set port rest
    rets := ((s.quad k.q).mu k.row k.col).rets ++ [{ due := s.pw.cycle + 4, dq := a.dq, tok :=
      { a.tok with data := BitVec.ofNat 1024 (ofLe (memRead s.mem (lineAddr k.q i a.line) 128))
                   poison := a.tok.poison || s.marked (lineAddr k.q i a.line) 128 } }] }

/-- The state in which a read has its line. -/
def State.headRead (s : State) (k : Site) (port i : Nat) (a : Access) (rest : List Access) : State :=
  (s.headTaken k port a rest).updQuad k.q (fun x => x.setMu k.row k.col (s.muRead k port i a rest))

variable (hp : ((s.quad k.q).mu k.row k.col).ports.getD port [] = a :: rest) (hi : muIndex k.row k.col = some i)
  (hb : ((s.quad k.q).mu k.row k.col).bankBusy a.line s.pw.cycle = false) (hl : ((s.quad k.q).mu k.row k.col).bankLower port a.line = false)
include hp hi hb hl

/-- A write is served. -/
theorem State.serveHead_write (ht : a.trap = none) (hw : a.write = true) :
    s.serveHead k port = (s.headTaken k port a rest).lineWrite k.q i a.line a.tok := by
  unfold State.serveHead
  dsimp only
  rw [hp, hi]
  dsimp only
  rw [if_neg (by simp [hb, hl]), ht, if_pos hw]
  dsimp only
  rw [if_pos hw]
  rfl

/-- A read is served. -/
theorem State.serveHead_read (ht : a.trap = none) (hw : a.write = false) :
    s.serveHead k port = (s.headRead k port i a rest).lineEcc k ((s.headRead k port i a rest).eccAt (lineAddr k.q i a.line)) := by
  unfold State.serveHead
  dsimp only
  rw [hp, hi]
  dsimp only
  rw [if_neg (by simp [hb, hl]), ht, if_neg (by simp [hw])]
  dsimp only
  rw [if_neg (by simp [hw])]
  rfl

/-- A trap's access is served. -/
theorem State.serveHead_trap {key : Nat × Nat × Nat × Nat} (ht : a.trap = some key) :
    let u := (s.headTaken k port a rest).trapServe k i a key
    s.serveHead k port = if a.write then u else u.lineEcc k ((s.headTaken k port a rest).eccAt (lineAddr k.q i a.line)) := by
  intro u
  unfold State.serveHead
  dsimp only
  rw [hp, hi]
  dsimp only
  rw [if_neg (by simp [hb, hl]), ht]
  rfl

end

/-! ### A trap's accesses (R80) -/

theorem Quad.trap_of_traps {x y : Quad} (h : x.traps = y.traps) (r c n : Nat) : x.trap r c n = y.trap r c n := by
  rw [Quad.trap, h, Quad.trap]

/-- A trap whose oldest token is on its way back. -/
def TrapSt.fetched (e : TrapSt) (desc cycle : Nat) (tok : Tok) : TrapSt :=
  { e with toks := e.toks.drop 1, head := (e.head + 1) % max 1 (trapCap desc), reading := 0, out := e.out ++ [(cycle + 4, tok)] }

/-- A trap's oldest token is read. -/
theorem State.trapServe_read (u : State) (k : Site) (i : Nat) (a : Access) (r c n p : Nat) (hw : a.write = false) :
    let desc := u.trapDesc ((u.quad k.q).slotAt k.row k.col) k.q r c n
    u.trapServe k i a (r, c, n, p) = u.updQuad k.q (fun x => x.setTrap (((u.quad k.q).trap r c n).fetched desc u.pw.cycle
      (tokOfWord (memRead u.mem (lineAddr k.q i a.line) 128)
        (ofLe (memRead u.mem (lineAddr k.q i 0 + (trapLine desc p).2) 8)) (u.marked (lineAddr k.q i a.line) 128)))) := by
  unfold State.trapServe
  dsimp only
  rw [if_neg (by simp [hw])]
  rfl

/-- A trap's line and its control word lie apart. -/
theorem trapLine_apart (q i desc p : Nat) :
    lineAddr q i (trapLine desc p).1 + 128 ≤ lineAddr q i 0 + (trapLine desc p).2 := by
  unfold lineAddr trapLine
  dsimp only
  omega

/-- A trap with the token that has been written. -/
def TrapSt.spilled (e : TrapSt) (tk : Tok) (more : List Tok) (cycle : Nat) : TrapSt :=
  { e with toks := e.toks ++ [tk], landing := more, wroteAt := some cycle, peak := max e.peak (e.toks.length + 1) }

/-- A spilled token and its control word are written. -/
theorem State.trapServe_write (u : State) (k : Site) (i : Nat) (a : Access) (r c n p : Nat) (tk : Tok) (more : List Tok) (hw : a.write = true)
    (hland : ((u.quad k.q).trap r c n).landing = tk :: more) :
    let ctl := lineAddr k.q i 0 + (trapLine (u.trapDesc ((u.quad k.q).slotAt k.row k.col) k.q r c n) p).2
    let v := u.updQuad k.q (fun x => x.setTrap (((u.quad k.q).trap r c n).spilled tk more u.pw.cycle))
    ∃ ix w, u.trapServe k i a (r, c, n, p) = (((v.setCtr 0x22 k.q ix w).devWrite (lineAddr k.q i a.line) (leBytes 128 tk.data.toNat)
      tk.poison).devWrite ctl (leBytes 8 (ctlWord tk)) false).progress k.q := by
  unfold State.trapServe
  dsimp only
  rw [if_pos hw, hland]
  exact ⟨_, _, rfl⟩

/-- A write to the device leaves the quadrants, and so what lies in it. -/
theorem State.devWrite_inDevice (s : State) (b : Nat) (bs : List Byte) (p : Bool) (a n : Nat) :
    (s.devWrite b bs p).inDevice a n = s.inDevice a n :=
  State.inDevice_congr (fun q => by rw [State.quad_congr ((State.devWrite_only s b bs p).quads (by decide))]) a n

/-- What a spilled token's write leaves. -/
theorem State.trapServe_spills (u : State) (k : Site) (i : Nat) (a : Access) (r c n p : Nat) (tk : Tok) (more : List Tok) (ctl : Nat)
    (hq : k.q < u.quads.length) (hmem : memWf u.mem = true) (hw : a.write = true) (hland : ((u.quad k.q).trap r c n).landing = tk :: more)
    (hctl : lineAddr k.q i 0 + (trapLine (u.trapDesc ((u.quad k.q).slotAt k.row k.col) k.q r c n) p).2 = ctl)
    (hapart : lineAddr k.q i a.line + 128 ≤ ctl) (hin : u.inDevice (lineAddr k.q i a.line) 128 = true) (hcin : u.inDevice ctl 8 = true) :
    let t := u.trapServe k i a (r, c, n, p)
    (t.quad k.q).trap r c n = ((u.quad k.q).trap r c n).spilled tk more u.pw.cycle ∧
    memRead t.mem (lineAddr k.q i a.line) 128 = leBytes 128 tk.data.toNat ∧ memRead t.mem ctl 8 = leBytes 8 (ctlWord tk) ∧
    onlyParts [.quads, .mem, .marks, .flaws, .ctr] u t := by
  intro t
  obtain ⟨ix, w, hserve⟩ := State.trapServe_write u k i a r c n p tk more hw hland
  rw [hctl] at hserve
  let v := (u.updQuad k.q (fun x => x.setTrap (((u.quad k.q).trap r c n).spilled tk more u.pw.cycle))).setCtr 0x22 k.q ix w
  have hvin (b l : Nat) : v.inDevice b l = u.inDevice b l :=
    State.inDevice_congr (fun q => State.view_quad (v := Quad.sites) (State.updQuad_view u k.q fun _ => by rfl) q) b l
  have hv : onlyParts [.quads, .mem, .marks, .flaws, .ctr] u v :=
    (State.setCtr_only ..).after (by decide) ((State.updQuad_only ..).mono (by decide))
  have hmt : t.mem = memWrite (memWrite u.mem (lineAddr k.q i a.line) (leBytes 128 tk.data.toNat)) ctl (leBytes 8 (ctlWord tk)) := by
    have hp : t.mem = (((v.devWrite (lineAddr k.q i a.line) (leBytes 128 tk.data.toNat) tk.poison).devWrite ctl
        (leBytes 8 (ctlWord tk)) false)).mem := (congrArg State.mem hserve).trans rfl
    rw [hp, State.devWrite_mem _ (by rw [leBytes_length, State.devWrite_inDevice, hvin]; exact hcin),
      State.devWrite_mem _ (by rw [leBytes_length, hvin]; exact hin)]
    rfl
  have hbytes := memRead_memWrite_both hmem (leBytes_length 128 tk.data.toNat) (leBytes_length 8 (ctlWord tk)) hapart
  rw [← hmt] at hbytes
  have htq : (t.quad k.q).traps = (v.quad k.q).traps := by
    rw [show t = _ from hserve]
    refine (State.view_quad (v := Quad.traps) (State.updQuad_view _ _ fun _ => by rfl) k.q).trans ?_
    rw [State.quad_congr ((State.devWrite_only ..).quads (by decide)), State.quad_congr ((State.devWrite_only ..).quads (by decide))]
  refine ⟨?_, hbytes.1, hbytes.2, ?_⟩
  · rw [Quad.trap_of_traps htq]
    have hvq : v.quad k.q = (u.quad k.q).setTrap (((u.quad k.q).trap r c n).spilled tk more u.pw.cycle) := State.updQuad_quad_self u k.q _ hq
    obtain ⟨hr, hc, hn⟩ := Quad.trap_key (u.quad k.q) r c n
    rw [hvq]
    exact Quad.setTrap_trap _ _ _ _ _ hr hc hn
  · rw [show t = _ from hserve]
    exact (State.progress_only ..).after (by decide) ((State.devWrite_only ..).after (by decide) ((State.devWrite_only ..).after (by decide) hv))

/-! ### BANK_ACCESS -/

theorem bankAccess_serves (s : State) (k : Site) (port i : Nat) (a : Access) (rest : List Access) :
    let x := s.quad k.q
    let m := x.mu k.row k.col
    let at_ := lineAddr k.q i a.line
    let place := 5 * unitOrd k.row k.col
    let counted (t : State) : Prop := (look s.flaws at_ = some false → t.counter 0x12 k.q place = min ctrMax (s.counter 0x12 k.q place + 1)) ∧
      (look s.flaws at_ = some true → t.counter 0x12 k.q (place + 1) = min ctrMax (s.counter 0x12 k.q (place + 1) + 1))
    s.memOk → s.muRuns k = true → k.q < s.quads.length → m.ports.getD port [] = a :: rest → muIndex k.row k.col = some i → x.errs = [] →
    (m.bankBusy a.line s.pw.cycle = true ∨ m.bankLower port a.line = true →
      completes (.bankAccess k port) s (fun t => (t.quad k.q).mu k.row k.col = m ∧ onlyParts [.quads, .ctr] s t)) ∧
    (m.bankBusy a.line s.pw.cycle = false → m.bankLower port a.line = false →
      (a.trap = none → a.write = false →
        completes (.bankAccess k port) s (fun t => ((t.quad k.q).mu k.row k.col).ports = m.ports.set port rest ∧
          ((t.quad k.q).mu k.row k.col).rets = m.rets ++ [{ due := s.pw.cycle + 4, dq := a.dq, tok :=
            { a.tok with data := BitVec.ofNat 1024 (ofLe (memRead s.mem at_ 128)), poison := a.tok.poison || s.marked at_ 128 } }] ∧
          counted t ∧ onlyParts [.quads, .ctr] s t)) ∧
      (a.trap = none → a.write = true → s.inDevice at_ 128 = true →
        completes (.bankAccess k port) s (fun t => ((t.quad k.q).mu k.row k.col).ports = m.ports.set port rest ∧
          memRead t.mem at_ 128 = mergeLanes (memRead s.mem at_ 128) a.tok ∧
          (∀ b, b < at_ ∨ at_ + 128 ≤ b → memGet t.mem b = memGet s.mem b) ∧ onlyParts [.quads, .mem, .marks, .flaws] s t)) ∧
      (∀ r c n p, a.trap = some (r, c, n, p) → let e := x.trap r c n
        let desc := s.trapDesc (x.slotAt k.row k.col) k.q r c n; let ctl := lineAddr k.q i 0 + (trapLine desc p).2
        (∀ tk more, a.write = true → e.landing = tk :: more → a.line = (trapLine desc p).1 → s.inDevice at_ 128 = true →
          s.inDevice ctl 8 = true →
          completes (.bankAccess k port) s (fun t => ((t.quad k.q).trap r c n).toks = e.toks ++ [tk] ∧
            ((t.quad k.q).trap r c n).landing = more ∧ memRead t.mem at_ 128 = leBytes 128 tk.data.toNat ∧
            memRead t.mem ctl 8 = leBytes 8 (ctlWord tk) ∧ onlyParts [.quads, .mem, .marks, .flaws, .ctr] s t)) ∧
        (a.write = false →
          completes (.bankAccess k port) s (fun t => ((t.quad k.q).trap r c n).toks = e.toks.drop 1 ∧
            ((t.quad k.q).trap r c n).out = e.out ++ [(s.pw.cycle + 4,
              tokOfWord (memRead s.mem at_ 128) (ofLe (memRead s.mem ctl 8)) (s.marked at_ 128))] ∧
            counted t ∧ onlyParts [.quads, .ctr] s t)))) := by
  intro x m at_ place counted hmem hruns hq hp hi herr
  have hexec := exec_bankAccess hruns hp
  let u := s.headTaken k port a rest
  have hu : onlyParts [.quads] s u := State.updQuad_only ..
  have hqu : k.q < u.quads.length := by simpa [u, State.headTaken] using hq
  have huq : u.quad k.q = x.setMu k.row k.col _ := State.headTaken_quad hq
  have hdesc (r c n : Nat) : u.trapDesc ((u.quad k.q).slotAt k.row k.col) k.q r c n = s.trapDesc (x.slotAt k.row k.col) k.q r c n := by
    rw [State.trapDesc, huq]
    rfl
  have he (r c n : Nat) : (u.quad k.q).trap r c n = x.trap r c n := by
    rw [huq]
    rfl
  refine ⟨fun hw => ?waits, fun hb hl => ⟨fun ht hw => ?read, fun ht hw hin => ?write, fun r c n p ht => ⟨?spill, ?fetch⟩⟩⟩
  case waits => exact ⟨_, hexec.trans (congrArg _ (State.serveHead_waits hp hi hw)), State.bankWait_mu .., State.bankWait_only ..⟩
  case read =>
    refine ⟨_, hexec.trans (congrArg _ (State.serveHead_read hp hi hb hl ht hw)), ?_⟩
    have hv : (s.headRead k port i a rest).quad k.q = _ := State.updQuad_quad_self u k.q _ hqu
    obtain ⟨h0, h1, hes, hecc⟩ := State.lineEcc_first (s.headRead k port i a rest) k at_ (by rw [hv, huq]; exact herr)
    obtain ⟨es, hes⟩ := hes k.q
    have hmu : (((s.headRead k port i a rest).lineEcc k ((s.headRead k port i a rest).eccAt at_)).quad k.q).mu k.row k.col =
        s.muRead k port i a rest := by
      rw [hes, hv]
      exact (Quad.setMu_mu ..).trans (if_pos rfl)
    exact ⟨congrArg Mu.ports hmu, congrArg Mu.rets hmu, ⟨h0, h1⟩,
      hecc.after (by decide) ((State.updQuad_only ..).after (by decide) (hu.mono (by decide)))⟩
  case write =>
    have hin' : u.inDevice at_ 128 = true := (State.headTaken_inDevice ..).trans hin
    obtain ⟨hline, hout⟩ := State.devWrite_line (s := u) (bs := mergeLanes (memRead u.mem at_ 128) a.tok) a.tok.poison hmem.1
      ((mergeLanes_length ..).trans (memRead_length ..)) hin'
    refine ⟨_, hexec.trans (congrArg _ (State.serveHead_write hp hi hb hl ht hw)), ?_, hline, hout,
      (State.lineWrite_only ..).after (by decide) (hu.mono (by decide))⟩
    rw [State.quad_congr ((State.lineWrite_only ..).quads (by decide)), State.headTaken_ports hq]
  case spill =>
    intro tk more hw hland hline hin hctl
    have hapart := trapLine_apart k.q i (s.trapDesc (x.slotAt k.row k.col) k.q r c n) p
    rw [← hline] at hapart
    obtain ⟨htrap, hline', hctl', ho⟩ := State.trapServe_spills u k i a r c n p tk more _ hqu hmem.1 hw ((congrArg TrapSt.landing (he r c n)).trans hland)
      (by rw [hdesc]) hapart ((State.headTaken_inDevice ..).trans hin) ((State.headTaken_inDevice ..).trans hctl)
    rw [he] at htrap
    refine ⟨_, hexec.trans (congrArg _ ((State.serveHead_trap hp hi hb hl ht).trans (if_pos hw))), ?_, ?_, hline', hctl',
      ho.after (by decide) (hu.mono (by decide))⟩
    · exact congrArg TrapSt.toks htrap
    · exact congrArg TrapSt.landing htrap
  case fetch =>
    intro hw
    have hserve := State.trapServe_read u k i a r c n p hw
    rw [hdesc, he] at hserve
    have hserved := State.serveHead_trap hp hi hb hl ht
    dsimp only at hserved
    rw [if_neg (by simp [hw])] at hserved
    generalize hv : (s.headTaken k port a rest).trapServe k i a (r, c, n, p) = v at hserve hserved
    obtain ⟨hr, hc, hn⟩ := Quad.trap_key x r c n
    have hvq : v.quad k.q = _ := hserve ▸ State.updQuad_quad_self u k.q _ hqu
    have hvo : onlyParts [.quads] s v := hserve ▸ (State.updQuad_only ..).after (by decide) hu
    have hflaws : v.flaws = s.flaws := hvo.same .flaws (by decide)
    have hecceq : (s.headTaken k port a rest).eccAt (lineAddr k.q i a.line) = v.eccAt at_ := by
      rw [State.eccAt, State.eccAt, hflaws]
      rfl
    have hctr (a b c : Nat) : v.counter a b c = s.counter a b c := by
      rw [State.counter, hvo.same .ctr (by decide), State.counter]
    obtain ⟨h0, h1, hes, hecc⟩ := State.lineEcc_first v k at_ (by rw [hvq, huq]; exact herr)
    obtain ⟨es, hes⟩ := hes k.q
    rw [hflaws, hctr] at h0 h1
    have htraps : ((v.lineEcc k (v.eccAt at_)).quad k.q).traps = (v.quad k.q).traps := by rw [hes]
    have htrap := Quad.trap_of_traps htraps r c n
    rw [hvq, Quad.setTrap_trap _ (TrapSt.fetched _ _ _ _) r c n hr hc hn] at htrap
    refine ⟨_, hexec.trans (congrArg _ (hserved.trans (congrArg _ hecceq))), ?_, ?_, ⟨h0, h1⟩, hecc.after (by decide) (hvo.mono (by decide))⟩
    · exact congrArg TrapSt.toks htrap
    · exact congrArg TrapSt.out htrap

/-! ### Engines (R424) -/

/-- The state in which an engine has a port of an MU. -/
def State.engineAt (s : State) (k : Site) (line port : Nat) : State :=
  s.updQuad k.q (fun x => x.setMu k.row k.col { ((s.quad k.q).mu k.row k.col).useBank line s.pw.cycle with
    grantAt := ((s.quad k.q).mu k.row k.col).grantAt.set port (s.pw.cycle + 1) })

theorem State.engineAt_inDevice (s : State) (k : Site) (line port a n : Nat) : (s.engineAt k line port).inDevice a n = s.inDevice a n :=
  State.inDevice_congr (fun q => State.view_quad (v := Quad.sites) (State.updQuad_view s k.q fun _ => by rfl) q) a n

theorem State.engineAt_mu (s : State) (k : Site) (line port : Nat) (hq : k.q < s.quads.length) :
    ((s.engineAt k line port).quad k.q).mu k.row k.col = { ((s.quad k.q).mu k.row k.col).useBank line s.pw.cycle with
      grantAt := ((s.quad k.q).mu k.row k.col).grantAt.set port (s.pw.cycle + 1) } := by
  rw [State.engineAt, State.updQuad_quad_self s k.q _ hq, Quad.setMu_mu, if_pos rfl]

/-- The port of an engine's access. -/
def enginePort (acc : LineAccess) : Nat := if acc.isSome then 2 else 1

section
variable {s : State} {k : Site} {line i : Nat} {acc : LineAccess}

/-- An engine's access that may be granted. -/
def State.engineOpen (s : State) (k : Site) (line port : Nat) : Prop :=
  (s.quadRuns k.q && decide (k.row < 16) && decide (k.col < 22) && !((s.quad k.q).site k.row k.col).isDead && decide (line < 98304) &&
    ((s.quad k.q).mu k.row k.col).portFree port s.pw.cycle) = true

/-- An engine's access to an MU whose port is free waits for its bank. -/
theorem exec_engineMuAccess_waits (hi : muIndex k.row k.col = some i) (ho : s.engineOpen k line (enginePort acc))
    (hb : (((s.quad k.q).mu k.row k.col).bankBusy line s.pw.cycle || ((s.quad k.q).mu k.row k.col).bankLower (enginePort acc) line) = true) :
    exec (.engineMuAccess k line acc) s = .next (s.bankWait k (enginePort acc)) := by
  change execEngineMuAccess k line acc s = _
  unfold execEngineMuAccess
  dsimp only
  rw [hi]
  dsimp only
  cases acc with
  | none => exact congrArg Host.Outcome.next ((if_pos ho).trans (if_pos hb))
  | some e => exact congrArg Host.Outcome.next ((if_pos ho).trans (if_pos hb))

theorem exec_engineMuAccess_write {d : BitVec 1024} {p : Bool} (hi : muIndex k.row k.col = some i) (ho : s.engineOpen k line 2)
    (hb : (((s.quad k.q).mu k.row k.col).bankBusy line s.pw.cycle || ((s.quad k.q).mu k.row k.col).bankLower 2 line) ≠ true) :
    exec (.engineMuAccess k line (some (d, p))) s =
      .next ((s.engineAt k line 2).devWrite (lineAddr k.q i line) (leBytes 128 d.toNat) p) := by
  change execEngineMuAccess k line (some (d, p)) s = _
  unfold execEngineMuAccess
  dsimp only
  rw [hi]
  exact congrArg Host.Outcome.next ((if_pos ho).trans (if_neg hb))

theorem exec_engineMuAccess_read (hi : muIndex k.row k.col = some i) (ho : s.engineOpen k line 1)
    (hb : (((s.quad k.q).mu k.row k.col).bankBusy line s.pw.cycle || ((s.quad k.q).mu k.row k.col).bankLower 1 line) ≠ true) :
    exec (.engineMuAccess k line none) s =
      .next { s.engineAt k line 1 with readData := (s.engineAt k line 1).devRead (lineAddr k.q i line) 128 } := by
  change execEngineMuAccess k line none s = _
  unfold execEngineMuAccess
  dsimp only
  rw [hi]
  exact congrArg Host.Outcome.next ((if_pos ho).trans (if_neg hb))

end

/-- A line of an MU that an engine reads or writes. -/
theorem engineMuAccess_acts (s : State) (k : Site) (line i : Nat) (acc : LineAccess) :
    let m := (s.quad k.q).mu k.row k.col
    let at_ := lineAddr k.q i line
    let port := if acc.isSome then 2 else 1
    s.memOk → muIndex k.row k.col = some i → s.quadRuns k.q = true → k.q < s.quads.length → k.row < 16 → k.col < 22 →
    ((s.quad k.q).site k.row k.col).isDead = false → line < 98304 → m.portFree port s.pw.cycle = true →
    (m.bankBusy line s.pw.cycle = true ∨ m.bankLower port line = true →
      completes (.engineMuAccess k line acc) s (fun t => (t.quad k.q).mu k.row k.col = m ∧ onlyParts [.quads, .ctr] s t)) ∧
    (m.bankBusy line s.pw.cycle = false → m.bankLower port line = false →
      (∀ d p, acc = some (d, p) → s.inDevice at_ 128 = true →
        completes (.engineMuAccess k line acc) s (fun t => memRead t.mem at_ 128 = leBytes 128 d.toNat ∧
          (∀ b, b < at_ ∨ at_ + 128 ≤ b → memGet t.mem b = memGet s.mem b) ∧ onlyParts [.quads, .mem, .marks, .flaws] s t)) ∧
      (acc = none →
        completes (.engineMuAccess k line acc) s (fun t => t.readData = s.devRead at_ 128 ∧
          ((t.quad k.q).mu k.row k.col).bankBusy line s.pw.cycle = true ∧ onlyParts [.quads, .readData] s t))) := by
  intro m at_ port hmem hi hruns hq hrow hcol hdead hline hfree
  have hopen : s.engineOpen k line (enginePort acc) := by
    simp only [State.engineOpen, hruns, hrow, hcol, hdead, hline, decide_true, Bool.not_false, Bool.and_self, Bool.true_and]
    exact hfree
  refine ⟨fun hw => ?_, fun hb hl => ⟨fun d p ha hd => ?_, fun ha => ?_⟩⟩
  · exact ⟨_, exec_engineMuAccess_waits hi hopen ((Bool.or_eq_true ..).mpr hw), State.bankWait_mu .., State.bankWait_only ..⟩
  · subst ha
    have hfree : ¬ (m.bankBusy line s.pw.cycle || m.bankLower 2 line) = true := by
      rw [hb, show m.bankLower 2 line = false from hl]
      decide
    obtain ⟨hline, hrest⟩ := State.devWrite_line (s := s.engineAt k line 2) (a := at_) p hmem.1 (leBytes_length 128 d.toNat)
      ((State.engineAt_inDevice ..).trans hd)
    exact ⟨_, exec_engineMuAccess_write hi hopen hfree, hline, hrest,
      (State.devWrite_only ..).after (by decide) ((State.updQuad_only ..).mono (by decide))⟩
  · subst ha
    have hfree : ¬ (m.bankBusy line s.pw.cycle || m.bankLower 1 line) = true := by
      rw [hb, show m.bankLower 1 line = false from hl]
      decide
    refine ⟨_, exec_engineMuAccess_read hi hopen hfree, ?_, ?_, ?_⟩
    · exact State.devRead_congr (fun q => State.view_quad (v := Quad.sites) (State.updQuad_view s k.q fun _ => by rfl) q) rfl rfl rfl at_ 128
    · have hkept := State.quad_congr (s := s.engineAt k line 1)
        (t := { s.engineAt k line 1 with readData := (s.engineAt k line 1).devRead (lineAddr k.q i line) 128 }) rfl k.q
      dsimp only
      rw [hkept, State.engineAt_mu _ _ _ _ hq]
      simp [Mu.bankBusy, Mu.useBank]
    · have hu : onlyParts [.quads, .readData] s (s.engineAt k line 1) := (State.updQuad_only ..).mono (by decide)
      exact onlyParts.set_readData hu rfl

/-- Settles O55, command by command. -/
theorem arrayMemory : Obligations.ArrayMemory :=
  ⟨agIssue_grants, agIssue_takes, gatherIndex_takes, headers_act, bankAccess_serves, engineMuAccess_acts⟩

end Sys2Proof.Machine
end

section
/-! Compute units (R34 to R45, R95, R98): vector firings, operand feeds and side tokens. -/

namespace Sys2Proof.Machine

open Config

/-! ### A CU but for its input queues -/

/-- All of a CU but its input queues. -/
def Cu.offInq (c : Cu) : Cu := { c with inq := [] }

/-- The units of a quadrant. -/
def Quad.units (x : Quad) : List ((Nat × Nat) × Cu) × List ((Nat × Nat) × Mu) := (x.cus, x.mus)

theorem Quad.cu_of_units {x y : Quad} (h : x.units = y.units) (row col : Nat) : x.cu row col = y.cu row col := by
  obtain ⟨hc, -⟩ := Prod.mk_inj.mp h
  rw [Quad.cu, hc, Quad.cu]

theorem Quad.inq_of_units {x y : Quad} (h : x.units = y.units) (row col dq : Nat) : x.inq row col dq = y.inq row col dq := by
  obtain ⟨-, hm⟩ := Prod.mk_inj.mp h
  rw [Quad.inq, Quad.inq, Quad.cu_of_units h, Quad.mu_of_mus hm]

theorem Quad.setInq_offInq (x : Quad) (row col dq r c : Nat) (ts : List Tok) : ((x.setInq row col dq ts).cu r c).offInq = (x.cu r c).offInq := by
  unfold Quad.setInq
  split
  · rw [Quad.setCu_cu]
    split
    · next hk =>
      obtain ⟨rfl, rfl⟩ := Prod.mk_inj.mp hk
      rfl
    · rfl
  · rfl

theorem Quad.setCu_inq (x : Quad) (row col dq : Nat) (d : Cu) (h : d.inq = (x.cu row col).inq) :
    (x.setCu row col d).inq row col dq = x.inq row col dq := by
  unfold Quad.inq
  rw [Quad.setCu_cu, if_pos rfl, h, Quad.setCu_mu]

theorem State.popIn_offInq (s : State) (q dq r c row col : Nat) :
    (s.popIn q r c dq).view (fun x => (x.cu row col).offInq) = s.view (fun x => (x.cu row col).offInq) := by
  unfold State.popIn
  dsimp only
  refine (State.view_comp (fun x => (x.cu row col).offInq) (State.owe_offCred ..)).trans ?_
  exact State.updQuad_view _ _ fun x => Quad.setInq_offInq ..

theorem State.popIn_inq_ne (s : State) (q row col dq n : Nat) (h : dq ≠ n) :
    (s.popIn q row col dq).view (fun x => x.inq row col n) = s.view (fun x => x.inq row col n) := by
  unfold State.popIn
  dsimp only
  refine (State.view_comp (fun x => x.inq row col n) (State.owe_offCred ..)).trans ?_
  exact State.updQuad_view _ _ fun x => Quad.setInq_inq_ne _ _ _ _ _ _ h

/-- Counting work leaves the units as they are. -/
theorem State.workDone_units (u : State) (q row col n l c : Nat) :
    (((u.cuCount q row col 0 n).worked q l c).progress q).view Quad.units = u.view Quad.units := by
  refine (State.updQuad_view _ _ fun _ => by rfl).trans ?_
  exact (State.updQuad_view _ _ fun _ => by rfl).trans rfl

/-! ### Vector firings (R35) -/

/-- The first input of a firing. -/
def State.firstIn (s : State) (k : Site) (g : SiteCfg) : Option Tok :=
  if g.in0 = 6 then ((s.quad k.q).cu k.row k.col).drainq.head? else if g.in0 = 7 then none else s.headIn k.q k.row k.col g.in0

/-- The second input of a firing, where it has one. -/
def State.secondIn (s : State) (k : Site) (g : SiteCfg) : Option (Option Tok) :=
  if g.in1 = 7 then some none
  else if g.in1 = g.in0 then (s.tokIn k.q k.row k.col g.in1 1).map some
  else (s.headIn k.q k.row k.col g.in1).map some

/-- The CU with a firing in its pipeline. -/
def Cu.firing (c : Cu) (g : SiteCfg) (t0 : Tok) (t1 : Option Tok) (slot cycle : Nat) : Cu :=
  { c with vregs := (fire g c.vregs t0 t1 slot).1, vf := c.vf ++ [{ due := cycle + 28, mask := g.outmask, tok := (fire g c.vregs t0 t1 slot).2 }]
           resv := (List.range 4).map (fun o => c.resv.getD o 0 + if g.outmask.testBit o then 1 else 0) }

/-- The drained row taken from the pipeline's side of the datapath; the last of a tile frees its bank. -/
def Cu.rowTaken (c : Cu) (last : Bool) : Cu :=
  if last then { c with drainq := c.drainq.drop 1, full := c.full.drop 1, fullAt := c.fullAt.drop 1, drainRow := 0 }
  else { c with drainq := c.drainq.drop 1 }

/-- The CU after it fired. -/
def Cu.fired (c : Cu) (g : SiteCfg) (t0 : Tok) (t1 : Option Tok) (slot cycle : Nat) : Cu :=
  if g.in0 = 6 then (c.firing g t0 t1 slot cycle).rowTaken t0.last else c.firing g t0 t1 slot cycle

/-- The inputs of a firing popped. -/
def State.popInputs (s : State) (k : Site) (g : SiteCfg) (t1 : Option Tok) : State :=
  let u := if g.in0 ≤ 5 then s.popIn k.q k.row k.col g.in0 else s
  if t1.isSome then u.popIn k.q k.row k.col g.in1 else u

section
variable {s : State} {k : Site} {g : SiteCfg} {t0 : Tok} {t1 : Option Tok}

/-- The CU of a site may fire: its output queues have room, and no result leaves in the same cycle. -/
structure State.mayFire (s : State) (k : Site) (g : SiteCfg) : Prop where
  runs : s.siteRuns k.q k.row k.col = true
  cu : isCu k.row k.col = true
  cfg : (s.quad k.q).cfg k.row k.col = some g
  used : g.unused = false
  room : ∀ o, o < 4 → g.outmask.testBit o = true → (((s.quad k.q).cu k.row k.col).outq.getD o []).length +
    ((s.quad k.q).cu k.row k.col).resv.getD o 0 +
    (if ((s.quad k.q).cu k.row k.col).rowWaits g s.pw.cycle ((s.quad k.q).did k.row k.col 25) then 2 else 1) ≤ 64
  free : ∀ v ∈ ((s.quad k.q).cu k.row k.col).vf, v.due ≠ s.pw.cycle + 28

theorem exec_vectorFiring (hf : s.mayFire k g) (h0 : s.firstIn k g = some t0) (h1 : s.secondIn k g = some t1) : ∃ n,
    exec (.vectorFiring k) s = .next (((((s.updQuad k.q (fun x => x.setCu k.row k.col (((s.quad k.q).cu k.row k.col).fired g t0 t1
      ((s.quad k.q).slotAt k.row k.col) s.pw.cycle))).popInputs k g t1).cuCount k.q k.row k.col 0 1).worked k.q n 0).progress k.q) := by
  obtain ⟨hruns, hcu, hcfg, hused, hroom, hfree⟩ := hf
  change ∃ n, execVectorFiring k s = _
  unfold execVectorFiring
  dsimp only
  rw [hcfg]
  dsimp only
  rw [if_pos ?open_]
  case open_ =>
    simp only [hruns, hcu, hused, Bool.not_false, Bool.and_self, Bool.true_and, Bool.and_eq_true, List.all_eq_true, maskList, List.mem_filter,
      List.mem_range, decide_eq_true_eq, Bool.not_eq_true', List.any_eq_false, beq_iff_eq]
    exact ⟨fun o ho => hroom o ho.1 ho.2, hfree⟩
  rw [show (if g.in0 = 6 then _ else _ : Option Tok) = some t0 from h0, show (if g.in1 = 7 then _ else _ : Option (Option Tok)) = some t1 from h1]
  cases t1 with
  | none => exact ⟨_, rfl⟩
  | some t1 => exact ⟨_, rfl⟩

theorem State.popInputs_offInq (s : State) (k : Site) (g : SiteCfg) (t1 : Option Tok) (row col : Nat) :
    (s.popInputs k g t1).view (fun x => (x.cu row col).offInq) = s.view (fun x => (x.cu row col).offInq) := by
  have hfirst : (if g.in0 ≤ 5 then s.popIn k.q k.row k.col g.in0 else s).view (fun x => (x.cu row col).offInq) =
      s.view (fun x => (x.cu row col).offInq) := State.ite_view (State.popIn_offInq ..) rfl
  exact State.ite_view ((State.popIn_offInq ..).trans hfirst) hfirst

/-- One input popped. -/
theorem State.popInputs_first (hq : k.q < s.quads.length) (h0 : g.in0 ≤ 5) :
    ((s.popInputs k g none).quad k.q).inq k.row k.col g.in0 = ((s.quad k.q).inq k.row k.col g.in0).drop 1 := by
  simp only [State.popInputs, h0, if_true, Option.isSome_none, Bool.false_eq_true, if_false]
  exact State.popIn_inq _ _ _ _ _ hq

/-- The second input popped, alone or after another. -/
theorem State.popInputs_second (hq : k.q < s.quads.length) (t : Tok) (hne : g.in0 ≤ 5 → g.in0 ≠ g.in1) :
    ((s.popInputs k g (some t)).quad k.q).inq k.row k.col g.in1 = ((s.quad k.q).inq k.row k.col g.in1).drop 1 := by
  simp only [State.popInputs, Option.isSome_some, if_true]
  split
  · next h0 =>
    rw [State.popIn_inq _ _ _ _ _ (by rwa [State.popIn_length])]
    exact congrArg (List.drop 1) (State.view_quad (v := fun x => x.inq k.row k.col g.in1) (State.popIn_inq_ne _ _ _ _ _ _ (hne h0)) k.q)
  · exact State.popIn_inq _ _ _ _ _ hq

/-- The first of two inputs popped. -/
theorem State.popInputs_first_of_two (hq : k.q < s.quads.length) (t : Tok) (h0 : g.in0 ≤ 5) (hne : g.in1 ≠ g.in0) :
    ((s.popInputs k g (some t)).quad k.q).inq k.row k.col g.in0 = ((s.quad k.q).inq k.row k.col g.in0).drop 1 := by
  simp only [State.popInputs, h0, if_true, Option.isSome_some]
  refine (State.view_quad (v := fun x => x.inq k.row k.col g.in0) (State.popIn_inq_ne _ _ _ _ _ _ hne) k.q).trans ?_
  exact State.popIn_inq _ _ _ _ _ hq

/-- One input popped twice. -/
theorem State.popInputs_twice (hq : k.q < s.quads.length) (t : Tok) (h0 : g.in0 ≤ 5) (he : g.in1 = g.in0) :
    ((s.popInputs k g (some t)).quad k.q).inq k.row k.col g.in0 = ((s.quad k.q).inq k.row k.col g.in0).drop 2 := by
  simp only [State.popInputs, h0, if_true, Option.isSome_some, he]
  rw [State.popIn_inq _ _ _ _ _ (by rwa [State.popIn_length]), State.popIn_inq _ _ _ _ _ hq, List.drop_drop]

end

theorem Cu.fired_vf (c : Cu) (g : SiteCfg) (t0 : Tok) (t1 : Option Tok) (slot cycle : Nat) : let d := c.fired g t0 t1 slot cycle
    d.vf = c.vf ++ [{ due := cycle + 28, mask := g.outmask, tok := (fire g c.vregs t0 t1 slot).2 }] ∧
    d.vregs = (fire g c.vregs t0 t1 slot).1 ∧
    ∀ o, o < 4 → d.resv.getD o 0 = c.resv.getD o 0 + if g.outmask.testBit o then 1 else 0 := by
  have hresv (o : Nat) (ho : o < 4) : ((List.range 4).map (fun o => c.resv.getD o 0 + if g.outmask.testBit o then 1 else 0)).getD o 0 =
      c.resv.getD o 0 + if g.outmask.testBit o then 1 else 0 := by
    rw [List.getD_eq_getElem _ _ (by simpa using ho), List.getElem_map, List.getElem_range]
  intro d
  by_cases h6 : g.in0 = 6
  · have hd : d = (c.firing g t0 t1 slot cycle).rowTaken t0.last := if_pos h6
    rw [hd, Cu.rowTaken]
    cases t0.last
    · exact ⟨rfl, rfl, hresv⟩
    · exact ⟨rfl, rfl, hresv⟩
  · have hd : d = c.firing g t0 t1 slot cycle := if_neg h6
    rw [hd]
    exact ⟨rfl, rfl, hresv⟩

theorem Cu.fired_inq (c : Cu) (g : SiteCfg) (t0 : Tok) (t1 : Option Tok) (slot cycle : Nat) : (c.fired g t0 t1 slot cycle).inq = c.inq := by
  unfold Cu.fired Cu.rowTaken Cu.firing
  split
  · split
    · rfl
    · rfl
  · rfl

/-- A firing that takes a drained row. -/
theorem Cu.fired_row (c : Cu) (g : SiteCfg) (t0 : Tok) (t1 : Option Tok) (slot cycle : Nat) (h6 : g.in0 = 6) :
    let d := c.fired g t0 t1 slot cycle
    d.drainq = c.drainq.drop 1 ∧ d.full = (if t0.last then c.full.drop 1 else c.full) ∧ d.drainRow = (if t0.last then 0 else c.drainRow) := by
  intro d
  have hd : d = (c.firing g t0 t1 slot cycle).rowTaken t0.last := if_pos h6
  rw [hd, Cu.rowTaken]
  cases t0.last
  · exact ⟨rfl, rfl, rfl⟩
  · exact ⟨rfl, rfl, rfl⟩

/-- What a firing leaves: the fired CU but for its input queues, and the inputs popped. -/
theorem vectorFiring_leaves {s : State} {k : Site} {g : SiteCfg} {t0 : Tok} {t1 : Option Tok} (hf : s.mayFire k g) (hq : k.q < s.quads.length)
    (h0 : s.firstIn k g = some t0) (h1 : s.secondIn k g = some t1) :
    let c' := ((s.quad k.q).cu k.row k.col).fired g t0 t1 ((s.quad k.q).slotAt k.row k.col) s.pw.cycle
    let u := s.updQuad k.q (fun x => x.setCu k.row k.col c')
    completes (.vectorFiring k) s (fun t => ((t.quad k.q).cu k.row k.col).offInq = c'.offInq ∧
      (∀ dq, (t.quad k.q).inq k.row k.col dq = ((u.popInputs k g t1).quad k.q).inq k.row k.col dq) ∧ onlyParts [.quads, .ctr] s t) := by
  intro c' u
  obtain ⟨n, hstep⟩ := exec_vectorFiring hf h0 h1
  have hunits := State.view_quad (State.workDone_units (u.popInputs k g t1) k.q k.row k.col 1 n 0) k.q
  refine ⟨_, hstep, ?_, fun dq => Quad.inq_of_units hunits .., execVectorFiring_only hstep⟩
  rw [Quad.cu_of_units hunits]
  refine (State.view_quad (v := fun x => (x.cu k.row k.col).offInq) (State.popInputs_offInq ..) k.q).trans ?_
  rw [State.updQuad_quad_self s k.q _ hq, Quad.setCu_cu, if_pos rfl]

/-- Vector firings, by the inputs they take. -/
theorem vectorFiring_fires (s : State) (k : Site) (g : SiteCfg) (t0 : Tok) :
    let x := s.quad k.q
    let c := x.cu k.row k.col
    let need := if c.rowWaits g s.pw.cycle (x.did k.row k.col 25) then 2 else 1
    let fired (t1 : Option Tok) (t : State) : Prop :=
      let r := fire g c.vregs t0 t1 (x.slotAt k.row k.col); let d := (t.quad k.q).cu k.row k.col
      d.vf = c.vf ++ [{ due := s.pw.cycle + 28, mask := g.outmask, tok := r.2 }] ∧ d.vregs = r.1 ∧
      (∀ o, o < 4 → d.resv.getD o 0 = c.resv.getD o 0 + if g.outmask.testBit o then 1 else 0) ∧ onlyParts [.quads, .ctr] s t
    let popped (t : State) (dq n : Nat) : Prop := (t.quad k.q).inq k.row k.col dq = (x.inq k.row k.col dq).drop n
    s.siteRuns k.q k.row k.col = true → k.q < s.quads.length → isCu k.row k.col = true → x.cfg k.row k.col = some g → g.unused = false →
    (∀ o, o < 4 → g.outmask.testBit o = true → (c.outq.getD o []).length + c.resv.getD o 0 + need ≤ 64) →
    (∀ v ∈ c.vf, v.due ≠ s.pw.cycle + 28) →
    (g.in0 ≤ 5 → s.headIn k.q k.row k.col g.in0 = some t0 →
      (g.in1 = 7 → completes (.vectorFiring k) s (fun t => fired none t ∧ popped t g.in0 1)) ∧
      (∀ t1, g.in1 ≤ 5 → g.in1 ≠ g.in0 → s.headIn k.q k.row k.col g.in1 = some t1 →
        completes (.vectorFiring k) s (fun t => fired (some t1) t ∧ popped t g.in0 1 ∧ popped t g.in1 1)) ∧
      (∀ t1, g.in1 = g.in0 → s.tokIn k.q k.row k.col g.in0 1 = some t1 →
        completes (.vectorFiring k) s (fun t => fired (some t1) t ∧ popped t g.in0 2))) ∧
    (g.in0 = 6 → c.drainq.head? = some t0 → ∀ t1 : Option Tok,
      (g.in1 = 7 ∧ t1 = none) ∨ (g.in1 ≤ 5 ∧ t1.isSome = true ∧ s.headIn k.q k.row k.col g.in1 = t1) →
      completes (.vectorFiring k) s (fun t => let d := (t.quad k.q).cu k.row k.col
        fired t1 t ∧ d.drainq = c.drainq.drop 1 ∧ (g.in1 ≤ 5 → popped t g.in1 1) ∧
        d.full = (if t0.last then c.full.drop 1 else c.full) ∧ d.drainRow = (if t0.last then 0 else c.drainRow))) := by
  intro x c need fired popped hruns hq hcu hcfg hused hroom hfree
  have hf : s.mayFire k g := ⟨hruns, hcu, hcfg, hused, hroom, hfree⟩
  let u (t1 : Option Tok) := s.updQuad k.q (fun x => x.setCu k.row k.col (c.fired g t0 t1 (s.quad k.q |>.slotAt k.row k.col) s.pw.cycle))
  have hlen (t1 : Option Tok) : k.q < (u t1).quads.length := by simpa [u] using hq
  have hinq (t1 : Option Tok) (dq : Nat) : ((u t1).quad k.q).inq k.row k.col dq = x.inq k.row k.col dq := by
    rw [State.updQuad_quad_self s k.q _ hq, Quad.setCu_inq _ _ _ _ _ (Cu.fired_inq ..)]
  have hfired {t1 : Option Tok} {t : State} (hc : ((t.quad k.q).cu k.row k.col).offInq =
      (c.fired g t0 t1 (x.slotAt k.row k.col) s.pw.cycle).offInq) (ho : onlyParts [.quads, .ctr] s t) : fired t1 t := by
    obtain ⟨hvf, hregs, hresv⟩ := Cu.fired_vf c g t0 t1 (x.slotAt k.row k.col) s.pw.cycle
    exact ⟨(congrArg Cu.vf hc).trans hvf, (congrArg Cu.vregs hc).trans hregs,
      fun o h4 => (congrArg (fun d => d.resv.getD o 0) hc).trans (hresv o h4), ho⟩
  refine ⟨fun h0 hhead => ⟨fun h7 => ?_, fun t1 h5 hne hhead1 => ?_, fun t1 he htok => ?_⟩, fun h6 hrow t1 hin => ?_⟩
  · have hfirst : s.firstIn k g = some t0 := by rw [State.firstIn, if_neg (by omega), if_neg (by omega), hhead]
    obtain ⟨t, hstep, hc, hp, ho⟩ := vectorFiring_leaves hf hq hfirst (if_pos h7)
    exact ⟨t, hstep, hfired hc ho, (hp _).trans ((State.popInputs_first (hlen none) h0).trans (congrArg _ (hinq ..)))⟩
  · have hfirst : s.firstIn k g = some t0 := by rw [State.firstIn, if_neg (by omega), if_neg (by omega), hhead]
    have hsecond : s.secondIn k g = some (some t1) := by rw [State.secondIn, if_neg (by omega), if_neg hne, hhead1]; rfl
    obtain ⟨t, hstep, hc, hp, ho⟩ := vectorFiring_leaves hf hq hfirst hsecond
    exact ⟨t, hstep, hfired hc ho,
      (hp _).trans ((State.popInputs_first_of_two (hlen _) t1 h0 hne).trans (congrArg _ (hinq ..))),
      (hp _).trans ((State.popInputs_second (hlen _) t1 fun _ => hne.symm).trans (congrArg _ (hinq ..)))⟩
  · have hfirst : s.firstIn k g = some t0 := by rw [State.firstIn, if_neg (by omega), if_neg (by omega), hhead]
    have hsecond : s.secondIn k g = some (some t1) := by rw [State.secondIn, if_neg (by omega), if_pos he, he, htok]; rfl
    obtain ⟨t, hstep, hc, hp, ho⟩ := vectorFiring_leaves hf hq hfirst hsecond
    exact ⟨t, hstep, hfired hc ho, (hp _).trans ((State.popInputs_twice (hlen _) t1 h0 he).trans (congrArg _ (hinq ..)))⟩
  · have hfirst : s.firstIn k g = some t0 := by rw [State.firstIn, if_pos h6]; exact hrow
    have hsecond : s.secondIn k g = some t1 := by
      obtain ⟨h7, rfl⟩ | ⟨h5, hsome, hhead⟩ := hin
      · exact if_pos h7
      · obtain ⟨t, rfl⟩ := Option.isSome_iff_exists.mp hsome
        rw [State.secondIn, if_neg (by omega), if_neg (by omega), hhead]
        rfl
    obtain ⟨t, hstep, hc, hp, ho⟩ := vectorFiring_leaves hf hq hfirst hsecond
    obtain ⟨hd, hfull, hr⟩ := Cu.fired_row c g t0 t1 (x.slotAt k.row k.col) s.pw.cycle h6
    refine ⟨t, hstep, hfired hc ho, (congrArg Cu.drainq hc).trans hd, fun h5 => ?_, (congrArg Cu.full hc).trans hfull,
      (congrArg Cu.drainRow hc).trans hr⟩
    obtain ⟨h7, -⟩ | ⟨-, hsome, -⟩ := hin
    · omega
    · obtain ⟨tk, rfl⟩ := Option.isSome_iff_exists.mp hsome
      exact (hp _).trans ((State.popInputs_second (hlen _) tk fun h0 => by omega).trans (congrArg _ (hinq ..)))

end Sys2Proof.Machine
end

section
/-! The operand feed and the side path of a compute unit (R40, R95). -/

namespace Sys2Proof.Machine

open Config

/-! ### What a pop leaves besides the units -/

/-- All of a quadrant but its units, what they did, and the credits on their way back. -/
def Quad.offFlow (x : Quad) : Quad := { x with cus := [], mus := [], acts := [], credRet := [] }

theorem State.popIn_offFlow (s : State) (q row col dq : Nat) : (s.popIn q row col dq).view Quad.offFlow = s.view Quad.offFlow := by
  unfold State.popIn
  dsimp only
  refine (State.view_comp Quad.offFlow (State.owe_offCred ..)).trans (State.updQuad_view _ _ fun x => ?_)
  unfold Quad.setInq
  split <;> rfl

theorem Quad.slotAt_of_offFlow {x y : Quad} (h : x.offFlow = y.offFlow) (row col : Nat) : x.slotAt row col = y.slotAt row col := by
  have hslot := congrArg (fun z => z.slotAt row col) h
  exact hslot

theorem Quad.act_fresh_ne (x : Quad) (row col n code : Nat) (h : n ≠ code) : (x.act row col n).fresh row col code = x.fresh row col code := by
  simp [Quad.act, Quad.fresh, List.count_append, h]

theorem Quad.setInq_fresh (x : Quad) (row col dq r c code : Nat) (ts : List Tok) : (x.setInq row col dq ts).fresh r c code = x.fresh r c code := by
  unfold Quad.setInq
  split <;> rfl

/-- A pop is no arrival. -/
theorem State.popIn_fresh (s : State) (q row col dq code : Nat) (h : code < 90) :
    (s.popIn q row col dq).view (fun x => x.fresh row col code) = s.view (fun x => x.fresh row col code) := by
  unfold State.popIn
  dsimp only
  refine (State.view_comp (fun x => x.fresh row col code) (State.owe_offCred ..)).trans (State.updQuad_view _ _ fun x => ?_)
  exact (Quad.act_fresh_ne _ _ _ _ _ (by omega)).trans (Quad.setInq_fresh ..)

/-- The head of one queue after the head of another is popped. -/
theorem State.popIn_headIn_ne (s : State) (q row col dq n : Nat) (h : dq ≠ n) (hn : n < 90) :
    (s.popIn q row col dq).headIn q row col n = s.headIn q row col n := by
  have hinq : ((s.popIn q row col dq).quad q).inq row col n = (s.quad q).inq row col n :=
    State.view_quad (v := fun x => x.inq row col n) (State.popIn_inq_ne _ _ _ _ _ _ h) q
  have hfresh : ((s.popIn q row col dq).quad q).fresh row col n = (s.quad q).fresh row col n :=
    State.view_quad (v := fun x => x.fresh row col n) (State.popIn_fresh _ _ _ _ _ _ hn) q
  have hslot := Quad.slotAt_of_offFlow (State.view_quad (State.popIn_offFlow s q row col dq) q) row col
  simp only [State.headIn, State.tokIn, hinq, hfresh, hslot]

/-! ### A side takes a token (R40) -/

theorem SiteCfg.aq_lt (g : SiteCfg) : g.aq < 8 := Nat.mod_lt _ (by decide)

theorem SiteCfg.bq_lt (g : SiteCfg) : g.bq < 8 := Nat.mod_lt _ (by decide)

/-- The queue of a side. -/
def SiteCfg.sideQ (g : SiteCfg) (sideB : Bool) : Nat := if sideB then g.bq else g.aq

theorem SiteCfg.sideQ_lt (g : SiteCfg) (sideB : Bool) : g.sideQ sideB < 8 := by
  cases sideB
  · exact g.aq_lt
  · exact g.bq_lt

/-- The CU with a token in a side. -/
def Cu.fed (c : Cu) (m : MWord) (sideB : Bool) (kind : StrKind) (t : Tok) (cycle : Nat) : Cu := (c.sideTake m sideB kind t).noteReady m cycle

theorem Cu.fed_inq (c : Cu) (m : MWord) (sideB : Bool) (kind : StrKind) (t : Tok) (cycle : Nat) : (c.fed m sideB kind t cycle).inq = c.inq := by
  unfold Cu.fed Cu.sideTake
  cases sideB
  · rw [if_neg (by decide)]
    split
    · rfl
    · rfl
  · rw [if_pos rfl]
    split
    · rfl
    · rfl

theorem Cu.sideNext_of_offInq {c d : Cu} (h : c.offInq = d.offInq) (m : MWord) (sideB : Bool) : c.sideNext m sideB = d.sideNext m sideB := by
  have hnext := congrArg (fun e : Cu => e.sideNext m sideB) h
  exact hnext

/-- What one side takes is nothing to the other. -/
theorem Cu.fed_sideNext_other (c : Cu) (m : MWord) (sideB : Bool) (kind : StrKind) (t : Tok) (cycle : Nat) :
    (c.fed m sideB kind t cycle).sideNext m (!sideB) = c.sideNext m (!sideB) := by
  unfold Cu.fed Cu.sideTake
  cases sideB
  · rw [if_neg (by decide)]
    split
    · rfl
    · rfl
  · rw [if_pos rfl]
    split
    · rfl
    · rfl

section
variable {s : State} {k : Site} {g : SiteCfg} {m : MWord} {sideB : Bool} {kind : StrKind} {t : Tok}

theorem State.sideFill_eq (hn : ((s.quad k.q).cu k.row k.col).sideNext m sideB = some kind)
    (ht : s.headIn k.q k.row k.col (g.sideQ sideB) = some t) : s.sideFill k g m sideB =
      (s.updQuad k.q (fun x => x.setCu k.row k.col ((x.cu k.row k.col).fed m sideB kind t s.pw.cycle))).popIn
        k.q k.row k.col (g.sideQ sideB) := by
  unfold State.sideFill
  dsimp only
  rw [hn, show s.headIn k.q k.row k.col (if sideB then g.bq else g.aq) = some t from ht]
  rfl

theorem State.sideFill_length : (s.sideFill k g m sideB).quads.length = s.quads.length := by
  unfold State.sideFill
  dsimp only
  split
  · rw [State.popIn_length, State.updQuad_length]
  · rfl

/-- The side's queue loses its head. -/
theorem State.sideFill_inq (hq : k.q < s.quads.length) (hn : ((s.quad k.q).cu k.row k.col).sideNext m sideB = some kind)
    (ht : s.headIn k.q k.row k.col (g.sideQ sideB) = some t) :
    ((s.sideFill k g m sideB).quad k.q).inq k.row k.col (g.sideQ sideB) = ((s.quad k.q).inq k.row k.col (g.sideQ sideB)).drop 1 := by
  rw [State.sideFill_eq hn ht, State.popIn_inq _ _ _ _ _ (by simpa using hq), State.updQuad_quad_self s k.q _ hq,
    Quad.setCu_inq _ _ _ _ _ (Cu.fed_inq ..)]

/-- The other queues keep theirs. -/
theorem State.sideFill_inq_ne (n : Nat) (h : g.sideQ sideB ≠ n) :
    ((s.sideFill k g m sideB).quad k.q).inq k.row k.col n = (s.quad k.q).inq k.row k.col n := by
  refine State.view_quad (v := fun x => x.inq k.row k.col n) ?_ k.q
  unfold State.sideFill
  dsimp only
  split
  · refine (State.popIn_inq_ne _ _ _ _ _ _ h).trans (State.updQuad_view _ _ fun x => ?_)
    exact Quad.setCu_inq _ _ _ _ _ (Cu.fed_inq ..)
  · rfl

/-- A side that can take an element token. -/
theorem State.sideReady_iff : s.sideReady k g m sideB = true ↔
    ((s.quad k.q).cu k.row k.col).sideNext m sideB = some .elem ∧ ∃ t, s.headIn k.q k.row k.col (g.sideQ sideB) = some t := by
  rw [← Option.isSome_iff_exists]
  unfold State.sideReady SiteCfg.sideQ
  rw [Bool.and_eq_true, beq_iff_eq]

/-- The other side is ready as before. -/
theorem State.sideFill_sideReady_other (hq : k.q < s.quads.length) (hab : g.aq ≠ g.bq)
    (hn : ((s.quad k.q).cu k.row k.col).sideNext m sideB = some kind) (ht : s.headIn k.q k.row k.col (g.sideQ sideB) = some t) :
    (s.sideFill k g m sideB).sideReady k g m (!sideB) = s.sideReady k g m (!sideB) := by
  have hne : g.sideQ sideB ≠ g.sideQ (!sideB) := by
    cases sideB
    · exact hab
    · exact hab.symm
  let u := s.updQuad k.q (fun x => x.setCu k.row k.col ((x.cu k.row k.col).fed m sideB kind t s.pw.cycle))
  have hu : u.quad k.q = _ := State.updQuad_quad_self s k.q _ hq
  have hcu : (((s.sideFill k g m sideB).quad k.q).cu k.row k.col).offInq =
      (((s.quad k.q).cu k.row k.col).fed m sideB kind t s.pw.cycle).offInq := by
    rw [State.sideFill_eq hn ht]
    refine (State.view_quad (v := fun x => (x.cu k.row k.col).offInq) (State.popIn_offInq ..) k.q).trans ?_
    rw [hu, Quad.setCu_cu, if_pos rfl]
  have hnext : (((s.sideFill k g m sideB).quad k.q).cu k.row k.col).sideNext m (!sideB) =
      ((s.quad k.q).cu k.row k.col).sideNext m (!sideB) :=
    (Cu.sideNext_of_offInq hcu ..).trans (Cu.fed_sideNext_other ..)
  have hhead : (s.sideFill k g m sideB).headIn k.q k.row k.col (g.sideQ (!sideB)) = s.headIn k.q k.row k.col (g.sideQ (!sideB)) := by
    rw [State.sideFill_eq hn ht, State.popIn_headIn_ne _ _ _ _ _ _ hne (by have := g.sideQ_lt (!sideB); omega)]
    simp only [State.headIn, State.tokIn]
    rw [hu, Quad.setCu_inq _ _ _ _ _ (Cu.fed_inq ..)]
    rfl
  rw [Bool.eq_iff_iff, State.sideReady_iff, State.sideReady_iff, hnext, hhead]

/-- The feed of one side takes one token or two. -/
theorem State.elemFill_two (hq : k.q < s.quads.length) (hr : s.sideReady k g m sideB = true) :
    let t := State.elemFill k g m sideB 2 s
    ((t.quad k.q).inq k.row k.col (g.sideQ sideB) = ((s.quad k.q).inq k.row k.col (g.sideQ sideB)).drop 1 ∨
      (t.quad k.q).inq k.row k.col (g.sideQ sideB) = ((s.quad k.q).inq k.row k.col (g.sideQ sideB)).drop 2) ∧
    ∀ n, g.sideQ sideB ≠ n → (t.quad k.q).inq k.row k.col n = (s.quad k.q).inq k.row k.col n := by
  obtain ⟨hn, t0, ht⟩ := State.sideReady_iff.mp hr
  have hone := State.sideFill_inq hq hn ht
  simp only [State.elemFill, hr, if_true]
  split
  · next hr2 =>
    obtain ⟨hn2, t2, ht2⟩ := State.sideReady_iff.mp hr2
    refine ⟨.inr ?_, fun n h => (State.sideFill_inq_ne n h).trans (State.sideFill_inq_ne n h)⟩
    rw [State.sideFill_inq (by rwa [State.sideFill_length]) hn2 ht2, hone, List.drop_drop]
  · exact ⟨.inl hone, fun n h => State.sideFill_inq_ne n h⟩

end

/-! ### OPERAND_FILL and SIDE_TOKEN -/

theorem State.act_inq (s : State) (k : Site) (code n : Nat) :
    ((s.updQuad k.q (fun x => x.act k.row k.col code)).quad k.q).inq k.row k.col n = (s.quad k.q).inq k.row k.col n := by
  refine State.view_quad (v := fun x => x.inq k.row k.col n) (State.updQuad_view _ _ fun x => ?_) k.q
  exact Quad.act_inq ..

/-- The operand feed of a cycle. -/
theorem operandFill_feeds (s : State) (k : Site) (g : SiteCfg) (m : MWord) :
    let x := s.quad k.q
    let popped (t : State) (dq n : Nat) : Prop := (t.quad k.q).inq k.row k.col dq = (x.inq k.row k.col dq).drop n
    s.matrixAt k = some (g, m) → k.q < s.quads.length → x.did k.row k.col 22 = false → g.aq ≠ g.bq →
    (s.sideReady k g m false = true → s.sideReady k g m true = true →
      completes (.operandFill k) s (fun t => popped t g.aq 1 ∧ popped t g.bq 1 ∧ onlyParts [.quads] s t)) ∧
    (s.sideReady k g m false = true → s.sideReady k g m true = false →
      completes (.operandFill k) s (fun t => (popped t g.aq 1 ∨ popped t g.aq 2) ∧ popped t g.bq 0 ∧ onlyParts [.quads] s t)) ∧
    (s.sideReady k g m false = false → s.sideReady k g m true = true →
      completes (.operandFill k) s (fun t => (popped t g.bq 1 ∨ popped t g.bq 2) ∧ popped t g.aq 0 ∧ onlyParts [.quads] s t)) := by
  intro x popped hm hq hdid hab
  have hexec (u : State) (hu : execOperandFill k s = .next (u.updQuad k.q (fun x => x.act k.row k.col 22))) (P : State → Prop)
      (hP : P (u.updQuad k.q (fun x => x.act k.row k.col 22))) :
      completes (.operandFill k) s (fun t => P t ∧ onlyParts [.quads] s t) := ⟨_, hu, hP, execOperandFill_only hu⟩
  refine ⟨fun ha hb => ?_, fun ha hb => ?_, fun ha hb => ?_⟩
  · obtain ⟨hna, ta, hta⟩ := State.sideReady_iff.mp ha
    obtain ⟨hnb, tb, htb⟩ := State.sideReady_iff.mp ((State.sideFill_sideReady_other hq hab hna hta).trans hb)
    have hpa : (((s.sideFill k g m false).sideFill k g m true).quad k.q).inq k.row k.col g.aq = (x.inq k.row k.col g.aq).drop 1 :=
      (State.sideFill_inq_ne (sideB := true) _ hab.symm).trans (State.sideFill_inq (sideB := false) hq hna hta)
    have hpb : (((s.sideFill k g m false).sideFill k g m true).quad k.q).inq k.row k.col g.bq = (x.inq k.row k.col g.bq).drop 1 :=
      (State.sideFill_inq (sideB := true) (by rwa [State.sideFill_length]) hnb htb).trans
        (congrArg (List.drop 1) (State.sideFill_inq_ne (sideB := false) _ hab))
    obtain ⟨t, hstep, ⟨hpa, hpb⟩, ho⟩ := hexec ((s.sideFill k g m false).sideFill k g m true)
      (by unfold execOperandFill; rw [hm]; dsimp only; rw [if_neg (by rw [hdid]; decide), ha, hb])
      (fun t => popped t g.aq 1 ∧ popped t g.bq 1) ⟨(State.act_inq ..).trans hpa, (State.act_inq ..).trans hpb⟩
    exact ⟨t, hstep, hpa, hpb, ho⟩
  · obtain ⟨htwo, hrest⟩ := State.elemFill_two hq ha
    obtain ⟨t, hstep, ⟨hpa, hpb⟩, ho⟩ := hexec (State.elemFill k g m false 2 s)
      (by unfold execOperandFill; rw [hm]; dsimp only; rw [if_neg (by rw [hdid]; decide), ha, hb])
      (fun t => (popped t g.aq 1 ∨ popped t g.aq 2) ∧ popped t g.bq 0)
      ⟨htwo.imp (State.act_inq ..).trans (State.act_inq ..).trans, (State.act_inq ..).trans (hrest _ hab)⟩
    exact ⟨t, hstep, hpa, hpb, ho⟩
  · obtain ⟨htwo, hrest⟩ := State.elemFill_two hq hb
    obtain ⟨t, hstep, ⟨hpa, hpb⟩, ho⟩ := hexec (State.elemFill k g m true 2 s)
      (by unfold execOperandFill; rw [hm]; dsimp only; rw [if_neg (by rw [hdid]; decide), ha, hb])
      (fun t => (popped t g.bq 1 ∨ popped t g.bq 2) ∧ popped t g.aq 0)
      ⟨htwo.imp (State.act_inq ..).trans (State.act_inq ..).trans, (State.act_inq ..).trans (hrest _ hab.symm)⟩
    exact ⟨t, hstep, hpa, hpb, ho⟩

/-- A token of the side path. -/
theorem sideToken_takes (s : State) (k : Site) (g : SiteCfg) (m : MWord) (sideB : Bool) (kind : StrKind) :
    let x := s.quad k.q
    let dq := if sideB then g.bq else g.aq
    s.matrixAt k = some (g, m) → k.q < s.quads.length → (x.cu k.row k.col).sideNext m sideB = some kind → kind ≠ .elem →
    x.did k.row k.col (if sideB then 24 else 23) = false → (s.headIn k.q k.row k.col dq).isSome = true →
    completes (.sideToken k sideB) s (fun t => (t.quad k.q).inq k.row k.col dq = (x.inq k.row k.col dq).drop 1 ∧
      (t.quad k.q).did k.row k.col (if sideB then 24 else 23) = true ∧ onlyParts [.quads] s t) := by
  intro x dq hm hq hn hkind hdid hhead
  obtain ⟨t, ht⟩ := Option.isSome_iff_exists.mp hhead
  have hstep : execSideToken k sideB s =
      .next ((s.sideFill k g m sideB).updQuad k.q (fun x => x.act k.row k.col (if sideB then 24 else 23))) := by
    unfold execSideToken
    rw [hm]
    dsimp only
    rw [hn]
    have hopen : ((s.quad k.q).did k.row k.col (if sideB then 24 else 23) ||
        (s.headIn k.q k.row k.col (if sideB then g.bq else g.aq)).isNone) ≠ true := by
      rw [hdid, show s.headIn k.q k.row k.col (if sideB then g.bq else g.aq) = some t from ht]
      exact Bool.false_ne_true
    cases kind with
    | elem => exact absurd rfl hkind
    | occ => exact congrArg _ (if_neg hopen)
    | meta_ => exact congrArg _ (if_neg hopen)
    | scale => exact congrArg _ (if_neg hopen)
  refine ⟨_, hstep, (State.act_inq ..).trans (State.sideFill_inq hq hn ht), ?_, execSideToken_only hstep⟩
  rw [State.updQuad_quad_self _ k.q _ (by rwa [State.sideFill_length]), Quad.act_did]

end Sys2Proof.Machine
end

section
/-! Matrix steps, chunk ends and tile drains (R43 to R45, R97, R98), and the obligation O54. -/

namespace Sys2Proof.Machine

open Config

/-! ### A group enters the bank (R98) -/

/-- A row that no token read has live stays out of what the tokens have live together. -/
theorem foldl_pred_getLsbD {f : Nat → Option Tok} (i : Nat) (l : List Nat) (p : BitVec 32)
    (h : (l.foldl (fun p d => match f d with | some t => p ||| t.pred | none => p) p).getLsbD i = false) :
    p.getLsbD i = false ∧ ∀ d ∈ l, ∀ t, f d = some t → t.pred.getLsbD i = false := by
  induction l generalizing p with
  | nil => exact ⟨h, fun d hd => by simp at hd⟩
  | cons d l ih =>
    rw [List.foldl_cons] at h
    obtain ⟨hp, hl⟩ := ih _ h
    cases hf : f d with
    | none =>
      rw [hf] at hp
      refine ⟨hp, fun e he t ht => ?_⟩
      obtain rfl | he := List.mem_cons.mp he
      · rw [hf] at ht
        cases ht
      · exact hl e he t ht
    | some u =>
      rw [hf] at hp
      obtain ⟨hp, hu⟩ := Bool.or_eq_false_iff.mp ((BitVec.getLsbD_or ..).symm.trans hp)
      refine ⟨hp, fun e he t ht => ?_⟩
      obtain rfl | he := List.mem_cons.mp he
      · rw [hf] at ht
        obtain rfl := Option.some.inj ht
        exact hu
      · exact hl e he t ht

/-- Without an A element a cell stays. -/
theorem MWord.cell_of_no_a (m : MWord) (a b : OpSlot) (i j k0 n : Nat) (c : BitVec 32) (h : ∀ d, d < n → m.aElem a i (k0 + d) = none) :
    m.cell a b i j k0 n c = (c, false) := by
  have hprod : m.products a b i j k0 n = [] := by
    refine List.filterMap_eq_nil_iff.mpr fun d hd => ?_
    rw [h d (List.mem_range.mp hd)]
  rw [MWord.cell, hprod]

/-- Every cell of the bank takes in the group's sum. -/
theorem MWord.enterGroup_cell (m : MWord) (a b : OpSlot) (bank : Bank) (k0 n i j : Nat) (hlen : bank.cells = [] ∨ bank.cells.length = 1024)
    (hi : i < 32) (hj : j < 32) : (m.enterGroup a b bank k0 n).1.cells.getD (32 * i + j) 0 =
      (m.cell a b i j k0 n (bank.cells.getD (32 * i + j) 0)).1 := by
  unfold MWord.enterGroup
  dsimp only
  generalize hold : (if bank.cells.isEmpty then List.replicate 1024 0 else bank.cells) = old
  have hsize : old.length = 1024 := by
    rw [← hold]
    obtain h | h := hlen
    · rw [h, if_pos List.isEmpty_nil, List.length_replicate]
    · rw [if_neg (by rw [List.isEmpty_iff]; rintro h0; simp [h0] at h), h]
  have hcell : old.getD (32 * i + j) 0 = bank.cells.getD (32 * i + j) 0 := by
    rw [← hold]
    obtain h | h := hlen
    · rw [h, if_pos List.isEmpty_nil, List.getD_replicate _ (by omega), List.getD_nil]
    · rw [if_neg (by rw [List.isEmpty_iff]; rintro h0; simp [h0] at h)]
  have hix : 32 * i + j < old.length := by omega
  rw [← hcell, List.getD_eq_getElem _ _ (by simpa using hix), List.getD_eq_getElem _ _ hix]
  simp only [List.getElem_map, List.getElem_zipIdx, Nat.zero_add]
  rw [show (32 * i + j) / 32 = i by omega, show (32 * i + j) % 32 = j by omega]
  split
  · rfl
  · next hrow =>
    obtain ⟨-, hdead⟩ := foldl_pred_getLsbD i (List.range n) 0#32 (Bool.eq_false_iff.mpr hrow)
    rw [MWord.cell_of_no_a]
    intro d hd
    unfold MWord.aElem
    split
    · next t ht => rw [if_neg (by rw [hdead d (List.mem_range.mpr hd) t ht]; decide)]
    · rfl

/-! ### A step (R43, R97) -/

/-- The bank with step t of the chunk in it, and the clamped additions. -/
def MWord.stepBank (m : MWord) (c : Cu) (t : Nat) : Bank × Nat :=
  let bank : Bank := { c.bank with
    oper := (List.range 32).map (fun i => c.bank.oper.getD i 0 ||| (if (predsOf (m.aToksOf c.aCur t)).getLsbD i then m.colsOf c.bCur t else 0))
    poison := c.bank.poison || decide (m.badMeta c.bCur t > 0) }
  if (t + 1) * m.kA % m.groupLen = 0 then m.enterGroup c.aCur c.bCur bank ((t + 1) * m.kA - m.groupLen) m.groupLen else (bank, 0)

/-- The sums that a step's group enters. -/
def MWord.sumsIn (m : MWord) (c : Cu) (t : Nat) (b : Bank) : Prop :=
  ((t + 1) * m.kA % m.groupLen ≠ 0 → b.cells = c.bank.cells) ∧
  ((t + 1) * m.kA % m.groupLen = 0 → ∀ i j, i < 32 → j < 32 → b.cells.getD (32 * i + j) 0 =
    (m.cell c.aCur c.bCur i j ((t + 1) * m.kA - m.groupLen) m.groupLen (c.bank.cells.getD (32 * i + j) 0)).1)

theorem MWord.stepBank_sums (m : MWord) (c : Cu) (t : Nat) (hlen : c.bank.cells = [] ∨ c.bank.cells.length = 1024) :
    m.sumsIn c t (m.stepBank c t).1 := by
  unfold MWord.stepBank
  dsimp only
  refine ⟨fun h => by rw [if_neg h], fun h i j hi hj => ?_⟩
  rw [if_pos h]
  exact MWord.enterGroup_cell m c.aCur c.bCur _ _ _ i j hlen hi hj

/-- The CU with step t done. -/
def Cu.stepped (c : Cu) (m : MWord) (t cycle : Nat) : Cu :=
  { c with bank := (m.stepBank c t).1, stepIx := t + 1, stepAt := some cycle, readyAt := none
           blockAt := if m.startsBlock t then cycle else c.blockAt }

section
variable {s : State} {k : Site} {g : SiteCfg} {m : MWord} {n skipped : Nat}

/-- The datapath may go on: a bank is free, and the chunk's occupancy is known. -/
def Cu.mayStep (c : Cu) (m : MWord) : Prop :=
  ¬ (c.stepIx = 0 ∧ c.chunkIx = 0 ∧ 2 ≤ c.full.length) ∧ (m.zskip = true → c.bCur.occ.isSome = true)

theorem Cu.mayStep.open_ {c : Cu} (h : c.mayStep m) : ¬ ((c.stepIx = 0 ∧ c.chunkIx = 0 ∧ c.full.length ≥ 2) ∨ (m.zskip ∧ c.bCur.occ.isNone)) := by
  rintro (hfull | ⟨hz, hnone⟩)
  · exact h.1 hfull
  · have := h.2 hz
    cases hocc : c.bCur.occ
    · simp [hocc] at this
    · simp [hocc] at hnone

theorem State.cuCount_quads (u : State) (q row col ix n : Nat) : (u.cuCount q row col ix n).quads = u.quads := rfl

/-- Counters of a CU leave the units. -/
theorem State.countIf_units (u : State) (q row col ix n : Nat) :
    (if n = 0 then u else u.cuCount q row col ix n).view Quad.units = u.view Quad.units := State.ite_view rfl rfl

/-- The rest of a chunk that is empty blocks ends it. -/
theorem matrixStep_passes (hm : s.matrixAt k = some (g, m)) (hq : k.q < s.quads.length) (hmay : ((s.quad k.q).cu k.row k.col).mayStep m)
    (hn : m.skipTo ((s.quad k.q).cu k.row k.col).bCur.occ 129 ((s.quad k.q).cu k.row k.col).stepIx 0 = (n, skipped)) (hk : m.ksteps ≤ n)
    (hin : m.allIn ((s.quad k.q).cu k.row k.col) = true) :
    let c := (s.quad k.q).cu k.row k.col
    completes (.matrixStep k) s (fun t => (t.quad k.q).cu k.row k.col =
      ({ c.endChunk m (c.lastStep s.pw.cycle) with readyAt := none } : Cu).noteReady m (c.stepAt.getD s.pw.cycle) ∧
      onlyParts [.quads, .ctr] s t) := by
  intro c
  have hstep : execMatrixStep k s = .next ((s.updQuad k.q (fun x => x.setCu k.row k.col
      (({ c.endChunk m (c.lastStep s.pw.cycle) with readyAt := none } : Cu).noteReady m (c.stepAt.getD s.pw.cycle)))).cuCount
        k.q k.row k.col 3 skipped) := by
    unfold execMatrixStep
    rw [hm]
    dsimp only
    rw [hn]
    dsimp only
    rw [if_neg hmay.open_, if_pos hk, if_pos hin]
  refine ⟨_, hstep, ?_, execMatrixStep_only hstep⟩
  rw [State.quad_congr (State.cuCount_quads ..), State.updQuad_quad_self s k.q _ hq, Quad.setCu_cu, if_pos rfl]

/-- A step whose operands and scales are there is done. -/
theorem matrixStep_steps {after tail : Nat} (hm : s.matrixAt k = some (g, m)) (hq : k.q < s.quads.length)
    (hmay : ((s.quad k.q).cu k.row k.col).mayStep m)
    (hn : m.skipTo ((s.quad k.q).cu k.row k.col).bCur.occ 129 ((s.quad k.q).cu k.row k.col).stepIx 0 = (n, skipped)) (hk : n < m.ksteps)
    (haft : m.skipTo ((s.quad k.q).cu k.row k.col).bCur.occ 129 (n + 1) 0 = (after, tail))
    (hready : (!(s.quad k.q).did k.row k.col 21 && m.aHas ((s.quad k.q).cu k.row k.col).aCur n && m.bHas ((s.quad k.q).cu k.row k.col).bCur n &&
      ((s.quad k.q).cu k.row k.col).scalesAt m n s.pw.cycle) = true) :
    let c := (s.quad k.q).cu k.row k.col
    let d := c.stepped m n s.pw.cycle
    completes (.matrixStep k) s (fun t => (t.quad k.q).cu k.row k.col =
      (if decide (m.ksteps ≤ after) && m.allIn c then d.endChunk m s.pw.cycle else d).noteReady m s.pw.cycle ∧ onlyParts [.quads, .ctr] s t) := by
  intro c d
  let u := s.updQuad k.q (fun x => (x.setCu k.row k.col
    ((if decide (m.ksteps ≤ after) && m.allIn c then d.endChunk m s.pw.cycle else d).noteReady m s.pw.cycle)).act k.row k.col 21)
  have hstep : ∃ t, execMatrixStep k s = .next t ∧ t.view Quad.units = u.view Quad.units := by
    unfold execMatrixStep
    rw [hm]
    dsimp only
    rw [hn]
    dsimp only
    rw [if_neg hmay.open_, if_neg (by omega), if_pos hready, haft]
    refine ⟨_, rfl, ?_⟩
    refine (State.updQuad_view _ _ fun _ => by rfl).trans ((State.updQuad_view _ _ fun _ => by rfl).trans ?_)
    refine (State.countIf_units ..).trans ((State.countIf_units ..).trans ((State.countIf_units ..).trans ((State.countIf_units ..).trans
      ((State.countIf_units ..).trans ?_))))
    rfl
  obtain ⟨t, hstep, hunits⟩ := hstep
  refine ⟨t, hstep, ?_, execMatrixStep_only hstep⟩
  rw [Quad.cu_of_units (State.view_quad hunits k.q), State.updQuad_quad_self s k.q _ hq, Quad.act_cu, Quad.setCu_cu, if_pos rfl]

end

/-! ### What a step or a chunk's end leaves (R41, R43) -/

/-- The bank of a chunk that ends. -/
def Cu.chunkBank (c : Cu) : Bank := { c.bank with poison := c.bank.poison || c.aCur.poisoned || c.bCur.poisoned }

/-- The CU whose chunk has ended and whose slots have retired. -/
def Cu.slotsRetired (c : Cu) (m : MWord) : Cu :=
  let keep := decide (c.reuseIx + 1 < m.reuse)
  let c := { c with bank := c.chunkBank, stepIx := 0 }
  let c := if keep && !m.holdB then c else { c with aCur := c.aNext, aNext := OpSlot.empty }
  if keep && m.holdB then c else { c with bCur := c.bNext, bNext := OpSlot.empty }

theorem Cu.slotsRetired_tile (c : Cu) (m : MWord) : let d := c.slotsRetired m
    d.stepIx = 0 ∧ d.chunkIx = c.chunkIx ∧ d.bank = c.chunkBank ∧ d.full = c.full ∧ d.fullAt = c.fullAt := by
  intro d
  simp only [d, Cu.slotsRetired]
  split
  · split
    · exact ⟨rfl, rfl, rfl, rfl, rfl⟩
    · exact ⟨rfl, rfl, rfl, rfl, rfl⟩
  · split
    · exact ⟨rfl, rfl, rfl, rfl, rfl⟩
    · exact ⟨rfl, rfl, rfl, rfl, rfl⟩

theorem Cu.endChunk_eq (c : Cu) (m : MWord) (cycle : Nat) : c.endChunk m cycle =
    if (c.slotsRetired m).chunkIx + 1 < m.kchunks then { c.slotsRetired m with chunkIx := (c.slotsRetired m).chunkIx + 1 }
    else { c.slotsRetired m with
      chunkIx := 0, reuseIx := if decide (c.reuseIx + 1 < m.reuse) then (c.slotsRetired m).reuseIx + 1 else 0, bank := Bank.empty
      full := (c.slotsRetired m).full ++ [(c.slotsRetired m).bank], fullAt := (c.slotsRetired m).fullAt ++ [cycle] } := rfl

/-- A chunk that ends: the next one begins, or the tile waits to drain. -/
def Cu.Ended (d c : Cu) (m : MWord) (at_ : Nat) (p : Bank → Prop) : Prop := d.stepIx = 0 ∧
  (c.chunkIx + 1 < m.kchunks → d.chunkIx = c.chunkIx + 1 ∧ p d.bank ∧ d.full = c.full) ∧
  (m.kchunks ≤ c.chunkIx + 1 → d.chunkIx = 0 ∧ d.fullAt = c.fullAt ++ [at_] ∧ ∃ b, p b ∧ d.full = c.full ++ [b])

theorem Cu.endChunk_ended (c : Cu) (m : MWord) (cycle : Nat) (p : Bank → Prop) (hp : p c.chunkBank) : (c.endChunk m cycle).Ended c m cycle p := by
  obtain ⟨hstep, hchunk, hbank, hfull, hat⟩ := c.slotsRetired_tile m
  rw [Cu.endChunk_eq, hchunk]
  by_cases hmore : c.chunkIx + 1 < m.kchunks
  · rw [if_pos hmore]
    exact ⟨hstep, fun _ => ⟨rfl, hbank ▸ hp, hfull⟩, fun h => by omega⟩
  · rw [if_neg hmore]
    exact ⟨hstep, fun h => absurd h hmore, fun _ => ⟨rfl, by rw [hat], c.chunkBank, hp, by rw [hfull, hbank]⟩⟩

theorem Cu.Ended.noted {d c : Cu} {m : MWord} {a : Nat} {p : Bank → Prop} (h : d.Ended c m a p) (cycle : Nat) :
    (d.noteReady m cycle).Ended c m a p := h

theorem Cu.Ended.unready {d c : Cu} {m : MWord} {a : Nat} {p : Bank → Prop} (h : d.Ended c m a p) :
    ({ d with readyAt := none } : Cu).Ended c m a p := h

/-- The step that ends a chunk. -/
theorem Cu.stepped_ended (c : Cu) (m : MWord) (t cycle : Nat) (p : Bank → Prop) (hp : p (c.stepped m t cycle).chunkBank) :
    ((c.stepped m t cycle).endChunk m cycle).Ended c m cycle p := by
  obtain ⟨hstep, hmore, hlast⟩ := Cu.endChunk_ended (c.stepped m t cycle) m cycle p hp
  exact ⟨hstep, hmore, hlast⟩

theorem Cu.stepped_sums (c : Cu) (m : MWord) (t cycle : Nat) (hlen : c.bank.cells = [] ∨ c.bank.cells.length = 1024) :
    m.sumsIn c t (c.stepped m t cycle).chunkBank := by
  obtain ⟨hno, hyes⟩ := MWord.stepBank_sums m c t hlen
  exact ⟨hno, hyes⟩

/-- MATRIX_STEP. -/
theorem matrixStep_acts (s : State) (k : Site) (g : SiteCfg) (m : MWord) :
    let x := s.quad k.q
    let c := x.cu k.row k.col
    let n := (m.skipTo c.bCur.occ 129 c.stepIx 0).1
    let k1 := (n + 1) * m.kA
    let after := (m.skipTo c.bCur.occ 129 (n + 1) 0).1
    let sum (b : Bank) : Prop := (k1 % m.groupLen ≠ 0 → b.cells = c.bank.cells) ∧
      (k1 % m.groupLen = 0 → ∀ i j, i < 32 → j < 32 → b.cells.getD (32 * i + j) 0 =
        (m.cell c.aCur c.bCur i j (k1 - m.groupLen) m.groupLen (c.bank.cells.getD (32 * i + j) 0)).1)
    let ended (d : Cu) (at_ : Nat) (p : Bank → Prop) : Prop := d.stepIx = 0 ∧
      (c.chunkIx + 1 < m.kchunks → d.chunkIx = c.chunkIx + 1 ∧ p d.bank ∧ d.full = c.full) ∧
      (m.kchunks ≤ c.chunkIx + 1 → d.chunkIx = 0 ∧ d.fullAt = c.fullAt ++ [at_] ∧ ∃ b, p b ∧ d.full = c.full ++ [b])
    s.matrixAt k = some (g, m) → k.q < s.quads.length → ¬ (c.stepIx = 0 ∧ c.chunkIx = 0 ∧ 2 ≤ c.full.length) →
    (m.zskip = true → c.bCur.occ.isSome = true) →
    (x.did k.row k.col 21 = false → n < m.ksteps → m.aHas c.aCur n = true → m.bHas c.bCur n = true → c.scalesAt m n s.pw.cycle = true →
      c.bank.cells = [] ∨ c.bank.cells.length = 1024 →
      (after < m.ksteps ∨ m.allIn c = false → completes (.matrixStep k) s (fun t => let d := (t.quad k.q).cu k.row k.col
        d.stepIx = n + 1 ∧ d.stepAt = some s.pw.cycle ∧ d.aCur = c.aCur ∧ d.bCur = c.bCur ∧ d.full = c.full ∧ sum d.bank ∧
        onlyParts [.quads, .ctr] s t)) ∧
      (m.ksteps ≤ after → m.allIn c = true → completes (.matrixStep k) s (fun t =>
        ended ((t.quad k.q).cu k.row k.col) s.pw.cycle sum ∧ onlyParts [.quads, .ctr] s t))) ∧
    (m.ksteps ≤ n → m.allIn c = true → completes (.matrixStep k) s (fun t =>
      ended ((t.quad k.q).cu k.row k.col) (c.lastStep s.pw.cycle) (fun b => b.cells = c.bank.cells) ∧ onlyParts [.quads, .ctr] s t)) := by
  intro x c n k1 after sum ended hm hq hfull hocc
  have hmay : c.mayStep m := ⟨hfull, hocc⟩
  refine ⟨fun hdid hn ha hb hs hlen => ⟨fun hgo => ?_, fun haft hin => ?_⟩, fun hn hin => ?_⟩
  · obtain ⟨t, hstep, hcu, ho⟩ := matrixStep_steps hm hq hmay (Prod.eta _).symm hn (Prod.eta _).symm (by simp [x, c, n, hdid, ha, hb, hs])
    have hends : ¬ (decide (m.ksteps ≤ after) && m.allIn c) = true := by
      rw [Bool.and_eq_true, decide_eq_true_eq]
      rintro ⟨h1, h2⟩
      obtain h | h := hgo
      · omega
      · rw [h] at h2
        cases h2
    rw [if_neg hends] at hcu
    refine ⟨t, hstep, ?_⟩
    dsimp only
    rw [hcu]
    exact ⟨rfl, rfl, rfl, rfl, rfl, MWord.stepBank_sums m c n hlen, ho⟩
  · obtain ⟨t, hstep, hcu, ho⟩ := matrixStep_steps hm hq hmay (Prod.eta _).symm hn (Prod.eta _).symm (by simp [x, c, n, hdid, ha, hb, hs])
    have hends : (decide (m.ksteps ≤ after) && m.allIn c) = true := by
      rw [hin, decide_eq_true haft]
      rfl
    rw [if_pos hends] at hcu
    refine ⟨t, hstep, ?_, ho⟩
    rw [hcu]
    exact (Cu.stepped_ended c m n s.pw.cycle sum (Cu.stepped_sums c m n s.pw.cycle hlen)).noted s.pw.cycle
  · obtain ⟨t, hstep, hcu, ho⟩ := matrixStep_passes hm hq hmay (Prod.eta _).symm hn hin
    refine ⟨t, hstep, ?_, ho⟩
    rw [hcu]
    exact ((Cu.endChunk_ended c m (c.lastStep s.pw.cycle) (fun b => b.cells = c.bank.cells) rfl).unready).noted (c.stepAt.getD s.pw.cycle)

/-! ### Tile drains (R35, R43) -/

/-- The CU whose drained row has entered its output queues. -/
def Cu.rowOut (c : Cu) (g : SiteCfg) (tok : Tok) : Cu :=
  let d : Cu := { c with outq := (List.zipIdx c.outq).map (fun (ts, o) => if g.outmask.testBit o then ts ++ [tok] else ts)
                         drainRow := c.drainRow + 1 }
  if tok.last then { d with full := d.full.drop 1, fullAt := d.fullAt.drop 1, drainRow := 0 } else d

theorem Cu.rowOut_outq (c : Cu) (g : SiteCfg) (tok : Tok) (o : Nat) (ho : o < c.outq.length) (hg : g.outmask.testBit o = true) :
    (c.rowOut g tok).outq.getD o [] = c.outq.getD o [] ++ [tok] := by
  have hq : (c.rowOut g tok).outq = (List.zipIdx c.outq).map (fun (ts, o) => if g.outmask.testBit o then ts ++ [tok] else ts) := by
    unfold Cu.rowOut
    dsimp only
    split
    · rfl
    · rfl
  rw [hq, List.getD_eq_getElem _ _ (by simpa using ho), List.getElem_map, List.getElem_zipIdx, Nat.zero_add, List.getD_eq_getElem _ _ ho]
  exact if_pos hg

/-- Marks of a cycle leave the units. -/
theorem Quad.acts_units (x : Quad) (row col : Nat) (f : Nat → Nat) (l : List Nat) :
    (l.foldl (fun x o => x.act row col (f o)) x).units = x.units :=
  foldl_keeps Quad.units (g := fun (x : Quad) o => x.act row col (f o)) (fun _ _ => rfl) l x

section
variable {s : State} {k : Site} {g : SiteCfg} {m : MWord} {b : Bank} {bs : List Bank} {t0 : Nat} {ts : List Nat}
  (hm : s.matrixAt k = some (g, m)) (hq : k.q < s.quads.length) (hfull : ((s.quad k.q).cu k.row k.col).full = b :: bs)
  (hat : ((s.quad k.q).cu k.row k.col).fullAt = t0 :: ts) (hdue : t0 + 40 + ((s.quad k.q).cu k.row k.col).drainRow ≤ s.pw.cycle)
  (hrow : ((s.quad k.q).cu k.row k.col).drainRow < 32) (hdid : (s.quad k.q).did k.row k.col 25 = false)
include hm hq hfull hat hdue hrow hdid

/-- A drained row goes to each queue of OUTMASK. -/
theorem tileDrain_out (hg : g.drain = true) (hroom : ∀ o, o < 4 → g.outmask.testBit o = true →
      (((s.quad k.q).cu k.row k.col).outq.getD o []).length + ((s.quad k.q).cu k.row k.col).resv.getD o 0 < 64) :
    let c := (s.quad k.q).cu k.row k.col
    completes (.tileDrain k) s (fun t => (t.quad k.q).cu k.row k.col = c.rowOut g (b.row c.drainRow ((s.quad k.q).slotAt k.row k.col)) ∧
      onlyParts [.quads, .ctr] s t) := by
  intro c
  have hall : (maskList g.outmask 4).all (fun o => decide ((c.outq.getD o []).length + c.resv.getD o 0 < 64)) = true := by
    rw [List.all_eq_true]
    intro o ho
    obtain ⟨h4, hbit⟩ := List.mem_filter.mp ho
    exact decide_eq_true (hroom o (List.mem_range.mp h4) hbit)
  let u := s.updQuad k.q (fun x => (maskList g.outmask 4).foldl (fun x o => x.act k.row k.col (10 + o))
    ((x.setCu k.row k.col (c.rowOut g (b.row c.drainRow ((s.quad k.q).slotAt k.row k.col)))).act k.row k.col 25))
  have hcounted (w : State) : (if (maskList g.outmask 4).isEmpty then w.cuCount k.q k.row k.col 7 1 else w.progress k.q).view Quad.units =
      w.view Quad.units := State.ite_view rfl (State.updQuad_view w k.q fun _ => by rfl)
  have hstep : ∃ t, execTileDrain k s = .next t ∧ t.view Quad.units = u.view Quad.units := by
    unfold execTileDrain State.drainOne
    rw [hm]
    dsimp only
    rw [hfull, hat]
    dsimp only
    rw [if_neg (by rw [hdid]; simp only [Bool.false_eq_true, or_false, not_or]; omega), if_pos hg, if_pos hall, ← hfull, ← hat]
    exact ⟨_, rfl, hcounted u⟩
  obtain ⟨t, hstep, hunits⟩ := hstep
  refine ⟨t, hstep, ?_, execTileDrain_only hstep⟩
  rw [Quad.cu_of_units (State.view_quad hunits k.q), State.updQuad_quad_self s k.q _ hq, Quad.cu_of_units (Quad.acts_units ..), Quad.act_cu,
    Quad.setCu_cu, if_pos rfl]

/-- A drained row is offered to the pipeline. -/
theorem tileDrain_offer (hg : g.drain = false) (hempty : ((s.quad k.q).cu k.row k.col).drainq = []) :
    let c := (s.quad k.q).cu k.row k.col
    completes (.tileDrain k) s (fun t => (t.quad k.q).cu k.row k.col =
      { c with drainq := [b.row c.drainRow ((s.quad k.q).slotAt k.row k.col)], drainRow := c.drainRow + 1 } ∧ onlyParts [.quads] s t) := by
  intro c
  have hstep : execTileDrain k s = .next (s.updQuad k.q (fun x => (x.setCu k.row k.col
      { c with drainq := [b.row c.drainRow ((s.quad k.q).slotAt k.row k.col)], drainRow := c.drainRow + 1 }).act k.row k.col 25)) := by
    unfold execTileDrain State.drainOne
    rw [hm]
    dsimp only
    rw [hfull, hat]
    dsimp only
    rw [if_neg (by rw [hdid]; simp only [Bool.false_eq_true, or_false, not_or]; omega), if_neg (by rw [hg]; decide),
      if_pos (by rw [hempty]; rfl)]
  refine ⟨_, hstep, ?_, State.updQuad_only ..⟩
  rw [State.updQuad_quad_self s k.q _ hq, Quad.act_cu, Quad.setCu_cu, if_pos rfl]

end

/-- TILE_DRAIN. -/
theorem tileDrain_acts (s : State) (k : Site) (g : SiteCfg) (m : MWord) (b : Bank) (bs : List Bank) (t0 : Nat) (ts : List Nat) :
    let x := s.quad k.q
    let c := x.cu k.row k.col
    let tok := b.row c.drainRow (x.slotAt k.row k.col)
    s.matrixAt k = some (g, m) → k.q < s.quads.length → c.full = b :: bs → c.fullAt = t0 :: ts → t0 + 40 + c.drainRow ≤ s.pw.cycle →
    c.drainRow < 32 → x.did k.row k.col 25 = false →
    (g.drain = true →
      (∀ o, o < 4 → g.outmask.testBit o = true → o < c.outq.length ∧ (c.outq.getD o []).length + c.resv.getD o 0 < 64) →
      completes (.tileDrain k) s (fun t => let d := (t.quad k.q).cu k.row k.col
        (∀ o, o < 4 → g.outmask.testBit o = true → d.outq.getD o [] = c.outq.getD o [] ++ [tok]) ∧
        d.full = (if c.drainRow = 31 then bs else c.full) ∧ d.drainRow = (if c.drainRow = 31 then 0 else c.drainRow + 1) ∧
        onlyParts [.quads, .ctr] s t)) ∧
    (g.drain = false → c.drainq = [] →
      completes (.tileDrain k) s (fun t => let d := (t.quad k.q).cu k.row k.col
        d.drainq = [tok] ∧ d.drainRow = c.drainRow + 1 ∧ d.full = c.full ∧ onlyParts [.quads] s t)) := by
  intro x c tok hm hq hfull hat hdue hrow hdid
  refine ⟨fun hg hroom => ?_, fun hg hempty => ?_⟩
  · obtain ⟨t, hstep, hcu, ho⟩ := tileDrain_out hm hq hfull hat hdue hrow hdid hg fun o h4 hb => (hroom o h4 hb).2
    have hlast : tok.last = (c.drainRow == 31) := rfl
    refine ⟨t, hstep, fun o h4 hb => ?_, ?_, ?_, ho⟩
    · rw [hcu]
      exact Cu.rowOut_outq _ _ _ _ (hroom o h4 hb).1 hb
    all_goals
      rw [hcu, Cu.rowOut, show (b.row _ _).last = _ from hlast]
      by_cases h31 : c.drainRow = 31
    · rw [if_pos h31, if_pos (by rw [h31]; rfl)]
      exact congrArg (List.drop 1) hfull
    · rw [if_neg h31, if_neg (by simpa using h31)]
    · rw [if_pos h31, if_pos (by rw [h31]; rfl)]
    · rw [if_neg h31, if_neg (by simpa using h31)]
  · obtain ⟨t, hstep, hcu, ho⟩ := tileDrain_offer hm hq hfull hat hdue hrow hdid hg hempty
    refine ⟨t, hstep, ?_⟩
    dsimp only
    rw [hcu]
    exact ⟨rfl, rfl, rfl, ho⟩

/-- Settles O54, command by command. -/
theorem unitsCompute : Obligations.UnitsCompute :=
  ⟨vectorFiring_fires, operandFill_feeds, sideToken_takes, matrixStep_acts, tileDrain_acts⟩

end Sys2Proof.Machine
end

section
/-! What a token's delivery and its passage through a switch leave as they were: the sending side of a quadrant, and the counters of no
fence (R65, R66, R81). -/

namespace Sys2Proof.Machine

open Config

/-! ### The sending side -/

/-- The parts of a quadrant that a token's source reads and writes: its credits, its output queues, and what its traps send (R66, R80). -/
def Quad.sending (x : Quad) : List ((Src × (Nat × Nat × Nat × Nat)) × Nat) × (Nat → Nat → List (List Tok)) ×
    (Nat → Nat → Nat → List (Nat × Tok) × Nat) :=
  (x.credits, x.outqs, fun r c n => ((x.trap r c n).out, (x.trap r c n).lastDue))

theorem Quad.setTrap_trap_ne (x : Quad) (e : TrapSt) (r c n : Nat) (h : ¬ (e.row = r ∧ e.col = c ∧ e.t = n)) :
    (x.setTrap e).trap r c n = x.trap r c n := by
  unfold Quad.setTrap Quad.trap
  rw [find?_replaced_ne x.traps e (fun y : TrapSt => y.row == e.row && y.col == e.col && y.t == e.t)
    (fun y : TrapSt => y.row == r && y.col == c && y.t == n) (by simpa using fun a b d => h ⟨a, b, d⟩) ?_]
  intro y hy
  simp only [Bool.and_eq_true, beq_iff_eq] at hy
  obtain ⟨⟨rfl, rfl⟩, rfl⟩ := hy
  rw [Bool.eq_false_iff]
  intro hk
  simp only [Bool.and_eq_true, beq_iff_eq] at hk
  exact h ⟨hk.1.1.symm, hk.1.2.symm, hk.2.symm⟩

/-- A trap whose tokens to send and last arrival stay sends as before. -/
theorem Quad.setTrap_sending (x : Quad) (r c n : Nat) (e : TrapSt) (hr : e.row = r) (hc : e.col = c) (hn : e.t = n)
    (ho : e.out = (x.trap r c n).out) (hl : e.lastDue = (x.trap r c n).lastDue) : (x.setTrap e).sending = x.sending := by
  have htrap (r' c' n' : Nat) : (((x.setTrap e).trap r' c' n').out, ((x.setTrap e).trap r' c' n').lastDue) =
      ((x.trap r' c' n').out, (x.trap r' c' n').lastDue) := by
    by_cases h : e.row = r' ∧ e.col = c' ∧ e.t = n'
    · obtain ⟨hr', hc', hn'⟩ := h
      subst hr hc hn hr' hc' hn'
      rw [Quad.setTrap_trap_self, ho, hl]
    · rw [Quad.setTrap_trap_ne _ _ _ _ _ h]
  unfold Quad.sending
  simp only [htrap]
  rfl

theorem Quad.setInq_outqs (x : Quad) (row col dq : Nat) (ts : List Tok) : (x.setInq row col dq ts).outqs = x.outqs := by
  funext r c
  unfold Quad.setInq Quad.outqs
  generalize hu : isCu row col = u
  cases u
  · simp only [Bool.false_eq_true, if_false, Quad.setMu_cu, Quad.setMu_mu]
    split
    · rfl
    · split
      · rename_i h
        obtain ⟨rfl, rfl⟩ := Prod.mk_inj.mp h
        rfl
      · rfl
  · simp only [if_true, Quad.setCu_cu, Quad.setCu_mu]
    split
    · split
      · rename_i h
        obtain ⟨rfl, rfl⟩ := Prod.mk_inj.mp h
        rfl
      · rfl
    · rfl

theorem Quad.setInq_sending (x : Quad) (row col dq : Nat) (ts : List Tok) : (x.setInq row col dq ts).sending = x.sending := by
  have h : (x.setInq row col dq ts).credits = x.credits ∧ (x.setInq row col dq ts).traps = x.traps := by
    have hu := x.setInq_offUnits row col dq ts
    have hc := congrArg (fun y : Quad => y.credits) hu
    have ht := congrArg (fun y : Quad => y.traps) hu
    exact ⟨hc, ht⟩
  unfold Quad.sending
  rw [Quad.setInq_outqs, h.1]
  simp only [Quad.trap_of_traps h.2]

theorem State.progress_sending (s : State) (q : Nat) : (s.progress q).view Quad.sending = s.view Quad.sending :=
  State.updQuad_view s q (fun _ => by rfl)

/-- A token that enters a unit's queue or a trap region changes no sending side. -/
theorem State.deliver_sending (s : State) (q row col dq : Nat) (tok : Tok) (src : Src) (at_ : Nat) (h : dq < 64) :
    (s.deliver q row col dq tok src at_).view Quad.sending = s.view Quad.sending := by
  unfold State.deliver
  rw [if_neg (by omega)]
  split
  · cases s.spillOf tok.tag src q row col with
    | none => rfl
    | some e =>
      refine State.updQuad_view s _ fun x => ?_
      obtain ⟨hr, hc, hn⟩ := x.trap_key e.1.row e.1.col e.2
      exact x.setTrap_sending _ _ _ _ hr hc hn rfl rfl
  · exact (State.progress_sending ..).trans (State.updQuad_view s q fun x => x.setInq_sending row col dq _)

/-- A token that enters a unit's queue or a trap region changes the array only. -/
theorem State.deliver_quads_only (s : State) (q row col dq : Nat) (tok : Tok) (src : Src) (at_ : Nat) (h : dq < 64) :
    onlyParts [.quads] s (s.deliver q row col dq tok src at_) := by
  unfold State.deliver
  rw [if_neg (by omega)]
  split
  · cases s.spillOf tok.tag src q row col with
    | none => exact onlyParts.rfl' ..
    | some e => exact State.updQuad_only ..
  · exact (State.progress_only ..).after (by decide) (State.updQuad_only ..)

/-! ### A token in a switch (R65) -/

/-- What a switch does with a token at one of its output ports. -/
def State.sendOut (q row col : Nat) (tok : Tok) (src : Src) (at_ off : Nat) (s : State) (o : Nat) : State :=
  match hopFrom q row col o with
  | .gwl l => s.updQuad q (fun x => { x with flights := x.flights ++
      [{ row := row, col := col, port := 0, link := l, due := at_ + 2, bridge := false, off := off, tok := tok, src := src }] })
  | .sw q' r' c' p br =>
    if s.closedPort q row col o then s.fencedDrop q row col o
    else if s.dark q' then s
    else s.updQuad q' (fun x => { x with flights := x.flights ++
      [{ row := r', col := c', port := p, link := 0, due := at_ + (if br then 8 else 2), bridge := br
         off := off + (if br then 6 else 0), tok := tok, src := src }] })

section
variable (s : State) (q row col code c : Nat) (tok : Tok) (src : Src) (at_ off : Nat)

/-- The switch acts on its own site and then on each port whose source code is the token's. -/
theorem State.fanOut_eq : s.fanOut q row col code c tok src at_ off =
    [1, 2, 3, 4].foldl (fun t o => if entSrc ((s.quad q).entAt tok.tag row col c) o = code then t.sendOut q row col tok src at_ off o else t)
      (if entSrc ((s.quad q).entAt tok.tag row col c) 0 = code then
        (s.updQuad q (fun x => x.act row col 26)).deliver q ((s.quad q).logic row col).1 ((s.quad q).logic row col).2
          (entDq ((s.quad q).entAt tok.tag row col c)) tok src at_
       else s.updQuad q (fun x => x.act row col 26)) := rfl

theorem entDq_lt (e : BitVec 32) : entDq e < 64 := lt_of_lt_of_le (Nat.mod_lt _ (by decide)) (by decide)

theorem State.sendOut_quiet (s : State) (o : Nat) : let t := s.sendOut q row col tok src at_ off o
    onlyParts [.quads, .ctr] s t ∧ t.view Quad.sending = s.view Quad.sending ∧ ∀ a b d, a ≠ 0x13 → t.counter a b d = s.counter a b d := by
  have hcount (g : Quad → Quad) (p : Nat) (a b d : Nat) : (s.updQuad p g).counter a b d = s.counter a b d := rfl
  intro t
  unfold t State.sendOut
  cases hopFrom q row col o with
  | gwl l => exact ⟨(State.updQuad_only ..).mono (by decide), State.updQuad_view s q (fun _ => by rfl), fun _ _ _ _ => rfl⟩
  | sw q' r' c' p br =>
    simp only
    split
    · refine ⟨(State.fencedDrop_only ..).mono (by decide), rfl, fun a b d ha => ?_⟩
      rw [State.fencedDrop, State.counter_bump, if_neg (by simp [ha])]
    · split
      · exact ⟨onlyParts.rfl' .., rfl, fun _ _ _ _ => rfl⟩
      · exact ⟨(State.updQuad_only ..).mono (by decide), State.updQuad_view s q' (fun _ => by rfl), fun _ _ _ _ => rfl⟩

theorem State.sendOuts_quiet (e : BitVec 32) (l : List Nat) (s : State) :
    let t := l.foldl (fun t o => if entSrc e o = code then t.sendOut q row col tok src at_ off o else t) s
    onlyParts [.quads, .ctr] s t ∧ t.view Quad.sending = s.view Quad.sending ∧ ∀ a b d, a ≠ 0x13 → t.counter a b d = s.counter a b d := by
  induction l generalizing s with
  | nil => exact ⟨onlyParts.rfl' .., rfl, fun _ _ _ _ => rfl⟩
  | cons o l ih =>
    rw [List.foldl_cons]
    split
    · obtain ⟨hp, hv, hc⟩ := State.sendOut_quiet q row col tok src at_ off s o
      obtain ⟨kp, kv, kc⟩ := ih (s.sendOut q row col tok src at_ off o)
      exact ⟨kp.after (by decide) hp, kv.trans hv, fun a b d ha => (kc a b d ha).trans (hc a b d ha)⟩
    · exact ih s

/-- A token's passage through a switch changes the array and the counters of fences only, and no sending side. -/
theorem State.fanOut_quiet : let t := s.fanOut q row col code c tok src at_ off
    onlyParts [.quads, .ctr] s t ∧ t.view Quad.sending = s.view Quad.sending ∧ ∀ a b d, a ≠ 0x13 → t.counter a b d = s.counter a b d := by
  have hact : onlyParts [.quads] s (s.updQuad q (fun x => x.act row col 26)) ∧
      (s.updQuad q (fun x => x.act row col 26)).view Quad.sending = s.view Quad.sending :=
    ⟨State.updQuad_only .., State.updQuad_view s q (fun _ => by rfl)⟩
  rw [State.fanOut_eq]
  generalize (s.quad q).entAt tok.tag row col c = e
  generalize (s.quad q).logic row col = u
  generalize s.updQuad q (fun x => x.act row col 26) = s1 at hact ⊢
  obtain ⟨hap, hav⟩ := hact
  have hin : let s2 := if entSrc e 0 = code then s1.deliver q u.1 u.2 (entDq e) tok src at_ else s1
      onlyParts [.quads] s s2 ∧ s2.view Quad.sending = s.view Quad.sending := by
    dsimp only
    split
    · exact ⟨(State.deliver_quads_only _ _ _ _ _ _ _ _ (entDq_lt e)).after (by decide) hap,
        (State.deliver_sending _ _ _ _ _ _ _ _ (entDq_lt e)).trans hav⟩
    · exact ⟨hap, hav⟩
  generalize (if entSrc e 0 = code then s1.deliver q u.1 u.2 (entDq e) tok src at_ else s1) = s2 at hin ⊢
  obtain ⟨hp, hv⟩ := hin
  obtain ⟨kp, kv, kc⟩ := State.sendOuts_quiet q row col code tok src at_ off e [1, 2, 3, 4] s2
  refine ⟨kp.after (by decide) (hp.mono (by decide)), kv.trans hv, fun a b d ha => (kc a b d ha).trans ?_⟩
  exact congrArg (fun l => (look l (CKey.mk a b d)).getD 0) (hp.same .ctr (by decide))

end

end Sys2Proof.Machine
end

section
/-! Injections into the grid from a unit's output queue and from a trap (R66, R80, R81). -/

namespace Sys2Proof.Machine

open Config

/-! ### Credits (R66) -/

theorem State.credit_congr {s t : State} (h : t.view Quad.credits = s.view Quad.credits) (src : Src) (d : Dest) : t.credit src d = s.credit src d := by
  rw [State.credit, State.view_quad h, State.credit]

theorem State.setCredit_credit (s : State) (src : Src) (d e : Dest) (n : Nat) (hq : srcQuad src < s.quads.length) :
    (s.setCredit src d n).credit src e = if destKey e = destKey d then n else s.credit src e := by
  rw [State.credit, State.setCredit, State.updQuad_quad_self _ _ _ hq]
  dsimp only
  rw [look_put]
  by_cases h : destKey e = destKey d
  · rw [if_pos (by rw [h]), if_pos h, Option.getD_some]
  · rw [if_neg (by simpa using h), if_neg h, State.credit]

theorem State.spend_length (s : State) (src : Src) (ds : List Dest) : (s.spend src ds).quads.length = s.quads.length :=
  foldl_keeps (fun t : State => t.quads.length) (fun _ _ => State.updQuad_length ..) ds s

/-- Spending credits leaves what is no credit. -/
theorem State.spend_view {α : Type} {v : Quad → α} (hv : ∀ x c, v { x with credits := c } = v x) (s : State) (src : Src) (ds : List Dest) :
    (s.spend src ds).view v = s.view v :=
  foldl_keeps (fun t : State => t.view v) (fun t _ => t.updQuad_view _ fun x => hv x _) ds s

theorem State.spend_credit_ne (s : State) (src : Src) (ds : List Dest) (e : Dest) (hq : srcQuad src < s.quads.length)
    (h : destKey e ∉ ds.map destKey) : (s.spend src ds).credit src e = s.credit src e := by
  induction ds generalizing s with
  | nil => rfl
  | cons d ds ih =>
    rw [List.map_cons, List.mem_cons, not_or] at h
    have ihd := ih (s.setCredit src d (s.credit src d - 1)) (by rw [State.setCredit, State.updQuad_length]; exact hq) h.2
    rw [State.setCredit_credit _ _ _ _ _ hq, if_neg h.1] at ihd
    exact ihd

/-- One credit is spent for each of some destinations. -/
theorem State.spend_credit (s : State) (src : Src) (ds : List Dest) (hq : srcQuad src < s.quads.length) (hn : (ds.map destKey).Nodup) :
    ∀ e ∈ ds, (s.spend src ds).credit src e = s.credit src e - 1 := by
  induction ds generalizing s with
  | nil => simp
  | cons d ds ih =>
    obtain ⟨hd, hn⟩ := List.nodup_cons.mp hn
    have hl : srcQuad src < (s.setCredit src d (s.credit src d - 1)).quads.length := by
      rw [State.setCredit, State.updQuad_length]
      exact hq
    intro e he
    change ((s.setCredit src d (s.credit src d - 1)).spend src ds).credit src e = _
    rcases List.mem_cons.mp he with rfl | he
    · rw [State.spend_credit_ne _ _ _ _ hl hd, State.setCredit_credit _ _ _ _ _ hq, if_pos rfl]
    · have hne : destKey e ≠ destKey d := fun h => hd (h ▸ List.mem_map_of_mem he)
      rw [ih _ hl hn e he, State.setCredit_credit _ _ _ _ _ hq, if_neg hne]

/-! ### A unit's output queue -/

/-- An output queue's head leaves it and enters its switch. -/
def State.outSent (s : State) (k : Site) (n : Nat) (rest : List Tok) (row col c : Nat) (tk : Tok) : State :=
  (s.updQuad k.q (fun x => (x.setOutq k.row k.col n rest).act k.row k.col (30 + n))).fanOut k.q row col (5 + n) c tk (.out k n) s.pw.cycle 0

section
variable (s : State) (k : Site) (n : Nat) (rest : List Tok) (row col c : Nat) (tk : Tok)

theorem State.outSent_only : onlyParts [.quads, .ctr] s (s.outSent k n rest row col c tk) :=
  (State.fanOut_quiet ..).1.after (by decide) ((State.updQuad_only ..).mono (by decide))

theorem State.outSent_credits : (s.outSent k n rest row col c tk).view Quad.credits = s.view Quad.credits := by
  refine (State.view_comp Prod.fst (State.fanOut_quiet ..).2.1).trans (State.updQuad_view s k.q fun x => ?_)
  have hx := congrArg (fun y : Quad => y.credits) (x.setOutq_offUnits k.row k.col n rest)
  exact hx

theorem State.outSent_lastDue (r c' m : Nat) : (s.outSent k n rest row col c tk).view (fun x => (x.trap r c' m).lastDue) =
    s.view (fun x => (x.trap r c' m).lastDue) := by
  refine (State.view_comp (fun z => (z.2.2 r c' m).2) (State.fanOut_quiet ..).2.1).trans (State.updQuad_view s k.q fun x => ?_)
  have hx := congrArg (fun y : Quad => y.traps) (x.setOutq_offUnits k.row k.col n rest)
  exact congrArg TrapSt.lastDue (Quad.trap_of_traps hx r c' m)

theorem State.outSent_counter (a b d : Nat) (ha : a ≠ 0x13) : (s.outSent k n rest row col c tk).counter a b d = s.counter a b d :=
  (State.fanOut_quiet ..).2.2 a b d ha

theorem State.outSent_outq (hq : k.q < s.quads.length) (hn : n < ((s.quad k.q).outqs k.row k.col).length) :
    ((s.outSent k n rest row col c tk).quad k.q).outq k.row k.col n = rest := by
  have hv := State.view_quad (State.view_comp (fun z => z.2.1) (State.fanOut_quiet (s.updQuad k.q (fun x =>
    (x.setOutq k.row k.col n rest).act k.row k.col (30 + n))) k.q row col (5 + n) c tk (.out k n) s.pw.cycle 0).2.1) k.q
  have ho : ((s.outSent k n rest row col c tk).quad k.q).outqs = _ := hv
  rw [Quad.outq_eq, ho, State.updQuad_quad_self _ _ _ hq]
  change (((s.quad k.q).setOutq k.row k.col n rest).outqs k.row k.col).getD n [] = rest
  rw [← Quad.outq_eq]
  exact Quad.setOutq_outq_self _ _ _ _ _ (.inl hn)

end

section
variable {s : State} {k : Site} {n : Nat} {tk : Tok} {rest : List Tok}

/-- An output queue's head may leave it. -/
structure State.outReady (s : State) (k : Site) (n : Nat) (tk : Tok) (rest : List Tok) : Prop where
  runs : s.siteRuns k.q k.row k.col = true
  head : (s.quad k.q).outq k.row k.col n = tk :: rest
  tag : tk.tag = (s.quad k.q).slotAt k.row k.col
  path : Src.out k n ∈ (s.quad k.q).paths
  first : (s.quad k.q).did k.row k.col (30 + n) = false
  old : (s.quad k.q).fresh k.row k.col (10 + n) ≤ rest.length
  way : s.dests ((s.quad k.q).slotAt k.row k.col) (.out k n) (s.quad k.q).slotCtr ≠ []

theorem exec_tokenInject_out (h : s.outReady k n tk rest) : let src := Src.out k n
    let slot := (s.quad k.q).slotAt k.row k.col
    let ds := s.dests slot src (s.quad k.q).slotCtr
    let at_ := (s.quad k.q).phys k.row k.col
    let go (t : State) : State := t.outSent k n rest at_.1 at_.2 (s.quad k.q).slotCtr tk
    exec (.tokenInject src) s = .next (match s.trapOf slot src with
      | none => if ds.all (fun d => decide (s.credit src d > 0)) then go (s.spend src ds) else s
      | some (d, tn) =>
        let e := (s.quad d.q).trap d.row d.col tn
        if ds.any (·.dq == 6) then
          if (e.load > 0 ∨ s.credit src d = 0) ∧ e.load < trapCap (s.trapDesc slot d.q d.row d.col tn) then
            go ((s.bump 0x22 d.q (6 * siteOrd d.row d.col + 3 * tn) 1).updQuad d.q (fun x => x.setTrap { e with coming := e.coming + 1 }))
          else s
        else match ds with
          | [a] => if e.load = 0 ∧ s.credit src d > 0 ∧ e.lastDue < s.arrival a then go ((s.spend src ds).noteSent d tn (s.arrival a)) else s
          | _ => s) := by
  intro src slot ds at_ go
  obtain ⟨hruns, hhead, htag, hpath, hfirst, hold, hway⟩ := h
  have hrun : s.quadRuns k.q = true := by
    simp only [State.siteRuns, Bool.and_eq_true] at hruns
    exact hruns.1.1.1.1.1
  change execTokenInject src s = _
  unfold execTokenInject
  rw [if_pos (show s.quadRuns (srcQuad src) = true from hrun)]
  simp only [src]
  rw [if_pos hruns, State.injectOut, hhead]
  dsimp only
  rw [if_neg ?_]
  · rfl
  · simp only [not_or, not_not, List.contains_iff_mem, Bool.not_eq_true, List.isEmpty_eq_false_iff, not_le, List.length_cons]
    exact ⟨htag, hpath, hway, hfirst, by omega⟩

theorem tokenInject_direct (h : s.outReady k n tk rest) (hq : k.q < s.quads.length) : let src := Src.out k n
    let slot := (s.quad k.q).slotAt k.row k.col
    let ds := s.dests slot src (s.quad k.q).slotCtr
    s.trapOf slot src = none → (ds.map destKey).Nodup → (∀ d ∈ ds, 0 < s.credit src d) →
    completes (.tokenInject src) s (fun t => (t.quad k.q).outq k.row k.col n = rest ∧ (∀ d ∈ ds, t.credit src d = s.credit src d - 1) ∧
      onlyParts [.quads, .ctr] s t) := by
  intro src slot ds htrap hnodup hcred
  have hlen : n < ((s.quad k.q).outqs k.row k.col).length := Quad.outq_lt (by rw [h.head]; simp)
  have hexec := exec_tokenInject_out h
  dsimp only at hexec
  rw [htrap] at hexec
  dsimp only at hexec
  rw [if_pos (by simpa using hcred)] at hexec
  refine ⟨_, hexec, State.outSent_outq _ _ _ _ _ _ _ _ (by rwa [State.spend_length]) ?_, fun d hd => ?_,
    (State.outSent_only ..).after (by decide) ((State.spend_only ..).mono (by decide))⟩
  · rw [State.view_quad (State.spend_view (v := Quad.outqs) (fun _ _ => rfl) s src ds)]
    exact hlen
  · rw [State.credit_congr (State.outSent_credits ..), State.spend_credit s src ds hq hnodup d hd]

theorem tokenInject_protected (h : s.outReady k n tk rest) (hq : k.q < s.quads.length) (d : Dest) (tn : Nat) (a : Dest) :
    let src := Src.out k n
    let slot := (s.quad k.q).slotAt k.row k.col
    let e := (s.quad d.q).trap d.row d.col tn
    s.trapOf slot src = some (d, tn) → s.dests slot src (s.quad k.q).slotCtr = [a] → d.q < s.quads.length → a.dq < 6 → e.load = 0 →
    0 < s.credit src d → e.lastDue < s.arrival a →
    completes (.tokenInject src) s (fun t => (t.quad k.q).outq k.row k.col n = rest ∧ t.credit src a = s.credit src a - 1 ∧
      ((t.quad d.q).trap d.row d.col tn).lastDue = s.arrival a ∧ onlyParts [.quads, .ctr] s t) := by
  intro src slot e htrap hds hdq ha hload hcred hlast
  have hlen : n < ((s.quad k.q).outqs k.row k.col).length := Quad.outq_lt (by rw [h.head]; simp)
  have hexec := exec_tokenInject_out h
  dsimp only at hexec
  rw [htrap, hds] at hexec
  dsimp only at hexec
  rw [if_neg (by simp; omega), if_pos ⟨hload, hcred, hlast⟩] at hexec
  have hspent : (s.spend src [a]).quads.length = s.quads.length := State.spend_length ..
  have hnoted : ((s.spend src [a]).noteSent d tn (s.arrival a)).view Quad.outqs = s.view Quad.outqs ∧
      ((s.spend src [a]).noteSent d tn (s.arrival a)).view Quad.credits = (s.spend src [a]).view Quad.credits :=
    ⟨(State.updQuad_view _ _ fun _ => by rfl).trans (State.spend_view (fun _ _ => rfl) s src [a]), State.updQuad_view _ _ fun _ => by rfl⟩
  refine ⟨_, hexec, State.outSent_outq _ _ _ _ _ _ _ _ ?_ ?_, ?_, ?_, (State.outSent_only ..).after (by decide)
    (((State.noteSent_only ..).after (by decide) (State.spend_only ..)).mono (by decide))⟩
  · rw [State.view_length hnoted.1]
    exact hq
  · rw [State.view_quad hnoted.1]
    exact hlen
  · rw [State.credit_congr (State.outSent_credits ..), State.credit_congr hnoted.2]
    exact State.spend_credit s src [a] hq (List.nodup_singleton _) a (List.mem_singleton_self a)
  · rw [State.view_quad (v := fun x => (x.trap d.row d.col tn).lastDue) (State.outSent_lastDue ..), State.noteSent,
      State.updQuad_quad_self _ _ _ (by rw [hspent]; exact hdq)]
    obtain ⟨hr, hc, hn⟩ := ((s.spend src [a]).quad d.q).trap_key d.row d.col tn
    exact congrArg TrapSt.lastDue (Quad.setTrap_trap _ { ((s.spend src [a]).quad d.q).trap d.row d.col tn with lastDue := s.arrival a }
      d.row d.col tn hr hc hn)

theorem tokenInject_spill (h : s.outReady k n tk rest) (hq : k.q < s.quads.length) (d : Dest) (tn : Nat) (a : Dest) :
    let src := Src.out k n
    let slot := (s.quad k.q).slotAt k.row k.col
    let e := (s.quad d.q).trap d.row d.col tn
    let spilled := 6 * siteOrd d.row d.col + 3 * tn
    s.trapOf slot src = some (d, tn) → s.dests slot src (s.quad k.q).slotCtr = [a] → a.dq = 6 → 0 < e.load ∨ s.credit src d = 0 →
    e.load < trapCap (s.trapDesc slot d.q d.row d.col tn) →
    completes (.tokenInject src) s (fun t => (t.quad k.q).outq k.row k.col n = rest ∧
      t.counter 0x22 d.q spilled = min ctrMax (s.counter 0x22 d.q spilled + 1) ∧ onlyParts [.quads, .ctr] s t) := by
  intro src slot e spilled htrap hds ha hload hcap
  have hlen : n < ((s.quad k.q).outqs k.row k.col).length := Quad.outq_lt (by rw [h.head]; simp)
  have hexec := exec_tokenInject_out h
  dsimp only at hexec
  rw [htrap, hds] at hexec
  dsimp only at hexec
  rw [if_pos (by simp [ha]), if_pos ⟨hload, hcap⟩] at hexec
  have hbump : ((s.bump 0x22 d.q spilled 1).updQuad d.q (fun x => x.setTrap { e with coming := e.coming + 1 })).view Quad.outqs =
      s.view Quad.outqs := (State.updQuad_view _ _ fun _ => by rfl).trans (State.bump_view ..)
  have hset : onlyParts [.quads, .ctr] s ((s.bump 0x22 d.q spilled 1).updQuad d.q (fun x => x.setTrap { e with coming := e.coming + 1 })) :=
    (State.updQuad_only ..).after (by decide) ((State.bump_only s 0x22 d.q spilled 1).mono (by decide))
  refine ⟨_, hexec, State.outSent_outq _ _ _ _ _ _ _ _ ?_ ?_, ?_, (State.outSent_only ..).after (by decide) hset⟩
  · rw [State.view_length hbump]
    exact hq
  · rw [State.view_quad hbump]
    exact hlen
  · rw [State.outSent_counter _ _ _ _ _ _ _ _ _ _ _ (by decide)]
    exact (State.counter_bump ..).trans (if_pos ⟨rfl, rfl, rfl⟩)

end

/-! ### A trap (R80, R81) -/

theorem tokenInject_trap (s : State) (k : Site) (i due : Nat) (d : Dest) (ds : List Dest) (tk : Tok) (rest : List (Nat × Tok)) :
    let src := Src.trap k i
    let x := s.quad k.q
    let e := x.trap k.row k.col i
    s.siteRuns k.q k.row k.col = true → k.q < s.quads.length → e.out = (due, tk) :: rest → s.dests (s.srcSlot src) src x.slotCtr = d :: ds →
    src ∈ x.paths → tk.tag = s.srcSlot src → due < s.pw.cycle → e.lastDue < s.arrival d → x.did k.row k.col (40 + i) = false →
    completes (.tokenInject src) s (fun t => ((t.quad k.q).trap k.row k.col i).out = rest ∧
      ((t.quad k.q).trap k.row k.col i).lastDue = s.arrival d ∧ onlyParts [.quads, .ctr] s t) := by
  intro src x e hruns hq hout hdests hpath htag hdue hlast hfirst
  have hrun : s.quadRuns k.q = true := by
    simp only [State.siteRuns, Bool.and_eq_true] at hruns
    exact hruns.1.1.1.1.1
  let u := s.updQuad k.q (fun x => (x.setTrap { e with out := rest, lastDue := s.arrival d }).act k.row k.col (40 + i))
  have hexec : ∃ row col, exec (.tokenInject src) s = .next (u.fanOut k.q row col 9 x.slotCtr tk src s.pw.cycle 0) := by
    change ∃ row col, execTokenInject src s = _
    unfold execTokenInject
    rw [if_pos (show s.quadRuns (srcQuad src) = true from hrun)]
    simp only [src]
    rw [if_pos hruns, State.injectTrap]
    dsimp only
    rw [hout, hdests]
    dsimp only
    rw [if_neg ?_]
    · exact ⟨_, _, rfl⟩
    · simp only [not_or, not_not, List.contains_iff_mem, not_le, Bool.not_eq_true]
      exact ⟨hpath, htag, hdue, hlast, hfirst⟩
  obtain ⟨row, col, hexec⟩ := hexec
  obtain ⟨honly, hsend, -⟩ := State.fanOut_quiet u k.q row col 9 x.slotCtr tk src s.pw.cycle 0
  have htrap := State.view_quad (State.view_comp (fun z => z.2.2 k.row k.col i) hsend) k.q
  have hu : (u.quad k.q).trap k.row k.col i = { e with out := rest, lastDue := s.arrival d } := by
    obtain ⟨hr, hc, hn⟩ := x.trap_key k.row k.col i
    rw [State.updQuad_quad_self _ _ _ hq]
    exact Quad.setTrap_trap x { e with out := rest, lastDue := s.arrival d } k.row k.col i hr hc hn
  have hsent : (((u.fanOut k.q row col 9 x.slotCtr tk src s.pw.cycle 0).quad k.q).trap k.row k.col i).out =
      ((u.quad k.q).trap k.row k.col i).out ∧ (((u.fanOut k.q row col 9 x.slotCtr tk src s.pw.cycle 0).quad k.q).trap k.row k.col i).lastDue =
      ((u.quad k.q).trap k.row k.col i).lastDue := Prod.mk_inj.mp htrap
  rw [hu] at hsent
  exact ⟨_, hexec, hsent.1, hsent.2, honly.after (by decide) ((State.updQuad_only ..).mono (by decide))⟩

end Sys2Proof.Machine
end

section
/-! The gateway's injections, and the tokens on the links (R55, R65 to R67, R75, R166, R175). -/

namespace Sys2Proof.Machine

open Config

/-! ### The gateway's side of a link (R66, R175) -/

/-- The credits out up to an operation's last token are noted with its entry (R168). -/
def State.noteOwed (s : State) (q l slot : Nat) (g : GwTok) : State :=
  match g.owner with
  | some (tq, n) =>
    if g.lastOf then
      let owed := s.creditsOut q l
      s.updQuad q (fun x => { x with queues := x.queues.modify tq (fun k => { k with ents := k.ents.map (fun (e : TeEnt) =>
        if e.n == n && e.started && !e.done then { e with owed := e.owed ++ [(slot, owed)] } else e) }) })
    else s
  | none => s

/-- The token of a link that the gateway put there. -/
def gwFlight (q l slot cycle : Nat) (g : GwTok) : Flight :=
  let e := linkSite q l
  { row := e.1, col := e.2.1, port := e.2.2, link := 0, due := cycle + 2, bridge := false, off := 0, tok := { g.tok with tag := slot }
    src := .gw q l }

section
variable (s : State) (q l i : Nat) (g : GwTok)

theorem State.gwSend_eq : s.gwSend q l i g =
    ((s.updQuad q (fun x => { x with gwOut := put x.gwOut l (((look x.gwOut l).getD []).eraseIdx i) })).noteOwed q l (s.quad q).gwSlot g).updQuad q
      (fun x => { x.act (linkSite q l).1 (linkSite q l).2.1 (50 + l) with
        flights := x.flights ++ [gwFlight q l (s.quad q).gwSlot s.pw.cycle g] }) := by
  unfold State.gwSend
  dsimp only
  unfold State.noteOwed
  cases g.owner with
  | none => rfl
  | some o =>
    cases g.lastOf <;> rfl

theorem State.noteOwed_view {α : Type} {v : Quad → α} (hv : ∀ x ks, v { x with queues := ks } = v x) (slot : Nat) :
    (s.noteOwed q l slot g).view v = s.view v := by
  unfold State.noteOwed
  cases g.owner with
  | none => rfl
  | some o => exact State.ite_view (State.updQuad_view _ _ fun x => hv x _) rfl

theorem State.gwSend_credits : (s.gwSend q l i g).view Quad.credits = s.view Quad.credits := by
  rw [State.gwSend_eq]
  exact (State.updQuad_view _ _ fun _ => by rfl).trans
    ((State.noteOwed_view _ _ _ _ (fun _ _ => by rfl) _).trans (State.updQuad_view _ _ fun _ => by rfl))

theorem State.gwSend_link (hq : q < s.quads.length) : let t := s.gwSend q l i g
    look (t.quad q).gwOut l = some (((look (s.quad q).gwOut l).getD []).eraseIdx i) ∧
    (t.quad q).flights = (s.quad q).flights ++ [gwFlight q l (s.quad q).gwSlot s.pw.cycle g] := by
  intro t
  unfold t
  rw [State.gwSend_eq]
  let u := s.updQuad q (fun x => { x with gwOut := put x.gwOut l (((look x.gwOut l).getD []).eraseIdx i) })
  have hl : (u.noteOwed q l (s.quad q).gwSlot g).view (fun x => (x.gwOut, x.flights)) = u.view (fun x => (x.gwOut, x.flights)) :=
    State.noteOwed_view u q l g (fun _ _ => by rfl) _
  have hu : u.quad q = { s.quad q with gwOut := put (s.quad q).gwOut l (((look (s.quad q).gwOut l).getD []).eraseIdx i) } :=
    State.updQuad_quad_self s q _ hq
  have hlen : q < (u.noteOwed q l (s.quad q).gwSlot g).quads.length := by
    rw [State.view_length hl, State.updQuad_length]
    exact hq
  obtain ⟨hg, hf⟩ := Prod.mk_inj.mp (State.view_quad hl q)
  rw [State.updQuad_quad_self _ _ _ hlen]
  refine ⟨?_, ?_⟩
  · change look ((u.noteOwed q l (s.quad q).gwSlot g).quad q).gwOut l = _
    rw [hg, hu]
    dsimp only
    rw [look_put, if_pos rfl]
  · change ((u.noteOwed q l (s.quad q).gwSlot g).quad q).flights ++ _ = _
    rw [hf, hu]

/-- Without a reply of an earlier slot none is dropped. -/
theorem State.dropStaleReply_fresh (h : ∀ r ∈ (look (s.quad q).gwOut l).getD [], r.path.isSome = true → r.tok.tag = (s.quad q).gwSlot) :
    s.dropStaleReply q l = s := by
  unfold State.dropStaleReply
  dsimp only
  rw [if_neg]
  rw [Bool.not_eq_true, List.any_eq_false]
  intro r hr
  simp only [Bool.and_eq_true, bne_iff_ne, ne_eq, not_and, not_not]
  exact h r hr

/-- On a path that no trap protects, in its slot, a token takes a credit for each destination. -/
theorem State.gwMay_spends {p : Nat} {sc : Scene} (hsc : (s.quad q).scene (s.quad q).gwSlot = some sc)
    (hp : g.path = some p ∧ p % max 1 sc.period = (s.quad q).slotCtr % max 1 sc.period ∨
      g.path = none ∧ (s.ownSlots (s.quad q).gwSlot (.gw q l)).head? = some p)
    (hds : s.dests (s.quad q).gwSlot (.gw q l) (s.quad q).slotCtr ≠ [])
    (hname : s.pathName (s.quad q).gwSlot (.gw q l) ((s.quad q).slotCtr % max 1 sc.period) = s.pathName (s.quad q).gwSlot (.gw q l) p)
    (hon : (l, s.pathName (s.quad q).gwSlot (.gw q l) p) ∈ (s.quad q).gwSlots)
    (htrap : s.trapIn (s.quad q).gwSlot (.gw q l) ((s.quad q).slotCtr % max 1 sc.period) = none) (hold : g.notBefore ≤ s.pw.cycle)
    (hcred : ∀ d ∈ s.dests (s.quad q).gwSlot (.gw q l) (s.quad q).slotCtr, 0 < s.credit (.gw q l) d) :
    s.gwMay q l g = some (s.spend (.gw q l) (s.dests (s.quad q).gwSlot (.gw q l) (s.quad q).slotCtr)) := by
  have hopen : ((s.dests (s.quad q).gwSlot (.gw q l) (s.quad q).slotCtr).isEmpty ||
      s.pathName (s.quad q).gwSlot (.gw q l) ((s.quad q).slotCtr % max 1 sc.period) != s.pathName (s.quad q).gwSlot (.gw q l) p ||
      !(s.quad q).gwSlots.contains (l, s.pathName (s.quad q).gwSlot (.gw q l) p) || decide (s.pw.cycle < g.notBefore)) = false := by
    simp only [Bool.or_eq_false_iff, List.isEmpty_eq_false_iff, bne_eq_false_iff_eq, Bool.not_eq_false', List.contains_iff_mem,
      decide_eq_false_iff_not, not_lt]
    exact ⟨⟨⟨hds, hname⟩, hon⟩, hold⟩
  have hall : (s.dests (s.quad q).gwSlot (.gw q l) (s.quad q).slotCtr).all (fun d => decide (s.credit (.gw q l) d > 0)) = true := by
    simpa using hcred
  unfold State.gwMay
  dsimp only
  rw [hsc]
  rcases hp with ⟨hp, hin⟩ | ⟨hp, hhead⟩
  · rw [hp]
    dsimp only
    rw [hopen, htrap, hall]
    simp [hin]
  · rw [hp]
    dsimp only
    rw [hhead]
    dsimp only
    rw [hopen, htrap, hall]
    simp

end

/-! ### The token that a link's gateway chooses -/

/-- The first reply that may go is found in its place. -/
theorem findSome?_reply {may : GwTok → Option State} {pre post : List GwTok} {g : GwTok} {t : State} (hp : g.path.isSome = true)
    (hpre : ∀ r ∈ pre, r.path.isSome = true → may r = none) (hg : may g = some t) :
    ((List.zipIdx (pre ++ g :: post)).filter (·.1.path.isSome)).findSome? (fun e => (may e.1).map (fun t => (t, e.1, e.2))) =
      some (t, g, pre.length) := by
  have hnone : ((List.zipIdx pre).filter (·.1.path.isSome)).findSome? (fun e => (may e.1).map (fun t => (t, e.1, e.2))) = none := by
    rw [List.findSome?_eq_none_iff]
    intro e he
    obtain ⟨he, hs⟩ := List.mem_filter.mp he
    rw [hpre e.1 (List.fst_mem_of_mem_zipIdx he) hs, Option.map_none]
  rw [List.zipIdx_append, List.zipIdx_cons, List.filter_append, List.findSome?_append, hnone,
    List.filter_cons_of_pos (by simpa using hp), List.findSome?_cons, hg]
  simp

/-- No reply is found when none may go. -/
theorem findSome?_no_reply {may : GwTok → Option State} {out : List GwTok} (h : ∀ r ∈ out, r.path.isSome = true → may r = none) :
    ((List.zipIdx out).filter (·.1.path.isSome)).findSome? (fun e => (may e.1).map (fun t => (t, e.1, e.2))) = none := by
  rw [List.findSome?_eq_none_iff]
  intro e he
  obtain ⟨he, hs⟩ := List.mem_filter.mp he
  rw [h e.1 (List.fst_mem_of_mem_zipIdx he) hs, Option.map_none]

/-- The first token that is no reply is found in its place. -/
theorem find?_other {pre post : List GwTok} {g : GwTok} (hp : g.path.isNone = true) (hpre : ∀ r ∈ pre, r.path.isSome = true) :
    (List.zipIdx (pre ++ g :: post)).find? (·.1.path.isNone) = some (g, pre.length) := by
  have hnone : (List.zipIdx pre).find? (·.1.path.isNone) = none := by
    rw [List.find?_eq_none]
    intro e he
    rw [Option.isNone_iff_eq_none, ← Option.not_isSome_iff_eq_none, not_not]
    exact hpre e.1 (List.fst_mem_of_mem_zipIdx he)
  rw [List.zipIdx_append, List.zipIdx_cons, List.find?_append, hnone, Option.none_or, List.find?_cons_of_pos (by simpa using hp), Nat.zero_add]

section
variable {s : State} {q l : Nat} {g : GwTok} {pre post : List GwTok} {t : State}

/-- The gateway's injection, when no reply waits of an earlier slot and the link has taken no token. -/
theorem State.injectGw_eq (hstale : s.dropStaleReply q l = s) (hfirst : (s.quad q).did (linkSite q l).1 (linkSite q l).2.1 (50 + l) = false) :
    s.injectGw q l = match ((List.zipIdx ((look (s.quad q).gwOut l).getD [])).filter (·.1.path.isSome)).findSome?
        (fun e => (s.gwMay q l e.1).map (fun t => (t, e.1, e.2))) with
      | some (t, g, i) => t.gwSend q l i g
      | none => match (List.zipIdx ((look (s.quad q).gwOut l).getD [])).find? (·.1.path.isNone) with
        | some (g, i) => match s.gwMay q l g with | some t => t.gwSend q l i g | none => s
        | none => s := by
  unfold State.injectGw
  rw [hstale]
  exact if_neg (Bool.eq_false_iff.mp hfirst)

theorem State.injectGw_reply (hstale : s.dropStaleReply q l = s)
    (hfirst : (s.quad q).did (linkSite q l).1 (linkSite q l).2.1 (50 + l) = false) (hout : look (s.quad q).gwOut l = some (pre ++ g :: post))
    (hp : g.path.isSome = true) (hpre : ∀ r ∈ pre, r.path.isSome = true → s.gwMay q l r = none) (hg : s.gwMay q l g = some t) :
    s.injectGw q l = t.gwSend q l pre.length g := by
  rw [State.injectGw_eq hstale hfirst, hout, Option.getD_some, findSome?_reply hp hpre hg]

theorem State.injectGw_other (hstale : s.dropStaleReply q l = s)
    (hfirst : (s.quad q).did (linkSite q l).1 (linkSite q l).2.1 (50 + l) = false) (hout : look (s.quad q).gwOut l = some (pre ++ g :: post))
    (hp : g.path = none) (hpre : ∀ r ∈ pre, r.path.isSome = true)
    (hno : ∀ r ∈ pre ++ g :: post, r.path.isSome = true → s.gwMay q l r = none) (hg : s.gwMay q l g = some t) :
    s.injectGw q l = t.gwSend q l pre.length g := by
  rw [State.injectGw_eq hstale hfirst, hout, Option.getD_some, findSome?_no_reply hno]
  dsimp only
  rw [find?_other (by rw [hp]; rfl) hpre]
  dsimp only
  rw [hg]

end

theorem tokenInject_gw (s : State) (q l p : Nat) (g : GwTok) (pre post : List GwTok) (sc : Scene) : let src := Src.gw q l
    let x := s.quad q
    let e := linkSite q l
    let slot := x.gwSlot
    let ds := s.dests slot src x.slotCtr
    let c := x.slotCtr % max 1 sc.period
    let out := pre ++ g :: post
    s.quadRuns q = true → q < s.quads.length → x.scene slot = some sc → look x.gwOut l = some out →
    (∀ r ∈ out, r.path.isSome = true → r.tok.tag = slot) → x.did e.1 e.2.1 (50 + l) = false →
    (g.path = none ∧ (s.ownSlots slot src).head? = some p ∧ (∀ r ∈ pre, r.path.isSome = true) ∧
        ∀ r ∈ out, r.path.isSome = true → s.gwMay q l r = none) ∨
      (g.path = some p ∧ p % max 1 sc.period = c ∧ ∀ r ∈ pre, r.path.isSome = true → s.gwMay q l r = none) →
    ds ≠ [] → (ds.map destKey).Nodup → s.pathName slot src c = s.pathName slot src p → (l, s.pathName slot src p) ∈ x.gwSlots →
    s.trapIn slot src c = none → g.notBefore ≤ s.pw.cycle → (∀ d ∈ ds, 0 < s.credit src d) →
    completes (.tokenInject src) s (fun t => (look (t.quad q).gwOut l).getD [] = pre ++ post ∧ (t.quad q).flights = x.flights ++
        [{ row := e.1, col := e.2.1, port := e.2.2, link := 0, due := s.pw.cycle + 2, bridge := false, off := 0
           tok := { g.tok with tag := slot }, src := src }] ∧
      (∀ d ∈ ds, t.credit src d = s.credit src d - 1) ∧ onlyParts [.quads] s t) := by
  intro src x e slot ds c out hruns hq hsc hout htags hfirst hwhich hds hnodup hname hon htrap hold hcred
  have hstale : s.dropStaleReply q l = s := State.dropStaleReply_fresh s q l (by rw [hout]; exact htags)
  have hmay : s.gwMay q l g = some (s.spend src ds) := by
    refine State.gwMay_spends s q l g hsc ?_ hds hname hon htrap hold hcred
    rcases hwhich with ⟨hp, hhead, -, -⟩ | ⟨hp, hin, -⟩
    · exact .inr ⟨hp, hhead⟩
    · exact .inl ⟨hp, hin⟩
  have hsend : s.injectGw q l = (s.spend src ds).gwSend q l pre.length g := by
    rcases hwhich with ⟨hp, -, hpre, hno⟩ | ⟨hp, -, hpre⟩
    · exact State.injectGw_other hstale hfirst hout hp hpre hno hmay
    · exact State.injectGw_reply hstale hfirst hout (by rw [hp]; rfl) hpre hmay
  have hspent : (s.spend src ds).view (fun x => (x.gwOut, x.flights, x.gwSlot)) = s.view (fun x => (x.gwOut, x.flights, x.gwSlot)) :=
    State.spend_view (fun _ _ => rfl) s src ds
  have hx := State.view_quad hspent q
  obtain ⟨hgw, hx⟩ := Prod.mk_inj.mp hx
  obtain ⟨hfl, hslot⟩ := Prod.mk_inj.mp hx
  have hpw : (s.spend src ds).pw = s.pw := (State.spend_only s src ds).same .pw (by decide)
  obtain ⟨hlink, hflight⟩ := State.gwSend_link (s.spend src ds) q l pre.length g (by rw [State.spend_length]; exact hq)
  refine ⟨_, (?_ : exec (.tokenInject src) s = .next (s.injectGw q l)), ?_⟩
  · change execTokenInject src s = _
    unfold execTokenInject
    rw [if_pos (show s.quadRuns (srcQuad src) = true from hruns)]
  · rw [hsend]
    refine ⟨?_, ?_, fun d hd => ?_, (State.gwSend_only ..).after (by decide) (State.spend_only ..)⟩
    · rw [hlink, Option.getD_some, hgw, hout, Option.getD_some, List.eraseIdx_append_of_length_le (le_refl _), Nat.sub_self,
        List.eraseIdx_cons_zero]
    · rw [hflight, hfl, hslot, hpw]
      rfl
    · rw [State.credit_congr (State.gwSend_credits ..), State.spend_credit s src ds hq hnodup d hd]

end Sys2Proof.Machine
end

section
/-! A token on the links arrives: at the gateway, at a closed port, under another slot, or in its switch (R55, R65, R67, R75, R167). -/

namespace Sys2Proof.Machine

open Config

section
variable (s : State) (q n : Nat) (f : Flight)

/-- The quadrant without the token that arrives. -/
def State.landed : State := s.updQuad q (fun x => { x with flights := x.flights.eraseIdx n })

/-- The slot-counter cycle whose entry a switch uses for a token (R65). -/
def Flight.entCycle (slotCtr cycle : Nat) : Nat := (slotCtr + slotWrap - (cycle - f.due + f.off) % slotWrap) % slotWrap

variable {s q n f}

theorem State.landed_quad (hq : q < s.quads.length) :
    (s.landed q n).quad q = { s.quad q with flights := (s.quad q).flights.eraseIdx n } := State.updQuad_quad_self s q _ hq

theorem State.landed_only : onlyParts [.quads] s (s.landed q n) := State.updQuad_only ..

theorem State.landed_view {α : Type} {v : Quad → α} (hv : ∀ x fs, v { x with flights := fs } = v x) : (s.landed q n).view v = s.view v :=
  State.updQuad_view s q fun x => hv x _

theorem State.landed_closedPort (row col p : Nat) : (s.landed q n).closedPort q row col p = s.closedPort q row col p := by
  unfold State.closedPort
  cases hopFrom q row col p with
  | gwl l => rfl
  | sw q' r c i br =>
    have h := State.view_quad (State.landed_view (s := s) (q := q) (n := n) (v := fun x => x.fencedSite r c) (fun _ _ => rfl)) q'
    exact h

theorem exec_tokenHop (hruns : s.quadRuns q = true) (hf : (s.quad q).flights[n]? = some f) (hdue : f.due ≤ s.pw.cycle) :
    exec (.tokenHop q n) s = .next (let u := s.landed q n
      if f.port = 0 then u.deliver q f.row f.col (64 + f.link) f.tok f.src f.due
      else if u.closedPort q f.row f.col f.port || (u.quad q).fencedSite f.row f.col then u.fencedDrop q f.row f.col f.port
      else if f.tok.tag ≠ (u.quad q).slotAt f.row f.col then
        ((u.bump 0x24 q (3 * siteOrd f.row f.col) 1).bump 0x24 q
          (3 * siteOrd f.row f.col + if (u.quad q).cutAt.isSome then 2 else 1) 1).addDiscards q 1
      else u.fanOut q f.row f.col f.port (f.entCycle (u.quad q).slotCtr s.pw.cycle) f.tok f.src f.due f.off) := by
  change execTokenHop q n s = _
  unfold execTokenHop
  rw [hf]
  dsimp only
  rw [if_pos (by simp [hruns, hdue])]
  rfl

/-! ### At the gateway (R167, R169) -/

theorem State.landed_awaitsAnswer (hq : q < s.quads.length) (link : Nat) : (s.landed q n).awaitsAnswer q link = s.awaitsAnswer q link := by
  unfold State.awaitsAnswer
  rw [State.landed_quad hq]
  rfl

theorem State.landed_claimed (hq : q < s.quads.length) (link : Nat) : (s.landed q n).claimed q link = s.claimed q link := by
  unfold State.claimed
  rw [State.landed_quad hq]
  rfl

theorem tokenHop_claimed (hruns : s.quadRuns q = true) (hq : q < s.quads.length) (hf : (s.quad q).flights[n]? = some f)
    (hdue : f.due ≤ s.pw.cycle) (hport : f.port = 0) (hans : s.awaitsAnswer q f.link = false) (hcl : s.claimed q f.link = true) :
    completes (.tokenHop q n) s (fun t => (t.quad q).inbound f.link = (s.quad q).inbound f.link ++ [(f.tok, f.due, f.src)] ∧
      (t.quad q).flights = (s.quad q).flights.eraseIdx n ∧ onlyParts [.quads] s t) := by
  refine ⟨_, exec_tokenHop hruns hf hdue, ?_⟩
  dsimp only
  rw [if_pos hport, State.deliver, if_pos (by omega), Nat.add_sub_cancel_left, State.landed_awaitsAnswer hq, hans, State.landed_claimed hq, hcl,
    if_neg Bool.false_ne_true, if_pos rfl]
  refine ⟨?_, ?_, (State.updQuad_only ..).after (by decide) State.landed_only⟩
  · rw [State.updQuad_quad_self _ _ _ (by rw [State.landed, State.updQuad_length]; exact hq), State.landed_quad hq]
    unfold Quad.inbound
    dsimp only
    rw [look_put, if_pos rfl, Option.getD_some]
  · rw [State.updQuad_quad_self _ _ _ (by rw [State.landed, State.updQuad_length]; exact hq), State.landed_quad hq]

theorem tokenHop_orphan (hruns : s.quadRuns q = true) (hq : q < s.quads.length) (hf : (s.quad q).flights[n]? = some f)
    (hdue : f.due ≤ s.pw.cycle) (hport : f.port = 0) (hans : s.awaitsAnswer q f.link = false) (hcl : s.claimed q f.link = false) :
    completes (.tokenHop q n) s (fun t => t.counter 0x44 q 0 = min ctrMax (s.counter 0x44 q 0 + 1) ∧
      (t.quad q).inbound f.link = (s.quad q).inbound f.link ∧ (t.quad q).flights = (s.quad q).flights.eraseIdx n ∧
      onlyParts [.quads, .ctr] s t) := by
  refine ⟨_, exec_tokenHop hruns hf hdue, ?_⟩
  dsimp only
  rw [if_pos hport, State.deliver, if_pos (by omega), Nat.add_sub_cancel_left, State.landed_awaitsAnswer hq, hans, State.landed_claimed hq, hcl,
    if_neg Bool.false_ne_true, if_neg Bool.false_ne_true]
  have howe := State.oweTo_offCred ((s.landed q n).bump 0x44 q 0 1) f.src f.tok.tag q f.row f.col (64 + f.link)
  have hquad := (State.view_quad howe q).trans (congrArg Quad.offCred (State.landed_quad hq))
  have hin := congrArg (fun y : Quad => y.inbound f.link) hquad
  have hfl := congrArg (fun y : Quad => y.flights) hquad
  have honly := State.oweTo_only ((s.landed q n).bump 0x44 q 0 1) f.src f.tok.tag q f.row f.col (64 + f.link)
  refine ⟨?_, hin, hfl, honly.after (by decide) ((State.bump_only ..).after (by decide) (State.landed_only.mono (by decide)))⟩
  have hctr := congrArg (fun l => (look l (CKey.mk 0x44 q 0)).getD 0) (honly.same .ctr (by decide))
  exact hctr.trans ((State.counter_bump ..).trans (if_pos ⟨rfl, rfl, rfl⟩))

/-! ### At a closed port, and under another slot (R55, R67, R75) -/

theorem tokenHop_shut (hruns : s.quadRuns q = true) (hq : q < s.quads.length) (hf : (s.quad q).flights[n]? = some f)
    (hdue : f.due ≤ s.pw.cycle) (hport : f.port ≠ 0)
    (hshut : (s.closedPort q f.row f.col f.port || (s.quad q).fencedSite f.row f.col) = true) :
    completes (.tokenHop q n) s (fun t => t.counter 0x13 q (4 * siteOrd f.row f.col + (f.port - 1)) =
        min ctrMax (s.counter 0x13 q (4 * siteOrd f.row f.col + (f.port - 1)) + 1) ∧
      (t.quad q).flights = (s.quad q).flights.eraseIdx n ∧ onlyParts [.quads, .ctr] s t) := by
  refine ⟨_, exec_tokenHop hruns hf hdue, ?_⟩
  dsimp only
  have hfence : ((s.landed q n).quad q).fencedSite f.row f.col = (s.quad q).fencedSite f.row f.col := by
    rw [State.landed_quad hq]
    rfl
  rw [if_neg hport, State.landed_closedPort, hfence, if_pos hshut]
  refine ⟨(State.counter_bump ..).trans (if_pos ⟨rfl, rfl, rfl⟩), ?_,
    (State.fencedDrop_only ..).after (by decide) (State.landed_only.mono (by decide))⟩
  exact congrArg (fun y : Quad => y.flights) (State.landed_quad hq)

theorem tokenHop_stale (hruns : s.quadRuns q = true) (hq : q < s.quads.length) (hf : (s.quad q).flights[n]? = some f)
    (hdue : f.due ≤ s.pw.cycle) (hport : f.port ≠ 0)
    (hshut : (s.closedPort q f.row f.col f.port || (s.quad q).fencedSite f.row f.col) = false)
    (htag : f.tok.tag ≠ (s.quad q).slotAt f.row f.col) : let ord := siteOrd f.row f.col
    let counted (t : State) (ix : Nat) : Prop := t.counter 0x24 q ix = min ctrMax (s.counter 0x24 q ix + 1)
    completes (.tokenHop q n) s (fun t => (t.quad q).flights = (s.quad q).flights.eraseIdx n ∧ counted t (3 * ord) ∧
      counted t (3 * ord + if (s.quad q).cutAt.isSome then 2 else 1) ∧ onlyParts [.quads, .ctr, .sv] s t) := by
  intro ord counted
  refine ⟨_, exec_tokenHop hruns hf hdue, ?_⟩
  dsimp only
  have hfence : ((s.landed q n).quad q).fencedSite f.row f.col = (s.quad q).fencedSite f.row f.col := by
    rw [State.landed_quad hq]
    rfl
  have hslot : ((s.landed q n).quad q).slotAt f.row f.col = (s.quad q).slotAt f.row f.col := by
    rw [State.landed_quad hq]
    rfl
  have hcut : ((s.landed q n).quad q).cutAt = (s.quad q).cutAt := by rw [State.landed_quad hq]
  rw [if_neg hport, State.landed_closedPort, hfence, if_neg (Bool.eq_false_iff.mp hshut), hslot, if_pos htag, hcut]
  have hkind : 3 * ord + (if (s.quad q).cutAt.isSome then 2 else 1) ≠ 3 * ord := by split <;> omega
  generalize 3 * ord + (if (s.quad q).cutAt.isSome then 2 else 1) = kind at hkind ⊢
  let u := ((s.landed q n).bump 0x24 q (3 * ord) 1).bump 0x24 q kind 1
  have honly : onlyParts [.sv] u (u.addDiscards q 1) := State.addDiscards_only ..
  have hctr (i : Nat) : (u.addDiscards q 1).counter 0x24 q i = u.counter 0x24 q i :=
    congrArg (fun l => (look l (CKey.mk 0x24 q i)).getD 0) (honly.same .ctr (by decide))
  refine ⟨?_, ?_, ?_, ?_⟩
  · exact congrArg (fun y : Quad => y.flights) ((State.quad_congr (State.addDiscards_quads u q 1) q).trans (State.landed_quad hq))
  · refine (hctr _).trans ((State.counter_bump ..).trans ((if_neg (by simp [hkind.symm])).trans ?_))
    exact (State.counter_bump ..).trans (if_pos ⟨rfl, rfl, rfl⟩)
  · refine (hctr _).trans ((State.counter_bump ..).trans ((if_pos ⟨rfl, rfl, rfl⟩).trans ?_))
    rw [State.counter_bump, if_neg (by simp [hkind])]
    rfl
  · exact honly.after (by decide) ((State.bump_only ..).after (by decide) ((State.bump_only ..).after (by decide)
      (State.landed_only.mono (by decide))))

end

end Sys2Proof.Machine
end

section
/-! A token of the switch's present slot passes on along its route, or enters its site's input queue (R65). -/

namespace Sys2Proof.Machine

open Config

section
variable {s : State} {q n : Nat} {f : Flight}

/-- No port of a switch other than its site sends a token on. -/
theorem State.sendOuts_none {e : BitVec 32} {code : Nat} (row col : Nat) (tok : Tok) (src : Src) (at_ off : Nat) (t : State)
    (h : ∀ o, 1 ≤ o → o ≤ 4 → entSrc e o ≠ code) :
    [1, 2, 3, 4].foldl (fun t o => if entSrc e o = code then t.sendOut q row col tok src at_ off o else t) t = t := by
  simp only [List.foldl_cons, List.foldl_nil]
  rw [if_neg (h 1 (by decide) (by decide)), if_neg (h 2 (by decide) (by decide)), if_neg (h 3 (by decide) (by decide)),
    if_neg (h 4 (by decide) (by decide))]

/-- One port of a switch sends a token on. -/
theorem State.sendOuts_one {e : BitVec 32} {code o : Nat} (row col : Nat) (tok : Tok) (src : Src) (at_ off : Nat) (t : State) (h1 : 1 ≤ o)
    (h4 : o ≤ 4) (ho : entSrc e o = code) (h : ∀ i, 1 ≤ i → i ≤ 4 → i ≠ o → entSrc e i ≠ code) :
    [1, 2, 3, 4].foldl (fun t o => if entSrc e o = code then t.sendOut q row col tok src at_ off o else t) t =
      t.sendOut q row col tok src at_ off o := by
  have hcases : o = 1 ∨ o = 2 ∨ o = 3 ∨ o = 4 := by omega
  simp only [List.foldl_cons, List.foldl_nil]
  rcases hcases with rfl | rfl | rfl | rfl
  · rw [if_pos ho, if_neg (h 2 (by decide) (by decide) (by decide)), if_neg (h 3 (by decide) (by decide) (by decide)),
      if_neg (h 4 (by decide) (by decide) (by decide))]
  · rw [if_neg (h 1 (by decide) (by decide) (by decide)), if_pos ho, if_neg (h 3 (by decide) (by decide) (by decide)),
      if_neg (h 4 (by decide) (by decide) (by decide))]
  · rw [if_neg (h 1 (by decide) (by decide) (by decide)), if_neg (h 2 (by decide) (by decide) (by decide)), if_pos ho,
      if_neg (h 4 (by decide) (by decide) (by decide))]
  · rw [if_neg (h 1 (by decide) (by decide) (by decide)), if_neg (h 2 (by decide) (by decide) (by decide)),
      if_neg (h 3 (by decide) (by decide) (by decide)), if_pos ho]

/-- The token has landed at its switch, which has one. -/
def State.switched (s : State) (q n row col : Nat) : State := (s.landed q n).updQuad q (fun x => x.act row col 26)

theorem State.switched_quad (hq : q < s.quads.length) (row col : Nat) :
    (s.switched q n row col).quad q = { s.quad q with flights := (s.quad q).flights.eraseIdx n }.act row col 26 := by
  rw [State.switched, State.updQuad_quad_self _ _ _ (by rw [State.landed, State.updQuad_length]; exact hq), State.landed_quad hq]

theorem State.switched_length (row col : Nat) : (s.switched q n row col).quads.length = s.quads.length := by
  rw [State.switched, State.updQuad_length, State.landed, State.updQuad_length]

theorem State.switched_only (row col : Nat) : onlyParts [.quads] s (s.switched q n row col) :=
  (State.updQuad_only ..).after (by decide) State.landed_only

theorem State.switched_closedPort (row col r c p : Nat) : (s.switched q n row col).closedPort q r c p = s.closedPort q r c p := by
  refine Eq.trans ?_ (State.landed_closedPort (n := n) r c p)
  unfold State.closedPort
  cases hopFrom q r c p with
  | gwl l => rfl
  | sw q' r' c' i br =>
    have h := State.view_quad (State.updQuad_view (s.landed q n) q (v := fun x => x.fencedSite r' c') (g := fun x => x.act row col 26)
      (fun _ => by rfl)) q'
    exact h

/-- The slot entry that the switch uses for the token. -/
def State.hopEnt (s : State) (q : Nat) (f : Flight) : BitVec 32 :=
  (s.quad q).entAt f.tok.tag f.row f.col (f.entCycle (s.quad q).slotCtr s.pw.cycle)

/-- The token's switch, open and in the token's slot, sends it where its slot entry says. -/
theorem exec_tokenHop_switch (hruns : s.quadRuns q = true) (hq : q < s.quads.length) (hf : (s.quad q).flights[n]? = some f)
    (hdue : f.due ≤ s.pw.cycle) (hport : f.port ≠ 0)
    (hshut : (s.closedPort q f.row f.col f.port || (s.quad q).fencedSite f.row f.col) = false)
    (htag : f.tok.tag = (s.quad q).slotAt f.row f.col) : exec (.tokenHop q n) s = .next
      ([1, 2, 3, 4].foldl (fun t o => if entSrc (s.hopEnt q f) o = f.port then t.sendOut q f.row f.col f.tok f.src f.due f.off o else t)
        (if entSrc (s.hopEnt q f) 0 = f.port then (s.switched q n f.row f.col).deliver q ((s.quad q).logic f.row f.col).1
          ((s.quad q).logic f.row f.col).2 (entDq (s.hopEnt q f)) f.tok f.src f.due else s.switched q n f.row f.col)) := by
  have hfence : ((s.landed q n).quad q).fencedSite f.row f.col = (s.quad q).fencedSite f.row f.col := by
    rw [State.landed_quad hq]
    rfl
  have hslot : ((s.landed q n).quad q).slotAt f.row f.col = (s.quad q).slotAt f.row f.col := by
    rw [State.landed_quad hq]
    rfl
  have hctr : ((s.landed q n).quad q).slotCtr = (s.quad q).slotCtr := by rw [State.landed_quad hq]
  have hlogic : ((s.landed q n).quad q).logic f.row f.col = (s.quad q).logic f.row f.col := by
    rw [State.landed_quad hq]
    rfl
  have hent (c : Nat) : ((s.landed q n).quad q).entAt f.tok.tag f.row f.col c = (s.quad q).entAt f.tok.tag f.row f.col c := by
    rw [State.landed_quad hq]
    rfl
  rw [exec_tokenHop hruns hf hdue]
  dsimp only
  rw [if_neg hport, State.landed_closedPort, hfence, if_neg (Bool.eq_false_iff.mp hshut), hslot, if_neg (not_not.mpr htag), State.fanOut_eq,
    hctr, hlogic, hent]
  rfl

theorem tokenHop_enters (hruns : s.quadRuns q = true) (hq : q < s.quads.length) (hf : (s.quad q).flights[n]? = some f)
    (hdue : f.due ≤ s.pw.cycle) (hport : f.port ≠ 0)
    (hshut : (s.closedPort q f.row f.col f.port || (s.quad q).fencedSite f.row f.col) = false)
    (htag : f.tok.tag = (s.quad q).slotAt f.row f.col) : let e := s.hopEnt q f
    let x := s.quad q
    let u := x.logic f.row f.col
    entSrc e 0 = f.port → entDq e < 6 → (∀ o, 1 ≤ o → o ≤ 4 → entSrc e o ≠ f.port) → entDq e < (x.inqs u.1 u.2).length →
    completes (.tokenHop q n) s (fun t => (t.quad q).inq u.1 u.2 (entDq e) = x.inq u.1 u.2 (entDq e) ++ [f.tok] ∧
      (t.quad q).flights = x.flights.eraseIdx n ∧ onlyParts [.quads] s t) := by
  intro e x u h0 hdq hno hlen
  refine ⟨_, exec_tokenHop_switch hruns hq hf hdue hport hshut htag, ?_⟩
  rw [State.sendOuts_none _ _ _ _ _ _ _ hno, if_pos h0, State.deliver, if_neg (show ¬ entDq e ≥ 64 by omega), if_neg (show ¬ entDq e = 6 by omega)]
  have hsw := State.switched_quad (s := s) (n := n) hq f.row f.col
  have hset : (((s.switched q n f.row f.col).updQuad q (fun x =>
      (x.setInq u.1 u.2 (entDq e) (x.inq u.1 u.2 (entDq e) ++ [f.tok])).act u.1 u.2 (entDq e))).quad q) =
      (((s.switched q n f.row f.col).quad q).setInq u.1 u.2 (entDq e) (((s.switched q n f.row f.col).quad q).inq u.1 u.2 (entDq e) ++ [f.tok])).act
        u.1 u.2 (entDq e) := State.updQuad_quad_self _ _ _ (by rw [State.switched_length]; exact hq)
  have hprog (v : State) (r c d : Nat) : ((v.progress q).quad q).inq r c d = (v.quad q).inq r c d ∧
      ((v.progress q).quad q).flights = (v.quad q).flights :=
    Prod.mk_inj.mp (State.view_quad (v := fun x => (x.inq r c d, x.flights)) (State.updQuad_view v q fun _ => by rfl) q)
  obtain ⟨hin, hfl⟩ := hprog _ u.1 u.2 (entDq e)
  refine ⟨hin.trans ?_, hfl.trans ?_, (State.progress_only ..).after (by decide) ((State.updQuad_only ..).after (by decide)
    (State.switched_only ..))⟩
  · rw [hset, Quad.act_inq, Quad.setInq_inq_self _ _ _ _ _ (.inl ?_), hsw, Quad.act_inq]
    · rfl
    · rw [hsw]
      exact hlen
  · rw [hset]
    have hu := congrArg (fun y : Quad => y.flights) (((s.switched q n f.row f.col).quad q).setInq_offUnits u.1 u.2 (entDq e)
      (((s.switched q n f.row f.col).quad q).inq u.1 u.2 (entDq e) ++ [f.tok]))
    refine Eq.trans hu ?_
    exact congrArg (fun y : Quad => y.flights) hsw

/-- The token leaves its switch by one port. -/
theorem exec_tokenHop_passes (hruns : s.quadRuns q = true) (hq : q < s.quads.length) (hf : (s.quad q).flights[n]? = some f)
    (hdue : f.due ≤ s.pw.cycle) (hport : f.port ≠ 0)
    (hshut : (s.closedPort q f.row f.col f.port || (s.quad q).fencedSite f.row f.col) = false)
    (htag : f.tok.tag = (s.quad q).slotAt f.row f.col) {o : Nat} (h1 : 1 ≤ o) (h4 : o ≤ 4) (ho : entSrc (s.hopEnt q f) o = f.port)
    (h0 : entSrc (s.hopEnt q f) 0 ≠ f.port) (hno : ∀ i, 1 ≤ i → i ≤ 4 → i ≠ o → entSrc (s.hopEnt q f) i ≠ f.port) :
    exec (.tokenHop q n) s = .next ((s.switched q n f.row f.col).sendOut q f.row f.col f.tok f.src f.due f.off o) := by
  rw [exec_tokenHop_switch hruns hq hf hdue hport hshut htag, if_neg h0, State.sendOuts_one _ _ _ _ _ _ _ h1 h4 ho hno]

theorem tokenHop_passes (hruns : s.quadRuns q = true) (hq : q < s.quads.length) (hf : (s.quad q).flights[n]? = some f)
    (hdue : f.due ≤ s.pw.cycle) (hport : f.port ≠ 0)
    (hshut : (s.closedPort q f.row f.col f.port || (s.quad q).fencedSite f.row f.col) = false)
    (htag : f.tok.tag = (s.quad q).slotAt f.row f.col) : let e := s.hopEnt q f
    let x := s.quad q
    ∀ o, 1 ≤ o → o ≤ 4 → entSrc e o = f.port → entSrc e 0 ≠ f.port → (∀ i, 1 ≤ i → i ≤ 4 → i ≠ o → entSrc e i ≠ f.port) →
      (∀ q' r c p br, hopFrom q f.row f.col o = .sw q' r c p br → s.closedPort q f.row f.col o = false → s.dark q' = false →
        q' < s.quads.length →
        completes (.tokenHop q n) s (fun t => (t.quad q').flights =
          (if q' = q then x.flights.eraseIdx n else (s.quad q').flights) ++
            [{ row := r, col := c, port := p, link := 0, due := f.due + (if br then 8 else 2), bridge := br
               off := f.off + (if br then 6 else 0), tok := f.tok, src := f.src }] ∧ onlyParts [.quads] s t)) ∧
      (s.closedPort q f.row f.col o = true → completes (.tokenHop q n) s (fun t =>
        t.counter 0x13 q (4 * siteOrd f.row f.col + (o - 1)) = min ctrMax (s.counter 0x13 q (4 * siteOrd f.row f.col + (o - 1)) + 1) ∧
        (t.quad q).flights = x.flights.eraseIdx n ∧ onlyParts [.quads, .ctr] s t)) ∧
      (∀ l, hopFrom q f.row f.col o = .gwl l →
        completes (.tokenHop q n) s (fun t => (t.quad q).flights = x.flights.eraseIdx n ++
          [{ row := f.row, col := f.col, port := 0, link := l, due := f.due + 2, bridge := false, off := f.off, tok := f.tok
             src := f.src }] ∧ onlyParts [.quads] s t)) := by
  intro e x o h1 h4 ho h0 hno
  have hexec := exec_tokenHop_passes hruns hq hf hdue hport hshut htag h1 h4 ho h0 hno
  have hsw : ((s.switched q n f.row f.col).quad q).flights = x.flights.eraseIdx n :=
    congrArg (fun y : Quad => y.flights) (State.switched_quad (s := s) (n := n) hq f.row f.col)
  have hlen := State.switched_length (s := s) (q := q) (n := n) f.row f.col
  have honly := State.switched_only (s := s) (q := q) (n := n) f.row f.col
  have hclosed := State.switched_closedPort (s := s) (q := q) (n := n) f.row f.col f.row f.col o
  refine ⟨fun q' r c p br hhop hopen hlit hq' => ⟨_, hexec, ?_⟩, fun hcl => ⟨_, hexec, ?_⟩, fun l hhop => ⟨_, hexec, ?_⟩⟩
  · have hfl : ((s.switched q n f.row f.col).quad q').flights = (if q' = q then x.flights.eraseIdx n else (s.quad q').flights) := by
      split
      · rename_i h
        rw [h, hsw]
      · rename_i h
        rw [State.switched, State.updQuad_quad _ _ _ _ (by rw [State.landed, State.updQuad_length]; exact hq), if_neg h, State.landed,
          State.updQuad_quad _ _ _ _ hq, if_neg h]
    have hdark : (s.switched q n f.row f.col).dark q' = false := hlit
    rw [State.sendOut, hhop]
    dsimp only
    rw [hclosed, hopen, hdark, if_neg Bool.false_ne_true, if_neg Bool.false_ne_true]
    refine ⟨?_, (State.updQuad_only ..).after (by decide) honly⟩
    rw [State.updQuad_quad_self _ _ _ (by rw [hlen]; exact hq')]
    dsimp only
    rw [hfl]
  · obtain ⟨q', r, c, p, br, hhop⟩ : ∃ q' r c p br, hopFrom q f.row f.col o = .sw q' r c p br := by
      unfold State.closedPort at hcl
      cases hh : hopFrom q f.row f.col o with
      | gwl l => rw [hh] at hcl; exact absurd hcl Bool.false_ne_true
      | sw q' r c p br => exact ⟨q', r, c, p, br, rfl⟩
    rw [State.sendOut, hhop]
    dsimp only
    rw [hclosed, hcl, if_pos rfl]
    exact ⟨(State.counter_bump ..).trans (if_pos ⟨rfl, rfl, rfl⟩), hsw, (State.fencedDrop_only ..).after (by decide) (honly.mono (by decide))⟩
  · rw [State.sendOut, hhop]
    dsimp only
    refine ⟨?_, (State.updQuad_only ..).after (by decide) honly⟩
    rw [State.updQuad_quad_self _ _ _ (by rw [hlen]; exact hq)]
    dsimp only
    rw [hsw]

end

end Sys2Proof.Machine
end

section
/-! A credit comes home, and with the last credit of its token an operation of the tier engine completes (R66, R157, R168). -/

namespace Sys2Proof.Machine

open Config

/-! ### The only entry of a tier-engine queue completes (R157) -/

/-- A queue's one entry, with none waiting for room behind it. -/
structure State.single (s : State) (q tq : Nat) (d : TeEnt) : Prop where
  quad : q < s.quads.length
  queue : tq < (s.quad q).queues.length
  only : (s.tq q tq).ents = [d]
  back : (s.tq q tq).back = []

/-- A queue emptied, with nothing else changed but the cue counters. -/
structure State.emptied (s t : State) (q tq : Nat) : Prop where
  ents : (t.tq q tq).ents = []
  rest : t.view (fun x => { x with queues := [], cues := [] }) = s.view (fun x => { x with queues := [], cues := [] })
  only : onlyParts [.quads, .ctr] s t

section
variable {s : State} {q tq : Nat} {d : TeEnt}

theorem State.updTq_tq (g : TeQueue → TeQueue) (hq : q < s.quads.length) (ht : tq < (s.quad q).queues.length) :
    (s.updTq q tq g).tq q tq = g (s.tq q tq) := by
  unfold State.tq State.updTq
  rw [State.updQuad_quad_self _ _ _ hq]
  exact (getD_modify _ _ _ _ _ ht).trans (if_pos rfl)

theorem State.updTq_rest (s : State) (q tq : Nat) (g : TeQueue → TeQueue) :
    (s.updTq q tq g).view (fun x => { x with queues := [], cues := [] }) = s.view (fun x => { x with queues := [], cues := [] }) :=
  State.updQuad_view _ _ fun _ => by rfl

theorem State.updTq_cues (s : State) (q tq : Nat) (g : TeQueue → TeQueue) : (s.updTq q tq g).view Quad.cues = s.view Quad.cues :=
  State.updQuad_view _ _ fun _ => by rfl

theorem State.updTq_queues (s : State) (q tq : Nat) (g : TeQueue → TeQueue) :
    (s.updTq q tq g).view (fun x => x.queues.length) = s.view (fun x => x.queues.length) :=
  State.updQuad_view _ _ fun _ => List.length_modify ..

/-- A one-entry queue after its entry changed. -/
theorem State.single.map (h : s.single q tq d) {g : TeQueue → TeQueue} {e : TeEnt} (he : (g (s.tq q tq)).ents = [e])
    (hb : (g (s.tq q tq)).back = []) : (s.updTq q tq g).single q tq e := by
  obtain ⟨hq, ht, ho, hback⟩ := h
  refine ⟨?_, ?_, ?_, ?_⟩
  · rw [State.updTq, State.updQuad_length]
    exact hq
  · rw [State.view_quad (v := fun x => x.queues.length) (State.updTq_queues ..)]
    exact ht
  · rw [State.updTq_tq _ hq ht]
    exact he
  · rw [State.updTq_tq _ hq ht]
    exact hb

/-- An entry that is done and has no post left is dropped. -/
theorem State.settle_drops (h : s.single q tq d) (fuel : Nat) (hdone : d.done = true)
    (hpost : d.posts = false ∨ ¬ d.cue < 63) : s.emptied (State.settle q tq (fuel + 1) s) q tq ∧
      (State.settle q tq (fuel + 1) s).view Quad.cues = s.view Quad.cues := by
  obtain ⟨hq, ht, ho, hback⟩ := h
  have hnone : postable (s.tq q tq).ents [] 0 = none := by
    rw [ho]
    unfold postable
    rw [if_neg (by rcases hpost with hp | hp <;> simp [hp])]
    rfl
  have hneed : (s.tq q tq).needed d = false := by simp [TeQueue.needed, ho, hback]
  have hspare : (!d.posts || decide (d.cue ≥ 63) || d.op == 8) = true := by
    rcases hpost with hp | hp
    · simp [hp]
    · simp [show d.cue ≥ 63 by omega]
  let g (k : TeQueue) : TeQueue :=
    ({ k with ents := k.ents.filter (fun e => ¬ (e.done && (!e.posts || e.cue ≥ 63 || e.op == 8) && !k.needed e)) } : TeQueue).refill s.now
  have hstep : State.settle q tq (fuel + 1) s = s.updTq q tq g := by
    rw [State.settle]
    dsimp only
    rw [show postable ((s.quad q).queues.getD tq default).ents [] 0 = none from hnone]
    rfl
  have hg : (g (s.tq q tq)).ents = [] := by
    have hf : (s.tq q tq).ents.filter (fun e => ¬ (e.done && (!e.posts || e.cue ≥ 63 || e.op == 8) && !(s.tq q tq).needed e)) = [] := by
      rw [ho, List.filter_eq_nil_iff]
      intro e he
      rw [List.mem_singleton.mp he, hdone, hspare, hneed]
      decide
    unfold g TeQueue.refill
    dsimp only
    rw [hf, hback]
    rfl
  rw [hstep]
  refine ⟨⟨?_, State.updTq_rest .., (State.updQuad_only ..).mono (by decide)⟩, State.updTq_cues ..⟩
  rw [State.updTq_tq _ hq ht, hg]

/-- An entry that is done posts, when it has a cue counter to, and is dropped. -/
theorem State.settle_posts (h : s.single q tq d) (hdone : d.done = true) (hop8 : d.op ≠ 8) (hposts : d.posts = true)
    (hfits : d.cue < 63 → d.cue < (s.quad q).cues.length ∧ ((s.quad q).cues.getD d.cue default).posted + d.postn ≤ 0xFFFFFFFF) :
    let t := State.settle q tq 2 s
    s.emptied t q tq ∧
      (d.cue < 63 → ((t.quad q).cues.getD d.cue default).posted = ((s.quad q).cues.getD d.cue default).posted + d.postn) := by
  intro t
  by_cases hc : d.cue < 63
  · obtain ⟨hlen, hmax⟩ := hfits hc
    have hsome : postable (s.tq q tq).ents [] 0 = some 0 := by
      rw [h.only]
      unfold postable
      rw [if_pos (by simp [hposts, hc, hop8]), if_pos (by simp [hdone])]
    have hfirst : (s.tq q tq).ents.getD 0 default = d := by
      rw [h.only]
      rfl
    let u := s.updTq q tq (fun k => { k with ents := k.ents.modify 0 (fun e => { e with posts := false }) })
    have hu : u.single q tq { d with posts := false } := h.map (by rw [h.only]; rfl) h.back
    have hucues : (u.quad q).cues = (s.quad q).cues := State.view_quad (State.updTq_cues ..) q
    let w := u.updQuad q (fun x => { x with cues := x.cues.modify d.cue (fun e =>
      { e with posted := ((s.quad q).cues.getD d.cue default).posted + d.postn }) })
    have hstep : t = State.settle q tq 1 w := by
      unfold t
      rw [State.settle]
      dsimp only
      rw [show postable ((s.quad q).queues.getD tq default).ents [] 0 = some 0 from hsome]
      dsimp only
      rw [show ((s.quad q).queues.getD tq default).ents.getD 0 default = d from hfirst]
      refine congrArg (State.settle q tq 1) ?_
      change u.post q d.cue d.postn = w
      unfold State.post
      dsimp only
      rw [hucues, if_pos hmax]
    have hwq : w.quad q = { u.quad q with cues := (u.quad q).cues.modify d.cue (fun e =>
        { e with posted := ((s.quad q).cues.getD d.cue default).posted + d.postn }) } := State.updQuad_quad_self u q _ hu.quad
    have hwtq : w.tq q tq = u.tq q tq := by rw [State.tq, hwq, State.tq]
    have hw : w.single q tq { d with posts := false } :=
      ⟨by rw [State.updQuad_length]; exact hu.quad, by rw [hwq]; exact hu.queue, by rw [hwtq]; exact hu.only, by rw [hwtq]; exact hu.back⟩
    obtain ⟨⟨hents, hrest, honly⟩, hcues⟩ := State.settle_drops hw 0 hdone (.inl rfl)
    rw [hstep]
    refine ⟨⟨hents, hrest.trans ?_, honly.after (by decide) ?_⟩, fun _ => ?_⟩
    · exact (State.updQuad_view _ _ fun _ => by rfl).trans (State.updTq_rest s q tq _)
    · exact (State.updQuad_only ..).after (by decide) ((State.updQuad_only s q _).mono (by decide))
    · rw [State.view_quad hcues, hwq]
      dsimp only
      rw [hucues, getD_modify _ _ _ _ _ hlen, if_pos rfl]
  · exact ⟨(State.settle_drops h 1 hdone (.inr hc)).1, fun hc' => absurd hc' hc⟩

/-- The one entry of a queue, started and done at last, posts and leaves the queue. -/
theorem State.teDone_single (h : s.single q tq d) (hstart : d.started = true) (hdone : d.done = false) (hop8 : d.op ≠ 8)
    (hposts : d.posts = true) (hjob : d.job < 2 ^ 32)
    (hfits : d.cue < 63 → d.cue < (s.quad q).cues.length ∧ ((s.quad q).cues.getD d.cue default).posted + d.postn ≤ 0xFFFFFFFF) :
    let t := s.teDone q tq d.n
    s.emptied t q tq ∧
      (d.cue < 63 → ((t.quad q).cues.getD d.cue default).posted = ((s.quad q).cues.getD d.cue default).posted + d.postn) := by
  intro t
  have hlive : (s.tq q tq).live d.n = some d := by
    rw [TeQueue.live, h.only, List.find?_cons_of_pos (by simp [hstart, hdone])]
  let fin : TeEnt := { d with done := true, left := 0, gone := d.gone + d.held, held := 0, owed := [] }
  let u := s.updTq q tq (fun k => { k with ents := k.ents.map (fun e => if e.n == d.n && e.iter == d.iter then
    { e with done := true, left := 0, gone := e.gone + e.held, held := 0, owed := [] } else e) })
  have hu : u.single q tq fin := h.map (by rw [h.only]; simp [fin]) h.back
  have hb : (u.bump 0x41 q (5 * tq) 1).single q tq fin := ⟨hu.quad, hu.queue, hu.only, hu.back⟩
  have hucues : (u.quad q).cues = (s.quad q).cues := State.view_quad (State.updTq_cues ..) q
  have ht : t = State.settle q tq 2 (u.bump 0x41 q (5 * tq) 1) := by
    unfold t State.teDone
    dsimp only
    rw [show ((s.quad q).queues.getD tq default).live d.n = some d from hlive]
    dsimp only
    rw [if_neg (by omega), show ((s.quad q).queues.getD tq default).ents = [d] from h.only]
    rfl
  have hbcues : ((u.bump 0x41 q (5 * tq) 1).quad q).cues = (s.quad q).cues := hucues
  obtain ⟨⟨hents, hrest, honly⟩, hpost⟩ := State.settle_posts hb rfl hop8 hposts (by rw [hbcues]; exact hfits)
  rw [ht]
  refine ⟨⟨hents, hrest.trans (State.updTq_rest s q tq _), honly.after (by decide)
    ((State.bump_only ..).after (by decide) ((State.updQuad_only s q _).mono (by decide)))⟩, fun hc => ?_⟩
  rw [hbcues] at hpost
  exact hpost hc

end

/-! ### A credit comes home (R66) -/

/-- The parts of a quadrant that say which slot is current, with its units, credits on their way home aside. -/
theorem State.srcSlot_congr {s t : State} (h : t.view Quad.offCred = s.view Quad.offCred) (src : Src) : t.srcSlot src = s.srcSlot src := by
  cases src with
  | out k n =>
    have hx := congrArg (fun y : Quad => y.slotAt k.row k.col) (State.view_quad h k.q)
    exact hx
  | trap k i =>
    have hx (r c : Nat) := congrArg (fun y : Quad => y.slotAt r c) (State.view_quad h k.q)
    have hc := congrArg (fun y : Quad => fun a => y.cfgIn a k.row k.col) (State.view_quad h k.q)
    have hslot (r c : Nat) : (t.quad k.q).slotAt r c = (s.quad k.q).slotAt r c := hx r c
    have hcfg (a : Nat) : (t.quad k.q).cfgIn a k.row k.col = (s.quad k.q).cfgIn a k.row k.col := congrFun hc a
    unfold State.srcSlot State.trapHome
    dsimp only
    simp only [hslot, hcfg]
  | gw q l =>
    have hx := congrArg (fun y : Quad => y.gwSlot) (State.view_quad h q)
    exact hx

/-- The credit is off its way, and the source's again if the path's slot is current there. -/
def State.creditHome (s : State) (q n : Nat) (r : CredRet) : State :=
  let u := s.updQuad q (fun x => { x with credRet := x.credRet.eraseIdx n })
  if r.slot = u.srcSlot r.src then u.setCredit r.src r.dest (min 64 (u.credit r.src r.dest + 1)) else u

/-- An operation of a link waits for the credits of its last token. -/
def TeEnt.owedOn (l : Nat) (e : TeEnt) : Bool := e.started && !e.done && e.glink == l && !e.owed.isEmpty

/-- The entries of a quadrant's queues after a credit of a link came home. -/
def State.repayAll (s : State) (q l : Nat) (r : CredRet) : State :=
  s.updQuad q (fun x => { x with queues := x.queues.map (fun k =>
    { k with ents := k.ents.map (fun e => if e.owedOn l then e.repaid r.slot r.dest else e) }) })

/-- The entries of a queue that complete with a credit of a link. -/
def TeQueue.completeBy (k : TeQueue) (l : Nat) (r : CredRet) : List TeEnt :=
  k.ents.filter (fun e => e.owedOn l && decide (e.opsAll ≤ (e.repaid r.slot r.dest).gone))

section
variable {s : State} {q n : Nat} {r : CredRet}

theorem State.creditHome_only (s : State) (q n : Nat) (r : CredRet) : onlyParts [.quads] s (s.creditHome q n r) := by
  unfold State.creditHome
  dsimp only
  split
  · exact (State.setCredit_only ..).after (by decide) (State.updQuad_only ..)
  · exact State.updQuad_only ..

theorem State.creditHome_view {α : Type} {v : Quad → α} (hr : ∀ x l, v { x with credRet := l } = v x) (hc : ∀ x l, v { x with credits := l } = v x)
    (s : State) (q n : Nat) (r : CredRet) : (s.creditHome q n r).view v = s.view v := by
  unfold State.creditHome
  dsimp only
  refine State.ite_view ((State.updQuad_view _ _ fun x => hc x _).trans ?_) ?_ <;> exact State.updQuad_view _ _ fun x => hr x _

theorem State.creditHome_back (hq : q < s.quads.length) (hhome : srcQuad r.src < s.quads.length) : let t := s.creditHome q n r
    t.credit r.src r.dest = (if r.slot = s.srcSlot r.src then min 64 (s.credit r.src r.dest + 1) else s.credit r.src r.dest) ∧
    (t.quad q).credRet = (s.quad q).credRet.eraseIdx n := by
  intro t
  let u := s.updQuad q (fun x => { x with credRet := x.credRet.eraseIdx n })
  have hslot : u.srcSlot r.src = s.srcSlot r.src := State.srcSlot_congr (State.updQuad_view _ _ fun _ => by rfl) _
  have hcred : u.credit r.src r.dest = s.credit r.src r.dest := State.credit_congr (State.updQuad_view _ _ fun _ => by rfl) _ _
  have hret : (u.quad q).credRet = (s.quad q).credRet.eraseIdx n := by rw [State.updQuad_quad_self _ _ _ hq]
  have hset (m : Nat) : ((u.setCredit r.src r.dest m).quad q).credRet = (u.quad q).credRet :=
    State.view_quad (State.updQuad_view _ _ fun _ => by rfl) q
  have ht : t = if r.slot = s.srcSlot r.src then u.setCredit r.src r.dest (min 64 (s.credit r.src r.dest + 1)) else u := by
    rw [← hslot, ← hcred]
    rfl
  rw [ht]
  split
  · refine ⟨?_, (hset _).trans hret⟩
    rw [State.setCredit_credit _ _ _ _ _ (by rw [State.updQuad_length]; exact hhome), if_pos rfl]
  · exact ⟨hcred, hret⟩

theorem exec_creditReturn (hruns : s.quadRuns q = true) (hr : (s.quad q).credRet[n]? = some r) (hdue : r.due ≤ s.pw.cycle) :
    exec (.creditReturn q n) s = .next (match r.src with
      | .gw _ l => (List.zipIdx ((s.creditHome q n r).quad q).queues).foldl (fun t e =>
          (e.1.completeBy l r).foldl (fun t d => t.teDone q e.2 d.n) t) ((s.creditHome q n r).repayAll q l r)
      | _ => s.creditHome q n r) := by
  change execCreditReturn q n s = _
  unfold execCreditReturn
  rw [hr]
  dsimp only
  rw [if_pos (by simp [hruns, hdue])]
  obtain ⟨slot, due, src, dest⟩ := r
  cases src <;> rfl

/-- A queue whose entries wait for no credit has none that completes with one. -/
theorem TeQueue.completeBy_unowed {k : TeQueue} {l : Nat} (h : ∀ e ∈ k.ents, e.owed = []) : k.completeBy l r = [] := by
  rw [TeQueue.completeBy, List.filter_eq_nil_iff]
  intro e he
  simp [TeEnt.owedOn, h e he]

theorem State.repayAll_only (l : Nat) : onlyParts [.quads] s (s.repayAll q l r) := State.updQuad_only ..

theorem State.repayAll_length (l : Nat) : (s.repayAll q l r).quads.length = s.quads.length := State.updQuad_length ..

theorem State.repayAll_view {α : Type} {v : Quad → α} (hv : ∀ x ks, v { x with queues := ks } = v x) (l : Nat) :
    (s.repayAll q l r).view v = s.view v := State.updQuad_view _ _ fun x => hv x _

theorem foldl_idle {σ α : Type} {f : σ → α → σ} {l : List α} (h : ∀ e ∈ l, ∀ t, f t e = t) (t : σ) : l.foldl f t = t := by
  induction l generalizing t with
  | nil => rfl
  | cons e l ih => rw [List.foldl_cons, h e List.mem_cons_self t, ih fun d hd => h d (List.mem_cons_of_mem _ hd)]

/-- A fold over a list and its places in which one place acts. -/
theorem foldl_zipIdx_one {σ α : Type} {f : σ → α × Nat → σ} {l : List α} {i : Nat} (hi : i < l.length)
    (h : ∀ e ∈ List.zipIdx l, e.2 ≠ i → ∀ t, f t e = t) (t : σ) : (List.zipIdx l).foldl f t = f t (l[i], i) := by
  have hsplit : List.zipIdx l = (List.zipIdx (l.take i)) ++ (l[i], i) :: List.zipIdx (l.drop (i + 1)) (i + 1) := by
    conv_lhs => rw [← List.take_append_drop i l, ← List.cons_getElem_drop_succ (h := hi)]
    rw [List.zipIdx_append, List.zipIdx_cons, List.length_take_of_le (le_of_lt hi), Nat.zero_add]
  have hbefore : ∀ e ∈ List.zipIdx (l.take i), ∀ t, f t e = t := fun e he => by
    refine h e (by rw [hsplit]; exact List.mem_append_left _ he) ?_
    obtain ⟨-, hlt, -⟩ := List.mem_zipIdx he
    rw [List.length_take_of_le (le_of_lt hi)] at hlt
    omega
  have hafter : ∀ e ∈ List.zipIdx (l.drop (i + 1)) (i + 1), ∀ t, f t e = t := fun e he => by
    refine h e (by rw [hsplit]; exact List.mem_append_right _ (List.mem_cons_of_mem _ he)) ?_
    obtain ⟨hle, -, -⟩ := List.mem_zipIdx he
    omega
  rw [hsplit, List.foldl_append, List.foldl_cons, foldl_idle hbefore, foldl_idle hafter]

theorem creditReturn_home (hruns : s.quadRuns q = true) (hq : q < s.quads.length) (hhome : srcQuad r.src < s.quads.length)
    (hr : (s.quad q).credRet[n]? = some r) (hdue : r.due ≤ s.pw.cycle)
    (hno : ∀ a l, r.src = .gw a l → ∀ k ∈ (s.quad q).queues, ∀ e ∈ k.ents, e.owed = []) :
    completes (.creditReturn q n) s (fun t => (t.credit r.src r.dest =
        (if r.slot = s.srcSlot r.src then min 64 (s.credit r.src r.dest + 1) else s.credit r.src r.dest) ∧
      (t.quad q).credRet = (s.quad q).credRet.eraseIdx n) ∧ onlyParts [.quads] s t) := by
  obtain ⟨hback, hret⟩ := State.creditHome_back (n := n) hq hhome
  have hexec := exec_creditReturn hruns hr hdue
  cases hsrc : r.src with
  | out k i =>
    rw [hsrc] at hexec hback
    exact ⟨_, hexec, ⟨hback, hret⟩, State.creditHome_only ..⟩
  | trap k i =>
    rw [hsrc] at hexec hback
    exact ⟨_, hexec, ⟨hback, hret⟩, State.creditHome_only ..⟩
  | gw a l =>
    rw [hsrc] at hexec hback
    dsimp only at hexec
    have hqueues : ((s.creditHome q n r).quad q).queues = (s.quad q).queues :=
      State.view_quad (State.creditHome_view (fun _ _ => rfl) (fun _ _ => rfl) s q n r) q
    rw [foldl_idle (fun e he t => ?_)] at hexec
    · refine ⟨_, hexec, ⟨?_, ?_⟩, (State.repayAll_only l).after (by decide) (State.creditHome_only ..)⟩
      · rw [State.credit_congr (State.repayAll_view (fun _ _ => by rfl) l)]
        exact hback
      · rw [State.view_quad (State.repayAll_view (v := Quad.credRet) (fun _ _ => by rfl) l)]
        exact hret
    · rw [hqueues] at he
      rw [TeQueue.completeBy_unowed (hno a l hsrc e.1 (List.fst_mem_of_mem_zipIdx he)), List.foldl_nil]

/-- An entry whose last token's last credit is the one that came home waits for none. -/
theorem TeEnt.repaid_last {e : TeEnt} {slot : Nat} {d : Dest} (h : e.owed = [(slot, [(d, 1)])]) :
    e.repaid slot d = { e with owed := [], gone := e.gone + 1, held := e.held - 1 } := by
  unfold TeEnt.repaid
  dsimp only
  rw [h]
  simp

theorem creditReturn_completes {l tq : Nat} {e : TeEnt} (hruns : s.quadRuns q = true) (hhome : srcQuad r.src < s.quads.length)
    (hr : (s.quad q).credRet[n]? = some r) (hdue : r.due ≤ s.pw.cycle) (hsrc : r.src = .gw q l) (hlone : s.lone q tq e) (hstart : e.started = true)
    (hop : e.op = 1 ∨ e.op = 2) (hlink : e.glink = l) (howed : e.owed = [(r.slot, [(r.dest, 1)])]) (hall : e.opsAll ≤ e.gone + 1)
    (hno : ∀ i, i ≠ tq → ∀ d ∈ (s.tq q i).ents, d.owed = []) :
    completes (.creditReturn q n) s (fun t => (t.credit r.src r.dest =
        (if r.slot = s.srcSlot r.src then min 64 (s.credit r.src r.dest + 1) else s.credit r.src r.dest) ∧
      (t.quad q).credRet = (s.quad q).credRet.eraseIdx n) ∧ (t.tq q tq).ents = [] ∧
      (e.cue < 63 → ((t.quad q).cues.getD e.cue default).posted = ((s.quad q).cues.getD e.cue default).posted + e.postn) ∧
      onlyParts [.quads, .ctr] s t) := by
  obtain ⟨hq, ht, honly, hnone, ⟨hdone, hposts, hjob⟩, hpost⟩ := hlone
  obtain ⟨hback, hret⟩ := State.creditHome_back (n := n) hq hhome
  have hexec := exec_creditReturn hruns hr hdue
  rw [hsrc] at hexec
  dsimp only at hexec
  have hview : (s.creditHome q n r).view (fun x => (x.queues, x.cues)) = s.view (fun x => (x.queues, x.cues)) :=
    State.creditHome_view (fun _ _ => rfl) (fun _ _ => rfl) s q n r
  obtain ⟨hqueues, hcues⟩ := Prod.mk_inj.mp (State.view_quad hview q)
  have hqlen : q < (s.creditHome q n r).quads.length := by
    rw [State.view_length hview]
    exact hq
  have htq (i : Nat) (hi : i < (s.quad q).queues.length) : (s.quad q).queues[i] = s.tq q i := by
    rw [State.tq, List.getD_eq_getElem _ _ hi]
  have hmine : e.owedOn l = true := by simp [TeEnt.owedOn, hstart, hdone, hlink, howed]
  have hby : (s.tq q tq).completeBy l r = [e] := by
    rw [TeQueue.completeBy, honly, List.filter_cons_of_pos (by rw [hmine, TeEnt.repaid_last howed]; simpa using hall), List.filter_nil]
  rw [hqueues, foldl_zipIdx_one ht ?_, htq tq ht, hby, List.foldl_cons, List.foldl_nil] at hexec
  · let u := (s.creditHome q n r).repayAll q l r
    have hu : u.single q tq (e.repaid r.slot r.dest) := by
      have huq : (u.quad q).queues = (s.quad q).queues.map (fun k =>
          { k with ents := k.ents.map (fun e => if e.owedOn l then e.repaid r.slot r.dest else e) }) := by
        rw [← hqueues]
        exact congrArg Quad.queues (State.updQuad_quad_self _ _ _ hqlen)
      have hutq : u.tq q tq =
          { s.tq q tq with ents := (s.tq q tq).ents.map (fun e => if e.owedOn l then e.repaid r.slot r.dest else e) } := by
        rw [State.tq, huq, List.getD_eq_getElem _ _ (by rw [List.length_map]; exact ht), List.getElem_map, htq tq ht]
      refine ⟨by rw [State.repayAll_length]; exact hqlen, by rw [huq, List.length_map]; exact ht, ?_, ?_⟩
      · rw [hutq, honly, List.map_singleton, if_pos hmine]
      · rw [hutq]
        exact hnone
    have hucues : (u.quad q).cues = (s.quad q).cues :=
      (State.view_quad (State.repayAll_view (v := Quad.cues) (fun _ _ => by rfl) l) q).trans hcues
    have hop8 : e.op ≠ 8 := by omega
    rw [TeEnt.repaid_last howed] at hu
    obtain ⟨⟨hents, hrest, hparts⟩, hposted⟩ := State.teDone_single hu hstart hdone hop8 hposts hjob
      (by rw [hucues]; exact hpost)
    refine ⟨_, hexec, ⟨?_, ?_⟩, hents, ?_, ?_⟩
    · refine (State.credit_congr (State.view_comp (fun x => x.credits) hrest) _ _).trans ?_
      rw [State.credit_congr (State.repayAll_view (fun _ _ => by rfl) l)]
      exact hback
    · have hcr := State.view_quad (State.view_comp (fun x => x.credRet) hrest) q
      refine hcr.trans ((State.view_quad (State.repayAll_view (v := Quad.credRet) (fun _ _ => by rfl) l) q).trans hret)
    · rw [hucues] at hposted
      exact hposted
    · exact hparts.after (by decide) ((State.repayAll_only l).after (by decide) ((State.creditHome_only s q n r).mono (by decide)))
  · intro d hd hne t
    obtain ⟨-, hi, hk⟩ := List.mem_zipIdx hd
    simp only [Nat.zero_add, Nat.sub_zero] at hi hk
    rw [hk, htq d.2 hi, TeQueue.completeBy_unowed (hno d.2 hne), List.foldl_nil]

end

end Sys2Proof.Machine
end

section
/-! The tokens of the grid (O56). -/

namespace Sys2Proof.Machine

open Config

theorem tokenInject_out (s : State) (k : Site) (n : Nat) (tk : Tok) (rest : List Tok) : let src := Src.out k n
    let x := s.quad k.q
    let slot := x.slotAt k.row k.col
    let ds := s.dests slot src x.slotCtr
    s.siteRuns k.q k.row k.col = true → k.q < s.quads.length → x.outq k.row k.col n = tk :: rest → tk.tag = slot → src ∈ x.paths →
    x.did k.row k.col (30 + n) = false → x.fresh k.row k.col (10 + n) ≤ rest.length →
    (s.trapOf slot src = none → ds ≠ [] → (ds.map destKey).Nodup → (∀ d ∈ ds, d.dq < 6 ∧ 0 < s.credit src d) →
      completes (.tokenInject src) s (fun t => (t.quad k.q).outq k.row k.col n = rest ∧ (∀ d ∈ ds, t.credit src d = s.credit src d - 1) ∧
        onlyParts [.quads, .ctr] s t)) ∧
    (∀ d tn a, s.trapOf slot src = some (d, tn) → ds = [a] → d.q < s.quads.length →
      let e := (s.quad d.q).trap d.row d.col tn
      let spilled := 6 * siteOrd d.row d.col + 3 * tn
      (a.dq < 6 → e.load = 0 → 0 < s.credit src d → e.lastDue < s.arrival a →
        completes (.tokenInject src) s (fun t => (t.quad k.q).outq k.row k.col n = rest ∧ t.credit src a = s.credit src a - 1 ∧
          ((t.quad d.q).trap d.row d.col tn).lastDue = s.arrival a ∧ onlyParts [.quads, .ctr] s t)) ∧
      (a.dq = 6 → 0 < e.load ∨ s.credit src d = 0 → e.load < trapCap (s.trapDesc slot d.q d.row d.col tn) →
        completes (.tokenInject src) s (fun t => (t.quad k.q).outq k.row k.col n = rest ∧
          t.counter 0x22 d.q spilled = min ctrMax (s.counter 0x22 d.q spilled + 1) ∧ onlyParts [.quads, .ctr] s t))) := by
  intro src x slot ds hruns hq hhead htag hpath hfirst hold
  have hready (hway : ds ≠ []) : s.outReady k n tk rest := ⟨hruns, hhead, htag, hpath, hfirst, hold, hway⟩
  refine ⟨fun htrap hway hnodup hcred => tokenInject_direct (hready hway) hq htrap hnodup fun d hd => (hcred d hd).2,
    fun d tn a htrap hds hdq => ?_⟩
  have hway : ds ≠ [] := by simp [hds]
  exact ⟨tokenInject_protected (hready hway) hq d tn a htrap hds hdq, tokenInject_spill (hready hway) hq d tn a htrap hds⟩

theorem tokenHop_acts (s : State) (q n : Nat) (f : Flight) : let x := s.quad q
    let ord := siteOrd f.row f.col
    let counted (t : State) (grp ix : Nat) : Prop := t.counter grp q ix = min ctrMax (s.counter grp q ix + 1)
    let shut := s.closedPort q f.row f.col f.port || x.fencedSite f.row f.col
    let e := x.entAt f.tok.tag f.row f.col ((x.slotCtr + slotWrap - (s.pw.cycle - f.due + f.off) % slotWrap) % slotWrap)
    let u := x.logic f.row f.col
    s.quadRuns q = true → q < s.quads.length → x.flights[n]? = some f → f.due ≤ s.pw.cycle →
    (f.port = 0 → s.awaitsAnswer q f.link = false →
      (s.claimed q f.link = true → completes (.tokenHop q n) s (fun t => (t.quad q).inbound f.link = x.inbound f.link ++ [(f.tok, f.due, f.src)] ∧
        (t.quad q).flights = x.flights.eraseIdx n ∧ onlyParts [.quads] s t)) ∧
      (s.claimed q f.link = false → completes (.tokenHop q n) s (fun t => counted t 0x44 0 ∧ (t.quad q).inbound f.link = x.inbound f.link ∧
        (t.quad q).flights = x.flights.eraseIdx n ∧ onlyParts [.quads, .ctr] s t))) ∧
    (f.port ≠ 0 → shut = true → completes (.tokenHop q n) s (fun t => counted t 0x13 (4 * ord + (f.port - 1)) ∧
      (t.quad q).flights = x.flights.eraseIdx n ∧ onlyParts [.quads, .ctr] s t)) ∧
    (f.port ≠ 0 → shut = false → f.tok.tag ≠ x.slotAt f.row f.col →
      completes (.tokenHop q n) s (fun t => (t.quad q).flights = x.flights.eraseIdx n ∧ counted t 0x24 (3 * ord) ∧
        counted t 0x24 (3 * ord + if x.cutAt.isSome then 2 else 1) ∧ onlyParts [.quads, .ctr, .sv] s t)) ∧
    (f.port ≠ 0 → shut = false → f.tok.tag = x.slotAt f.row f.col →
      (entSrc e 0 = f.port → entDq e < 6 → (∀ o, 1 ≤ o → o ≤ 4 → entSrc e o ≠ f.port) →
        entDq e < (if isCu u.1 u.2 then (x.cu u.1 u.2).inq else (x.mu u.1 u.2).inq).length →
        completes (.tokenHop q n) s (fun t => (t.quad q).inq u.1 u.2 (entDq e) = x.inq u.1 u.2 (entDq e) ++ [f.tok] ∧
          (t.quad q).flights = x.flights.eraseIdx n ∧ onlyParts [.quads] s t)) ∧
      (∀ o, 1 ≤ o → o ≤ 4 → entSrc e o = f.port → entSrc e 0 ≠ f.port → (∀ i, 1 ≤ i → i ≤ 4 → i ≠ o → entSrc e i ≠ f.port) →
        (∀ q' r c p br, hopFrom q f.row f.col o = .sw q' r c p br → s.closedPort q f.row f.col o = false → s.dark q' = false →
          q' < s.quads.length →
          completes (.tokenHop q n) s (fun t => (t.quad q').flights =
            (if q' = q then x.flights.eraseIdx n else (s.quad q').flights) ++
              [{ row := r, col := c, port := p, link := 0, due := f.due + (if br then 8 else 2), bridge := br
                 off := f.off + (if br then 6 else 0), tok := f.tok, src := f.src }] ∧ onlyParts [.quads] s t)) ∧
        (s.closedPort q f.row f.col o = true → completes (.tokenHop q n) s (fun t => counted t 0x13 (4 * ord + (o - 1)) ∧
          (t.quad q).flights = x.flights.eraseIdx n ∧ onlyParts [.quads, .ctr] s t)) ∧
        (∀ l, hopFrom q f.row f.col o = .gwl l →
          completes (.tokenHop q n) s (fun t => (t.quad q).flights = x.flights.eraseIdx n ++
            [{ row := f.row, col := f.col, port := 0, link := l, due := f.due + 2, bridge := false, off := f.off, tok := f.tok
               src := f.src }] ∧ onlyParts [.quads] s t)))) := by
  intro x ord counted shut e u hruns hq hf hdue
  exact ⟨fun hport hans => ⟨tokenHop_claimed hruns hq hf hdue hport hans, tokenHop_orphan hruns hq hf hdue hport hans⟩,
    tokenHop_shut hruns hq hf hdue, tokenHop_stale hruns hq hf hdue,
    fun hport hshut htag => ⟨tokenHop_enters hruns hq hf hdue hport hshut htag, tokenHop_passes hruns hq hf hdue hport hshut htag⟩⟩

/-- Settles O56, by what a token's passage through a switch leaves of its source's side, a switch's outputs taken one by one, and an
entry of the tier engine that is alone in its queue. -/
theorem gridMovesTokens : Obligations.GridMovesTokens := by
  unfold Obligations.GridMovesTokens
  refine ⟨tokenInject_out, tokenInject_trap, tokenInject_gw, tokenHop_acts, ?_⟩
  intro s q n r x home back hruns hq hhome hr hdue
  refine ⟨creditReturn_home hruns hq hhome hr hdue, fun l tq e hsrc hlone hstart hop hlink howed hall hno => ?_⟩
  have hq' : home = s.quad q := by
    unfold home
    rw [hsrc]
    rfl
  rw [hq']
  exact creditReturn_completes hruns hhome hr hdue hsrc hlone hstart hop hlink howed hall hno

end Sys2Proof.Machine
end

section
/-! The array engine's queues: an entry that is written waits behind another, or begins (R15, R17, R68). -/

namespace Sys2Proof.Machine

open Config

/-! ### Updates of a quadrant -/

theorem State.updQuad_updQuad (s : State) (q : Nat) (f g : Quad → Quad) : (s.updQuad q f).updQuad q g = s.updQuad q (fun x => g (f x)) := by
  unfold State.updQuad
  exact congrArg (fun l => { s with quads := l }) (List.modify_modify_eq f g q s.quads)

/-- What an update makes of the quadrant is all that it does. -/
theorem State.updQuad_congr {s : State} {q : Nat} {f g : Quad → Quad} (h : f (s.quad q) = g (s.quad q)) : s.updQuad q f = s.updQuad q g := by
  have hl : s.quads.modify q f = s.quads.modify q g := by
    refine List.ext_getElem? fun i => ?_
    rw [List.getElem?_modify, List.getElem?_modify]
    by_cases hi : q = i
    · subst hi
      cases hx : s.quads[q]? with
      | none => rfl
      | some x =>
        have hq : s.quad q = x := by rw [State.quad, List.getD_eq_getElem?_getD, hx, Option.getD_some]
        rw [hq] at h
        simp [h]
    · simp [hi]
  exact congrArg (fun l => { s with quads := l }) hl

/-! ### An entry at the end of a queue (R17) -/

/-- An entry has been written at the end of a queue. -/
def State.aeWritten (s : State) (q aq : Nat) (op : AeOp) (started : Bool) : State :=
  s.updQuad q (fun x => { x with aeq := x.aeWith aq op started })

section
variable {s : State} {q aq : Nat} {op : AeOp}

theorem State.aeWritten_quad (hq : q < s.quads.length) (b : Bool) :
    (s.aeWritten q aq op b).quad q = { s.quad q with aeq := (s.quad q).aeWith aq op b } := State.updQuad_quad_self s q _ hq

theorem State.aeWritten_length (b : Bool) : (s.aeWritten q aq op b).quads.length = s.quads.length := State.updQuad_length ..

theorem State.aeWritten_only (s : State) (q aq : Nat) (op : AeOp) (b : Bool) : onlyParts [.quads] s (s.aeWritten q aq op b) :=
  State.updQuad_only ..

theorem Quad.aeWith_queue (x : Quad) (aq : Nat) (op : AeOp) (b : Bool) (h : aq < x.aeq.length) :
    (x.aeWith aq op b).getD aq [] = x.aeq.getD aq [] ++ [{ op := op, started := b }] :=
  (getD_modify _ _ _ _ _ h).trans (if_pos rfl)

/-- A queue in which every entry has started starts nothing. -/
theorem State.aeGo_idle (n : Nat) {u : State} (h : ∀ e ∈ (u.quad q).aeq.getD aq [], e.started = true) : State.aeGo q aq n u = u := by
  cases n with
  | zero => rfl
  | succ n =>
    have hi : ((u.quad q).aeq.getD aq [])[((u.quad q).aeq.getD aq []).findIdx (fun e => !e.started)]? = none := by
      rw [List.getElem?_eq_none_iff, List.findIdx_eq_length_of_false fun e he => by simp [h e he]]
    rw [State.aeGo]
    dsimp only
    rw [hi]

/-- The first entry of a queue that has not started begins, or waits with all behind it. -/
theorem State.aeGo_first (n : Nat) {u : State} {pre post : List AeEnt} {e : AeEnt} (hes : (u.quad q).aeq.getD aq [] = pre ++ e :: post)
    (hpre : ∀ e ∈ pre, e.started = true) (he : e.started = false) : State.aeGo q aq (n + 1) u =
      match (u.updQuad q (fun x => { x with aeq := x.aeq.modify aq (fun es => es.set pre.length { e with started := true }) })).aeBegin q e.op with
      | some t => State.aeGo q aq n t
      | none => u := by
  have hix : (pre ++ e :: post).findIdx (fun e => !e.started) = pre.length := by
    rw [List.findIdx_append, List.findIdx_eq_length_of_false fun d hd => by simp [hpre d hd], if_neg (lt_irrefl _), List.findIdx_cons, he]
    simp
  rw [State.aeGo]
  dsimp only
  rw [hes, hix, List.getElem?_append_right (le_refl _), Nat.sub_self, List.getElem?_cons_zero] <;> rfl

/-- Writing an entry into a queue with room for it. -/
theorem State.aePush_eq (hruns : s.quadRuns q = true) (haq : aq < 4) (hroom : ((s.quad q).aeq.getD aq []).length < 64) :
    s.aePush q aq op = State.aeGo q aq 64 (s.aeWritten q aq op false) := by
  unfold State.aePush
  rw [if_neg (by simp only [hruns, Bool.not_true, Bool.false_or, Bool.or_eq_true, decide_eq_true_eq]; omega)]
  rfl

/-- An entry behind one that waits for the load of a slot waits too. -/
theorem State.aePush_behind {n a len : Nat} {pre post : List AeEnt} (hruns : s.quadRuns q = true) (hq : q < s.quads.length) (haq : aq < 4)
    (hlen : aq < (s.quad q).aeq.length) (hes : (s.quad q).aeq.getD aq [] = pre ++ { op := .load n a len, started := false } :: post)
    (hpre : ∀ e ∈ pre, e.started = true) (hroom : ((s.quad q).aeq.getD aq []).length < 64) (hload : ∃ l ∈ (s.quad q).loads, l.slot = n) :
    s.aePush q aq op = s.aeWritten q aq op false := by
  have hx := State.aeWritten_quad (aq := aq) (op := op) hq false
  have hqueue : ((s.aeWritten q aq op false).quad q).aeq.getD aq [] =
      pre ++ { op := .load n a len, started := false } :: (post ++ [{ op := op, started := false }]) := by
    rw [hx]
    refine ((s.quad q).aeWith_queue aq op false hlen).trans ?_
    rw [hes, List.append_assoc, List.cons_append]
  rw [State.aePush_eq hruns haq hroom, State.aeGo_first 63 hqueue hpre rfl]
  have hbusy : ∀ g : Quad → Quad, (∀ x, (g x).loads = x.loads) →
      ((s.aeWritten q aq op false).updQuad q g).aeBegin q (.load n a len) = none := fun g hg => by
    have hl : (((s.aeWritten q aq op false).updQuad q g).quad q).loads = (s.quad q).loads := by
      rw [State.updQuad_quad_self _ _ _ (by rw [State.aeWritten_length]; exact hq), hg, hx]
    obtain ⟨l, hl1, hl2⟩ := hload
    exact if_pos (by rw [hl, List.any_eq_true]; exact ⟨l, hl1, beq_iff_eq.mpr hl2⟩)
  rw [hbusy _ fun _ => by rfl]

/-- The entry written to a queue in which none waits is the next to start. -/
theorem State.aePush_next (hruns : s.quadRuns q = true) (hq : q < s.quads.length) (hnext : (s.quad q).aeNext aq) : s.aePush q aq op =
    match (s.aeWritten q aq op true).aeBegin q op with
    | some t => State.aeGo q aq 63 t
    | none => s.aeWritten q aq op false := by
  obtain ⟨⟨haq, hlen⟩, hroom, hnone⟩ := hnext
  have hqueue : ((s.aeWritten q aq op false).quad q).aeq.getD aq [] = (s.quad q).aeq.getD aq [] ++ { op := op, started := false } :: [] := by
    rw [State.aeWritten_quad hq]
    exact (s.quad q).aeWith_queue aq op false hlen
  rw [State.aePush_eq hruns haq hroom, State.aeGo_first 63 hqueue hnone rfl]
  have hstart : (s.aeWritten q aq op false).updQuad q (fun x => { x with
      aeq := x.aeq.modify aq (fun es => es.set ((s.quad q).aeq.getD aq []).length { op := op, started := true }) }) = s.aeWritten q aq op true := by
    refine (State.updQuad_updQuad ..).trans (State.updQuad_congr ?_)
    have haeq : ((s.quad q).aeWith aq op false).modify aq (fun es => es.set ((s.quad q).aeq.getD aq []).length { op := op, started := true }) =
        (s.quad q).aeWith aq op true := by
      unfold Quad.aeWith
      rw [List.modify_modify_eq]
      refine List.ext_getElem? fun i => ?_
      rw [List.getElem?_modify, List.getElem?_modify]
      by_cases hi : aq = i
      · subst hi
        rw [List.getD_eq_getElem _ _ hlen, List.getElem?_eq_getElem hlen]
        simp
      · simp [hi]
    exact congrArg (fun l => { s.quad q with aeq := l }) haeq
  dsimp only
  rw [hstart]

/-- The entry waits. -/
theorem State.aePush_waits (hruns : s.quadRuns q = true) (hq : q < s.quads.length) (hnext : (s.quad q).aeNext aq)
    (hb : (s.aeWritten q aq op true).aeBegin q op = none) : s.aePush q aq op = s.aeWritten q aq op false := by
  rw [State.aePush_next hruns hq hnext, hb]

/-- The entry begins, and every entry of its queue has started. -/
theorem State.aePush_begins {u : State} (hruns : s.quadRuns q = true) (hq : q < s.quads.length) (hnext : (s.quad q).aeNext aq)
    (hb : (s.aeWritten q aq op true).aeBegin q op = some u) (hu : ∀ e ∈ (u.quad q).aeq.getD aq [], e.started = true) :
    s.aePush q aq op = u := by
  rw [State.aePush_next hruns hq hnext, hb]
  exact State.aeGo_idle 63 hu

/-- Every entry of the queue has started once the new one has. -/
theorem Quad.aeWith_started {x : Quad} (hnext : x.aeNext aq) : ∀ e ∈ (x.aeWith aq op true).getD aq [], e.started = true := by
  obtain ⟨⟨-, hlen⟩, -, hnone⟩ := hnext
  rw [x.aeWith_queue aq op true hlen]
  intro e he
  rcases List.mem_append.mp he with he | he
  · exact hnone e he
  · rw [List.mem_singleton.mp he]

/-- Dropping an entry that completes drops at most that from any queue. -/
theorem mem_of_mem_aeDrop {p : AeOp → Bool} {e : AeEnt} (qs : List (List AeEnt)) (i : Nat) (h : e ∈ (aeDrop p qs).getD i []) : e ∈ qs.getD i [] := by
  induction qs generalizing i with
  | nil => exact h
  | cons es qs ih =>
    unfold aeDrop at h
    split at h
    · cases i with
      | zero => exact List.mem_of_mem_eraseP h
      | succ i => exact h
    · cases i with
      | zero => exact h
      | succ i => exact ih i h

end

end Sys2Proof.Machine
end

section
/-! A load begins, waits, is refused, or ends its job (R50, R68, R70, R79). -/

namespace Sys2Proof.Machine

open Config

/-! ### The array engine through the ending of a job -/

/-- Every entry of a queue of the array engine has started. -/
def State.aeStarted (s : State) (q aq : Nat) : Prop := ∀ e ∈ (s.quad q).aeq.getD aq [], e.started = true

theorem State.breakEntries_aeq (s : State) (q : Nat) : (s.breakEntries q).2.view Quad.aeq = s.view Quad.aeq := by
  unfold State.breakEntries
  dsimp only
  split
  · rfl
  · exact State.updQuad_view _ _ fun _ => by rfl

/-- Cutting a job's quadrants starts no entry of the array engine and adds none. -/
theorem State.cutJob_started {s : State} {q aq : Nat} (j : Job) (hq : q < s.quads.length) (h : s.aeStarted q aq) : (s.cutJob j).aeStarted q aq := by
  have hstep (t : State) (i : Nat) (ht : t.quads.length = s.quads.length ∧ t.aeStarted q aq) :
      let u := if (t.quad i).active && !(t.quad i).halted then ((t.cutNow i (t.quad i).cutTarget).breakEntries i).2 else t
      let w := u.updQuad i (fun x => { x with aeq := x.aeq.map (fun es => es.filter (fun (e : AeEnt) => e.started)) })
      w.quads.length = s.quads.length ∧ w.aeStarted q aq := by
    intro u w
    have hlen : u.quads.length = s.quads.length := by
      refine Eq.trans (State.view_length (v := Quad.hull) (State.ite_view ?_ rfl)) ht.1
      exact (State.breakEntries_hull ..).trans (State.cutNow_hull ..)
    refine ⟨(State.updQuad_length ..).trans hlen, fun e he => ?_⟩
    by_cases hi : q = i
    · subst hi
      rw [State.updQuad_quad_self _ _ _ (by rw [hlen]; exact hq)] at he
      dsimp only at he
      rw [List.getD_eq_getElem?_getD, List.getElem?_map] at he
      cases hx : (u.quad q).aeq[aq]? with
      | none =>
        rw [hx] at he
        simp at he
      | some es =>
        rw [hx] at he
        exact (List.mem_filter.mp he).2
    · have hu : (u.quad q).aeq = (t.quad q).aeq := by
        unfold u
        split
        · exact (State.view_quad (State.breakEntries_aeq ..) q).trans (State.cutNow_aeq_ne _ _ _ _ hi)
        · rfl
      rw [State.updQuad_quad_ne _ _ _ _ hi, hu] at he
      exact ht.2 e he
  refine (List.foldlRecOn (motive := fun t : State => t.quads.length = s.quads.length ∧ t.aeStarted q aq) _ _ ⟨rfl, h⟩ fun t ht i _ => ?_).2
  split
  · exact ht
  · exact hstep t i ht

theorem State.endJobAt_started {s : State} {q aq : Nat} (i status : Nat) (hq : q < s.quads.length) (h : s.aeStarted q aq) :
    (s.endJobAt i status).aeStarted q aq := by
  unfold State.endJobAt
  split
  · next j hj =>
    cases hj0 : s.job? j.id with
    | none =>
      unfold State.endJob
      rw [hj0]
      exact h
    | some j0 =>
      have haeq : ((s.endJob j.id status).quad q).aeq = ((s.cutJob j0).quad q).aeq :=
        State.view_quad (State.view_comp Prod.snd (State.endJob_calm status hj0)) q
      unfold State.aeStarted
      rw [haeq]
      exact State.cutJob_started j0 hq h
  · exact h

/-! ### LOAD (R68, R79) -/

/-- The slot is current, or a change or a cut has it (R79). -/
def Quad.slotInUse (x : Quad) (slot : Nat) : Prop :=
  slot = x.gwSlot ∨ (∃ c, x.chg = some c ∧ (slot = c.target ∨ slot = c.old)) ∨ (∃ c, x.cutFrom = some c ∧ slot = c.2)

theorem Quad.slotInUse_iff (x : Quad) (slot : Nat) : (slot == x.gwSlot ||
    (match x.chg with | some c => slot == c.target || slot == c.old | none => false) ||
    (match x.cutFrom with | some c => slot == c.2 | none => false)) = true ↔ x.slotInUse slot := by
  unfold Quad.slotInUse
  cases x.chg <;> cases x.cutFrom <;> simp [or_assoc]

section
variable {s : State} {q slot addr len : Nat}

theorem State.startLoad_waits (h : ∃ l ∈ (s.quad q).loads, l.slot = slot) : s.startLoad q slot addr len = none := by
  obtain ⟨l, hl, hs⟩ := h
  have hany : (s.quad q).loads.any (·.slot == slot) = true := List.any_eq_true.mpr ⟨l, hl, beq_iff_eq.mpr hs⟩
  exact if_pos hany

theorem State.not_loading (h : ∀ l ∈ (s.quad q).loads, l.slot ≠ slot) : ¬ ((s.quad q).loads.any (·.slot == slot)) = true := by
  rw [List.any_eq_true]
  rintro ⟨l, hl, hs⟩
  exact h l hl (beq_iff_eq.mp hs)

theorem State.startLoad_ends (h : ∀ l ∈ (s.quad q).loads, l.slot ≠ slot) (hu : (s.quad q).slotInUse slot) : s.startLoad q slot addr len =
    some ((s.endJobAt q INTERNAL).updQuad q (fun x => x.aeDone (AeOp.isLoad slot))) := by
  unfold State.startLoad
  exact (if_neg (State.not_loading h)).trans (if_pos (((s.quad q).slotInUse_iff slot).mpr hu))

theorem State.startLoad_refused (h : ∀ l ∈ (s.quad q).loads, l.slot ≠ slot) (hu : ¬ (s.quad q).slotInUse slot) (hlen : len ≠ sceneBytes) :
    s.startLoad q slot addr len = some ((s.refuseLoad q BAD).updQuad q (fun x => x.aeDone (AeOp.isLoad slot))) := by
  unfold State.startLoad
  exact (if_neg (State.not_loading h)).trans ((if_neg fun k => hu (((s.quad q).slotInUse_iff slot).mp k)).trans (if_pos hlen))

theorem State.startLoad_begins (h : ∀ l ∈ (s.quad q).loads, l.slot ≠ slot) (hu : ¬ (s.quad q).slotInUse slot) :
    s.startLoad q slot addr sceneBytes = some (s.updQuad q (fun x =>
      { x with loads := x.loads ++ [{ slot := slot, scene := sceneOf (s.gather [.dev addr sceneBytes] 0).1 }] })) := by
  unfold State.startLoad
  exact (if_neg (State.not_loading h)).trans ((if_neg fun k => hu (((s.quad q).slotInUse_iff slot).mp k)).trans (if_neg (not_not.mpr rfl)))

/-- A refused load with no production command in progress does nothing more. -/
theorem State.refuseLoad_alone (status : Nat) (h : s.noStaging q) : s.refuseLoad q status = s := by
  unfold State.refuseLoad
  rw [h]
  rfl

end

theorem exec_load (q aq slot addr len : Nat) (s : State) (h : slot < 4) :
    exec (.load q aq slot addr len) s = .next (s.aePush q aq (.load slot addr len)) := congrArg Host.Outcome.next (if_pos h)

theorem exec_run (q aq slot : Nat) (first : Bool) (s : State) (h : slot < 4) :
    exec (.run q aq slot first) s = .next (s.aePush q aq (.run slot first)) := congrArg Host.Outcome.next (if_pos h)

theorem exec_change (q aq slot : Nat) (cut : Bool) (s : State) (h : slot < 4) :
    exec (.change q aq slot cut) s = .next (s.aePush q aq (.change slot cut)) := congrArg Host.Outcome.next (if_pos h)

/-- An entry written behind one that waits for a load waits too (R17). -/
theorem ae_waits_behind (s : State) (q aq slot n a len a' len' : Nat) (f cut : Bool) (pre post : List AeEnt) (c : Instr) (op : AeOp) :
    let x := s.quad q
    (c = .load q aq slot a len ∧ op = .load slot a len) ∨ (c = .run q aq slot f ∧ op = .run slot f) ∨
      (c = .change q aq slot cut ∧ op = .change slot cut) →
    s.quadRuns q = true → q < s.quads.length → aq < 4 → slot < 4 → aq < x.aeq.length →
    x.aeq.getD aq [] = pre ++ { op := .load n a' len', started := false } :: post → (∀ e ∈ pre, e.started = true) →
    (x.aeq.getD aq []).length < 64 → (∃ l ∈ x.loads, l.slot = n) →
    completes c s (fun t => t.quad q = { x with aeq := x.aeWith aq op false } ∧ onlyParts [.quads] s t) := by
  intro x hc hruns hq haq hslot hlen hes hpre hroom hload
  have hexec : exec c s = .next (s.aePush q aq op) := by
    rcases hc with ⟨rfl, rfl⟩ | ⟨rfl, rfl⟩ | ⟨rfl, rfl⟩
    · exact exec_load q aq slot a len s hslot
    · exact exec_run q aq slot f s hslot
    · exact exec_change q aq slot cut s hslot
  rw [State.aePush_behind hruns hq haq hlen hes hpre hroom hload] at hexec
  exact ⟨_, hexec, State.aeWritten_quad hq false, State.aeWritten_only ..⟩

theorem load_acts (s : State) (q aq slot addr len : Nat) : let x := s.quad q
    s.quadRuns q = true → q < s.quads.length → x.aeNext aq → slot < 4 →
    ((∃ l ∈ x.loads, l.slot = slot) →
      completes (.load q aq slot addr len) s (fun t =>
        t.quad q = { x with aeq := x.aeWith aq (.load slot addr len) false } ∧ onlyParts [.quads] s t)) ∧
    ((∀ l ∈ x.loads, l.slot ≠ slot) → x.slotInUse slot →
      ∀ j, s.jobAt q = some j → completes (.load q aq slot addr len) s (fun t => t.job? j.id = none)) ∧
    ((∀ l ∈ x.loads, l.slot ≠ slot) → ¬ x.slotInUse slot →
      (len = sceneBytes → completes (.load q aq slot addr len) s (fun t =>
        t.quad q = { x with aeq := x.aeWith aq (.load slot addr len) true
                            loads := x.loads ++ [{ slot := slot, scene := sceneOf (s.gather [.dev addr sceneBytes] 0).1 }] } ∧
        onlyParts [.quads] s t)) ∧
      (len ≠ sceneBytes → s.noStaging q → completes (.load q aq slot addr len) s (fun t =>
        (t.quad q).loads = x.loads ∧ (t.quad q).scenes = x.scenes ∧ onlyParts [.quads] s t))) := by
  intro x hruns hq hnext hslot
  let u := s.aeWritten q aq (.load slot addr len) true
  have hu : u.quad q = { x with aeq := x.aeWith aq (.load slot addr len) true } := State.aeWritten_quad hq true
  have hulen : q < u.quads.length := by
    rw [State.aeWritten_length]
    exact hq
  have hustarted : u.aeStarted q aq := by
    unfold State.aeStarted
    rw [hu]
    exact Quad.aeWith_started hnext
  have hloads : (u.quad q).loads = x.loads := by rw [hu]
  have hexec := exec_load q aq slot addr len s hslot
  refine ⟨fun hload => ?_, fun hno huse j hj => ?_, fun hno huse => ⟨fun hlen => ?_, fun hlen halone => ?_⟩⟩
  · rw [State.aePush_waits (op := .load slot addr len) hruns hq hnext (State.startLoad_waits (by rw [hloads]; exact hload))] at hexec
    exact ⟨_, hexec, State.aeWritten_quad hq false, State.aeWritten_only ..⟩
  · have huuse : (u.quad q).slotInUse slot := by
      rw [hu]
      exact huse
    rw [State.aePush_begins (op := .load slot addr len) hruns hq hnext (State.startLoad_ends (by rw [hloads]; exact hno) huuse) ?_] at hexec
    · refine ⟨_, hexec, ?_⟩
      have hujob : u.jobAt q = some j := (State.jobAt_congr rfl rfl q).trans hj
      have hend : u.endJobAt q INTERNAL = u.endJob j.id INTERNAL := by
        unfold State.endJobAt
        rw [hujob]
      rw [hend]
      exact State.endJob_gone u j.id INTERNAL
    · intro e he
      rw [State.updQuad_quad_self _ _ _ (by rw [State.view_length (State.endJobAt_hull ..)]; exact hulen)] at he
      exact State.endJobAt_started q INTERNAL hulen hustarted e (mem_of_mem_aeDrop _ _ he)
  · subst hlen
    have huuse : ¬ (u.quad q).slotInUse slot := by
      rw [hu]
      exact huse
    have hset : (u.updQuad q (fun x => { x with loads := x.loads ++
        [{ slot := slot, scene := sceneOf (u.gather [.dev addr sceneBytes] 0).1 }] })).quad q =
        { u.quad q with loads := (u.quad q).loads ++ [{ slot := slot, scene := sceneOf (u.gather [.dev addr sceneBytes] 0).1 }] } :=
      State.updQuad_quad_self u q _ hulen
    rw [State.aePush_begins (op := .load slot addr sceneBytes) hruns hq hnext (State.startLoad_begins (by rw [hloads]; exact hno) huuse) ?_] at hexec
    · refine ⟨_, hexec, ?_, (State.updQuad_only ..).after (by decide) (State.aeWritten_only ..)⟩
      rw [hset, hu]
      rfl
    · rw [hset]
      exact hustarted
  · have huuse : ¬ (u.quad q).slotInUse slot := by
      rw [hu]
      exact huse
    have hrefuse : u.refuseLoad q BAD = u := State.refuseLoad_alone BAD halone
    rw [State.aePush_begins (op := .load slot addr len) hruns hq hnext (State.startLoad_refused (by rw [hloads]; exact hno) huuse hlen) ?_] at hexec
    · rw [hrefuse] at hexec
      have hset := State.updQuad_quad_self u q (fun x => x.aeDone (AeOp.isLoad slot)) hulen
      refine ⟨_, hexec, ?_, ?_, (State.updQuad_only ..).after (by decide) (State.aeWritten_only ..)⟩
      · rw [hset, hu]
        rfl
      · rw [hset, hu]
        rfl
    · intro e he
      rw [hrefuse, State.updQuad_quad_self _ _ _ hulen] at he
      exact hustarted e (mem_of_mem_aeDrop _ _ he)

end Sys2Proof.Machine
end

section
/-! A load completes: a good scene is written, rerouted where it must be, and a bad one is not (R50, R58, R70). -/

namespace Sys2Proof.Machine

open Config

/-- Where the configurations of fenced sites are placed: their understudies (R58). -/
def Quad.placings (x : Quad) : List ((Nat × Nat) × Nat × Nat) :=
  x.sites.filterMap (fun (e : SiteSt) => if e.st ≥ 3 then e.partner.map (fun p => ((e.row, e.col), p)) else none)

/-- The load of a slot is over. -/
def State.loadOver (s : State) (q slot : Nat) : State :=
  s.updQuad q (fun x => ({ x with loads := x.loads.filter (fun e => e.slot != slot) } : Quad).aeDone (AeOp.isLoad slot))

/-- A scene uses a site that is fenced with nothing standing in. -/
def Quad.usesDead (x : Quad) (sc : Scene) : Bool := sc.sites.any (fun g => (x.site g.row g.col).isDead && !g.unitZero)

/-- A scene's paths touch a fenced site. -/
def Scene.touched (sc : Scene) (q : Nat) (x : Quad) : Bool := (sc.groups q GridView.plain).any (fun g => g.touches x.view.shut)

section
variable {s : State} {q slot : Nat} {l : LoadSt}

theorem State.loadOver_quad (hq : q < s.quads.length) : (s.loadOver q slot).quad q =
    ({ s.quad q with loads := (s.quad q).loads.filter (fun e => e.slot != slot) } : Quad).aeDone (AeOp.isLoad slot) :=
  State.updQuad_quad_self s q _ hq

theorem exec_loadComplete (r : Option Tables) (hruns : s.quadRuns q = true) (hl : (s.quad q).loads.find? (·.slot == slot) = some l) :
    exec (.loadComplete q slot r) s = .next (if !sceneOk q l.scene then (s.loadOver q slot).refuseLoad q BAD
      else if (s.quad q).usesDead l.scene then (s.loadOver q slot).refuseLoad q LIMIT
      else if !l.scene.touched q (s.quad q) then (s.loadOver q slot).storeScene q slot l.scene []
      else match r with
        | none => (s.loadOver q slot).refuseLoad q LIMIT
        | some ts => if l.scene.detourOk (l.scene.retable ts) q (s.quad q).view then
            (s.loadOver q slot).storeScene q slot (l.scene.retable ts) (l.scene.addedHops (l.scene.retable ts) q (s.quad q))
          else (s.loadOver q slot).refuseLoad q LIMIT) := by
  change execLoadComplete q slot r s = _
  unfold execLoadComplete
  dsimp only
  rw [hl]
  dsimp only
  rw [if_neg (by simp [hruns])]
  rfl

/-- A scene written into a slot after its load. -/
theorem State.storeScene_stored (sc : Scene) (hs : List ((Nat × Nat) × Nat)) (hq : q < s.quads.length) (hslot : slot < (s.quad q).scenes.length) :
    let t := (s.loadOver q slot).storeScene q slot sc hs
    (t.quad q).scene slot = some { sc with placed := (s.quad q).placings } ∧ (∀ k, k ≠ slot → (t.quad q).scene k = (s.quad q).scene k) ∧
      (t.quad q).loads = (s.quad q).loads.filter (fun e => e.slot != slot) ∧ onlyParts [.quads, .ctr] s t := by
  intro t
  have ht : t.quad q = ({ (s.loadOver q slot).quad q with
      scenes := ((s.loadOver q slot).quad q).scenes.set slot (some { sc with placed := ((s.loadOver q slot).quad q).placings }) } : Quad).noteHops slot hs :=
    State.updQuad_quad_self (s.loadOver q slot) q _ (by rw [State.loadOver, State.updQuad_length]; exact hq)
  have hscenes : (t.quad q).scenes = (s.quad q).scenes.set slot (some { sc with placed := (s.quad q).placings }) := by
    rw [ht, State.loadOver_quad hq]
    rfl
  refine ⟨?_, fun k hk => ?_, ?_, (State.storeScene_only ..).after (by decide) ((State.updQuad_only ..).mono (by decide))⟩
  · rw [Quad.scene, hscenes, List.getElem?_set_self hslot]
    rfl
  · rw [Quad.scene, hscenes, List.getElem?_set_ne (Ne.symm hk), Quad.scene]
  · rw [ht, State.loadOver_quad hq]
    rfl

/-- A load refused with no production command in progress. -/
theorem State.loadOver_refused (status : Nat) (hq : q < s.quads.length) (h : s.noStaging q) : let t := (s.loadOver q slot).refuseLoad q status
    (t.quad q).scenes = (s.quad q).scenes ∧ (t.quad q).loads = (s.quad q).loads.filter (fun e => e.slot != slot) ∧ onlyParts [.quads] s t := by
  intro t
  have ht : t = s.loadOver q slot := State.refuseLoad_alone status h
  rw [ht, State.loadOver_quad hq]
  exact ⟨rfl, rfl, State.updQuad_only ..⟩

end

theorem loadComplete_acts (s : State) (q slot : Nat) (r : Option Tables) (l : LoadSt) : let x := s.quad q
    let used := x.usesDead l.scene
    let touches := l.scene.touched q x
    s.quadRuns q = true → q < s.quads.length → x.loads.find? (·.slot == slot) = some l → slot < x.scenes.length →
    (sceneOk q l.scene = true → used = false → touches = false →
      completes (.loadComplete q slot r) s (fun t => (t.quad q).scene slot = some { l.scene with placed := x.placings } ∧
        (∀ k, k ≠ slot → (t.quad q).scene k = x.scene k) ∧ (t.quad q).loads = x.loads.filter (fun e => e.slot != slot) ∧
        onlyParts [.quads, .ctr] s t)) ∧
    (∀ ts, sceneOk q l.scene = true → used = false → touches = true → r = some ts → l.scene.detourOk (l.scene.retable ts) q x.view = true →
      completes (.loadComplete q slot r) s (fun t => (t.quad q).scene slot = some { l.scene.retable ts with placed := x.placings } ∧
        (∀ k, k ≠ slot → (t.quad q).scene k = x.scene k) ∧ onlyParts [.quads, .ctr] s t)) ∧
    (sceneOk q l.scene = false ∨ used = true ∨ (touches = true ∧ r = none) → s.noStaging q →
      completes (.loadComplete q slot r) s (fun t => (t.quad q).scenes = x.scenes ∧
        (t.quad q).loads = x.loads.filter (fun e => e.slot != slot) ∧ onlyParts [.quads] s t)) := by
  intro x used touches hruns hq hl hslot
  have hexec := exec_loadComplete r hruns hl
  rw [show (s.quad q).usesDead l.scene = used from rfl, show l.scene.touched q (s.quad q) = touches from rfl] at hexec
  refine ⟨fun hok hused htouch => ?_, fun ts hok hused htouch hr hdet => ?_, fun hbad halone => ?_⟩
  · simp only [hok, hused, htouch, Bool.not_true, Bool.not_false, Bool.false_eq_true, if_false, if_true] at hexec
    exact ⟨_, hexec, State.storeScene_stored _ _ hq hslot⟩
  · subst hr
    simp only [hok, hused, htouch, Bool.not_true, Bool.false_eq_true, if_false] at hexec
    rw [if_pos hdet] at hexec
    obtain ⟨hsc, hother, -, honly⟩ := State.storeScene_stored (l.scene.retable ts) (l.scene.addedHops (l.scene.retable ts) q x) hq hslot
    exact ⟨_, hexec, hsc, hother, honly⟩
  · cases hok : sceneOk q l.scene with
    | false =>
      simp only [hok, Bool.not_false, if_true] at hexec
      exact ⟨_, hexec, State.loadOver_refused BAD hq halone⟩
    | true =>
      cases hused : used with
      | true =>
        simp only [hok, hused, Bool.not_true, Bool.false_eq_true, if_false, if_true] at hexec
        exact ⟨_, hexec, State.loadOver_refused LIMIT hq halone⟩
      | false =>
        obtain ⟨htouch, hr⟩ : touches = true ∧ r = none := by simpa [hok, hused] using hbad
        subst hr
        simp only [hok, hused, htouch, Bool.not_true, Bool.false_eq_true, if_false] at hexec
        exact ⟨_, hexec, State.loadOver_refused LIMIT hq halone⟩

end Sys2Proof.Machine
end

section
/-! A run begins, or waits (R68, R71). -/

namespace Sys2Proof.Machine

open Config

/-! ### The AGs of a scene start (R71) -/

/-- The MUs of some sites start. -/
def Quad.startMus (x : Quad) (l : List SiteCfg) : Quad := l.foldl (fun x g => x.setMu g.row g.col (x.mu g.row g.col).started) x

/-- The AGs of an MU at the start of a run. -/
def agsStarted : List AgSt := List.replicate 4 { AgSt.idle with running := true }

theorem Quad.startMus_offUnits (x : Quad) (l : List SiteCfg) : (x.startMus l).offUnits = x.offUnits :=
  foldl_keeps Quad.offUnits (g := fun (x : Quad) (g : SiteCfg) => x.setMu g.row g.col (x.mu g.row g.col).started) (fun _ _ => rfl) l x

theorem Quad.startMus_keeps {x : Quad} (l : List SiteCfg) {row col : Nat} (h : (x.mu row col).ags = agsStarted) :
    ((x.startMus l).mu row col).ags = agsStarted := by
  induction l generalizing x with
  | nil => exact h
  | cons g l ih =>
    refine ih ?_
    rw [Quad.setMu_mu]
    split
    · rfl
    · exact h

theorem Quad.startMus_ags (x : Quad) (l : List SiteCfg) : ∀ g ∈ l, ((x.startMus l).mu g.row g.col).ags = agsStarted := by
  induction l generalizing x with
  | nil => simp
  | cons d l ih =>
    intro g hg
    rcases List.mem_cons.mp hg with rfl | hg
    · refine Quad.startMus_keeps l ?_
      rw [Quad.setMu_mu, if_pos rfl]
      rfl
    · exact ih _ g hg

/-! ### A run begins -/

/-- A run may start behind the one that a curtain change to its slot leaves (R71). -/
def Quad.behind (x : Quad) (slot : Nat) : Bool :=
  match x.chg, x.run with
  | some c, some r => c.gw && !c.cut && c.target == slot && r.slot == c.old && x.leaving.isNone
  | _, _ => false

/-- The job's step has been composed, for a first run (R71). -/
def State.composed (s : State) (q : Nat) (first : Bool) : Bool :=
  !first || (match s.jobAt q with
    | some j => j.inStep && !((s.prod? j.prod).map (·.resLoad)).getD false
    | none => false)

/-- The run that begins. -/
def Quad.newRun (x : Quad) (slot cycle : Nat) : RunSt :=
  { slot := slot, began := cycle, curtain := none, rstart := if x.run.isNone then x.cues.map (·.retired) else [], met := [] }

/-- The quadrant at the beginning of a run. -/
def Quad.ranWith (x : Quad) (r : RunSt) (first : Bool) (now : Nat) : Quad :=
  { x with run := some r, leaving := x.run, progress := now, ran := x.ran || first }

/-- The sites of a scene whose AGs start with a run. -/
def Quad.runSites (x : Quad) (sc : Scene) (slot : Nat) : List SiteCfg :=
  sc.sites.filter (fun g => !isCu g.row g.col && x.slotAt g.row g.col == slot)

/-- A run of a scene has begun. -/
def State.runBegun (s : State) (q slot : Nat) (first : Bool) (sc : Scene) : State :=
  ((s.updQuad q (fun x => x.ranWith ((s.quad q).newRun slot s.pw.cycle) first s.now)).updQuad q
    (fun x => x.startMus (x.runSites sc slot))).openDisps q sc.id

section
variable {s : State} {q slot : Nat} {first : Bool} {sc : Scene}

theorem State.startRun_eq (hsc : (s.quad q).scene slot = some sc) : s.startRun q slot first =
    if decide (slot = (s.quad q).gwSlot) && (((s.quad q).run.isNone && (s.quad q).retiredAt != some s.pw.cycle) || (s.quad q).behind slot) &&
        s.composed q first && (s.quad q).cutFrom.isNone && !s.claimsOwed q (fun d => !d.static && d.scene == sc.id) then
      some (s.runBegun q slot first sc)
    else none := by
  unfold State.startRun
  dsimp only
  rw [hsc]
  rfl

theorem State.openDisps_view {α : Type} {v : Quad → α} (hv : ∀ x ds, v { x with disps := ds } = v x) (s : State) (q id : Nat) :
    (s.openDisps q id).view v = s.view v :=
  (State.updQuad_view _ _ fun x => hv x _).trans
    (foldl_keeps (State.view · v) (g := fun (s : State) (e : Disp × Nat) =>
      if !e.1.static && e.1.scene == id && e.1.limit > e.1.next then s.bump 0x43 q (6 * e.2 + 5) (e.1.limit - e.1.next) else s)
      (fun _ _ => State.ite_view (State.bump_view ..) rfl) _ _)

theorem State.runBegun_only : onlyParts [.quads, .ctr] s (s.runBegun q slot first sc) :=
  (State.openDisps_only ..).after (by decide) (((State.updQuad_only ..).after (by decide) (State.updQuad_only ..)).mono (by decide))

theorem State.runBegun_quad (hq : q < s.quads.length) : let t := s.runBegun q slot first sc
    (t.quad q).run = some ((s.quad q).newRun slot s.pw.cycle) ∧ (t.quad q).leaving = (s.quad q).run ∧ (t.quad q).aeq = (s.quad q).aeq ∧
      (t.quad q).ran = ((s.quad q).ran || first) ∧
      ∀ g ∈ sc.sites, isCu g.row g.col = false → (s.quad q).slotAt g.row g.col = slot → ((t.quad q).mu g.row g.col).ags = agsStarted := by
  intro t
  let y := (s.quad q).ranWith ((s.quad q).newRun slot s.pw.cycle) first s.now
  let u := (s.updQuad q (fun x => x.ranWith ((s.quad q).newRun slot s.pw.cycle) first s.now)).updQuad q
    (fun x => x.startMus (x.runSites sc slot))
  have hu : u.quad q = y.startMus (y.runSites sc slot) := by
    rw [State.updQuad_quad_self _ _ _ (by rw [State.updQuad_length]; exact hq), State.updQuad_quad_self _ _ _ hq]
  have hview : (t.quad q).offUnits.run = (u.quad q).offUnits.run ∧ (t.quad q).offUnits.leaving = (u.quad q).offUnits.leaving ∧
      (t.quad q).offUnits.aeq = (u.quad q).offUnits.aeq ∧ (t.quad q).offUnits.ran = (u.quad q).offUnits.ran :=
    have hv := State.view_quad (v := fun x => (x.run, x.leaving, x.aeq, x.ran)) (State.openDisps_view (fun _ _ => rfl) u q sc.id) q
    ⟨congrArg (·.1) hv, congrArg (·.2.1) hv, congrArg (·.2.2.1) hv, congrArg (·.2.2.2) hv⟩
  rw [hu, Quad.startMus_offUnits] at hview
  obtain ⟨hrun, hleaving, haeq, hran⟩ := hview
  refine ⟨hrun, hleaving, haeq, hran, fun g hg hmu hslot => ?_⟩
  have hmus : ((t.quad q).mu g.row g.col) = (u.quad q).mu g.row g.col :=
    Quad.mu_of_mus (State.view_quad (v := Quad.mus) (State.openDisps_view (fun _ _ => rfl) u q sc.id) q) g.row g.col
  rw [hmus, hu]
  refine Quad.startMus_ags y _ g (List.mem_filter.mpr ⟨hg, ?_⟩)
  have hslot' : y.slotAt g.row g.col = slot := hslot
  rw [hmu, hslot']
  simp

end

theorem State.aeWritten_claimsOwed {s : State} {q : Nat} (aq : Nat) (op : AeOp) (b : Bool) (hq : q < s.quads.length) (p : Disp → Bool) :
    (s.aeWritten q aq op b).claimsOwed q p = s.claimsOwed q p := by
  unfold State.claimsOwed State.dspn
  rw [State.aeWritten_quad hq]
  rfl

theorem run_acts (s : State) (q aq slot : Nat) (first : Bool) (sc : Scene) : let x := s.quad q
    let ready := first = true → ∃ j, s.jobAt q = some j ∧ j.inStep = true ∧ ((s.prod? j.prod).map (·.resLoad)).getD false = false
    let ags (t : State) : Prop := ∀ g ∈ sc.sites, isCu g.row g.col = false → x.slotAt g.row g.col = slot →
      ((t.quad q).mu g.row g.col).ags = List.replicate 4 { AgSt.idle with running := true }
    s.quadRuns q = true → q < s.quads.length → x.aeNext aq → slot < 4 → x.scene slot = some sc → slot = x.gwSlot → x.cutFrom = none →
    s.claimsOwed q (fun d => !d.static && d.scene == sc.id) = false →
    (x.run = none → x.retiredAt ≠ some s.pw.cycle → ready → completes (.run q aq slot first) s (fun t =>
      (t.quad q).run = some { slot := slot, began := s.pw.cycle, curtain := none, rstart := x.cues.map (·.retired), met := [] } ∧
      (t.quad q).aeq = x.aeWith aq (.run slot first) true ∧ (t.quad q).ran = (x.ran || first) ∧ ags t ∧ onlyParts [.quads, .ctr] s t)) ∧
    (∀ c r, x.chg = some c → c.gw = true → c.cut = false → c.target = slot → x.run = some r → r.slot = c.old → x.leaving = none → ready →
      completes (.run q aq slot first) s (fun t =>
        (t.quad q).run = some { slot := slot, began := s.pw.cycle, curtain := none, rstart := [], met := [] } ∧
        (t.quad q).leaving = some r ∧ ags t ∧ onlyParts [.quads, .ctr] s t)) ∧
    ((first = true ∧ ∀ j, s.jobAt q = some j → j.inStep = false) → completes (.run q aq slot first) s (fun t =>
      t.quad q = { x with aeq := x.aeWith aq (.run slot first) false } ∧ onlyParts [.quads] s t)) := by
  intro x ready ags hruns hq hnext hslot hsc hgw hcut hclaims
  let u := s.aeWritten q aq (.run slot first) true
  have hu : u.quad q = { x with aeq := x.aeWith aq (.run slot first) true } := State.aeWritten_quad hq true
  have hulen : q < u.quads.length := by
    rw [State.aeWritten_length]
    exact hq
  have huclaims := (State.aeWritten_claimsOwed aq (.run slot first) true hq (fun d => !d.static && d.scene == sc.id)).trans hclaims
  have hucomp : u.composed q first = s.composed q first := by
    unfold State.composed
    rw [show u.jobAt q = s.jobAt q from State.jobAt_congr rfl rfl q]
    rfl
  have hubegin : u.startRun q slot first = if ((x.run.isNone && x.retiredAt != some s.pw.cycle) || x.behind slot) && s.composed q first then
      some (u.runBegun q slot first sc) else none := by
    rw [State.startRun_eq (by rw [hu]; exact hsc), show u.claimsOwed q _ = false from huclaims, hucomp, hu]
    have hb : ({ x with aeq := x.aeWith aq (.run slot first) true } : Quad).behind slot = x.behind slot := rfl
    rw [hb]
    simp only [hgw, hcut, decide_true, Bool.true_and, Option.isNone_none, Bool.not_false, Bool.and_true]
    rfl
  have hexec := exec_run q aq slot first s hslot
  have hcomposed (hr : ready) : s.composed q first = true := by
    unfold State.composed
    cases hf : first with
    | false => rfl
    | true =>
      obtain ⟨j, hj, hin, hres⟩ := hr hf
      rw [hj]
      simp [hin, hres]
  obtain ⟨hrun, hleaving, haeq, hran, hags⟩ := State.runBegun_quad (slot := slot) (first := first) (sc := sc) hulen
  rw [hu] at hrun hleaving haeq hran hags
  have hgo (hwhen : ((x.run.isNone && x.retiredAt != some s.pw.cycle) || x.behind slot) = true) (hr : ready) :
      exec (.run q aq slot first) s = .next (u.runBegun q slot first sc) := by
    rw [hexec, State.aePush_begins (op := .run slot first) hruns hq hnext (hubegin.trans (if_pos (by rw [hwhen, hcomposed hr]; rfl)))]
    rw [haeq]
    exact Quad.aeWith_started hnext
  have honly : onlyParts [.quads, .ctr] s (u.runBegun q slot first sc) :=
    State.runBegun_only.after (by decide) ((State.aeWritten_only ..).mono (by decide))
  refine ⟨fun hnone hret hr => ⟨_, hgo (by simp [hnone, hret]) hr, ?_, haeq, hran, hags, honly⟩,
    fun c r hc hgwc hcutc htarget hrun' hold hleave hr => ⟨_, hgo ?_ hr, ?_, ?_, hags, honly⟩, fun hwait => ?_⟩
  · rw [hrun]
    unfold Quad.newRun
    rw [hnone]
    rfl
  · unfold Quad.behind
    rw [hc, hrun']
    simp [hgwc, hcutc, htarget, hold, hleave]
  · rw [hrun]
    unfold Quad.newRun
    rw [hrun']
    rfl
  · rw [hleaving]
    exact hrun'
  · obtain ⟨hfirst, hstep⟩ := hwait
    have hnot : s.composed q first = false := by
      unfold State.composed
      rw [hfirst]
      cases hj : s.jobAt q with
      | none => rfl
      | some j => simp [hstep j hj]
    rw [State.aePush_waits (op := .run slot first) hruns hq hnext (hubegin.trans (if_neg (by rw [hnot, Bool.and_false]; exact Bool.false_ne_true)))] at hexec
    exact ⟨_, hexec, State.aeWritten_quad hq false, State.aeWritten_only ..⟩

end Sys2Proof.Machine
end

section
/-! A run retires (R71, R160). -/

namespace Sys2Proof.Machine

open Config

/-! ### What noting met waits leaves (R160) -/

/-- A quadrant but for what its runs have met: the slots of its runs, and the rest. -/
def Quad.offMet (x : Quad) : Option Nat × Option Nat × Quad := (x.run.map (·.slot), x.leaving.map (·.slot), { x with run := none, leaving := none })

theorem RunSt.meet_slot (r : RunSt) (w : Option (Nat × Nat)) : (r.meet w).slot = r.slot := by
  cases w <;> rfl

theorem Quad.meetAt_offMet (x : Quad) (tag : Nat) (w : Option (Nat × Nat)) : (x.meetAt tag w).offMet = x.offMet := by
  have hslot (o : Option RunSt) : (o.map (fun r => if r.slot = tag then r.meet w else r)).map (·.slot) = o.map (·.slot) := by
    cases o with
    | none => rfl
    | some r =>
      simp only [Option.map_some, Option.some_inj]
      split
      · exact r.meet_slot w
      · rfl
  unfold Quad.offMet Quad.meetAt
  simp only [hslot]

theorem Quad.noteMet_offMet (x : Quad) : x.noteMet.offMet = x.offMet := by
  unfold Quad.noteMet
  refine foldl_keeps Quad.offMet (fun u k => foldl_keeps Quad.offMet (fun w i => ?_) _ _) _ _
  split
  · split
    · exact Quad.meetAt_offMet ..
    · rfl
  · rfl

/-! ### RUN_RETIRE (R71) -/

/-- The run that retires: the one being left, else the present one. -/
def Quad.retiring (x : Quad) : Option RunSt :=
  match x.leaving with
  | some r => some r
  | none => x.run

/-- A run's retirements and its entry taken from a quadrant. -/
def Quad.runGone (x : Quad) (r : RunSt) (cycle : Nat) : Quad := { x.retireRun r with retiredAt := some cycle }.aeDone (AeOp.isRun r.slot)

/-- A quadrant after a run has retired. -/
def Quad.afterRun (x : Quad) (r : RunSt) (cycle : Nat) : Quad :=
  let y := x.runGone (x.retiring.getD r) cycle
  if y.leaving.isSome then { y with leaving := none } else { y with run := none }

theorem Quad.runGone_run (x : Quad) (r : RunSt) (cycle : Nat) : (x.runGone r cycle).run.map (·.slot) = x.run.map (·.slot) := by
  unfold Quad.runGone Quad.aeDone Quad.retireRun
  cases x.run with
  | none => rfl
  | some n =>
    simp only [Option.map_some, Option.some_inj]
    split <;> rfl

theorem Quad.afterRun_spec (x : Quad) (r : RunSt) (cycle : Nat) : let y := x.afterRun r cycle
    y.leaving = none ∧ y.retiredAt = some cycle ∧ (x.leaving = none → y.run = none) ∧
      (x.leaving ≠ none → y.run.map (·.slot) = x.run.map (·.slot)) ∧
      (∀ r', x.retiring = some r' → y.cues = (List.zipIdx x.cues).map (fun (u, i) => { u with retired := max u.retired ((look r'.met i).getD 0) })) := by
  intro y
  have hleaving : (x.runGone (x.retiring.getD r) cycle).leaving = x.leaving := rfl
  have hcues (r' : RunSt) (h : x.retiring = some r') : (x.runGone (x.retiring.getD r) cycle).cues =
      (List.zipIdx x.cues).map (fun (u, i) => { u with retired := max u.retired ((look r'.met i).getD 0) }) := by
    rw [h]
    rfl
  have hrun := x.runGone_run (x.retiring.getD r) cycle
  have hat : (x.runGone (x.retiring.getD r) cycle).retiredAt = some cycle := rfl
  have hy : y = if x.leaving.isSome then { x.runGone (x.retiring.getD r) cycle with leaving := none }
      else { x.runGone (x.retiring.getD r) cycle with run := none } := rfl
  generalize x.runGone (x.retiring.getD r) cycle = z at hleaving hcues hrun hat hy
  cases hl : x.leaving with
  | none =>
    rw [hl, if_neg (by simp)] at hy
    rw [hy]
    exact ⟨hleaving.trans hl, hat, fun _ => rfl, fun h => absurd rfl h, hcues⟩
  | some r' =>
    rw [hl, if_pos (by rfl)] at hy
    rw [hy]
    exact ⟨rfl, hat, fun h => absurd h (Option.some_ne_none r'), fun _ => hrun, hcues⟩

/-- The pages that a step filled need no sealing when no request has rows. -/
theorem State.sealIfOver_idle {s : State} {q : Nat} (h : ∀ k ∈ s.sv.reqs, k.rows = 0) : s.sealIfOver q = s := by
  have hnone (j : Job) : s.sv.reqs.filter (fun r => r.job == j.id && r.home == q && decide (r.rows > 0) && !r.badPrompt) = [] := by
    rw [List.filter_eq_nil_iff]
    intro r hr
    simp [h r hr]
  unfold State.sealIfOver State.sealStep
  split
  · cases s.jobAt q with
    | none => rfl
    | some j =>
      dsimp only
      cases s.manOf j.id with
      | none => rfl
      | some m =>
        dsimp only
        rw [hnone]
        rfl
  · rfl

theorem State.sealIfOver_quads (s : State) (q : Nat) : (s.sealIfOver q).quads = s.quads := by
  unfold State.sealIfOver
  split
  · exact (State.sealStep_only ..).quads (by decide)
  · rfl

theorem runRetire_retires (s : State) (q c : Nat) (r : RunSt) : let x := s.quad q
    s.quadRuns q = true → q < s.quads.length → x.leaving = some r ∨ (x.leaving = none ∧ x.run = some r) → r.curtain = some c →
    c < s.pw.cycle → x.retireSetDone r = true → x.clearOf r.slot = true →
    completes (.runRetire q) s (fun t => (t.quad q).leaving = none ∧ (t.quad q).retiredAt = some s.pw.cycle ∧
      (x.leaving = none → (t.quad q).run = none) ∧ (x.leaving ≠ none → (t.quad q).run.map (·.slot) = x.run.map (·.slot)) ∧
      (∀ r', x.noteMet.leaving = some r' ∨ (x.noteMet.leaving = none ∧ x.noteMet.run = some r') →
        (t.quad q).cues = (List.zipIdx x.cues).map (fun (u, i) => { u with retired := max u.retired ((look r'.met i).getD 0) })) ∧
      ((∀ k ∈ s.sv.reqs, k.rows = 0) → onlyParts [.quads, .ctr] s t)) := by
  intro x hruns hq hwhich hcurtain hc hdone hclear
  let u := (s.updQuad q (fun x => x.noteMet.afterRun r s.pw.cycle)).bump 0x25 q (5 + 2 * r.slot) 1
  have hexec : exec (.runRetire q) s = .next (u.sealIfOver q) := by
    have hgo : (s.quadRuns q && decide (c < s.pw.cycle) && x.retireSetDone r && x.clearOf r.slot) = true := by
      rw [hruns, hdone, hclear]
      simpa using hc
    change execRunRetire q s = _
    unfold execRunRetire
    dsimp only
    rcases hwhich with hl | ⟨hl, hr⟩
    · rw [show (s.quad q).leaving = some r from hl]
      dsimp only
      rw [hcurtain]
      dsimp only
      rw [if_pos hgo]
      rfl
    · rw [show (s.quad q).leaving = none from hl, show (s.quad q).run = some r from hr]
      dsimp only
      rw [hcurtain]
      dsimp only
      rw [if_pos hgo]
      rfl
  have hu : u.quad q = x.noteMet.afterRun r s.pw.cycle := State.updQuad_quad_self s q _ hq
  have ht : (u.sealIfOver q).quad q = x.noteMet.afterRun r s.pw.cycle := (State.quad_congr (State.sealIfOver_quads u q) q).trans hu
  obtain ⟨hrun, hmet⟩ := Prod.mk_inj.mp x.noteMet_offMet
  obtain ⟨hleave, hrest⟩ := Prod.mk_inj.mp hmet
  have hkept := congrArg (fun y : Quad => y.cues) hrest
  have hcues : x.noteMet.cues = x.cues := hkept
  have hnone : x.noteMet.leaving = none ↔ x.leaving = none := by
    rw [← Option.map_eq_none_iff (f := RunSt.slot), hleave, Option.map_eq_none_iff]
  obtain ⟨h1, h2, h3, h4, h5⟩ := x.noteMet.afterRun_spec r s.pw.cycle
  refine ⟨_, hexec, ?_⟩
  dsimp only
  rw [ht]
  refine ⟨h1, h2, fun h => h3 (hnone.mpr h), fun h => (h4 fun k => h (hnone.mp k)).trans hrun, fun r' hr' => ?_, fun hreqs => ?_⟩
  · rw [← hcues]
    refine h5 r' ?_
    unfold Quad.retiring
    rcases hr' with hl | ⟨hl, hr⟩
    · rw [hl]
    · rw [hl, hr]
  · rw [State.sealIfOver_idle (s := u) hreqs]
    exact (State.bump_only ..).after (by decide) ((State.updQuad_only s q _).mono (by decide))

end Sys2Proof.Machine
end

section
/-! A change is written: it waits, is done, begins, or issues a cut (R68, R72); and a cut takes effect (R78, R180). -/

namespace Sys2Proof.Machine

open Config

/-! ### CHANGE (R68, R72) -/

/-- The change that begins or waits for its curtain point. -/
def Quad.newChange (x : Quad) (slot cycle : Nat) : ChangeSt :=
  { target := slot, old := x.gwSlot, cut := false, began := cycle, gw := false, done := [] }

/-- No run stands before a change: there is none, or it is past its curtain point (R72). -/
def Quad.pastCurtain (x : Quad) : Bool := match x.run with | some r => r.curtain.isSome | none => true

section
variable {s : State} {q slot : Nat} {cut : Bool}

theorem State.startChange_waits (h : (s.quad q).chg ≠ none ∨ (s.quad q).cutFrom ≠ none ∨
    (slot ≠ (s.quad q).gwSlot ∧ ((∃ l ∈ (s.quad q).loads, l.slot = slot) ∨ (s.quad q).scene slot = none))) :
    s.startChange q slot cut = none := by
  unfold State.startChange
  dsimp only
  split
  · rfl
  · next hfree =>
    simp only [Bool.or_eq_true, Option.isSome_iff_ne_none, not_or, not_not] at hfree
    obtain ⟨hslot, hload⟩ := (h.resolve_left (not_not.mpr hfree.1)).resolve_left (not_not.mpr hfree.2)
    rw [if_neg hslot, if_pos]
    simp only [Bool.or_eq_true, List.any_eq_true, beq_iff_eq, Option.isNone_iff_eq_none]
    exact hload

theorem State.startChange_same (hchg : (s.quad q).chg = none) (hcut : (s.quad q).cutFrom = none) (hslot : slot = (s.quad q).gwSlot) :
    s.startChange q slot cut = some (s.updQuad q (fun x => x.aeDone AeOp.isChange)) := by
  unfold State.startChange
  dsimp only
  rw [hchg, hcut, if_neg (by simp), if_pos hslot]

theorem State.startChange_begins (hchg : (s.quad q).chg = none) (hcut : (s.quad q).cutFrom = none) (hslot : slot ≠ (s.quad q).gwSlot)
    (hload : ∀ l ∈ (s.quad q).loads, l.slot ≠ slot) (hsc : ((s.quad q).scene slot).isSome = true) : s.startChange q slot cut =
      if cut then some (s.updQuad q (fun x => { x with cutFrom := some (s.pw.cycle, slot), progress := s.now }))
      else some (s.updQuad q (fun x =>
        if (s.quad q).pastCurtain then
          x.beginChange ((s.quad q).newChange slot s.pw.cycle) s.pw.cycle s.now
        else { x with chg := some ((s.quad q).newChange slot s.pw.cycle), progress := s.now })) := by
  have hbusy : ¬ (((s.quad q).loads.any (·.slot == slot)) || ((s.quad q).scene slot).isNone) = true := by
    rw [Bool.or_eq_true, not_or]
    exact ⟨State.not_loading hload, by rw [Option.isNone_iff_eq_none, ← Option.not_isSome_iff_eq_none, not_not]; exact hsc⟩
  unfold State.startChange
  dsimp only
  rw [hchg, hcut, if_neg (by simp), if_neg hslot, if_neg hbusy]
  rfl

end

theorem change_acts (s : State) (q aq slot : Nat) (cut : Bool) : let x := s.quad q
    s.quadRuns q = true → q < s.quads.length → x.aeNext aq → slot < 4 →
    (x.chg ≠ none ∨ x.cutFrom ≠ none ∨ (slot ≠ x.gwSlot ∧ ((∃ l ∈ x.loads, l.slot = slot) ∨ x.scene slot = none)) →
      completes (.change q aq slot cut) s (fun t =>
        t.quad q = { x with aeq := x.aeWith aq (.change slot cut) false } ∧ onlyParts [.quads] s t)) ∧
    (x.chg = none → x.cutFrom = none →
      (slot = x.gwSlot → completes (.change q aq slot cut) s (fun t =>
        t.quad q = { x with aeq := aeDrop AeOp.isChange (x.aeWith aq (.change slot cut) true) } ∧ onlyParts [.quads] s t)) ∧
      (slot ≠ x.gwSlot → (∀ l ∈ x.loads, l.slot ≠ slot) → (x.scene slot).isSome = true →
        (cut = false → (∀ r, x.run = some r → r.curtain.isSome = true) → completes (.change q aq slot cut) s (fun t =>
          (t.quad q).gwSlot = slot ∧ (t.quad q).aeq = x.aeWith aq (.change slot cut) true ∧
          (t.quad q).chg = some { target := slot, old := x.gwSlot, cut := false, began := s.pw.cycle, gw := true, done := [] } ∧
          onlyParts [.quads] s t)) ∧
        (cut = false → (∃ r, x.run = some r ∧ r.curtain = none) → completes (.change q aq slot cut) s (fun t =>
          t.quad q = { x with aeq := x.aeWith aq (.change slot cut) true, progress := s.now
                              chg := some { target := slot, old := x.gwSlot, cut := false, began := s.pw.cycle, gw := false, done := [] } } ∧
          onlyParts [.quads] s t)) ∧
        (cut = true → completes (.change q aq slot cut) s (fun t =>
          t.quad q = { x with aeq := x.aeWith aq (.change slot cut) true, cutFrom := some (s.pw.cycle, slot), progress := s.now } ∧
          onlyParts [.quads] s t)))) := by
  intro x hruns hq hnext hslot
  let u := s.aeWritten q aq (.change slot cut) true
  have hu : u.quad q = { x with aeq := x.aeWith aq (.change slot cut) true } := State.aeWritten_quad hq true
  have hulen : q < u.quads.length := by
    rw [State.aeWritten_length]
    exact hq
  have hustarted : u.aeStarted q aq := by
    unfold State.aeStarted
    rw [hu]
    exact Quad.aeWith_started hnext
  have hexec := exec_change q aq slot cut s hslot
  -- An update that leaves the queue's entries started is what the command does.
  have hgo (g : Quad → Quad) (hb : u.startChange q slot cut = some (u.updQuad q g))
      (hg : ∀ e ∈ (g (u.quad q)).aeq.getD aq [], e ∈ (u.quad q).aeq.getD aq []) :
      exec (.change q aq slot cut) s = .next (u.updQuad q g) ∧ (u.updQuad q g).quad q = g (u.quad q) ∧ onlyParts [.quads] s (u.updQuad q g) := by
    have hset : (u.updQuad q g).quad q = g (u.quad q) := State.updQuad_quad_self u q g hulen
    refine ⟨?_, hset, (State.updQuad_only ..).after (by decide) (State.aeWritten_only ..)⟩
    rw [hexec, State.aePush_begins (op := .change slot cut) hruns hq hnext hb]
    intro e he
    rw [hset] at he
    exact hustarted e (hg e he)
  refine ⟨fun hwait => ?_, fun hchg hcutFrom => ⟨fun hsame => ?_, fun hne hload hsc => ?_⟩⟩
  · rw [State.aePush_waits (op := .change slot cut) hruns hq hnext (State.startChange_waits (by rw [State.aeWritten_quad hq]; exact hwait))] at hexec
    exact ⟨_, hexec, State.aeWritten_quad hq false, State.aeWritten_only ..⟩
  · obtain ⟨hrun, hset, honly⟩ := hgo _ (State.startChange_same (by rw [hu]; exact hchg) (by rw [hu]; exact hcutFrom) (by rw [hu]; exact hsame))
      fun e he => mem_of_mem_aeDrop _ _ he
    refine ⟨_, hrun, ?_, honly⟩
    rw [hset, hu]
    rfl
  · have hbegin := State.startChange_begins (s := u) (cut := cut) (by rw [hu]; exact hchg) (by rw [hu]; exact hcutFrom) (by rw [hu]; exact hne)
      (by rw [hu]; exact hload) (by rw [hu]; exact hsc)
    have hpast : (u.quad q).pastCurtain = x.pastCurtain := by
      rw [hu]
      rfl
    rw [hpast] at hbegin
    refine ⟨fun hc hcurtain => ?_, fun hc hcurtain => ?_, fun hc => ?_⟩
    · have honce : x.pastCurtain = true := by
        unfold Quad.pastCurtain
        cases hr : x.run with
        | none => rfl
        | some r => exact hcurtain r hr
      subst hc
      rw [if_neg Bool.false_ne_true, honce] at hbegin
      obtain ⟨hrun, hset, honly⟩ := hgo _ hbegin fun e he => he
      refine ⟨_, hrun, ?_, ?_, ?_, honly⟩
      · rw [hset]
        rfl
      · rw [hset, hu]
        rfl
      · rw [hset, hu]
        rfl
    · obtain ⟨r, hr, hrc⟩ := hcurtain
      have honce : x.pastCurtain = false := by
        unfold Quad.pastCurtain
        rw [hr]
        simp [hrc]
      subst hc
      rw [if_neg Bool.false_ne_true, honce] at hbegin
      obtain ⟨hrun, hset, honly⟩ := hgo _ hbegin fun e he => he
      refine ⟨_, hrun, ?_, honly⟩
      rw [hset, hu]
      rfl
    · subst hc
      rw [if_pos rfl] at hbegin
      obtain ⟨hrun, hset, honly⟩ := hgo _ hbegin fun e he => he
      refine ⟨_, hrun, ?_, honly⟩
      rw [hset, hu]
      rfl

/-! ### CUT (R78, R180) -/

theorem exec_cut {s : State} {q c slot : Nat} (hruns : s.quadRuns q = true) (hcut : (s.quad q).cutFrom = some (c, slot))
    (hc : c + 2 ≤ s.pw.cycle) : exec (.cut q) s = .next (if ((s.cutNow q slot).breakEntries q).1 then
      ((s.cutNow q slot).breakEntries q).2.endJobAt q INTERNAL else ((s.cutNow q slot).breakEntries q).2) := by
  change execCut q s = _
  unfold execCut
  rw [hcut]
  dsimp only
  rw [if_pos (by simp [hruns, hc])]

/-- A cut breaks no entry where none is to be broken. -/
theorem State.breakEntries_none {s : State} {q : Nat} (h : ∀ k ∈ (s.quad q).queues, ∀ e ∈ k.ents, e.broken = false) :
    s.breakEntries q = (false, s) := by
  have hnil : ((s.quad q).queues.flatMap (·.ents)).filter TeEnt.broken = [] := by
    rw [List.filter_eq_nil_iff]
    intro e he
    obtain ⟨k, hk, he⟩ := List.mem_flatMap.mp he
    simp [h k hk e he]
  unfold State.breakEntries
  dsimp only
  rw [hnil, if_pos (by rfl)]

theorem State.breakEntries_some {s : State} {q : Nat} (h : ∃ k ∈ (s.quad q).queues, ∃ e ∈ k.ents, e.broken = true) :
    (s.breakEntries q).1 = true := by
  obtain ⟨k, hk, e, he, hb⟩ := h
  have hne : ((s.quad q).queues.flatMap (·.ents)).filter TeEnt.broken ≠ [] :=
    List.ne_nil_of_mem (List.mem_filter.mpr ⟨List.mem_flatMap.mpr ⟨k, hk, he⟩, hb⟩)
  unfold State.breakEntries
  dsimp only
  rw [if_neg (by rwa [List.length_eq_zero_iff])]

theorem State.breakEntries_offDiscards (s : State) (q : Nat) : (s.breakEntries q).2.offDiscards = s.offDiscards := by
  unfold State.breakEntries
  dsimp only
  split <;> rfl

/-- Which job a quadrant has does not turn on the discards of jobs. -/
theorem State.jobAt_offDiscards {s t : State} (hsv : t.offDiscards = s.offDiscards) (hbt : t.bt = s.bt) (q : Nat) :
    (t.jobAt q).map (·.id) = (s.jobAt q).map (·.id) := by
  have hp := congrArg (fun v : Serving => v.prods) hsv
  have hprods : t.sv.prods = s.sv.prods := hp
  have hj := congrArg (fun v : Serving => v.jobs) hsv
  have hjobs : t.sv.jobs.map (fun j => { j with discards := 0 }) = s.sv.jobs.map (fun j => { j with discards := 0 }) := hj
  have hown (u : State) : (u.jobAt q).map (·.id) = ((u.sv.jobs.map (fun j => { j with discards := 0 })).find? (fun j =>
      j.owns && (u.jobQuads j).testBit q && (!u.azgen || j.f == q))).map (·.id) := by
    rw [List.find?_map, Option.map_map]
    rfl
  have hquads : t.jobQuads = s.jobQuads := by
    funext j
    simp only [State.jobQuads, State.prodQuads, State.prod?, hprods]
  have hazgen : t.azgen = s.azgen := by simp only [State.azgen, hbt]
  rw [hown t, hown s, hjobs, hquads, hazgen]

theorem cut_acts (s : State) (q c slot : Nat) : let x := s.quad q
    s.quadRuns q = true → q < s.quads.length → x.cutFrom = some (c, slot) → c + 2 ≤ s.pw.cycle →
    ((∀ k ∈ x.queues, ∀ e ∈ k.ents, e.broken = false) →
      completes (.cut q) s (fun t => (t.quad q).gwSlot = slot ∧ (t.quad q).run = none ∧ (t.quad q).leaving = none ∧ (t.quad q).chg = none ∧
        (t.quad q).cutFrom = none ∧ (∀ f ∈ (t.quad q).flights, f.tok.tag = slot))) ∧
    (∀ j, (∃ k ∈ x.queues, ∃ e ∈ k.ents, e.broken = true) → s.jobAt q = some j → completes (.cut q) s (fun t => t.job? j.id = none)) := by
  intro x hruns hq hcut hc
  have hexec := exec_cut hruns hcut hc
  obtain ⟨hspared, hgw, hrun, hleave, hchg, hfrom, hflights⟩ := State.cutNow_quad s q slot hq
  have hqueues : ((s.cutNow q slot).quad q).queues = x.queues := congrArg Prod.snd hspared
  refine ⟨fun hno => ?_, fun j hsome hj => ?_⟩
  · rw [State.breakEntries_none (by rw [hqueues]; exact hno)] at hexec
    exact ⟨_, hexec, hgw, hrun, hleave, hchg, hfrom, hflights⟩
  · rw [State.breakEntries_some (by rw [hqueues]; exact hsome), if_pos rfl] at hexec
    refine ⟨_, hexec, ?_⟩
    have hid : (((s.cutNow q slot).breakEntries q).2.jobAt q).map (·.id) = some j.id := by
      rw [State.jobAt_offDiscards ((State.breakEntries_offDiscards ..).trans (State.cutNow_offDiscards s q slot)) ?_, hj]
      · rfl
      · exact ((State.breakEntries_only ..).same .bt (by decide)).trans ((State.cutNow_only s q slot).same .bt (by decide))
    obtain ⟨i, hi, hii⟩ := Option.map_eq_some_iff.mp hid
    unfold State.endJobAt
    rw [hi, ← hii]
    exact State.endJob_gone ..

end Sys2Proof.Machine
end

section
/-! A site switches, and a path is enabled (R66, R73, R74, R76). -/

namespace Sys2Proof.Machine

open Config

/-! ### SITE_SWITCH (R73, R74) -/

/-- The sources at a site's unit, whose paths of the left slot end with the site's switch (R74). -/
def State.srcAt (s : State) (q : Nat) (c : ChangeSt) (u : Nat × Nat) (p : Src) : Bool :=
  match p with
  | .out e _ => e.q == q && (e.row, e.col) == u
  | .trap e t => s.trapHome c.old e t == u && e.q == q
  | .gw _ _ => false

/-- A quadrant's change and paths when a unit has switched, the unit's own state aside. -/
def Quad.pathsOver (x : Quad) (mine : Src → Bool) (c : ChangeSt) (now : Nat) : Quad :=
  { x with credits := x.credits.filter (fun e => !mine e.1.1), credRet := x.credRet.filter (fun r => !mine r.src)
           paths := x.paths.filter (fun p => !mine p), chg := some c, progress := now }

/-- A unit's old state is cleared (R74). -/
def Quad.unitSwitched (x : Quad) (u : Nat × Nat) (running : Bool) : Quad :=
  if isCu u.1 u.2 then x.setCu u.1 u.2 (x.cu u.1 u.2).switched else x.setMu u.1 u.2 ((x.mu u.1 u.2).switched running)

theorem Quad.unitSwitched_offUnits (x : Quad) (u : Nat × Nat) (running : Bool) : (x.unitSwitched u running).offUnits = x.offUnits := by
  unfold Quad.unitSwitched
  split <;> rfl

/-- The run of a quadrant is of a slot. -/
def Quad.runs (x : Quad) (slot : Nat) : Bool := match x.run with | some r => decide (r.slot = slot) | none => false

theorem siteSwitch_switches (s : State) (k : Site) (c : ChangeSt) : let x := s.quad k.q
    let u := x.logic k.row k.col
    s.quadRuns k.q = true → k.q < s.quads.length → x.chg = some c → c.gw = true → x.changeSites.contains (k.row, k.col) = true →
    x.switched k.row k.col = false → s.upstreamDone k.q c k.row k.col = true → x.siteDrained k.q c k.row k.col s.pw.cycle = true →
    c.done.length + 1 < x.changeSites.length →
    completes (.siteSwitch k) s (fun t =>
      (∀ r l, x.phys r l = (k.row, k.col) → (t.quad k.q).slotAt r l = c.target) ∧
      (t.quad k.q).chg = some { c with done := c.done ++ [((k.row, k.col), s.pw.cycle)] } ∧
      (isCu u.1 u.2 = true → (t.quad k.q).cu u.1 u.2 =
        { Cu.fresh with inq := (x.cu u.1 u.2).inq, outq := (x.cu u.1 u.2).outq }) ∧
      (isCu u.1 u.2 = false → ((t.quad k.q).mu u.1 u.2).inq = (x.mu u.1 u.2).inq ∧
        ((t.quad k.q).mu u.1 u.2).outq = (x.mu u.1 u.2).outq) ∧
      (∀ n, Src.out { q := k.q, row := u.1, col := u.2 } n ∉ (t.quad k.q).paths) ∧ onlyParts [.quads] s t) := by
  intro x u hruns hq hchg hgw hsites hnot hup hdrained hmore
  let c' : ChangeSt := { c with done := c.done ++ [((k.row, k.col), s.pw.cycle)] }
  let y := x.noteMet.pathsOver (s.srcAt k.q c u) c' s.now
  have hexec : exec (.siteSwitch k) s = .next (s.updQuad k.q (fun x =>
      (x.noteMet.pathsOver (s.srcAt k.q c u) c' s.now).unitSwitched u ((s.quad k.q).runs c.target))) := by
    change execSiteSwitch k s = _
    unfold execSiteSwitch
    dsimp only
    rw [show (s.quad k.q).chg = some c from hchg]
    dsimp only
    rw [if_pos (by rw [hruns, hgw, show (s.quad k.q).changeSites.contains (k.row, k.col) = true from hsites,
        show (s.quad k.q).switched k.row k.col = false from hnot, hup,
        show (s.quad k.q).siteDrained k.q c k.row k.col s.pw.cycle = true from hdrained]; rfl),
      if_neg (by rw [List.length_append, List.length_singleton]; exact Nat.ne_of_lt hmore)]
    rfl
  have ht := State.updQuad_quad_self s k.q (fun x => (x.noteMet.pathsOver (s.srcAt k.q c u) c' s.now).unitSwitched u ((s.quad k.q).runs c.target)) hq
  have hrest : x.noteMet.offMet.2.2 = x.offMet.2.2 := congrArg (fun z => z.2.2) x.noteMet_offMet
  have hsitesEq := congrArg (fun z : Quad => z.sites) hrest
  have hcus := congrArg (fun z : Quad => z.cus) hrest
  have hmus := congrArg (fun z : Quad => z.mus) hrest
  have hycu : y.cu u.1 u.2 = x.cu u.1 u.2 := congrArg (fun l => (look l (u.1, u.2)).getD Cu.fresh) hcus
  have hymu : y.mu u.1 u.2 = x.mu u.1 u.2 := Quad.mu_of_mus hmus u.1 u.2
  have hz := y.unitSwitched_offUnits u (x.runs c.target)
  have hzchg := congrArg (fun z : Quad => z.chg) hz
  have hzsites := congrArg (fun z : Quad => z.sites) hz
  have hzpaths := congrArg (fun z : Quad => z.paths) hz
  have hphys (r l : Nat) : (y.unitSwitched u (x.runs c.target)).phys r l = x.phys r l := by
    have hs : (y.unitSwitched u (x.runs c.target)).sites = x.sites := Eq.trans hzsites hsitesEq
    unfold Quad.phys Quad.site
    rw [hs]
  refine ⟨_, hexec, ?_⟩
  dsimp only
  rw [ht]
  refine ⟨fun r l hrl => ?_, hzchg, fun hcu => ?_, fun hmu => ?_, fun n hn => ?_, State.updQuad_only ..⟩
  · have hslot : (y.unitSwitched u (x.runs c.target)).slotAt r l =
        if c'.done.any (fun e => e.1 == (y.unitSwitched u (x.runs c.target)).phys r l) then c'.target else c'.old := by
      unfold Quad.slotAt
      rw [show (y.unitSwitched u (x.runs c.target)).chg = some c' from hzchg]
    refine hslot.trans ?_
    rw [hphys, hrl]
    exact if_pos (List.any_eq_true.mpr ⟨_, List.mem_append_right _ (List.mem_singleton_self _), by simp⟩)
  · change (y.unitSwitched u (x.runs c.target)).cu u.1 u.2 = _
    rw [Quad.unitSwitched, if_pos hcu, Quad.setCu_cu, if_pos rfl, hycu]
    rfl
  · change ((y.unitSwitched u (x.runs c.target)).mu u.1 u.2).inq = _ ∧ ((y.unitSwitched u (x.runs c.target)).mu u.1 u.2).outq = _
    rw [Quad.unitSwitched, if_neg (Bool.eq_false_iff.mp hmu), Quad.setMu_mu, if_pos rfl, hymu]
    exact ⟨rfl, rfl⟩
  · have hkept : (y.unitSwitched u (x.runs c.target)).paths = x.noteMet.paths.filter (fun p => !s.srcAt k.q c u p) := hzpaths
    have hmem : Src.out { q := k.q, row := u.1, col := u.2 } n ∈ (y.unitSwitched u (x.runs c.target)).paths := hn
    rw [hkept] at hmem
    have hmine := (List.mem_filter.mp hmem).2
    simp [State.srcAt] at hmine

/-! ### PATH_ENABLE (R66, R76) -/

/-- An input queue's source starts with 64 credits for it. -/
theorem State.credits0_queue (s : State) (slot : Nat) (src : Src) (d : Dest) (h : d.dq < 64) : s.credits0 slot src d = 64 := by
  unfold State.credits0
  dsimp only
  rw [if_pos (by simp [show ¬ 64 ≤ d.dq by omega])]

/-- A source takes its starting credits for some destinations. -/
def State.takeCredits (s : State) (slot : Nat) (src : Src) (ds : List Dest) : State :=
  ds.foldl (fun s d => s.setCredit src d (s.credits0 slot src d)) s

theorem State.takeCredits_view {α : Type} {v : Quad → α} (hv : ∀ x c, v { x with credits := c } = v x) (s : State) (slot : Nat) (src : Src)
    (ds : List Dest) : (s.takeCredits slot src ds).view v = s.view v :=
  foldl_keeps (fun t : State => t.view v) (g := fun s d => s.setCredit src d (s.credits0 slot src d)) (fun t _ => t.updQuad_view _ fun x => hv x _) ds s

/-- Credits that are 64 stay so. -/
theorem State.takeCredits_keeps {s : State} (slot : Nat) {src : Src} (ds : List Dest) {e : Dest} (hq : srcQuad src < s.quads.length) (he : e.dq < 6)
    (h : s.credit src e = 64) : (s.takeCredits slot src ds).credit src e = 64 := by
  induction ds generalizing s with
  | nil => exact h
  | cons d ds ih =>
    refine ih (s := s.setCredit src d (s.credits0 slot src d)) (by rw [State.setCredit, State.updQuad_length]; exact hq) ?_
    rw [State.setCredit_credit _ _ _ _ _ hq]
    split
    · next hkey =>
      have hdq : e.dq = d.dq := congrArg (fun k : Nat × Nat × Nat × Nat => k.2.2.2) hkey
      exact State.credits0_queue s slot src d (by omega)
    · exact h

theorem State.takeCredits_queue (s : State) (slot : Nat) (src : Src) (ds : List Dest) (hq : srcQuad src < s.quads.length) :
    ∀ e ∈ ds, e.dq < 6 → (s.takeCredits slot src ds).credit src e = 64 := by
  induction ds generalizing s with
  | nil => simp
  | cons d ds ih =>
    have hlen : srcQuad src < (s.setCredit src d (s.credits0 slot src d)).quads.length := by
      rw [State.setCredit, State.updQuad_length]
      exact hq
    intro e he hdq
    rcases List.mem_cons.mp he with rfl | he
    · refine State.takeCredits_keeps (s := s.setCredit src e (s.credits0 slot src e)) slot ds hlen hdq ?_
      rw [State.setCredit_credit _ _ _ _ _ hq, if_pos rfl]
      exact State.credits0_queue s slot src e (by omega)
    · exact ih _ hlen e he hdq

/-- A source may inject. -/
def State.sourceOn (s : State) (src : Src) : State :=
  s.updQuad (srcQuad src) (fun x => { x with paths := if x.paths.contains src then x.paths else x.paths ++ [src] })

/-- The destinations of a path's slots, the regions of traps aside. -/
def State.pathDests (s : State) (slot : Nat) (src : Src) (cs : List Nat) : List Dest :=
  ((cs.flatMap (s.dests slot src)).filter (·.dq ≠ 6)).eraseDups

theorem State.enablePath_out (s : State) (slot : Nat) (k : Site) (n : Nat) (cs : List Nat) :
    s.enablePath slot (.out k n) cs = (s.sourceOn (.out k n)).takeCredits slot (.out k n) (s.pathDests slot (.out k n) cs) := rfl

theorem State.enablePath_gw (s : State) (slot q l : Nat) (cs : List Nat) : s.enablePath slot (.gw q l) cs =
    ((s.sourceOn (.gw q l)).updQuad q (fun x => { x with gwSlots := x.gwSlots ++ [(l, cs.headD 0)] })).takeCredits slot (.gw q l)
      (s.pathDests slot (.gw q l) cs) := rfl

section
variable {s : State} {src : Src}

theorem State.sourceOn_paths (hq : srcQuad src < s.quads.length) : src ∈ ((s.sourceOn src).quad (srcQuad src)).paths := by
  rw [State.sourceOn, State.updQuad_quad_self _ _ _ hq]
  dsimp only
  split
  · next h => exact List.contains_iff_mem.mp h
  · exact List.mem_append_right _ (List.mem_singleton_self _)

theorem State.mem_pathDests {slot c : Nat} {cs : List Nat} {d : Dest} (hc : c ∈ cs) (hd : d ∈ s.dests slot src c) (hdq : d.dq < 6) :
    d ∈ s.pathDests slot src cs := by
  rw [State.pathDests, List.mem_eraseDups, List.mem_filter, List.mem_flatMap]
  exact ⟨⟨c, hc, hd⟩, by simp; omega⟩

/-- An enabled path may inject, with 64 credits for each input queue it leads to. -/
theorem State.enablePath_on (slot : Nat) (cs : List Nat) (hq : srcQuad src < s.quads.length) : let t := s.enablePath slot src cs
    src ∈ (t.quad (srcQuad src)).paths ∧
      ((∀ k n, src ≠ .trap k n) → ∀ c ∈ cs, ∀ d ∈ s.dests slot src c, d.dq < 6 → t.credit src d = 64) ∧ onlyParts [.quads] s t := by
  have hon := State.sourceOn_paths hq
  have honly := State.enablePath_only s slot src cs
  cases src with
  | trap k n => exact ⟨hon, fun h => absurd rfl (h k n), honly⟩
  | out k n =>
    rw [State.enablePath_out] at honly ⊢
    refine ⟨?_, fun _ c hc d hd hdq => ?_, honly⟩
    · rw [State.view_quad (State.takeCredits_view (v := Quad.paths) (fun _ _ => rfl) ..)]
      exact hon
    · exact State.takeCredits_queue _ slot _ _ (by rw [State.sourceOn, State.updQuad_length]; exact hq) d (State.mem_pathDests hc hd hdq) hdq
  | gw q l =>
    rw [State.enablePath_gw] at honly ⊢
    refine ⟨?_, fun _ c hc d hd hdq => ?_, honly⟩
    · rw [State.view_quad (State.takeCredits_view (v := Quad.paths) (fun _ _ => rfl) ..)]
      have hkeep : (((s.sourceOn (.gw q l)).updQuad q (fun x => { x with gwSlots := x.gwSlots ++ [(l, cs.headD 0)] })).quad q).paths =
          ((s.sourceOn (.gw q l)).quad q).paths := State.view_quad (State.updQuad_view _ _ fun _ => by rfl) q
      exact hkeep ▸ hon
    · exact State.takeCredits_queue _ slot _ _ (by rw [State.updQuad_length, State.sourceOn, State.updQuad_length]; exact hq) d
        (State.mem_pathDests hc hd hdq) hdq

theorem State.enablePath_gwSlots (slot q l : Nat) (cs : List Nat) (hq : q < s.quads.length) :
    ((s.enablePath slot (.gw q l) cs).quad q).gwSlots = (s.quad q).gwSlots ++ [(l, cs.headD 0)] := by
  rw [State.enablePath_gw, State.view_quad (State.takeCredits_view (v := Quad.gwSlots) (fun _ _ => rfl) ..),
    State.updQuad_quad_self _ _ _ (by rw [State.sourceOn, State.updQuad_length]; exact hq)]
  have hkeep : ((s.sourceOn (.gw q l)).quad q).gwSlots = (s.quad q).gwSlots := State.view_quad (State.updQuad_view _ _ fun _ => by rfl) q
  dsimp only
  rw [hkeep]

end

theorem pathEnable_enables (s : State) (src : Src) : let slot := s.srcSlot src
    let x := s.quad (srcQuad src)
    let own := s.ownSlots slot src
    let on (cs : List Nat) (t : State) : Prop := src ∈ (t.quad (srcQuad src)).paths ∧
      ((∀ k n, src ≠ .trap k n) → ∀ c ∈ cs, ∀ d ∈ s.dests slot src c, d.dq < 6 → t.credit src d = 64) ∧ onlyParts [.quads] s t
    s.quadRuns (srcQuad src) = true → srcQuad src < s.quads.length → own ≠ [] →
    ((∀ q l, src ≠ .gw q l) → src ∉ x.paths → s.pathClear slot src own = true → completes (.pathEnable src) s (on own)) ∧
    (∀ q l p, let cs := s.pathSlots slot src p
      src = .gw q l → (own.map (s.pathName slot src)).eraseDups = [p] → (l, p) ∉ x.gwSlots → s.pathClear slot src cs = true →
      completes (.pathEnable src) s (fun t => on cs t ∧ (t.quad q).gwSlots = x.gwSlots ++ [(l, cs.headD 0)])) := by
  intro slot x own on hruns hq hown
  refine ⟨fun hgw hoff hclear => ?_, fun q l p => ?_⟩
  · have hgo : ¬ (x.paths.contains src || own.isEmpty || !s.pathClear slot src own) = true := by
      simp only [Bool.or_eq_true, List.contains_iff_mem, List.isEmpty_iff, Bool.not_eq_true', not_or]
      exact ⟨⟨hoff, hown⟩, by rw [hclear]; exact Bool.noConfusion⟩
    have hexec : exec (.pathEnable src) s = .next (s.enablePath slot src own) := by
      change execPathEnable src s = _
      unfold execPathEnable
      dsimp only
      rw [if_neg (by simp [hruns])]
      cases src with
      | gw q l => exact absurd rfl (hgw q l)
      | out k n => exact congrArg Host.Outcome.next (if_neg hgo)
      | trap k n => exact congrArg Host.Outcome.next (if_neg hgo)
    exact ⟨_, hexec, State.enablePath_on slot own hq⟩
  · intro cs hsrc hone hoff hclear
    subst hsrc
    have hgo : ¬ ((s.quad q).gwSlots.contains (l, p) || !s.pathClear slot (.gw q l) cs) = true := by
      simp only [Bool.or_eq_true, List.contains_iff_mem, Bool.not_eq_true', not_or]
      exact ⟨hoff, by rw [hclear]; exact Bool.noConfusion⟩
    have hexec : exec (.pathEnable (.gw q l)) s = .next (s.enablePath slot (.gw q l) cs) := by
      change execPathEnable (.gw q l) s = _
      unfold execPathEnable
      dsimp only
      rw [if_neg (by rw [hruns]; exact Bool.false_ne_true)]
      rw [show ((s.ownSlots (s.srcSlot (.gw q l)) (.gw q l)).map (s.pathName (s.srcSlot (.gw q l)) (.gw q l))).eraseDups = [p] from hone]
      exact congrArg Host.Outcome.next (if_neg hgo)
    exact ⟨_, hexec, State.enablePath_on slot cs hq, State.enablePath_gwSlots slot q l cs hq⟩

end Sys2Proof.Machine
end

section
/-! The scenes of the array (O53). -/

namespace Sys2Proof.Machine

open Config

/-- Settles O53, by what the entry written last to a queue of the array engine begins, and by the parts of a quadrant that a run, a change,
a cut, a site's switch and a path's enabling each leave. -/
theorem scenesLoadRunAndChange : Obligations.ScenesLoadRunAndChange := by
  unfold Obligations.ScenesLoadRunAndChange
  refine ⟨⟨ae_waits_behind, ?_, loadComplete_acts⟩, ⟨run_acts, runRetire_retires⟩, change_acts, cut_acts, siteSwitch_switches, pathEnable_enables⟩
  intro s q aq slot addr len x hruns hq hnext hslot
  obtain ⟨hwaits, hends, hfree⟩ := load_acts s q aq slot addr len hruns hq hnext hslot
  refine ⟨hwaits, hends, fun hno hgw hchg hcut => hfree hno ?_⟩
  rintro (h | ⟨c, hc, h⟩ | ⟨c, hc, h⟩)
  · exact hgw h
  · obtain ⟨htarget, hold⟩ := hchg c hc
    exact h.elim htarget hold
  · exact hcut c hc h

end Sys2Proof.Machine
end

section
/-! The step: the queue's front command, or an array cycle on an empty queue (O1). -/

namespace Sys2Proof.Machine

/-- A step with a command waiting runs it with the rest of the queue (log 1, the model's choice). -/
theorem step_of_pending_cons {s : State} {c : Instr} {cs : List Instr} (h : s.pending = c :: cs) :
    step s = exec c { s with pending := cs } := by
  unfold step
  rw [h]

/-- A step with no command waiting is one array cycle (log 2, the model's choice). -/
theorem step_of_pending_nil {s : State} (h : s.pending = []) : step s = .next s.tick := by
  unfold step
  rw [h]

/-- Settles O1, by the two shapes of the queue of waiting commands. -/
theorem stepRunsTheFrontCommand : Obligations.StepRunsTheFrontCommand :=
  ⟨fun _ _ _ => step_of_pending_cons, fun _ => step_of_pending_nil⟩

end Sys2Proof.Machine
end
